-- ==== Sys2Proof/Word.lean ====
section
/-! DEFINITION. The words of the machine: a byte, a 32-bit register, and the sparse table that holds
every numbered collection of the block (registers by window offset, mailboxes by number, and so on). -/

namespace Sys2Proof

/-- One byte. -/
abbrev Byte := BitVec 8

/-- One 32-bit register of the register window. -/
abbrev Word := BitVec 32

/-- A sparse table: entries by number, numbers rising; a number not listed holds the table's default. -/
abbrev Tab (α : Type) := List (Nat × α)

end Sys2Proof
end

