-- ==== Sys2Proof/Syntax.lean ====
section
/-! DEFINITION. The commands of the block: one constructor of `Instr` for each row of the opcode table, with the
operands that the row's rule gives it. The rows give no bits, so the operands are typed data; an operand that the
environment supplies (a reading, a fault, an arriving packet) says so. -/

namespace Sys2Proof

/-- Width of a store to the doorbell page or the register window (R421, R433). -/
inductive Width where
  | w8 | w16 | w32 | w64
  deriving DecidableEq, Repr

/-- A Dreska packet as it arrives (Table 12.4). The CRC-8 polynomial of the link word is not given, so whether LCRC
matches is an operand; ECRC is carried and checked. -/
structure Packet where
  seq : BitVec 12
  vc : BitVec 2
  linkRsv : BitVec 10
  lcrcOk : Bool
  type : BitVec 8
  flags : BitVec 8
  epoch : BitVec 16
  dst : BitVec 16
  src : BitVec 16
  length : BitVec 16
  inst : BitVec 16
  tag : BitVec 32
  addr : BitVec 48
  aux : BitVec 16
  payload : List Byte
  trailer : List Byte
  ecrc : BitVec 32
  deriving DecidableEq, Repr

/-- A reference to a slot: one of the frame program, by its place in the slot-descriptor array, or the rerun slot that
the stash manager gave a core (R282). -/
inductive SlotArg where
  | prog (n : BitVec 30)
  | rerun (core : BitVec 9)
  deriving DecidableEq, Repr

/-- The faults of the facet array and its sequencer (Table 5.8). -/
inductive FacetCause where
  | weightParity | laneParity | sequencer
  deriving DecidableEq, Repr

/-- How a slot attempt ends: without error, or with a transient error of classes 0x01 to 0x06 (Table 16.3); `fixed`
says that the error is tied to a fixed cell or row of the core (R173); `half` names the split-mode half (R170). -/
inductive SlotEnd where
  | ok
  | csUe (half : Option Bool)
  | nocUe (half : Option Bool)
  | facet (cause : FacetCause) (fixed : Bool) (half : Option Bool)
  | hbmPoison (half : Option Bool)
  | remoteFail (half : Option Bool)
  | hostAccess (half : Option Bool)
  deriving DecidableEq, Repr

/-- The end of a slot attempt: how it ends, the stacks that it touched (R55), and the number of its core store words whose
single-bit error was corrected (R336). -/
structure SlotOutcome where
  how : SlotEnd
  touched : BitVec 8
  corrected : BitVec 32
  deriving DecidableEq, Repr

/-- What the tests and training of a start stage found (chapter 14): the environment's part of STAGE_END. Stacks that
fail training, the failed full trainings of a port before a good one or the last, the hard repairs that fail by their place
in the record, fuse copies that disagree, cores that fail a digest or a test twice, and so on; `rngBad` says that a generator
instance failed its known answer (R288). -/
structure StageOut where
  fuseApertureOk : Bool
  fuseMapOk : Bool
  rowsBad : List (BitVec 10)
  calOk : Bool
  stackSavedBad : BitVec 8
  stackBad : BitVec 8
  portSavedBad : BitVec 24
  portFails : List (Fin 24 × BitVec 2)
  lanesBad : List (Fin 24 × BitVec 5)
  repairsBad : List (BitVec 16)
  digestBad : List (BitVec 10)
  testBad : List (BitVec 10)
  updBad : BitVec 8
  unitsBad : BitVec 4
  rngBad : Bool
  firstFailed : Bool
  deriving DecidableEq, Repr

/-- What was in training or in test when a stage watchdog expired (Table 14.6), and the copies of the persistent block that
the fault left damaged (R459): bit 0 the copy last written, bit 1 the other. -/
structure StageHang where
  stackSaved : BitVec 8
  stackFull : BitVec 8
  portSaved : BitVec 24
  portFull : BitVec 24
  core : Option (BitVec 10)
  badCopies : BitVec 2
  deriving DecidableEq, Repr

/-- A fault of the Shell (R504): what it met in a start, and the processor that failed; none is the Welfy watchdog. -/
structure ShellEvent where
  hang : StageHang
  scp : Option (BitVec 2)
  deriving DecidableEq, Repr

/-- Power at a connector: its voltage in 10 mV, and the copies of the persistent block that the start finds damaged, as in
`StageHang`. -/
structure PowerOn where
  volts : BitVec 16
  badCopies : BitVec 2
  deriving DecidableEq, Repr

/-- The bits of a store to MBX_DB that is no ACK: bits [7:6], 1 or a reserved 0 or 3, and the reserved bits (R421). -/
structure DoorbellStore where
  action : BitVec 2
  rsv : BitVec 24
  deriving DecidableEq, Repr

/-- A command in a mailbox, and what the device observes when it runs it. -/
structure Observed (α : Type) where
  box : BitVec 6
  seen : α
  deriving DecidableEq, Repr

/-- A buffered word that is written back, with the lanes in error on the first burst of its read and on the retry. -/
structure WordRead where
  word : BitVec 33
  first : List (BitVec 7)
  retry : List (BitVec 7)
  deriving DecidableEq, Repr

/-- Symbol errors of one code word of a read: the lanes in error on the first burst and on the retry (R348, R349). -/
structure ReadFault where
  word : BitVec 8
  first : List (BitVec 7)
  retry : List (BitVec 7)
  deriving DecidableEq, Repr

/-- What an I3C read names (R571). -/
inductive I3cSel where
  | identity (off : BitVec 11)
  | bootState | thmDie | hbmThermAll | pwrAvg
  deriving DecidableEq, Repr

/-- An SPDM request: the secured session that carries it, its version byte, its two parameters and the rest. -/
structure SpdmReq where
  session : Option (BitVec 32)
  version : BitVec 8
  param1 : BitVec 8
  param2 : BitVec 8
  body : List Byte
  deriving DecidableEq, Repr

/-- A report to the Loupe combiner (R242 to R246): its STAT_TAG or TENSOR_ID, whether it is a drain's statistics (TE_out,
the FP32 values in units of 2^TE_out, a tile status word) or counts alone, the seven counts (blocks, saturated,
underflow, fallback, quota misses, exhaustion, non-finite), and whether a recompute rerun sent it (R243). -/
structure ReportArg where
  id : BitVec 32
  drain : Bool
  te : BitVec 8
  values : List (BitVec 32)
  tile : BitVec 32
  counts : List (BitVec 32)
  rerun : Bool
  deriving DecidableEq, Repr

/-- The commands: one constructor for each row of the opcode table, in the table's order. -/
inductive Instr where
  /-- SUBMIT (R413): An MBX_DB store with action SUBMIT moves a mailbox to BUSY and captures its 64 command bytes. -/
  | submit (m : BitVec 6) (width : Width) (store : DoorbellStore)
  /-- ACK (R413): An MBX_DB store with action ACK moves a DONE mailbox to IDLE. -/
  | ack (m : BitVec 6) (width : Width) (rsv : BitVec 24)
  /-- DISPATCH_DB (R323): A dispatch doorbell store publishes a new COUNT for a HOST queue. -/
  | dispatchDb (width : Width) (value : BitVec 64)
  /-- COMMAND_AREA_STORE (R413): Software writes the command area of a mailbox page. -/
  | commandAreaStore (m : BitVec 6) (off : BitVec 6) (data : List Byte)
  /-- REGISTER_STORE (R433): A store to the register window is trapped as a pending REG_WRITE or discarded. -/
  | registerStore (off : BitVec 19) (width : Width) (value : BitVec 64)
  /-- TRAPPED_STORE_EXEC (R433): Welfy executes the oldest pending trapped store as REG_WRITE of its register. -/
  | trappedStoreExec
  /-- IDENTIFY (R409): Returns IDs, apertures, device state, identity and firmware version. -/
  | identify (m : BitVec 6)
  /-- MBX_ABORT (R437): Ends a not-yet-started command on a mailbox with ABORTED. -/
  | mbxAbort (m : BitVec 6)
  /-- OP_QUERY (R420): Returns the progress record of a long operation by handle. -/
  | opQuery (m : BitVec 6)
  /-- IRQ_CONFIG (R423): Changes the MSI-X vector used by a mailbox, RAS, progress or frame events. -/
  | irqConfig (m : BitVec 6)
  /-- DEVICE_RESET (R438): Writes its response and warm-starts the device when the state allows. -/
  | deviceReset (m : BitVec 6)
  /-- ECHO (R415): Returns its parameter bytes unchanged. -/
  | echo (m : BitVec 6)
  /-- MBX_COUNTERS (R415): Returns and optionally clears the MBX_ counters. -/
  | mbxCounters (m : BitVec 6)
  /-- REG_WRITE (R434): Writes masked fields of one register, all or nothing, by field class. -/
  | regWrite (m : BitVec 6)
  /-- HDM_CONFIG (R428): Sets the base and size of the HDM window. Observed is where the host has its HDM decoder
  committed, none while it is not. -/
  | hdmConfig (m : Observed (Option (BitVec 52)))
  /-- HOST_WINDOW_CONFIG (R430): Sets the host-memory window limit. -/
  | hostWindowConfig (m : BitVec 6)
  /-- FRAME_PROGRAM_LOAD (R50): Checks a frame program and writes it into the standby bank. -/
  | frameProgramLoad (m : BitVec 6)
  /-- LAYOUT_PLAN_LOAD (R77): Checks a layout plan and writes it into the standby bank. -/
  | layoutPlanLoad (m : BitVec 6)
  /-- MODE_ARM (R79): Arms a mode change as the ARM message does. -/
  | modeArm (m : BitVec 6)
  /-- MODE_ABORT (R79): Aborts an armed epoch as the ABORT message does. -/
  | modeAbort (m : BitVec 6)
  /-- MODE_ROLLBACK (R79): Requests a rollback as the ROLLBACK message does. -/
  | modeRollback (m : BitVec 6)
  /-- MODE_QUERY (R60): Returns epochs, mode state, armed descriptor and staged TA values. -/
  | modeQuery (m : BitVec 6)
  /-- TICK_SET (R40): Sets the device tick number from a given tick when epoch is 0 or TICK_LOST is set. -/
  | tickSet (m : BitVec 6)
  /-- TICK_ALIGN_CONFIG (R41): Stages the timing root station and alignment interval. -/
  | tickAlignConfig (m : BitVec 6)
  /-- FRAME_COUNTERS (R54): Returns and optionally clears the frame counters and first-fault record. -/
  | frameCounters (m : BitVec 6)
  /-- MEM_LAYOUT (R335): Starts a zero-fill of local HBM and a change of SPLIT_GIB in epoch 0. -/
  | memLayout (m : BitVec 6)
  /-- MEM_FLUSH (R358): Writes all lines held by the named write-combining buffers to DRAM. -/
  | memFlush (m : BitVec 6)
  /-- MEM_ADDR_DECODE (R333): Decodes a device address into stack, channel, word, granule, bank and row. -/
  | memAddrDecode (m : BitVec 6)
  /-- MEM_COUNTERS (R336): Returns and optionally clears the HBM_ and MEM_ counters. -/
  | memCounters (m : BitVec 6)
  /-- HBM_THERMAL_QUERY (R351): Returns stack temperatures, peaks and thermal states. -/
  | hbmThermalQuery (m : BitVec 6)
  /-- HBM_REPAIR (R357): Requests a live row or lane repair as a long operation. -/
  | hbmRepair (m : BitVec 6)
  /-- HBM_REPAIR_QUERY (R353): Returns a channel's lane map, marks and spare rows. -/
  | hbmRepairQuery (m : BitVec 6)
  /-- HBM_MARGIN (R356): Sweeps timing and voltage margins of one channel, leaving it zero. -/
  | hbmMargin (m : BitVec 6) (margins : List (BitVec 8 × BitVec 16))
  /-- STATION_QUERY (R374): Returns station number, live ports and device identity. -/
  | stationQuery (m : BitVec 6)
  /-- PEER_MAP_LOAD (R377): Loads the peer map, effective at the next tick. -/
  | peerMapLoad (m : BitVec 6)
  /-- PORT_QUERY (R361): Returns one port's state, lane map and corrected symbol counts. -/
  | portQuery (m : BitVec 6)
  /-- PORT_CONTROL (R399): Disables, enables, swaps a lane of, or changes the laser of one port. -/
  | portControl (m : BitVec 6)
  /-- DRESKA_KEY_SET (R380): Installs a key table entry by key handle, effective at the next tick. -/
  | dreskaKeySet (m : BitVec 6)
  /-- DRESKA_KEY_CLEAR (R400): Clears a key table entry at the next tick. -/
  | dreskaKeyClear (m : BitVec 6)
  /-- LINK_COUNTERS (R368): Returns and optionally clears the LNK_ counters. -/
  | linkCounters (m : BitVec 6)
  /-- COLL_COUNTERS (R388): Returns and optionally clears the COL_ counters. -/
  | collCounters (m : BitVec 6)
  /-- REMOTE_PROBE (R401): Measures round-trip time to a station on each plane. -/
  | remoteProbe (m : BitVec 6) (times : List (BitVec 16))
  /-- TENSOR_CONVERT (R146): Runs a quantize job on a named drain or the collective engine. -/
  | tensorConvert (m : BitVec 6)
  /-- QUANT_COUNTERS (R144): Returns and optionally clears the QNT_, PRS_ and SPL_ counters. -/
  | quantCounters (m : BitVec 6)
  /-- PRISM_SIGNS (R147): Returns 128 Prism sign bits for a stream and index. -/
  | prismSigns (m : BitVec 6)
  /-- FACET_MAP_QUERY (R174): Returns a physical core's logical number, state, depth and repairs. -/
  | facetMapQuery (m : BitVec 6)
  /-- FACET_COUNTERS (R166): Returns and optionally clears the FAC_ counters. -/
  | facetCounters (m : BitVec 6)
  /-- ACC_COUNTERS (R189): Returns and optionally clears the ACC_ counters. -/
  | accCounters (m : BitVec 6)
  /-- ACC_FIRST_NONFIN (R206): Returns and optionally clears the first nonzero tile status record. -/
  | accFirstNonfin (m : BitVec 6)
  /-- TRAIN_STEP_CONFIG (R208): Checks a step descriptor and attaches it to a loaded program. -/
  | trainStepConfig (m : BitVec 6)
  /-- STEP_SET (R240): Sets the step number t at the next tick. -/
  | stepSet (m : BitVec 6)
  /-- UPD_PROGRAM_LOAD (R241): Checks an update program image and loads it into a slot of all engines at the next tick. -/
  | updProgramLoad (m : BitVec 6)
  /-- UPD_COUNTERS (R233): Returns and optionally clears the UPD_ counters. -/
  | updCounters (m : BitVec 6)
  /-- COMMIT_QUERY (R235): Returns t, commit state, list length and update status. -/
  | commitQuery (m : BitVec 6)
  /-- LOUPE_LOAD (R268): Checks and loads a scale state block, in force at the next tick. -/
  | loupeLoad (m : BitVec 6)
  /-- LOUPE_SAVE (R269): Saves the scale state block as of the last tick. -/
  | loupeSave (m : BitVec 6)
  /-- LOUPE_ENTRY_QUERY (R269): Returns half of one tracked tensor entry. -/
  | loupeEntryQuery (m : BitVec 6)
  /-- LOUPE_STATS (R269): Returns the working statistics of one entry. -/
  | loupeStats (m : BitVec 6)
  /-- LOUPE_HISTORY (R266): Returns one trouble history record. -/
  | loupeHistory (m : BitVec 6)
  /-- LOUPE_COUNTERS (R242): Returns and optionally clears the LUP_ counters. -/
  | loupeCounters (m : BitVec 6)
  /-- STASH_CONFIG (R272): Checks and loads a stash descriptor and group table, in force at the next tick. -/
  | stashConfig (m : BitVec 6)
  /-- FARSTASH_WINDOW (R279): Opens, resizes or closes a far-stash window for an owner station. -/
  | farstashWindow (m : BitVec 6)
  /-- STASH_GROUP_QUERY (R295): Returns a stash group's state as of the last tick. -/
  | stashGroupQuery (m : BitVec 6)
  /-- STASH_COUNTERS (R283): Returns and optionally clears the STS_ counters. -/
  | stashCounters (m : BitVec 6)
  /-- SEED_SET (R287): Sets the seed, in force from the tick that begins the next step. -/
  | seedSet (m : BitVec 6)
  /-- RNG_EVAL (R295): Returns a generator output for a given seed, stream and position. -/
  | rngEval (m : BitVec 6)
  /-- DSP_QUEUE_TABLE (R327): Sets the queue table base and empties the descriptor cache. -/
  | dspQueueTable (m : BitVec 6)
  /-- DSP_QUEUE_CONFIG (R326): Writes a queue descriptor to cache and table. -/
  | dspQueueConfig (m : BitVec 6)
  /-- DSP_QUEUE_QUERY (R326): Returns a queue descriptor as cached or as in the table. -/
  | dspQueueQuery (m : BitVec 6)
  /-- DSP_COUNTERS (R319): Returns and optionally clears the DSP_ counters. -/
  | dspCounters (m : BitVec 6)
  /-- RAS_RECORDS (R543): Returns active and queued RAS records or the last-loss area. -/
  | rasRecords (m : BitVec 6)
  /-- POWER_FEED_SET (R514): Replaces the power-feed ID until the next start. -/
  | powerFeedSet (m : BitVec 6)
  /-- MIRROR_PAIR (R515): Opens a Mirror window, writes the pairing record and pairs with a partner. -/
  | mirrorPair (m : BitVec 6)
  /-- MIRROR_FILL (R522): Restores state from the partner's Mirror half or pushes a complete image to it. -/
  | mirrorFill (m : BitVec 6)
  /-- CORE_MAP_IN (R542): Requests a live spare-core map-in for a logical core. -/
  | coreMapIn (m : BitVec 6)
  /-- FLERRA_READ (R543): Returns Flerra log entries. -/
  | flerraRead (m : BitVec 6)
  /-- CHECKPOINT_EXPORT (R533): Exports a live or held image to a destination. -/
  | checkpointExport (m : BitVec 6)
  /-- CHECKPOINT_IMPORT (R534): Restores the device from a checkpoint image. -/
  | checkpointImport (m : BitVec 6)
  /-- LOG_REPLAY (R529): Replays logged steps to t_end, comparing each commit with the log. -/
  | logReplay (m : BitVec 6)
  /-- RAS_COUNTERS (R539): Returns and optionally clears RAS and availability counters. -/
  | rasCounters (m : BitVec 6)
  /-- ATTEST (R554): Writes a signed attestation report. -/
  | attest (m : BitVec 6)
  /-- CERT_CHAIN_READ (R552): Writes the certificate chain. -/
  | certChainRead (m : BitVec 6)
  /-- MEASUREMENTS_READ (R553): Returns measurement records sampled at one tick. -/
  | measurementsRead (m : BitVec 6)
  /-- OWNER_KEY_ENROL (R548): Enrols, replaces or removes the owner key. -/
  | ownerKeyEnrol (m : BitVec 6)
  /-- DEBUG_CHALLENGE (R557): Returns a fresh debug nonce, replacing any earlier challenge. -/
  | debugChallenge (m : BitVec 6)
  /-- DEBUG_UNLOCK (R557): Unlocks a debug level on a valid signed challenge. -/
  | debugUnlock (m : BitVec 6)
  /-- KEY_HANDLE_CREATE (R558): Stores an AES key under a new handle or destroys a handle. -/
  | keyHandleCreate (m : BitVec 6)
  /-- FW_UPDATE (R463): Verifies and writes a firmware image to a bank as a long operation. -/
  | fwUpdate (m : BitVec 6)
  /-- FW_ACTIVATE (R464): Sets the preferred firmware bank. -/
  | fwActivate (m : BitVec 6)
  /-- BOOT_JOURNAL_READ (R470): Returns boot journal entries or the persistent block. -/
  | bootJournalRead (m : BitVec 6)
  /-- APERTURE_SELECT (R466): Selects a lower or equal aperture and relocks the arithmetic clock. Observed is
  whether the clock that it leaves has advanced within the last 16 rc (R480). -/
  | apertureSelect (m : Observed Bool)
  /-- FUSE_QUERY (R470): Returns fuse fields for the device or one core. -/
  | fuseQuery (m : BitVec 6)
  /-- SCP_BANK_SWAP (R465): Moves one SCP onto another bank's Welfy while the device serves. -/
  | scpBankSwap (m : BitVec 6)
  /-- TRAIN_SWEEP (R468): Trains one port, all ports or one stack in full as a long operation. -/
  | trainSweep (m : BitVec 6)
  /-- SELFTEST_RESULTS (R458): Returns the results of the last stage 8. -/
  | selftestResults (m : BitVec 6)
  /-- TELEMETRY_READ (R500): Returns counters, die sensors or rail readings. -/
  | telemetryRead (m : BitVec 6)
  /-- POWER_QUERY (R500): Returns power average, inputs, limit and energy. -/
  | powerQuery (m : BitVec 6)
  /-- DIE_THERMAL_QUERY (R500): Returns die thermal state and sensor readings. -/
  | dieThermalQuery (m : BitVec 6)
  /-- CLOCK_QUERY (R500): Returns a clock domain's state and last window count. -/
  | clockQuery (m : BitVec 6)
  /-- ENERGY_MODEL_READ (R498): Returns the energy model for an aperture. -/
  | energyModelRead (m : BitVec 6)
  /-- POWER_GUARD_CONFIG (R499): Stages the guard limit percentage and hysteresis. -/
  | powerGuardConfig (m : BitVec 6)
  /-- PROGRESS_UPDATE (R420): At least every 1 ms Welfy updates POSITION and PERCENT of a running operation. -/
  | progressUpdate (rec : BitVec 4) (position : BitVec 64)
  /-- LONG_OP_END (R420): A long operation ends, writes its final status and raises the progress vector. -/
  | longOpEnd (rec : BitVec 4) (status : BitVec 16)
  /-- FRAME_TICK (R40): A tick ends one frame and begins the next, applying staged changes and tick-time actions. -/
  | frameTick
  /-- STRETCH_RENEW (R75): With 8 stretched frames left and a stack still at throttle, a new STRETCH_REQ is sent. -/
  | stretchRenew
  /-- STRETCH_END (R74): After C stretched frames the frame length returns to L. -/
  | stretchEnd
  /-- MODE_SWITCH (R64): At the armed tick T every armed station switches to the new mode and epoch. -/
  | modeSwitch (intact : Bool)
  /-- RETENTION_END (R68): Four frames after a switch the retention window ends and loads are accepted again. -/
  | retentionEnd
  /-- ROLLBACK_APPLY (R69): At T' every station takes the previous mode under epoch E + 1. -/
  | rollbackApply
  /-- HOLD_EXPIRY (R71): A newer-epoch packet held for 2 frames is dropped and counted. -/
  | holdExpiry
  /-- MAP_IN (R511): At the first tick after the journal write the logical number resolves to the spare. -/
  | mapIn (logical : BitVec 9)
  /-- ALIGN_ROUND (R41): Every 2^k rc the device probes the root on all planes and corrects its offset. -/
  | alignRound (now : BitVec 64)
  /-- WORK_WINDOW_END (R489): At the work window end the power guard idles the device if the average exceeds the guard limit. -/
  | workWindowEnd
  /-- COMMIT_WINDOW (R235): At the start of the commit window the step commits or takes the response ladder. -/
  | commitWindow
  /-- SLOT_START (R48): A slot starts once its START, its unit's previous slot and its wait condition are met. -/
  | slotStart (slot : SlotArg) (rc : BitVec 18)
  /-- SLOT_END (R49): A slot ends after its writes are acknowledged, signalling its counter or failing. -/
  | slotEnd (slot : SlotArg) (rc : BitVec 18) (result : SlotOutcome)
  /-- ROW_MODE (R155): A row-mode array operation streams an operand west to east against stationary tiles. -/
  | rowMode (core : BitVec 9) (half : Option Bool) (desc : BitVec 64)
  /-- COLUMN_MODE (R156): A column-mode array operation streams an operand down the columns. -/
  | columnMode (core : BitVec 9) (half : Option Bool) (desc : BitVec 64)
  /-- BACKWARD_PAIR (R216): Runs dX and dW passes of one weight region alternately on one core. -/
  | backwardPair (core : BitVec 9) (half : Option Bool) (desc : BitVec 64)
  /-- GRADIENT_SUM (R220): Adds raw record inputs exactly and writes raw records or FP32. -/
  | gradientSum (core : BitVec 9) (half : Option Bool) (desc : BitVec 64)
  /-- QUANTIZE (R115): Converts wide values to one blocked layout. -/
  | quantize (unit : BitVec 16) (desc : BitVec 64)
  /-- QUANTIZE_DUAL (R128): Converts wide values to two blocked layouts in one pass. -/
  | quantizeDual (unit : BitVec 16) (desc : BitVec 64)
  /-- EXPAND (R130): Expands a blocked tensor to BF16 or FP32. -/
  | expand (unit : BitVec 16) (desc : BitVec 64)
  /-- MX_IMPORT (R111): Converts an OCP MX tensor to a blocked tensor. -/
  | mxImport (unit : BitVec 16) (desc : BitVec 64)
  /-- MX_EXPORT (R112): Converts a blocked tensor to an OCP MX tensor. -/
  | mxExport (unit : BitVec 16) (desc : BitVec 64)
  /-- ROUTER (R307): Selects experts and gates for each token and writes router records. -/
  | router (core : BitVec 9) (half : Option Bool) (desc : BitVec 64)
  /-- DROPOUT (R290): Drops elements of a wide tensor by random half-word against a threshold. -/
  | dropout (core : BitVec 9) (half : Option Bool) (src dst : BitVec 64) (stream : BitVec 32) (p16 : BitVec 16) (keep : BitVec 32)
  /-- DISPATCH (R314): Places token choices into expert queues in rank-major order. -/
  | dispatch (core : BitVec 9) (desc : BitVec 64)
  /-- RETURN (R317): Writes expert output rows back to each ring's source station. -/
  | returnRows (core : BitVec 9) (desc : BitVec 64)
  /-- COMBINE (R318): Sums gated return rows of each token exactly. -/
  | combine (core : BitVec 9) (desc : BitVec 64)
  /-- JOB_END (R316): At dispatch job end the ring headers and queue counts are written after acknowledgement. -/
  | jobEnd (desc : BitVec 64)
  /-- UPDATE_JOB (R222): An update engine runs one program over a region of tiles. -/
  | updateJob (stack : BitVec 3) (desc : BitVec 64)
  /-- END (R225): Ends the prologue or body. -/
  | endProg (stack : BitVec 3)
  /-- SLDP (R225): Loads a parameter word into a scalar. -/
  | sldp (stack : BitVec 3) (d : BitVec 4) (imm : BitVec 16)
  /-- SLDI (R225): Loads an immediate into a scalar. -/
  | sldi (stack : BitVec 3) (d : BitVec 4) (imm : BitVec 32)
  /-- SLDT (R225): Loads the schedule word for step t into a scalar. -/
  | sldt (stack : BitVec 3) (d : BitVec 4) (imm : BitVec 16)
  /-- SADD (R227): Scalar add. -/
  | sadd (stack : BitVec 3) (d a b : BitVec 4)
  /-- SSUB (R227): Scalar subtract. -/
  | ssub (stack : BitVec 3) (d a b : BitVec 4)
  /-- SMUL (R227): Scalar multiply. -/
  | smul (stack : BitVec 3) (d a b : BitVec 4)
  /-- SDIV (R227): Scalar divide. -/
  | sdiv (stack : BitVec 3) (d a b : BitVec 4)
  /-- SSQRT (R227): Scalar square root. -/
  | ssqrt (stack : BitVec 3) (d a : BitVec 4)
  /-- SPOWN (R227): Scalar power by t + imm. -/
  | spown (stack : BitVec 3) (d a : BitVec 4) (imm : BitVec 16)
  /-- LD (R229): Loads the next tile of an input stream as FP32. -/
  | ld (stack : BitVec 3) (d : BitVec 4) (stream : BitVec 4)
  /-- ST (R230): Stores a vector register as the tile of an output stream. -/
  | st (stack : BitVec 3) (a : BitVec 4) (stream : BitVec 4)
  /-- VADD (R227): Vector add. -/
  | vadd (stack : BitVec 3) (d a b : BitVec 4)
  /-- VSUB (R227): Vector subtract. -/
  | vsub (stack : BitVec 3) (d a b : BitVec 4)
  /-- VMUL (R227): Vector multiply. -/
  | vmul (stack : BitVec 3) (d a b : BitVec 4)
  /-- VDIV (R227): Vector divide. -/
  | vdiv (stack : BitVec 3) (d a b : BitVec 4)
  /-- VFMA (R227): Vector fused multiply-add. -/
  | vfma (stack : BitVec 3) (d a b c : BitVec 4)
  /-- VADDS (R227): Vector plus scalar. -/
  | vadds (stack : BitVec 3) (d a b : BitVec 4)
  /-- VMULS (R227): Vector times scalar. -/
  | vmuls (stack : BitVec 3) (d a b : BitVec 4)
  /-- VFMAS (R227): Vector times scalar plus vector. -/
  | vfmas (stack : BitVec 3) (d a b c : BitVec 4)
  /-- VSQRT (R227): Vector square root. -/
  | vsqrt (stack : BitVec 3) (d a : BitVec 4)
  /-- VMAX (R227): Vector maximum, NaN wins. -/
  | vmax (stack : BitVec 3) (d a b : BitVec 4)
  /-- VMIN (R227): Vector minimum, NaN wins. -/
  | vmin (stack : BitVec 3) (d a b : BitVec 4)
  /-- VABS (R227): Vector absolute value. -/
  | vabs (stack : BitVec 3) (d a : BitVec 4)
  /-- VNEG (R227): Vector negate. -/
  | vneg (stack : BitVec 3) (d a : BitVec 4)
  /-- VSIGN (R227): Vector sign. -/
  | vsign (stack : BitVec 3) (d a : BitVec 4)
  /-- VCLIPS (R227): Clamps a vector to plus or minus a scalar. -/
  | vclips (stack : BitVec 3) (d a b : BitVec 4)
  /-- VMOV (R227): Vector copy. -/
  | vmov (stack : BitVec 3) (d a : BitVec 4)
  /-- COPY (R337): DMA copy of rows from source to destination. -/
  | copy (engine : BitVec 9) (desc : BitVec 64)
  /-- FILL (R337): DMA fill of rows with an 8-byte pattern. -/
  | fill (engine : BitVec 9) (desc : BitVec 64)
  /-- FENCE (R338): Waits for earlier chain writes to be acknowledged and flushes their lines. -/
  | fence (engine : BitVec 9) (desc : BitVec 64)
  /-- REDUCE_SCATTER (R389): Sums or combines contributions exactly at each shard's owner. -/
  | reduceScatter (desc : BitVec 64)
  /-- ALL_GATHER (R393): Sends each rank's shard to every station. -/
  | allGather (desc : BitVec 64)
  /-- TRANSPOSE (R393): Sends shard intersections between source and destination layouts. -/
  | transpose (desc : BitVec 64)
  /-- REFOCUS (R394): Re-shards listed tensors between two layout plan phases. -/
  | refocus (desc : BitVec 64)
  /-- VERDICT (R395): Exchanges and combines Loupe records through rank 0. -/
  | verdict (desc : BitVec 64)
  /-- LOUPE_REPORT (R242): The combiner takes a statistics or count report for a tracked tensor. -/
  | loupeReport (report : ReportArg)
  /-- OFFLOAD_DONE (R276): When the target holds an acknowledged copy, the entry's plane addresses are rewritten. -/
  | offloadDone (group : BitVec 16)
  /-- HBM_READ (R344): A read reaches a stack's controller, decoded and corrected or forwarded from the buffer. -/
  | hbmRead (unit : BitVec 16) (addr : BitVec 39) (len : BitVec 16) (faults : List ReadFault)
  /-- HBM_WRITE (R343): A write reaches a stack's controller and is merged or written. -/
  | hbmWrite (unit : BitVec 16) (addr : BitVec 39) (data : List Byte)
  /-- WCB_WRITEBACK (R345): A line is written to DRAM at the second tick after its last write. -/
  | wcbWriteback (word : WordRead)
  /-- PATROL_SCRUB (R349): Scrub reads code words in unclaimed slots and writes back corrected ones. -/
  | patrolScrub (word : BitVec 33) (first retry : List (BitVec 7))
  /-- REPAIR_STEP (R353): At a tick a lane or row repair pauses one channel for at most 48 rc. -/
  | repairStep (pause : BitVec 6)
  /-- STACK_SAMPLE (R351): Each 1,024 rc a stack reports its highest sensor and may enter a thermal state. -/
  | stackSample (stack : Fin 8) (temp : BitVec 8)
  /-- STACK_STATE_EXIT (R351): After 2^16 rc below the exit threshold a stack steps down one state. -/
  | stackStateExit (stack : Fin 8)
  /-- STACK_SENSOR_FAIL (R352): Four missed samples hold the stack in THROTTLE and raise a deferred error. -/
  | stackSensorFail (stack : Fin 8)
  /-- DIE_SAMPLE (R493): Each 1,024 rc the die's highest sensor is taken and the die may enter a state. -/
  | dieSample (readings : List (Fin 64 × BitVec 8))
  /-- DIE_STATE_EXIT (R493): After 2^16 rc below the exit threshold the die steps down one state. -/
  | dieStateExit
  /-- DIE_SENSOR_FAIL (R496): A sensor missing four samples is marked failed and holds the die in HOT. -/
  | dieSensorFail (sensor : Fin 64)
  /-- ANALOGUE_TRIP (R495): A sensor past 110 C removes the core-die rails within 10 us. -/
  | analogueTrip (sensor : Fin 64)
  /-- POWER_SAMPLE (R488): Every 1 us input power is sampled and the rolling average updated. -/
  | powerSample (v0 i0 v1 i1 : BitVec 16)
  /-- OVER_BUDGET (R490): An average above the guard limit for 10 ms raises a deferred error. -/
  | overBudget
  /-- FEED_LOW (R485): One connector below 40 V, or its PRES pin breaking, raises a deferred error. -/
  | feedLow (connector : Bool) (volts : BitVec 16)
  /-- POWER_LOSS (R486): Both inputs low for 50 us or either above 60 V stops clocks and removes the rails. -/
  | powerLoss (v0 v1 : BitVec 16)
  /-- POWER_APPLIED (R575): The first connector powered while both were unpowered starts the device cold. -/
  | powerApplied (connector : Bool) (supply : PowerOn)
  /-- RAIL_FAULT (R487): A rail more than 5 % off for 10 us is a device-fatal error. -/
  | railFault (rail : Fin 36)
  /-- REFCLK_LOST (R473): Loss of the reference clock stops every domain and holds the device in reset. -/
  | refclkLost
  /-- REFCLK_PRESENT (R472): The detector declares the reference present and the device leaves reset. -/
  | refclkPresent
  /-- CLOCK_WINDOW (R475): Each 2^16 rc window a frame-timed domain's count is checked against its expected value. -/
  | clockWindow (domain : Fin 37) (count : BitVec 32)
  /-- HK_STABLE (R476): A housekeeping domain is declared stable 2^14 rc after its PLL is enabled. -/
  | hkStable (domain : Fin 2)
  /-- CLOCK_MUX_SWITCH (R479): A multiplexer completes its change of input after low phases of both clocks. -/
  | clockMuxSwitch (domain : Fin 37)
  /-- MUX_HANG (R481): A switch not complete 1,024 rc after its command resets the domain. -/
  | muxHang (domain : Fin 37)
  /-- STAGE_RESET_END (R442): Stage 0 ends when the reference and regulators are stable. -/
  | stageResetEnd
  /-- STAGE_END (R442): A start stage completes and the next stage begins. -/
  | stageEnd (out : StageOut) (ms : BitVec 32)
  /-- READY (R442): The start ends with DEV_STATE READY. -/
  | ready
  /-- STAGE_WATCHDOG (R444): An expired stage watchdog ends the start with a warm restart, cause 3. -/
  | stageWatchdog (hang : StageHang)
  /-- SHELL_FAULT (R504): A Welfy watchdog or uncorrectable Shell state is device-fatal. -/
  | shellFault (event : ShellEvent)
  /-- FLASH_RECOVERY_IMAGE (R573): In flash recovery an image received over I3C is verified and written to a bank. -/
  | flashRecoveryImage (bankB : Bool) (image : List Byte)
  /-- I3C_READ (R571): An I3C read returns one of the registers the target serves. -/
  | i3cRead (sel : I3cSel)
  /-- PERST (R407): PERST# resets configuration space, mailboxes, MSI-X and pending stores only. -/
  | perst
  /-- FUNCTION_LEVEL_RESET (R407): A function level reset resets host-side state only. -/
  | functionLevelReset
  /-- HOT_RESET (R407): A hot reset resets host-side state only. -/
  | hotReset
  /-- LINK_DOWN (R405): The CXL link leaves the active state; frames run on and a deferred error is raised. -/
  | linkDown
  /-- HDM_ACCESS (R427): A CXL.mem access inside the decoder range reaches local HBM. `decoder` as in HDM_CONFIG. -/
  | hdmAccess (decoder : Option (BitVec 52)) (hpa : BitVec 52) (write : Bool) (data : List Byte)
  /-- IDE_FAIL (R559): An IDE integrity failure takes the link out of the active state. -/
  | ideFail
  /-- RAS_RECORD (R503): The RAS engine places an arriving error record by severity. -/
  | rasRecord (cls : BitVec 8) (unit : BitVec 16) (detail : BitVec 64) (half : Bool)
  /-- DEVICE_FATAL_RESET (R504): A device-fatal record is written to the last-loss area and the device resets within 2 ms. -/
  | deviceFatalReset
  /-- MIRROR_COMPLETE (R518): When STATE 2 of an image is acknowledged RAS_OWN_T takes the new t. -/
  | mirrorComplete
  /-- HOST_LOG_CATCHUP (R528): When host copying becomes possible again missing log entries are copied in order. -/
  | hostLogCatchup
  /-- FEC_WINDOW (R361): Each 2^14 rc window each lane's corrected symbols decide whether it is failing. -/
  | fecWindow (port : Fin 24) (symbols : List (BitVec 32)) (uncorrectable : BitVec 18)
  /-- LANE_SWAP (R361): A failing lane is replaced by a spare lane at both ends of the hop. -/
  | laneSwap (port : Fin 24) (lane : BitVec 5)
  /-- LASER_FAIL (R362): A laser below its floor is replaced by the spare source. -/
  | laserFail (port : Fin 24) (spare : Bool)
  /-- LINK_CTL (R368): A received ACK or NAK frees or resends link retry buffer entries. -/
  | linkCtl (port : Fin 24) (p : Packet)
  /-- LINK_RETRY_TIMEOUT (R368): No acknowledgement within 2 us makes the sender resend. -/
  | linkRetryTimeout (port : Fin 24)
  /-- WRITE (R376): A target checks and serves a remote write. -/
  | write (port : Fin 24) (p : Packet)
  /-- READ_REQ (R376): A target checks and serves a remote read. -/
  | readReq (port : Fin 24) (p : Packet)
  /-- SIGNAL (R322): A destination increments an event counter at most once per source and queue per frame. -/
  | signal (port : Fin 24) (p : Packet)
  /-- READ_RESP (R379): A requester receives read data, failing the slot if poisoned. -/
  | readResp (port : Fin 24) (p : Packet)
  /-- WRITE_ACK (R339): A requester receives acknowledgement of a remote write. -/
  | writeAck (port : Fin 24) (p : Packet)
  /-- COMPLETION_ERR (R379): A requester receives an error completion and fails the slot. -/
  | completionErr (port : Fin 24) (p : Packet)
  /-- UNREACH (R373): A plane reports a destination unreachable and the packet is resent elsewhere. -/
  | unreach (port : Fin 24) (p : Packet)
  /-- UNREACHABLE_EXPIRY (R373): After 2^16 rc a destination's unreachable mark on a plane ends. -/
  | unreachableExpiry (station : BitVec 16) (plane : Fin 24)
  /-- E2E_TIMEOUT (R378): A transaction without completion is resent on the next plane or fails. -/
  | e2eTimeout (tag : BitVec 32)
  /-- COL_DATA (R388): A collective data packet is filtered and added or copied at its destination. -/
  | colData (port : Fin 24) (p : Packet)
  /-- COL_CREDIT (R387): A credit packet grants windows to a sending station. -/
  | colCredit (port : Fin 24) (p : Packet)
  /-- PEER_TIMEOUT (R397): A collective waiting PEER_TIMEOUT frames on a rank ends with COLL_PEER_LOST. -/
  | peerTimeout (rank : BitVec 16)
  /-- ENUM_PROBE (R374): The device answers an enumeration probe with its identity. -/
  | enumProbe (port : Fin 24) (h : Packet)
  /-- STATION_ASSIGN (R374): The fabric manager assigns the device its station number. -/
  | stationAssign (port : Fin 24) (h : Packet) (station manager : BitVec 16)
  /-- TICK_PROBE (R45): The timing root echoes a probe with timestamps and its tick number. -/
  | tickProbe (port : Fin 24) (h : Packet) (t1 t2 t3 : BitVec 64) (since : BitVec 32)
  /-- TICK_ECHO (R45): A prober receives the root's echo and derives one plane's offset. -/
  | tickEcho (port : Fin 24) (h : Packet) (t1 t2 t3 t4 tick : BitVec 64) (since : BitVec 32)
  /-- TICK_SET_MSG (R40): The timing root takes a tick number from a TICK_SET management message. -/
  | tickSetMsg (port : Fin 24) (h : Packet) (tick at_ : BitVec 64)
  /-- ARM (R65): A device checks and arms a mode change for epoch E at tick T. -/
  | arm (port : Fin 24) (h : Packet) (mode : BitVec 128) (epoch : BitVec 16) (tick : BitVec 64)
  /-- ABORT (R66): The device disarms an epoch or reports ABORT_LATE. -/
  | abort (port : Fin 24) (h : Packet) (epoch : BitVec 16)
  /-- ROLLBACK (R68): The device accepts or refuses a rollback to tick T'. -/
  | rollback (port : Fin 24) (h : Packet) (epoch : BitVec 16) (tick : BitVec 64)
  /-- CHALLENGE_EXPIRY (R557): A debug challenge becomes invalid 600 s after it was issued. -/
  | challengeExpiry
  /-- GET_VERSION (R555): SPDM request for supported versions. -/
  | getVersion (req : SpdmReq)
  /-- GET_CAPABILITIES (R555): SPDM request for capabilities. -/
  | getCapabilities (req : SpdmReq)
  /-- NEGOTIATE_ALGORITHMS (R555): SPDM algorithm negotiation. -/
  | negotiateAlgorithms (req : SpdmReq)
  /-- GET_DIGESTS (R555): SPDM request for certificate digests. -/
  | getDigests (req : SpdmReq)
  /-- GET_CERTIFICATE (R555): SPDM request for the slot 0 certificate chain. -/
  | getCertificate (req : SpdmReq)
  /-- CHALLENGE (R555): SPDM challenge signed with the identity key. -/
  | challenge (req : SpdmReq)
  /-- GET_MEASUREMENTS (R555): SPDM request for measurement blocks. -/
  | getMeasurements (req : SpdmReq)
  /-- KEY_EXCHANGE (R555): SPDM session key exchange. -/
  | keyExchange (req : SpdmReq)
  /-- FINISH (R555): SPDM session finish. -/
  | finish (req : SpdmReq)
  /-- END_SESSION (R555): SPDM session end. -/
  | endSession (req : SpdmReq)
  /-- HEARTBEAT (R555): SPDM session heartbeat. -/
  | heartbeat (req : SpdmReq)
  /-- KEY_UPDATE (R555): SPDM session key update. -/
  | keyUpdate (req : SpdmReq)
  /-- CHUNK_SEND (R555): SPDM chunked message send. -/
  | chunkSend (req : SpdmReq)
  /-- CHUNK_GET (R555): SPDM chunked message get. -/
  | chunkGet (req : SpdmReq)
  /-- VENDOR_DEFINED_REQUEST (R559): IDE_KM request setting CXL IDE keys in a secured session. -/
  | vendorDefinedRequest (req : SpdmReq)
  /-- LINK_ACTIVE (R405): The CXL link, retrained by the controller without firmware, returns to the active state and MBX_LINK reports its width and rate. -/
  | linkActive (width : BitVec 4) (rate : BitVec 8)
  /-- LASER_CHANGEOVER_END (R362): Within 100 us of a laser failure the spare source carries the port, which leaves SWAPPING and resends its retry buffer. -/
  | laserChangeoverEnd (port : Fin 24)
  /-- PORT_TRAINING_DONE (R363): A port that PORT_CONTROL enabled finishes retraining and goes UP and joins the spray set, or counts a failed training towards DOWN. -/
  | portTrainingDone (port : Fin 24) (ok : Bool)
  /-- SCP_IMAGE_VERIFIED (R465): During an SCP bank swap the processor finishes loading and verifying the new Welfy image, so that its role can return at the next tick. -/
  | scpImageVerified (scp : BitVec 2)
  /-- RECORD_HANDLING_END (R503): The RAS engine finishes handling its active record, and the record at the head of the queue, preempted ones included, becomes active. -/
  | recordHandlingEnd
  /-- MSIX_TABLE_STORE (R424): Software stores to the MSI-X table or its mask bits, and unmasking a vector with its pending bit set sends the message as PCI Express defines. -/
  | msixTableStore (vector : BitVec 6) (entry : BitVec 128)
  /-- MSIX_INTERVAL_END (R424): The 1 us spacing of a vector expires and one message covers the events that arrived during it. -/
  | msixIntervalEnd (vector : BitVec 6)
  deriving DecidableEq, Repr

end Sys2Proof
end

