-- ==== Sys2Proof/Config.lean ====
section
/-! DEFINITION. What one device or its environment fixes and the spec leaves open: free values and the secret or
external functions that the spec names without stating their results. Every constant here is opaque: no proof and no
evaluation can see a value of it. -/

namespace Sys2Proof.Config

/-- Free value number n: a value that the spec leaves open, a new one at each use (State.fresh; log entry 1). -/
opaque freeValue : Nat → BitVec 64

/-- Random bytes: the n-th draw of the security processor's generator (R557). -/
opaque randomBytes : Nat → List Byte

/-- Set of a write-combining buffer that a code word indexes (R343 gives 16-way sets, not the index function). -/
opaque wcbSet : Nat → Nat

/-- A value that a dispatch job takes from outside it: the slot attempt, the job and what is asked for (log entries 24, 25). A
replay of the slot takes the same values (R320). -/
opaque dispatchValue : List Nat → BitVec 64

/-- DSLBIS latency and bandwidth of the CDAT table, for which the spec gives no number (R402). -/
opaque dslbisLatency : Nat
opaque dslbisBandwidth : Nat

/-- Message code of the probes of REMOTE_PROBE (R401), which Table 12.6 does not list. -/
opaque remoteProbeCode : Nat

/-- Public keys held in the boot ROM: the Parydel firmware key and the Parydel debug key (R546, Table 17.5). -/
opaque firmwareKey : List Byte
opaque debugKey : List Byte

/-- SHA-256 of the boot ROM, a constant of the ROM mask (Table 17.2, index 1). -/
opaque romMeasurement : List Byte

/-- The 256-bit identity seed in the fuse bank that only the security processor reads (Table 14.4). -/
opaque identitySeed : List Byte

/-- The key of the owner record's HMAC, derived from the identity seed in a way the spec does not state. -/
opaque ownerMacKey : List Byte

/-- Whether a certificate chain checks for an identity public key: three X.509 certificates, each signed with
SLH-DSA-SHA2-128s, the last with that subject key (R552); the spec gives no profile of them. -/
opaque chainValid : List Byte → List Byte → Bool

/-- The images of the supplied update programs of slots 0, 1 and 3, whose words the spec does not list (Table 7.9); slot
2 is the AdamW listing: by the update-engine component of the firmware image and the slot. -/
opaque suppliedProgram : List Byte → Nat → List Byte

/-- Which of the FP32 numbers within 1 ulp of the exact value EXP returns for an input code (R308). -/
opaque expChoice : Nat → Nat

end Sys2Proof.Config
end

