-- ==== Sys2Proof/Machine/Bits.lean ====
section
/-! DEFINITION. Plain helpers: sparse tables, little-endian byte lists, bit fields, saturating counters, and
sign extension. Every multi-byte field of the spec is little-endian (R47, Table 3.5, Table 11.3). -/

namespace Sys2Proof.Machine

/-! ### Sparse tables -/

/-- Entry `k` of a table, or the default `d`. -/
def tget {α : Type} (d : α) : Tab α → Nat → α
  | [], _ => d
  | (j, v) :: t, k => if j = k then v else tget d t k

/-- The table with entry `k` set to `v`, numbers kept rising. -/
def tset {α : Type} : Tab α → Nat → α → Tab α
  | [], k, v => [(k, v)]
  | (j, w) :: t, k, v =>
    if k = j then (k, v) :: t
    else if k < j then (k, v) :: (j, w) :: t
    else (j, w) :: tset t k v

/-- Entry `k` changed by `f`. -/
def tmod {α : Type} (d : α) (t : Tab α) (k : Nat) (f : α → α) : Tab α :=
  tset t k (f (tget d t k))

/-! ### Byte lists -/

/-- Byte `i` of a byte list, 0 past its end. -/
def byteAt (bs : List Byte) (i : Nat) : Byte := bs.getD i 0

/-- The number a little-endian byte list spells. -/
def leNat : List Byte → Nat
  | [] => 0
  | b :: bs => b.toNat + 256 * leNat bs

/-- `n` little-endian bytes of a number. -/
def toLe : Nat → Nat → List Byte
  | 0, _ => []
  | n + 1, v => BitVec.ofNat 8 v :: toLe n (v / 256)

/-- The `n` bytes of `bs` from byte `i`, zeros past its end. -/
def slice (bs : List Byte) (i n : Nat) : List Byte :=
  let t := (bs.drop i).take n
  t ++ List.replicate (n - t.length) 0

def u8At (bs : List Byte) (i : Nat) : Nat := (byteAt bs i).toNat
def u16At (bs : List Byte) (i : Nat) : Nat := leNat (slice bs i 2)
def u32At (bs : List Byte) (i : Nat) : Nat := leNat (slice bs i 4)
def u64At (bs : List Byte) (i : Nat) : Nat := leNat (slice bs i 8)

/-- A two's complement number of `w` bits read from a Nat. -/
def sext (w v : Nat) : Int :=
  let x := v % 2 ^ w
  if x < 2 ^ (w - 1) then (x : Int) else (x : Int) - (2 ^ w : Nat)

/-- A signed number as `w` bits of two's complement. -/
def ofInt (w : Nat) (v : Int) : Nat := (v % (2 ^ w : Nat)).toNat

def s64At (bs : List Byte) (i : Nat) : Int := sext 64 (u64At bs i)

/-- Whether every byte of `bs` from `i` on, `n` of them, is zero. -/
def zeroBytes (bs : List Byte) (i n : Nat) : Bool := (slice bs i n).all (· == 0)

/-- Bits hi to lo of a number. -/
def bits (v lo hi : Nat) : Nat := (v / 2 ^ lo) % 2 ^ (hi + 1 - lo)

/-- Bit `i` of a number. -/
def bit (v i : Nat) : Bool := v.testBit i

/-- Bool as a bit. -/
def b2n (b : Bool) : Nat := if b then 1 else 0

/-- Ceiling of a quotient. -/
def cdiv (a b : Nat) : Nat := (a + b - 1) / b

/-- `v` rounded up to a multiple of `n`. -/
def roundUp (v n : Nat) : Nat := cdiv v n * n

/-! ### Registers as words -/

/-- A 32-bit counter that saturates. -/
def satAdd (w : Word) (n : Nat) : Word :=
  if w.toNat + n ≤ 0xFFFFFFFF then BitVec.ofNat 32 (w.toNat + n) else 0xFFFFFFFF

/-- A word with bit `i` set. -/
def wordSet (w : Word) (i : Nat) : Word := w ||| BitVec.ofNat 32 (2 ^ i)

/-- The mask of bits lo to hi. -/
def fieldMask (lo hi : Nat) : Word := BitVec.ofNat 32 (2 ^ (hi + 1) - 2 ^ lo)

/-- A bit of a 64-bit set. -/
def setBit64 (v : BitVec 64) (i : Nat) (b : Bool) : BitVec 64 :=
  if b then v ||| BitVec.ofNat 64 (2 ^ i) else v &&& ~~~ BitVec.ofNat 64 (2 ^ i)

/-! ### Lists -/

/-- The first `some` of a function over a list. -/
def firstSome {α β : Type} (f : α → Option β) : List α → Option β
  | [] => none
  | a :: as => match f a with
    | some b => some b
    | none => firstSome f as

/-- Two ranges, each a beginning and a length, share a number. -/
def overlaps (a b : Nat × Nat) : Bool := decide (a.1 < b.1 + b.2) && decide (b.1 < a.1 + a.2)

/-- Sum of a list of numbers. -/
def sumNat : List Nat → Nat
  | [] => 0
  | x :: xs => x + sumNat xs

/-- The list cut into pieces of `n`, `fuel` at most. -/
def chunks {α : Type} (n : Nat) : Nat → List α → List (List α)
  | 0, _ => []
  | fuel + 1, xs => if xs.isEmpty then [] else xs.take n :: chunks n fuel (xs.drop n)

/-! ### Memory as cells

A list of (address, byte) pairs with rising addresses and no zero byte listed: an unlisted address reads as zero. -/

/-- What an unlisted address reads as (R441 zero-fills local HBM; elsewhere DESIGN CHOICE, log entry 2). -/
def memDefault : Byte := 0

/-- The byte at an address. -/
def mread : List Host.Cell → Nat → Byte
  | [], _ => memDefault
  | (k, v) :: m, a => if k = a then v else mread m a

/-- The cells without address `a`. -/
def mdrop (m : List Host.Cell) (a : Nat) : List Host.Cell := m.filter (fun c => c.1 != a)

/-- The cells with a nonzero byte `b` put at address `a`. -/
def mput : List Host.Cell → Nat → Byte → List Host.Cell
  | [], a, b => [(a, b)]
  | (k, v) :: m, a, b =>
    if a = k then (a, b) :: m
    else if a < k then (a, b) :: (k, v) :: m
    else (k, v) :: mput m a b

/-- The cells with byte `b` at address `a`, in canonical form. -/
def mwrite (m : List Host.Cell) (a : Nat) (b : Byte) : List Host.Cell :=
  if b = memDefault then mdrop m a else mput m a b

/-- Successive bytes written from address `a`. -/
def mwrites (m : List Host.Cell) (a : Nat) : List Byte → List Host.Cell
  | [] => m
  | b :: bs => mwrites (mwrite m a b) (a + 1) bs

/-- `n` bytes read from address `a`. -/
def mreads (m : List Host.Cell) (a : Nat) : Nat → List Byte
  | 0 => []
  | n + 1 => mread m a :: mreads m (a + 1) n

/-- The cells with every address from `lo` up to but not including `hi` zero. -/
def mzero (m : List Host.Cell) (lo hi : Nat) : List Host.Cell :=
  m.filter (fun c => !(decide (lo ≤ c.1) && decide (c.1 < hi)))

/-- The canonical form: addresses rising, no byte equal to what an unlisted address reads as. -/
def Memory.wf : List Host.Cell → Bool
  | [] => true
  | [(_, v)] => v != memDefault
  | (k, v) :: (k', v') :: m => v != memDefault && decide (k < k') && Memory.wf ((k', v') :: m)

end Sys2Proof.Machine
end

