-- ==== Sys2Proof/Machine/Crypto.lean ====
section
/-! DEFINITION. The standard functions that the spec names and does not restate: SHA-256, HMAC-SHA-256,
HKDF-SHA-256, AES-256-GCM and CRC-32 (PRESUMED from their public standards, log entry 3), and the field GF(2^8) that
AES and the code words of R347 are made over. -/

namespace Sys2Proof.Machine

/-- A big-endian number. -/
def beNat (bs : List Byte) : Nat := bs.foldl (fun n b => n * 256 + b.toNat) 0

/-- `n` big-endian bytes of a number. -/
def toBe (n v : Nat) : List Byte := (toLe n v).reverse

/-! ### SHA-256

The round constants and the first chaining value are bits of roots of primes, and are computed as such. A round consumes
the front of a window of 16 schedule words and puts the next word at its back, so no schedule is stored. -/

/-- The primes whose roots give the constants: the first 64, all below 18 squared. -/
def shaPrimes : List Nat :=
  (List.range 312).filter (fun n => decide (2 ≤ n) && (List.range 18).all (fun d => decide (d ≤ 1) || decide (n ≤ d) || n % d != 0))

/-- The largest number whose `k`-th power is at most `v`, of those that agree with `r` above bit `n`. -/
def rootBelow (k v : Nat) : Nat → Nat → Nat
  | 0, r => r
  | n + 1, r => rootBelow k v n (if (r + 2 ^ n) ^ k ≤ v then r + 2 ^ n else r)

/-- The first 32 fraction bits of the `k`-th root of `p`, for a root below 8. -/
def rootFraction (k p : Nat) : Word := BitVec.ofNat 32 (rootBelow k (p * 2 ^ (32 * k)) 35 0)

/-- Three rotations of a word to the right, combined. -/
def rot3 (x : Word) (i j k : Nat) : Word := x.rotateRight i ^^^ x.rotateRight j ^^^ x.rotateRight k

/-- The schedule word that follows a window of 16. -/
def shaNext (w : List Word) : Word :=
  let near := w.getD 1 0
  let far := w.getD 14 0
  w.headD 0 + w.getD 9 0
    + (near.rotateRight 7 ^^^ near.rotateRight 18 ^^^ near >>> 3)
    + (far.rotateRight 17 ^^^ far.rotateRight 19 ^^^ far >>> 10)

/-- One round with the constant `k`: the window moves on by a word, the eight chaining words by a place. -/
def shaTurn (x : List Word × List Word) (k : Word) : List Word × List Word :=
  match x.2 with
  | [a, b, c, d, e, f, g, h] =>
    let t := h + k + x.1.headD 0 + rot3 e 6 11 25 + (g ^^^ (e &&& (f ^^^ g)))
    (x.1.drop 1 ++ [shaNext x.1], [t + rot3 a 2 13 22 + ((a &&& b) ||| (c &&& (a ||| b))), a, b, c, d + t, e, f, g])
  | _ => x

/-- A block of 64 bytes taken into the chaining words. -/
def shaAbsorb (v : List Word) (block : List Byte) : List Word :=
  let w := (chunks 4 16 block).map (fun c => BitVec.ofNat 32 (beNat c))
  v.zipWith (· + ·) ((shaPrimes.map (rootFraction 3)).foldl shaTurn (w, v)).2

/-- SHA-256 of a byte list, 32 bytes: the message, a one bit, zeros up to 8 bytes short of a block, and its length. -/
def sha256 (msg : List Byte) : List Byte :=
  let n := msg.length
  let padded := msg ++ 0x80 :: List.replicate ((119 - n % 64) % 64) 0 ++ toBe 8 (8 * n)
  let v := (chunks 64 (padded.length / 64) padded).foldl shaAbsorb ((shaPrimes.take 8).map (rootFraction 2))
  v.flatMap (fun w => toBe 4 w.toNat)

/-- HMAC-SHA-256. -/
def hmacSha256 (key msg : List Byte) : List Byte :=
  let k := if key.length > 64 then sha256 key else key
  let kp := k ++ List.replicate (64 - k.length) 0
  sha256 (kp.map (· ^^^ 0x5c) ++ sha256 (kp.map (· ^^^ 0x36) ++ msg))

/-- The expand blocks of HKDF. -/
def hkdfBlocks (prk info : List Byte) : Nat → Nat → List Byte → List Byte
  | 0, _, _ => []
  | n + 1, i, prev =>
    let t := hmacSha256 prk (prev ++ info ++ [BitVec.ofNat 8 i])
    t ++ hkdfBlocks prk info n (i + 1) t

/-- HKDF-SHA-256 with `n` output bytes. -/
def hkdfSha256 (ikm salt info : List Byte) (n : Nat) : List Byte :=
  (hkdfBlocks (hmacSha256 salt ikm) info (cdiv n 32) 1 []).take n

/-! ### CRC-32 -/

/-- One bit of the reflected CRC-32 (polynomial 0xEDB8_8320). -/
def crcBit (c : Word) : Word := if c.getLsbD 0 then (c >>> 1) ^^^ 0xEDB88320 else c >>> 1

def crcByte (c : Word) (b : Byte) : Word :=
  let x := c ^^^ b.setWidth 32
  crcBit (crcBit (crcBit (crcBit (crcBit (crcBit (crcBit (crcBit x)))))))

/-- CRC-32 of IEEE 802.3. -/
def crc32 (bs : List Byte) : Word := ~~~ (bs.foldl crcByte 0xFFFFFFFF)

/-! ### GF(2^8) -/

/-- A field element times x, where `poly` holds the low eight coefficients of the field polynomial. -/
def gfDouble (poly a : Byte) : Byte := if a.getLsbD 7 then (a <<< 1) ^^^ poly else a <<< 1

/-- The product of two field elements, by the bits of the second from the highest on. -/
def gfMul (poly a b : Byte) : Byte :=
  [7, 6, 5, 4, 3, 2, 1, 0].foldl (fun (z : Byte) i => if b.getLsbD i then gfDouble poly z ^^^ a else gfDouble poly z) 0

/-- The `n`-th power of a field element. -/
def gfPow (poly a : Byte) : Nat → Byte
  | 0 => 1
  | n + 1 => gfMul poly a (gfPow poly a n)

/-! ### AES-256 and GCM (R380) -/

/-- The field polynomial of AES. -/
def aesPoly : Byte := 0x1B

/-- The inverse in the field, 0 for 0: the product of the powers of exponents 2, 4 and so on to 128. -/
def aesInverse (a : Byte) : Byte :=
  ((List.range 7).foldl (fun (x : Byte × Byte) _ =>
    let q := gfMul aesPoly x.1 x.1
    (q, gfMul aesPoly x.2 q)) (a, 1)).2

/-- The substitution of a byte. -/
def aesSub (a : Byte) : Byte :=
  let b := aesInverse a
  b ^^^ b.rotateLeft 1 ^^^ b.rotateLeft 2 ^^^ b.rotateLeft 3 ^^^ b.rotateLeft 4 ^^^ 0x63

/-- Bytes combined place by place. -/
def xorBytes (a b : List Byte) : List Byte := a.zipWith (· ^^^ ·) b

/-- The next eight key words of AES-256 from the last eight, with the round constant `c`. -/
def aesNextKey (k : List Byte) (c : Byte) : List Byte :=
  let word := fun i => slice k (4 * i) 4
  let last := word 7
  let first := xorBytes (xorBytes (word 0) ((last.drop 1 ++ last.take 1).map aesSub)) [c, 0, 0, 0]
  let low := [1, 2, 3].foldl (fun (a : List Byte) i => a ++ xorBytes (a.drop (a.length - 4)) (word i)) first
  let mid := xorBytes (word 4) ((low.drop 12).map aesSub)
  [5, 6, 7].foldl (fun (a : List Byte) i => a ++ xorBytes (a.drop (a.length - 4)) (word i)) (low ++ mid)

/-- The 15 round keys of a 32-byte key. -/
def aesKeys (key : List Byte) : List (List Byte) :=
  let r := (List.range 7).foldl (fun (x : List Byte × List Byte × Byte) _ =>
    let k := aesNextKey x.2.1 x.2.2
    (x.1 ++ k, k, gfDouble aesPoly x.2.2)) (slice key 0 32, slice key 0 32, 1)
  chunks 16 15 r.1

/-- A column of four bytes mixed. -/
def aesMix (c : List Byte) : List Byte :=
  (List.range 4).map (fun i =>
    let at' := fun j => byteAt c ((i + j) % 4)
    gfDouble aesPoly (at' 0) ^^^ gfMul aesPoly (at' 1) 3 ^^^ at' 2 ^^^ at' 3)

/-- A block of 16 bytes encrypted under the round keys: byte i of a column comes from the column i places on. -/
def aesBlock (keys : List (List Byte)) (b : List Byte) : List Byte :=
  let shifted := fun (x : List Byte) => (List.range 16).map (fun i => aesSub (byteAt x ((i + 4 * (i % 4)) % 16)))
  let mid := ((keys.drop 1).take 13).foldl (fun (x : List Byte) k =>
    xorBytes ((chunks 4 4 (shifted x)).flatMap aesMix) k) (xorBytes b (keys.headD []))
  xorBytes (shifted mid) (keys.getLastD [])

/-- The product in the field of GCM, whose elements have their first coefficient in the highest bit. -/
def ghashMul (x y : BitVec 128) : BitVec 128 :=
  ((List.range 128).foldl (fun (a : BitVec 128 × BitVec 128) i =>
    (if x.getLsbD (127 - i) then a.1 ^^^ a.2 else a.1,
      if a.2.getLsbD 0 then (a.2 >>> 1) ^^^ (0xE1 <<< 120) else a.2 >>> 1)) (0, y)).1

/-- The bytes filled up with zeros to a whole block. -/
def padBlock (b : List Byte) : List Byte := slice b 0 (roundUp b.length 16)

/-- The hash of the additional data and the ciphertext with their lengths in bits. -/
def ghash (h : BitVec 128) (aad ct : List Byte) : BitVec 128 :=
  let b := padBlock aad ++ padBlock ct ++ toBe 8 (8 * aad.length) ++ toBe 8 (8 * ct.length)
  (chunks 16 (b.length / 16) b).foldl (fun (y : BitVec 128) c => ghashMul (y ^^^ BitVec.ofNat 128 (beNat c)) h) 0

/-- The counter block `n` of a 12-byte IV. -/
def gcmCounter (iv : List Byte) (n : Nat) : List Byte := slice iv 0 12 ++ toBe 4 n

/-- The text combined with the key stream from counter 2 on. -/
def gcmStream (keys : List (List Byte)) (iv text : List Byte) : List Byte :=
  xorBytes text ((List.range (cdiv text.length 16)).flatMap (fun i => aesBlock keys (gcmCounter iv (i + 2))))

/-- The 16-byte tag of a ciphertext. -/
def gcmTag (keys : List (List Byte)) (iv aad ct : List Byte) : List Byte :=
  let h := BitVec.ofNat 128 (beNat (aesBlock keys (List.replicate 16 0)))
  xorBytes (toBe 16 (ghash h aad ct).toNat) (aesBlock keys (gcmCounter iv 1))

/-- Sealing: the ciphertext and its tag. -/
def gcmSeal (key iv aad text : List Byte) : List Byte × List Byte :=
  let keys := aesKeys key
  let ct := gcmStream keys iv text
  (ct, gcmTag keys iv aad ct)

/-- Opening: the text, where the tag is the ciphertext's. -/
def gcmOpen (key iv aad ct tag : List Byte) : Option (List Byte) :=
  let keys := aesKeys key
  if tag = gcmTag keys iv aad ct then some (gcmStream keys iv ct) else none

end Sys2Proof.Machine
end

