-- ==== Sys2Proof/Machine/Reg.lean ====
section
/-! DEFINITION. The register window (R431, Table 13.11): the offset of every register of the spec's register
summaries, counted from BAR0 0x8_0000, the reset value where the spec gives a nonzero number, and the fields
that software may write with their class (Table 0.6) and documented range (R434). -/

namespace Sys2Proof.Machine

namespace Reg
/-- MBX_STATUS (W1C): Sticky status (13_host_link_and_mailboxes.md). -/
abbrev MBX_STATUS : Nat := 0x0
/-- MBX_DONE_LO (RO): Bit m: mailbox m, 0 to 31, is DONE (13_host_link_and_mailboxes.md). -/
abbrev MBX_DONE_LO : Nat := 0x4
/-- MBX_DONE_HI (RO): Bit m − 32: mailbox m, 32 to 63, is DONE (13_host_link_and_mailboxes.md). -/
abbrev MBX_DONE_HI : Nat := 0x8
/-- MBX_WTRAP_OFS (RO): First refused trapped store (13_host_link_and_mailboxes.md). -/
abbrev MBX_WTRAP_OFS : Nat := 0xc
/-- MBX_WTRAP_STS (RO): [15:0] its status (13_host_link_and_mailboxes.md). -/
abbrev MBX_WTRAP_STS : Nat := 0x10
/-- MBX_HDM_BASE_LO (RO): HDM window base, local offset (13_host_link_and_mailboxes.md). -/
abbrev MBX_HDM_BASE_LO : Nat := 0x14
/-- MBX_HDM_BASE_HI (RO): HDM window base, local offset (13_host_link_and_mailboxes.md). -/
abbrev MBX_HDM_BASE_HI : Nat := 0x18
/-- MBX_HDM_SIZE (RO): [8:0] size in 256 MiB units, 0 to 256 (13_host_link_and_mailboxes.md). -/
abbrev MBX_HDM_SIZE : Nat := 0x1c
/-- MBX_HOST_LIMIT_LO (RO): Host-memory window limit (13_host_link_and_mailboxes.md). -/
abbrev MBX_HOST_LIMIT_LO : Nat := 0x20
/-- MBX_HOST_LIMIT_HI (RO): Host-memory window limit (13_host_link_and_mailboxes.md). -/
abbrev MBX_HOST_LIMIT_HI : Nat := 0x24
/-- MBX_LINK (RO): Link state (13_host_link_and_mailboxes.md). -/
abbrev MBX_LINK : Nat := 0x28
/-- MBX_CNT_CMDS (RO): Commands completed (13_host_link_and_mailboxes.md). -/
abbrev MBX_CNT_CMDS : Nat := 0x40
/-- MBX_CNT_REFUSED (RO): Commands refused (13_host_link_and_mailboxes.md). -/
abbrev MBX_CNT_REFUSED : Nat := 0x44
/-- MBX_CNT_TRAPPED (RO): Stores executed under R433 (13_host_link_and_mailboxes.md). -/
abbrev MBX_CNT_TRAPPED : Nat := 0x48
/-- MBX_CNT_STORE_DROP (RO): Stores discarded under R433 (13_host_link_and_mailboxes.md). -/
abbrev MBX_CNT_STORE_DROP : Nat := 0x4c
/-- MBX_CNT_DB_BAD (RO): R421 (13_host_link_and_mailboxes.md). -/
abbrev MBX_CNT_DB_BAD : Nat := 0x50
/-- MBX_CNT_FLR (RO): R407 (13_host_link_and_mailboxes.md). -/
abbrev MBX_CNT_FLR : Nat := 0x54
/-- FRM_CFG (RO): Frame configuration in force (02_frame_tick.md). -/
abbrev FRM_CFG : Nat := 0x1000
/-- FRM_PHASE (RO): [17:0] rc since the last tick, up to 262,143 in a stretched frame at n = 17; [31:18] reserved (02_frame_tick.md). -/
abbrev FRM_PHASE : Nat := 0x1004
/-- FRM_TICK_LO (RO): Tick number (02_frame_tick.md). -/
abbrev FRM_TICK_LO : Nat := 0x1008
/-- FRM_TICK_HI (RO): Tick number (02_frame_tick.md). -/
abbrev FRM_TICK_HI : Nat := 0x100c
/-- FRM_EPOCH (RO): Epochs (02_frame_tick.md). -/
abbrev FRM_EPOCH : Nat := 0x1010
/-- FRM_MODE_STATE (RO): Protocol state (02_frame_tick.md). -/
abbrev FRM_MODE_STATE : Nat := 0x1014
/-- FRM_ARM_TICK_LO (RO): T of the armed or last switch (02_frame_tick.md). -/
abbrev FRM_ARM_TICK_LO : Nat := 0x1018
/-- FRM_ARM_TICK_HI (RO): T of the armed or last switch (02_frame_tick.md). -/
abbrev FRM_ARM_TICK_HI : Nat := 0x101c
/-- FRM_PROG_ID (RO): Current PROGRAM_ID (02_frame_tick.md). -/
abbrev FRM_PROG_ID : Nat := 0x1020
/-- FRM_PLAN_ID (RO): Current PLAN_ID (02_frame_tick.md). -/
abbrev FRM_PLAN_ID : Nat := 0x1024
/-- FRM_STATUS (W1C): Sticky status (02_frame_tick.md). -/
abbrev FRM_STATUS : Nat := 0x1028
/-- FRM_STRETCH (TA): Stretch request values and state (02_frame_tick.md). -/
abbrev FRM_STRETCH : Nat := 0x102c
/-- FRM_ALIGN_CFG (TA): Alignment configuration (02_frame_tick.md). -/
abbrev FRM_ALIGN_CFG : Nat := 0x1030
/-- FRM_ALIGN_OFS (RO): [15:0] signed offset from the root, 1/8 rc (02_frame_tick.md). -/
abbrev FRM_ALIGN_OFS : Nat := 0x1034
/-- FRM_RUNLOCK (W1C): LK refusals by block class (02_frame_tick.md). -/
abbrev FRM_RUNLOCK : Nat := 0x1038
/-- FRM_RUNLOCK_ADDR (RO): [23:0] offset of the first refused LK write (02_frame_tick.md). -/
abbrev FRM_RUNLOCK_ADDR : Nat := 0x103c
/-- FRM_GUARD_REPLAY (RO): Frames with guard-band use by frame replay (02_frame_tick.md). -/
abbrev FRM_GUARD_REPLAY : Nat := 0x1040
/-- FRM_GUARD_THERMAL (RO): By thermal reserve (02_frame_tick.md). -/
abbrev FRM_GUARD_THERMAL : Nat := 0x1044
/-- FRM_GUARD_LANE (RO): By lane swap or link retry (02_frame_tick.md). -/
abbrev FRM_GUARD_LANE : Nat := 0x1048
/-- FRM_GUARD_POWER (RO): By power guard idling (02_frame_tick.md). -/
abbrev FRM_GUARD_POWER : Nat := 0x104c
/-- FRM_GUARD_OTHER (RO): By no attributed cause (02_frame_tick.md). -/
abbrev FRM_GUARD_OTHER : Nat := 0x1050
/-- FRM_FAULT_CNT (RO): Frame faults (02_frame_tick.md). -/
abbrev FRM_FAULT_CNT : Nat := 0x1054
/-- FRM_FAULT_TICK_LO (RO): Tick of the first frame fault since clear (02_frame_tick.md). -/
abbrev FRM_FAULT_TICK_LO : Nat := 0x1058
/-- FRM_FAULT_TICK_HI (RO): Tick of the first frame fault since clear (02_frame_tick.md). -/
abbrev FRM_FAULT_TICK_HI : Nat := 0x105c
/-- FRM_FAULT_UNIT (RO): [15:0] UNIT encoding of that fault (02_frame_tick.md). -/
abbrev FRM_FAULT_UNIT : Nat := 0x1060
/-- FRM_EPOCH_DROP (RO): Packets dropped under R71 (02_frame_tick.md). -/
abbrev FRM_EPOCH_DROP : Nat := 0x1064
/-- FRM_ALIGN_MISS (RO): Alignment rounds with fewer than 3 answers (02_frame_tick.md). -/
abbrev FRM_ALIGN_MISS : Nat := 0x1068
/-- FAC_CORE_SEL (RW): Core shown by the per-core registers (05_facet_array.md). -/
abbrev FAC_CORE_SEL : Nat := 0x2000
/-- FAC_DEPTH (RO): Per-core: depth and spare rows in use (05_facet_array.md). -/
abbrev FAC_DEPTH : Nat := 0x2004
/-- FAC_DEPTH_MAX (RO): [7:0] largest FAC_DEPTH over all 544 cores (05_facet_array.md). -/
abbrev FAC_DEPTH_MAX : Nat := 0x2008
/-- FAC_CFG (LK): Gating and skipping (05_facet_array.md). -/
abbrev FAC_CFG : Nat := 0x200c
/-- FAC_STATUS (W1C): Sticky status, device-wide (05_facet_array.md). -/
abbrev FAC_STATUS : Nat := 0x2010
/-- FAC_REPAIR_F0 (RO): Per-core: failed physical rows of facet 0 (05_facet_array.md). -/
abbrev FAC_REPAIR_F0 : Nat := 0x2014
/-- FAC_REPAIR_F1 (RO): Facet 1 (05_facet_array.md). -/
abbrev FAC_REPAIR_F1 : Nat := 0x2018
/-- FAC_REPAIR_F2 (RO): Facet 2 (05_facet_array.md). -/
abbrev FAC_REPAIR_F2 : Nat := 0x201c
/-- FAC_REPAIR_F3 (RO): Facet 3 (05_facet_array.md). -/
abbrev FAC_REPAIR_F3 : Nat := 0x2020
/-- FAC_HALF_STS (RO): Per-core: cause of the last fault of each half (05_facet_array.md). -/
abbrev FAC_HALF_STS : Nat := 0x2024
/-- FAC_CNT_PASSES (RO): Passes run (05_facet_array.md). -/
abbrev FAC_CNT_PASSES : Nat := 0x2040
/-- FAC_CNT_SKIPPED (RO): Passes skipped (R166) (05_facet_array.md). -/
abbrev FAC_CNT_SKIPPED : Nat := 0x2044
/-- FAC_CNT_MIXED_AC (RO): ac added by fallback passes and fallback vectors (R163) (05_facet_array.md). -/
abbrev FAC_CNT_MIXED_AC : Nat := 0x2048
/-- FAC_CNT_CORR_AC (RO): ac added by correction overrun (R162) (05_facet_array.md). -/
abbrev FAC_CNT_CORR_AC : Nat := 0x204c
/-- FAC_CNT_PARITY (RO): Weight register and lane parity errors (05_facet_array.md). -/
abbrev FAC_CNT_PARITY : Nat := 0x2050
/-- FAC_CNT_REFUSED (RO): Operations refused (05_facet_array.md). -/
abbrev FAC_CNT_REFUSED : Nat := 0x2054
/-- ACC_CFG (LK): Reporting configuration (06_accumulation_and_results.md). -/
abbrev ACC_CFG : Nat := 0x3000
/-- ACC_STATUS (W1C): Sticky status (06_accumulation_and_results.md). -/
abbrev ACC_STATUS : Nat := 0x3004
/-- ACC_FIRST_TILE (RO): Tile status word of the first nonzero tile since clear (06_accumulation_and_results.md). -/
abbrev ACC_FIRST_TILE : Nat := 0x3008
/-- ACC_FIRST_LOC (RO): Core and half of that tile (06_accumulation_and_results.md). -/
abbrev ACC_FIRST_LOC : Nat := 0x300c
/-- ACC_FIRST_TICK_LO (RO): Tick of that tile (06_accumulation_and_results.md). -/
abbrev ACC_FIRST_TICK_LO : Nat := 0x3010
/-- ACC_FIRST_TICK_HI (RO): Tick of that tile (06_accumulation_and_results.md). -/
abbrev ACC_FIRST_TICK_HI : Nat := 0x3014
/-- ACC_CNT_TILES (RO): Output tiles drained (06_accumulation_and_results.md). -/
abbrev ACC_CNT_TILES : Nat := 0x3040
/-- ACC_CNT_NONFIN (RO): Tiles with NONFIN set (06_accumulation_and_results.md). -/
abbrev ACC_CNT_NONFIN : Nat := 0x3044
/-- ACC_CNT_OVF (RO): Elements with an OVF event (06_accumulation_and_results.md). -/
abbrev ACC_CNT_OVF : Nat := 0x3048
/-- ACC_CNT_INV (RO): Elements with an INV event (06_accumulation_and_results.md). -/
abbrev ACC_CNT_INV : Nat := 0x304c
/-- ACC_CNT_SAT_OUT (RO): Elements clamped under SATURATE (06_accumulation_and_results.md). -/
abbrev ACC_CNT_SAT_OUT : Nat := 0x3050
/-- ACC_CNT_SHIFT_MISMATCH (RO): R196 (06_accumulation_and_results.md). -/
abbrev ACC_CNT_SHIFT_MISMATCH : Nat := 0x3054
/-- ACC_CNT_CORR_RND (RO): Correction products rounded (R185) (06_accumulation_and_results.md). -/
abbrev ACC_CNT_CORR_RND : Nat := 0x3058
/-- ACC_CNT_DRAIN_AC (RO): ac of array stall waiting for the drain (R182) (06_accumulation_and_results.md). -/
abbrev ACC_CNT_DRAIN_AC : Nat := 0x305c
/-- QNT_CFG (LK): Quantizer defaults (04_quantizer_prism_splitter.md). -/
abbrev QNT_CFG : Nat := 0x4000
/-- QNT_STATUS (W1C): Sticky status (04_quantizer_prism_splitter.md). -/
abbrev QNT_STATUS : Nat := 0x4004
/-- QNT_CNT_BLOCKS (RO): Blocks written in blocked formats (R582) (04_quantizer_prism_splitter.md). -/
abbrev QNT_CNT_BLOCKS : Nat := 0x4008
/-- QNT_CNT_ZERO (RO): Case 3 blocks (04_quantizer_prism_splitter.md). -/
abbrev QNT_CNT_ZERO : Nat := 0x400c
/-- QNT_CNT_UNDERFLOW (RO): Blocks with a nonzero scaled value written as zero blocks (04_quantizer_prism_splitter.md). -/
abbrev QNT_CNT_UNDERFLOW : Nat := 0x4010
/-- QNT_CNT_SAT (RO): Saturated blocks, including BF16 outlier overflow (04_quantizer_prism_splitter.md). -/
abbrev QNT_CNT_SAT : Nat := 0x4014
/-- QNT_CNT_FIT_CLIP (RO): FIT clips; saturating elements excluded (R123) (04_quantizer_prism_splitter.md). -/
abbrev QNT_CNT_FIT_CLIP : Nat := 0x4018
/-- QNT_CNT_NONFIN (RO): Blocks written with scale 0xFF (04_quantizer_prism_splitter.md). -/
abbrev QNT_CNT_NONFIN : Nat := 0x401c
/-- QNT_CNT_PLANE_CONFLICT (RO): R145 (04_quantizer_prism_splitter.md). -/
abbrev QNT_CNT_PLANE_CONFLICT : Nat := 0x4020
/-- QNT_CNT_MX_REQUANT (RO): Requantized import blocks (R111) (04_quantizer_prism_splitter.md). -/
abbrev QNT_CNT_MX_REQUANT : Nat := 0x4024
/-- QNT_CNT_MX_CLAMP (RO): Export blocks whose E8M0 code was clamped (R112) (04_quantizer_prism_splitter.md). -/
abbrev QNT_CNT_MX_CLAMP : Nat := 0x4028
/-- PRS_MISMATCH_CNT (RO): Products refused with PRISM_MISMATCH (04_quantizer_prism_splitter.md). -/
abbrev PRS_MISMATCH_CNT : Nat := 0x4040
/-- PRS_MISMATCH_A (RO): Stationary TENSOR_ID of the first refusal since clear (04_quantizer_prism_splitter.md). -/
abbrev PRS_MISMATCH_A : Nat := 0x4044
/-- PRS_MISMATCH_B (RO): Streamed TENSOR_ID of that refusal (04_quantizer_prism_splitter.md). -/
abbrev PRS_MISMATCH_B : Nat := 0x4048
/-- SPL_OUT_BLOCKS (RO): Blocks given an outlier record (04_quantizer_prism_splitter.md). -/
abbrev SPL_OUT_BLOCKS : Nat := 0x4060
/-- SPL_FB_BLOCKS (RO): Fallback blocks written (04_quantizer_prism_splitter.md). -/
abbrev SPL_FB_BLOCKS : Nat := 0x4064
/-- SPL_QUOTA_MISS (RO): Blocks that needed an outlier record and found none (04_quantizer_prism_splitter.md). -/
abbrev SPL_QUOTA_MISS : Nat := 0x4068
/-- SPL_FB_EXHAUST (RO): Blocks quantized in MAX mode with no removal (04_quantizer_prism_splitter.md). -/
abbrev SPL_FB_EXHAUST : Nat := 0x406c
/-- UPD_CFG (LK): Commit configuration (07_training_passes_and_update.md). -/
abbrev UPD_CFG : Nat := 0x5000
/-- UPD_STATUS (W1C): Sticky status (07_training_passes_and_update.md). -/
abbrev UPD_STATUS : Nat := 0x5004
/-- UPD_STEP_LO (RO): Step number t (07_training_passes_and_update.md). -/
abbrev UPD_STEP_LO : Nat := 0x5008
/-- UPD_STEP_HI (RO): Step number t (07_training_passes_and_update.md). -/
abbrev UPD_STEP_HI : Nat := 0x500c
/-- UPD_COMMIT_STATE (RO): Step and commit state (07_training_passes_and_update.md). -/
abbrev UPD_COMMIT_STATE : Nat := 0x5010
/-- UPD_LIST_MAX (RO): Longest commit list this step (07_training_passes_and_update.md). -/
abbrev UPD_LIST_MAX : Nat := 0x5014
/-- UPD_PROG_MAP (RO): Loaded program slots (07_training_passes_and_update.md). -/
abbrev UPD_PROG_MAP : Nat := 0x5018
/-- UPD_CNT_TILES (RO): Tiles processed by update jobs (07_training_passes_and_update.md). -/
abbrev UPD_CNT_TILES : Nat := 0x5040
/-- UPD_CNT_NONFIN (RO): Non-finite values stored (07_training_passes_and_update.md). -/
abbrev UPD_CNT_NONFIN : Nat := 0x5044
/-- UPD_CNT_COMMITS (RO): Steps committed (07_training_passes_and_update.md). -/
abbrev UPD_CNT_COMMITS : Nat := 0x5048
/-- UPD_CNT_DISCARDS (RO): Steps discarded (07_training_passes_and_update.md). -/
abbrev UPD_CNT_DISCARDS : Nat := 0x504c
/-- UPD_CNT_LATE_VERDICT (RO): R236 (07_training_passes_and_update.md). -/
abbrev UPD_CNT_LATE_VERDICT : Nat := 0x5050
/-- UPD_CNT_BWD_WAIT (RO): rc held under R209 (07_training_passes_and_update.md). -/
abbrev UPD_CNT_BWD_WAIT : Nat := 0x5054
/-- UPD_CNT_REFUSED (RO): Jobs and descriptors refused (07_training_passes_and_update.md). -/
abbrev UPD_CNT_REFUSED : Nat := 0x5058
/-- LUP_CFG (LK): Loupe configuration (08_loupe_and_step_replay.md). -/
abbrev LUP_CFG : Nat := 0x6000
/-- LUP_STATUS (W1C): Sticky status (08_loupe_and_step_replay.md). -/
abbrev LUP_STATUS : Nat := 0x6004
/-- LUP_STATE (RO): State, attempt and rung (08_loupe_and_step_replay.md). -/
abbrev LUP_STATE : Nat := 0x6008
/-- LUP_SSB_ADDR_LO (RO): Scale state block address (08_loupe_and_step_replay.md). -/
abbrev LUP_SSB_ADDR_LO : Nat := 0x600c
/-- LUP_SSB_ADDR_HI (RO): Scale state block address (08_loupe_and_step_replay.md). -/
abbrev LUP_SSB_ADDR_HI : Nat := 0x6010
/-- LUP_VERDICT (RO): Last combined verdict (08_loupe_and_step_replay.md). -/
abbrev LUP_VERDICT : Nat := 0x6014
/-- LUP_FIRST (RO): [15:0] FIRST_STATION, [27:16] FIRST_ENTRY of that verdict (08_loupe_and_step_replay.md). -/
abbrev LUP_FIRST : Nat := 0x6018
/-- LUP_CNT_CLEAR (RO): Attempts cleared (08_loupe_and_step_replay.md). -/
abbrev LUP_CNT_CLEAR : Nat := 0x6040
/-- LUP_CNT_NUMERIC (RO): Attempts with numeric trouble (08_loupe_and_step_replay.md). -/
abbrev LUP_CNT_NUMERIC : Nat := 0x6044
/-- LUP_CNT_NONNUM (RO): Attempts with only non-numeric trouble (08_loupe_and_step_replay.md). -/
abbrev LUP_CNT_NONNUM : Nat := 0x6048
/-- LUP_CNT_DOUBLE (RO): Double-frame attempts (08_loupe_and_step_replay.md). -/
abbrev LUP_CNT_DOUBLE : Nat := 0x604c
/-- LUP_CNT_STOP (RO): Stops (08_loupe_and_step_replay.md). -/
abbrev LUP_CNT_STOP : Nat := 0x6050
/-- LUP_CNT_UNTRACKED (RO): R242 (08_loupe_and_step_replay.md). -/
abbrev LUP_CNT_UNTRACKED : Nat := 0x6054
/-- LUP_CNT_ZERO_STAT (RO): R247 (08_loupe_and_step_replay.md). -/
abbrev LUP_CNT_ZERO_STAT : Nat := 0x6058
/-- LUP_CNT_LATE_REPORT (RO): Reports after the close (08_loupe_and_step_replay.md). -/
abbrev LUP_CNT_LATE_REPORT : Nat := 0x605c
/-- STS_CFG (LK): Water marks and off-load (09_stash_and_randomness.md). -/
abbrev STS_CFG : Nat := 0x7000
/-- STS_STATUS (W1C): Sticky status (09_stash_and_randomness.md). -/
abbrev STS_STATUS : Nat := 0x7004
/-- STS_STATE (RO): Manager state (09_stash_and_randomness.md). -/
abbrev STS_STATE : Nat := 0x7008
/-- STS_OCC (RO): [19:0] ring occupancy in MiB (09_stash_and_randomness.md). -/
abbrev STS_OCC : Nat := 0x700c
/-- STS_OCC_PEAK (RO): [19:0] peak occupancy in MiB this attempt (09_stash_and_randomness.md). -/
abbrev STS_OCC_PEAK : Nat := 0x7010
/-- STS_TARGET_OCC (RO): [19:0] target use in MiB (09_stash_and_randomness.md). -/
abbrev STS_TARGET_OCC : Nat := 0x7014
/-- STS_FIRST_RECOMP (RO): First switched group this attempt (09_stash_and_randomness.md). -/
abbrev STS_FIRST_RECOMP : Nat := 0x7018
/-- STS_CNT_PLACED (RO): Groups placed (09_stash_and_randomness.md). -/
abbrev STS_CNT_PLACED : Nat := 0x7040
/-- STS_CNT_OFFLOAD (RO): Groups off-loaded (09_stash_and_randomness.md). -/
abbrev STS_CNT_OFFLOAD : Nat := 0x7044
/-- STS_CNT_OFFLOAD_MIB (RO): MiB off-loaded (09_stash_and_randomness.md). -/
abbrev STS_CNT_OFFLOAD_MIB : Nat := 0x7048
/-- STS_CNT_SWITCH (RO): Groups switched to recompute (09_stash_and_randomness.md). -/
abbrev STS_CNT_SWITCH : Nat := 0x704c
/-- STS_CNT_RERUN (RO): Reruns run (09_stash_and_randomness.md). -/
abbrev STS_CNT_RERUN : Nat := 0x7050
/-- STS_CNT_HIGH_WATER (RO): Ticks at which occupancy exceeded the high-water mark (09_stash_and_randomness.md). -/
abbrev STS_CNT_HIGH_WATER : Nat := 0x7054
/-- RNG_SEED_LO (LK): Seed [31:0] (09_stash_and_randomness.md). -/
abbrev RNG_SEED_LO : Nat := 0x7080
/-- RNG_SEED_HI (LK): Seed [63:32] (09_stash_and_randomness.md). -/
abbrev RNG_SEED_HI : Nat := 0x7084
/-- RNG_STATUS (W1C): Generator status (09_stash_and_randomness.md). -/
abbrev RNG_STATUS : Nat := 0x7088
/-- DSP_CFG (LK): Engine configuration (10_sparsity_and_dispatch.md). -/
abbrev DSP_CFG : Nat := 0x8000
/-- DSP_STATUS (W1C): Sticky status (10_sparsity_and_dispatch.md). -/
abbrev DSP_STATUS : Nat := 0x8004
/-- DSP_QTABLE_ADDR_LO (RO): Queue table base (10_sparsity_and_dispatch.md). -/
abbrev DSP_QTABLE_ADDR_LO : Nat := 0x8008
/-- DSP_QTABLE_ADDR_HI (RO): Queue table base (10_sparsity_and_dispatch.md). -/
abbrev DSP_QTABLE_ADDR_HI : Nat := 0x800c
/-- DSP_CACHE_STATE (RO): Cache occupancy (10_sparsity_and_dispatch.md). -/
abbrev DSP_CACHE_STATE : Nat := 0x8010
/-- DSP_CNT_PLACED (RO): Entries placed (10_sparsity_and_dispatch.md). -/
abbrev DSP_CNT_PLACED : Nat := 0x8040
/-- DSP_CNT_DROPPED (RO): Choices dropped (10_sparsity_and_dispatch.md). -/
abbrev DSP_CNT_DROPPED : Nat := 0x8044
/-- DSP_CNT_REROUTED (RO): Choices placed at a spare rank (10_sparsity_and_dispatch.md). -/
abbrev DSP_CNT_REROUTED : Nat := 0x8048
/-- DSP_CNT_CACHE_MISS (RO): Descriptor cache misses (10_sparsity_and_dispatch.md). -/
abbrev DSP_CNT_CACHE_MISS : Nat := 0x804c
/-- DSP_CNT_ROUTER_NONFIN (RO): Tokens with NONFIN_TOKEN (R309) (10_sparsity_and_dispatch.md). -/
abbrev DSP_CNT_ROUTER_NONFIN : Nat := 0x8050
/-- DSP_CNT_META_INVALID (RO): R298 (10_sparsity_and_dispatch.md). -/
abbrev DSP_CNT_META_INVALID : Nat := 0x8054
/-- DSP_CNT_DOORBELL (RO): Doorbells accepted (10_sparsity_and_dispatch.md). -/
abbrev DSP_CNT_DOORBELL : Nat := 0x8058
/-- DSP_CNT_REFUSED (RO): Jobs and router operations refused (10_sparsity_and_dispatch.md). -/
abbrev DSP_CNT_REFUSED : Nat := 0x805c
/-- HBM_CFG (LK): Scrub and repair (11_memory_stacks.md). -/
abbrev HBM_CFG : Nat := 0x9000
/-- HBM_STATUS (W1C): Sticky status (11_memory_stacks.md). -/
abbrev HBM_STATUS : Nat := 0x9004
/-- HBM_LAYOUT (RO): [6:0] SPLIT_GIB, P (11_memory_stacks.md). -/
abbrev HBM_LAYOUT : Nat := 0x9008
/-- HBM_THERM_ALL (RO): [2s + 1:2s] state of stack s: 0 NORMAL, 1 WARNING, 2 THROTTLE, 3 CRITICAL (11_memory_stacks.md). -/
abbrev HBM_THERM_ALL : Nat := 0x900c
/-- HBM_CHAN_SEL (RW): [7:0] channel, stack × 32 + channel (11_memory_stacks.md). -/
abbrev HBM_CHAN_SEL : Nat := 0x9010
/-- HBM_THERM (RO): Per-stack temperature and state (11_memory_stacks.md). -/
abbrev HBM_THERM : Nat := 0x9014
/-- HBM_LANE_MAP (RO): Per-channel spare lane use (11_memory_stacks.md). -/
abbrev HBM_LANE_MAP : Nat := 0x9018
/-- HBM_ERASE0 (RO): Per-channel lane marks (11_memory_stacks.md). -/
abbrev HBM_ERASE0 : Nat := 0x901c
/-- HBM_ERASE1 (RO): Per-channel lane marks (11_memory_stacks.md). -/
abbrev HBM_ERASE1 : Nat := 0x9020
/-- HBM_ERASE2 (RO): Per-channel lane marks (11_memory_stacks.md). -/
abbrev HBM_ERASE2 : Nat := 0x9024
/-- HBM_ERASE3 (RO): Per-channel lane marks (11_memory_stacks.md). -/
abbrev HBM_ERASE3 : Nat := 0x9028
/-- HBM_PPR_FREE (RO): Per-channel spare rows (11_memory_stacks.md). -/
abbrev HBM_PPR_FREE : Nat := 0x902c
/-- HBM_CNT_CE (RO): Code words corrected (11_memory_stacks.md). -/
abbrev HBM_CNT_CE : Nat := 0x9040
/-- HBM_CNT_UE (RO): Uncorrectable reads (11_memory_stacks.md). -/
abbrev HBM_CNT_UE : Nat := 0x9044
/-- HBM_CNT_RETRY_OK (RO): R349 (11_memory_stacks.md). -/
abbrev HBM_CNT_RETRY_OK : Nat := 0x9048
/-- HBM_CNT_POISON_RD (RO): Poisoned deliveries (11_memory_stacks.md). -/
abbrev HBM_CNT_POISON_RD : Nat := 0x904c
/-- HBM_CNT_WCB_FWD (RO): Reads forwarded from the buffer (11_memory_stacks.md). -/
abbrev HBM_CNT_WCB_FWD : Nat := 0x9050
/-- HBM_CNT_WCB_RMW (RO): Partial lines written by read-modify-write (11_memory_stacks.md). -/
abbrev HBM_CNT_WCB_RMW : Nat := 0x9054
/-- HBM_CNT_RFM (RO): Refresh-management commands (11_memory_stacks.md). -/
abbrev HBM_CNT_RFM : Nat := 0x9058
/-- HBM_CNT_THROTTLE_FR (RO): Frames with any stack in THROTTLE (11_memory_stacks.md). -/
abbrev HBM_CNT_THROTTLE_FR : Nat := 0x905c
/-- HBM_CNT_REPAIR (RO): Repair steps completed (11_memory_stacks.md). -/
abbrev HBM_CNT_REPAIR : Nat := 0x9060
/-- HBM_CNT_PAUSE_RC (RO): rc of repair pause (11_memory_stacks.md). -/
abbrev HBM_CNT_PAUSE_RC : Nat := 0x9064
/-- MEM_STATUS (W1C): Core store and address status (11_memory_stacks.md). -/
abbrev MEM_STATUS : Nat := 0x9100
/-- MEM_FAULT_UNIT (RO): [15:0] UNIT encoding (Table 2.5) of the first address fault since clear (11_memory_stacks.md). -/
abbrev MEM_FAULT_UNIT : Nat := 0x9104
/-- MEM_FAULT_ADDR_LO (RO): Its device address (11_memory_stacks.md). -/
abbrev MEM_FAULT_ADDR_LO : Nat := 0x9108
/-- MEM_FAULT_ADDR_HI (RO): Its device address (11_memory_stacks.md). -/
abbrev MEM_FAULT_ADDR_HI : Nat := 0x910c
/-- MEM_CNT_CS_CE (RO): Core store words corrected (11_memory_stacks.md). -/
abbrev MEM_CNT_CS_CE : Nat := 0x9140
/-- MEM_CNT_CS_UE (RO): Core store words uncorrectable (11_memory_stacks.md). -/
abbrev MEM_CNT_CS_UE : Nat := 0x9144
/-- MEM_CNT_DMA_DESC (RO): DMA descriptors completed (11_memory_stacks.md). -/
abbrev MEM_CNT_DMA_DESC : Nat := 0x9148
/-- MEM_CNT_ADDR_INVALID (RO): Accesses refused under R331 (11_memory_stacks.md). -/
abbrev MEM_CNT_ADDR_INVALID : Nat := 0x914c
/-- LNK_CFG (LK): Endpoint configuration (12_fabric_and_collectives.md). -/
abbrev LNK_CFG : Nat := 0xa000
/-- LNK_STATUS (W1C): Sticky status (12_fabric_and_collectives.md). -/
abbrev LNK_STATUS : Nat := 0xa004
/-- LNK_STATION (RO): Station number (12_fabric_and_collectives.md). -/
abbrev LNK_STATION : Nat := 0xa008
/-- LNK_PORTS_LIVE (RO): Ports UP or SWAPPING (12_fabric_and_collectives.md). -/
abbrev LNK_PORTS_LIVE : Nat := 0xa00c
/-- LNK_PORT_SEL (RW): [4:0] port shown by per-port registers, 0 to 23 (12_fabric_and_collectives.md). -/
abbrev LNK_PORT_SEL : Nat := 0xa010
/-- LNK_PORT_STATE (RO): Per-port state (12_fabric_and_collectives.md). -/
abbrev LNK_PORT_STATE : Nat := 0xa014
/-- LNK_LANE_MAP (RO): Per-port spare lane use (12_fabric_and_collectives.md). -/
abbrev LNK_LANE_MAP : Nat := 0xa018
/-- LNK_LAST_LOST (RO): [15:0] last station unreachable on every plane; [16] VALID (12_fabric_and_collectives.md). -/
abbrev LNK_LAST_LOST : Nat := 0xa01c
/-- LNK_CNT_RETRY (RO): Packets resent by link retry (12_fabric_and_collectives.md). -/
abbrev LNK_CNT_RETRY : Nat := 0xa040
/-- LNK_CNT_LANE_SWAP (RO): Lane swaps (12_fabric_and_collectives.md). -/
abbrev LNK_CNT_LANE_SWAP : Nat := 0xa044
/-- LNK_CNT_LASER_SWAP (RO): Laser changeovers (12_fabric_and_collectives.md). -/
abbrev LNK_CNT_LASER_SWAP : Nat := 0xa048
/-- LNK_CNT_PORT_DOWN (RO): Ports gone DOWN (12_fabric_and_collectives.md). -/
abbrev LNK_CNT_PORT_DOWN : Nat := 0xa04c
/-- LNK_CNT_FEC_UNCORR (RO): Uncorrectable RS code words (12_fabric_and_collectives.md). -/
abbrev LNK_CNT_FEC_UNCORR : Nat := 0xa050
/-- LNK_CNT_CRC_DROP (RO): Packets failing a check or R366 (12_fabric_and_collectives.md). -/
abbrev LNK_CNT_CRC_DROP : Nat := 0xa054
/-- LNK_CNT_E2E_RETX (RO): End-to-end resends (12_fabric_and_collectives.md). -/
abbrev LNK_CNT_E2E_RETX : Nat := 0xa058
/-- LNK_CNT_UNREACH (RO): UNREACH packets received (12_fabric_and_collectives.md). -/
abbrev LNK_CNT_UNREACH : Nat := 0xa05c
/-- LNK_CNT_DENIED (RO): Requests and messages refused by source (12_fabric_and_collectives.md). -/
abbrev LNK_CNT_DENIED : Nat := 0xa060
/-- LNK_CNT_ENC_DROP (RO): R381, R382 (12_fabric_and_collectives.md). -/
abbrev LNK_CNT_ENC_DROP : Nat := 0xa064
/-- COL_CFG (LK): Collective configuration (12_fabric_and_collectives.md). -/
abbrev COL_CFG : Nat := 0xa100
/-- COL_STATUS (W1C): Sticky status (12_fabric_and_collectives.md). -/
abbrev COL_STATUS : Nat := 0xa104
/-- COL_STATE (RO): Engine state (12_fabric_and_collectives.md). -/
abbrev COL_STATE : Nat := 0xa108
/-- COL_CUR_ID (RO): COLL_ID of the running or last collective (12_fabric_and_collectives.md). -/
abbrev COL_CUR_ID : Nat := 0xa10c
/-- COL_LOST_STATION (RO): [15:0] station of R397 (12_fabric_and_collectives.md). -/
abbrev COL_LOST_STATION : Nat := 0xa110
/-- COL_CNT_OPS (RO): Collectives completed (12_fabric_and_collectives.md). -/
abbrev COL_CNT_OPS : Nat := 0xa140
/-- COL_CNT_TX_MIB (RO): MiB of collective payload sent (12_fabric_and_collectives.md). -/
abbrev COL_CNT_TX_MIB : Nat := 0xa144
/-- COL_CNT_RX_MIB (RO): MiB received (12_fabric_and_collectives.md). -/
abbrev COL_CNT_RX_MIB : Nat := 0xa148
/-- COL_CNT_DUP (RO): R388 (12_fabric_and_collectives.md). -/
abbrev COL_CNT_DUP : Nat := 0xa14c
/-- COL_CNT_INSTANCE_DROP (RO): R386 (12_fabric_and_collectives.md). -/
abbrev COL_CNT_INSTANCE_DROP : Nat := 0xa150
/-- COL_CNT_OVERRUN (RO): Collectives running past a tick (12_fabric_and_collectives.md). -/
abbrev COL_CNT_OVERRUN : Nat := 0xa154
/-- COL_CNT_PEER_LOST (RO): R397 (12_fabric_and_collectives.md). -/
abbrev COL_CNT_PEER_LOST : Nat := 0xa158
/-- BOOT_STATE (RO): Stage, kind, cause and result of this start (14_bringup_and_apertures.md). -/
abbrev BOOT_STATE : Nat := 0xb000
/-- BOOT_STATUS (W1C): Sticky status (14_bringup_and_apertures.md). -/
abbrev BOOT_STATUS : Nat := 0xb004
/-- BOOT_APERTURE (RO): Apertures (14_bringup_and_apertures.md). -/
abbrev BOOT_APERTURE : Nat := 0xb008
/-- BOOT_FW (RO): Firmware banks (14_bringup_and_apertures.md). -/
abbrev BOOT_FW : Nat := 0xb00c
/-- BOOT_CORES (RO): Core counts (14_bringup_and_apertures.md). -/
abbrev BOOT_CORES : Nat := 0xb010
/-- BOOT_EXCLUDE (RO): Excluded stacks and DOWN ports (14_bringup_and_apertures.md). -/
abbrev BOOT_EXCLUDE : Nat := 0xb014
/-- BOOT_START_NO (RO): Number of this start (14_bringup_and_apertures.md). -/
abbrev BOOT_START_NO : Nat := 0xb018
/-- BOOT_START_MS (RO): Duration of this start in ms, once ended (14_bringup_and_apertures.md). -/
abbrev BOOT_START_MS : Nat := 0xb01c
/-- BOOT_CNT_WARM (RO): Warm starts (14_bringup_and_apertures.md). -/
abbrev BOOT_CNT_WARM : Nat := 0xb040
/-- BOOT_CNT_COLD (RO): Cold starts (14_bringup_and_apertures.md). -/
abbrev BOOT_CNT_COLD : Nat := 0xb044
/-- BOOT_CNT_FULL_TRAIN (RO): R450 (14_bringup_and_apertures.md). -/
abbrev BOOT_CNT_FULL_TRAIN : Nat := 0xb048
/-- BOOT_CNT_MAPOUT (RO): Cores mapped out at starts (14_bringup_and_apertures.md). -/
abbrev BOOT_CNT_MAPOUT : Nat := 0xb04c
/-- BOOT_CNT_BANK_FALLBACK (RO): Starts run on the non-preferred bank (14_bringup_and_apertures.md). -/
abbrev BOOT_CNT_BANK_FALLBACK : Nat := 0xb050
/-- BOOT_CNT_SAFE_HALT (RO): Safe halts (14_bringup_and_apertures.md). -/
abbrev BOOT_CNT_SAFE_HALT : Nat := 0xb054
/-- CLK_STATUS (W1C): Sticky status (15_clocks_power_thermal.md). -/
abbrev CLK_STATUS : Nat := 0xc000
/-- CLK_DOMAIN_SEL (RW): [5:0] domain, 0 to 36 (15_clocks_power_thermal.md). -/
abbrev CLK_DOMAIN_SEL : Nat := 0xc004
/-- CLK_DOMAIN (RO): Per-domain state (15_clocks_power_thermal.md). -/
abbrev CLK_DOMAIN : Nat := 0xc008
/-- CLK_GATE_SEL (RW): [9:0] gate node identifier (15_clocks_power_thermal.md). -/
abbrev CLK_GATE_SEL : Nat := 0xc00c
/-- CLK_GATE (RW): Per-node gate (15_clocks_power_thermal.md). -/
abbrev CLK_GATE : Nat := 0xc010
/-- CLK_CNT_WINDOW_FAIL (RO): R477 (15_clocks_power_thermal.md). -/
abbrev CLK_CNT_WINDOW_FAIL : Nat := 0xc040
/-- CLK_CNT_MUX_HANG (RO): R481 (15_clocks_power_thermal.md). -/
abbrev CLK_CNT_MUX_HANG : Nat := 0xc044
/-- CLK_CNT_GATE_REFUSED (RO): R483 (15_clocks_power_thermal.md). -/
abbrev CLK_CNT_GATE_REFUSED : Nat := 0xc048
/-- PWR_CFG (TA): Guard configuration (15_clocks_power_thermal.md). -/
abbrev PWR_CFG : Nat := 0xd000
/-- PWR_STATUS (W1C): Sticky status (15_clocks_power_thermal.md). -/
abbrev PWR_STATUS : Nat := 0xd004
/-- PWR_LIMIT_W (RO): [15:0] guard limit in force, W (15_clocks_power_thermal.md). -/
abbrev PWR_LIMIT_W : Nat := 0xd008
/-- PWR_AVG_W (RO): [15:0] 1 ms rolling average, W (15_clocks_power_thermal.md). -/
abbrev PWR_AVG_W : Nat := 0xd00c
/-- PWR_IN0 (RO): Connector 0: [15:0] voltage in 10 mV; [31:16] current in 10 mA (15_clocks_power_thermal.md). -/
abbrev PWR_IN0 : Nat := 0xd010
/-- PWR_IN1 (RO): Connector 1, as PWR_IN0 (15_clocks_power_thermal.md). -/
abbrev PWR_IN1 : Nat := 0xd014
/-- PWR_CNT_IDLE_RC (RO): R489 (15_clocks_power_thermal.md). -/
abbrev PWR_CNT_IDLE_RC : Nat := 0xd040
/-- PWR_CNT_FAST_HOLD (RO): R491 (15_clocks_power_thermal.md). -/
abbrev PWR_CNT_FAST_HOLD : Nat := 0xd044
/-- PWR_CNT_OVER_BUDGET (RO): R490 (15_clocks_power_thermal.md). -/
abbrev PWR_CNT_OVER_BUDGET : Nat := 0xd048
/-- THM_CFG (RW): [0] WARN_IRQ; [31:1] reserved (15_clocks_power_thermal.md). -/
abbrev THM_CFG : Nat := 0xe000
/-- THM_STATUS (W1C): Sticky status (15_clocks_power_thermal.md). -/
abbrev THM_STATUS : Nat := 0xe004
/-- THM_DIE (RO): Die temperature and state (15_clocks_power_thermal.md). -/
abbrev THM_DIE : Nat := 0xe008
/-- THM_SENSOR_SEL (RW): [5:0] sensor, 0 to 63 (15_clocks_power_thermal.md). -/
abbrev THM_SENSOR_SEL : Nat := 0xe00c
/-- THM_SENSOR (RO): [7:0] °C; [8] FAILED; [31:9] reserved (15_clocks_power_thermal.md). -/
abbrev THM_SENSOR : Nat := 0xe010
/-- THM_CNT_HOT_FR (RO): R494 (15_clocks_power_thermal.md). -/
abbrev THM_CNT_HOT_FR : Nat := 0xe040
/-- THM_CNT_WARN (RO): Entries into WARNING (15_clocks_power_thermal.md). -/
abbrev THM_CNT_WARN : Nat := 0xe044
/-- RAS_CFG (RW): RAS configuration (16_failure_paths.md). -/
abbrev RAS_CFG : Nat := 0xf000
/-- RAS_STATUS (W1C): Sticky status (16_failure_paths.md). -/
abbrev RAS_STATUS : Nat := 0xf004
/-- RAS_ACTIVE (RO): Active record and queue depth (16_failure_paths.md). -/
abbrev RAS_ACTIVE : Nat := 0xf008
/-- RAS_MIRROR (RO): Pairing state (16_failure_paths.md). -/
abbrev RAS_MIRROR : Nat := 0xf00c
/-- RAS_MIRROR_M (RO): [15:0] M (16_failure_paths.md). -/
abbrev RAS_MIRROR_M : Nat := 0xf010
/-- RAS_FEED (RO): Feed IDs (16_failure_paths.md). -/
abbrev RAS_FEED : Nat := 0xf014
/-- RAS_OWN_T_LO (RO): t of this device's newest complete image (16_failure_paths.md). -/
abbrev RAS_OWN_T_LO : Nat := 0xf018
/-- RAS_OWN_T_HI (RO): t of this device's newest complete image (16_failure_paths.md). -/
abbrev RAS_OWN_T_HI : Nat := 0xf01c
/-- RAS_HELD_CUR_LO (RO): t of the newest complete image held for the partner (16_failure_paths.md). -/
abbrev RAS_HELD_CUR_LO : Nat := 0xf020
/-- RAS_HELD_CUR_HI (RO): t of the newest complete image held for the partner (16_failure_paths.md). -/
abbrev RAS_HELD_CUR_HI : Nat := 0xf024
/-- RAS_HELD_PREV_LO (RO): t of the other held half, if complete (16_failure_paths.md). -/
abbrev RAS_HELD_PREV_LO : Nat := 0xf028
/-- RAS_HELD_PREV_HI (RO): t of the other held half, if complete (16_failure_paths.md). -/
abbrev RAS_HELD_PREV_HI : Nat := 0xf02c
/-- RAS_FLERRA_T_LO (RO): t of the newest log entry (16_failure_paths.md). -/
abbrev RAS_FLERRA_T_LO : Nat := 0xf030
/-- RAS_FLERRA_T_HI (RO): t of the newest log entry (16_failure_paths.md). -/
abbrev RAS_FLERRA_T_HI : Nat := 0xf034
/-- RAS_CNT_DEFERRED (RO): Deferred records (16_failure_paths.md). -/
abbrev RAS_CNT_DEFERRED : Nat := 0xf040
/-- RAS_CNT_FRAME_FATAL (RO): Frame-fatal records (16_failure_paths.md). -/
abbrev RAS_CNT_FRAME_FATAL : Nat := 0xf044
/-- RAS_CNT_STEP_FATAL (RO): Step-fatal records (16_failure_paths.md). -/
abbrev RAS_CNT_STEP_FATAL : Nat := 0xf048
/-- RAS_CNT_DEVICE_FATAL (RO): Device-fatal records (16_failure_paths.md). -/
abbrev RAS_CNT_DEVICE_FATAL : Nat := 0xf04c
/-- RAS_CNT_OVERFLOW (RO): R503 (16_failure_paths.md). -/
abbrev RAS_CNT_OVERFLOW : Nat := 0xf050
/-- RAS_CNT_MAPIN (RO): Live map-ins (16_failure_paths.md). -/
abbrev RAS_CNT_MAPIN : Nat := 0xf054
/-- RAS_CNT_MIRROR (RO): Images completed (16_failure_paths.md). -/
abbrev RAS_CNT_MIRROR : Nat := 0xf058
/-- RAS_CNT_MIRROR_LATE (RO): R519 (16_failure_paths.md). -/
abbrev RAS_CNT_MIRROR_LATE : Nat := 0xf05c
/-- RAS_CNT_FILL (RO): Fills and imports completed (16_failure_paths.md). -/
abbrev RAS_CNT_FILL : Nat := 0xf060
/-- RAS_AV_SCHED_LO (RO): R539 (16_failure_paths.md). -/
abbrev RAS_AV_SCHED_LO : Nat := 0xf080
/-- RAS_AV_SCHED_HI (RO): R539 (16_failure_paths.md). -/
abbrev RAS_AV_SCHED_HI : Nat := 0xf084
/-- RAS_AV_LOST_LO (RO): R539 (16_failure_paths.md). -/
abbrev RAS_AV_LOST_LO : Nat := 0xf088
/-- RAS_AV_LOST_HI (RO): R539 (16_failure_paths.md). -/
abbrev RAS_AV_LOST_HI : Nat := 0xf08c
/-- RAS_AV_REPLAYED_LO (RO): R539 (16_failure_paths.md). -/
abbrev RAS_AV_REPLAYED_LO : Nat := 0xf090
/-- RAS_AV_REPLAYED_HI (RO): R539 (16_failure_paths.md). -/
abbrev RAS_AV_REPLAYED_HI : Nat := 0xf094
/-- SEC_STATUS (W1C): Sticky status (17_trust_and_attestation.md). -/
abbrev SEC_STATUS : Nat := 0x10000
/-- SEC_STATE (RO): Debug, owner and certificate state (17_trust_and_attestation.md). -/
abbrev SEC_STATE : Nat := 0x10004
/-- SEC_SVN (RO): SVN values (17_trust_and_attestation.md). -/
abbrev SEC_SVN : Nat := 0x10008
/-- SEC_IDENTITY_LO (RO): Device identity (17_trust_and_attestation.md). -/
abbrev SEC_IDENTITY_LO : Nat := 0x1000c
/-- SEC_IDENTITY_HI (RO): Device identity (17_trust_and_attestation.md). -/
abbrev SEC_IDENTITY_HI : Nat := 0x10010
/-- SEC_HANDLES (RO): [10:0] key handles in use (17_trust_and_attestation.md). -/
abbrev SEC_HANDLES : Nat := 0x10014
/-- SEC_CNT_SIG_FAIL (RO): R546, R548 (17_trust_and_attestation.md). -/
abbrev SEC_CNT_SIG_FAIL : Nat := 0x10040
/-- SEC_CNT_ATTEST (RO): Identity-key signatures, native and SPDM (17_trust_and_attestation.md). -/
abbrev SEC_CNT_ATTEST : Nat := 0x10044
/-- SEC_CNT_DEBUG_FAIL (RO): R557 (17_trust_and_attestation.md). -/
abbrev SEC_CNT_DEBUG_FAIL : Nat := 0x10048
/-- SEC_CNT_SPDM_ERR (RO): SPDM ERROR responses sent (17_trust_and_attestation.md). -/
abbrev SEC_CNT_SPDM_ERR : Nat := 0x1004c

end Reg

/-- The classes of a writable field (Table 0.6). WO has no field in the register summaries. -/
inductive FieldClass where
  | rw | w1c | ta | lk
  deriving DecidableEq, Repr

/-- A field that software may write: bits lo to hi, its class, and its documented range. -/
structure RegField where
  lo : Nat
  hi : Nat
  cls : FieldClass
  min : Nat
  max : Nat
  deriving DecidableEq, Repr

/-- Writable fields of the MBX_ block. -/
def fieldsMbx : List (Nat × List RegField) :=
  [(Reg.MBX_STATUS, [⟨0, 0, .w1c, 0, 1⟩, ⟨1, 1, .w1c, 0, 1⟩, ⟨2, 2, .w1c, 0, 1⟩, ⟨3, 3, .w1c, 0, 1⟩, ⟨4, 4, .w1c, 0, 1⟩, ⟨5, 5, .w1c, 0, 1⟩, ⟨6, 6, .w1c, 0, 1⟩, ⟨7, 7, .w1c, 0, 1⟩])]

/-- Writable fields of the FRM_ block. -/
def fieldsFrm : List (Nat × List RegField) :=
  [(Reg.FRM_STATUS, [⟨0, 0, .w1c, 0, 1⟩, ⟨1, 1, .w1c, 0, 1⟩, ⟨2, 2, .w1c, 0, 1⟩, ⟨3, 3, .w1c, 0, 1⟩, ⟨4, 4, .w1c, 0, 1⟩, ⟨5, 5, .w1c, 0, 1⟩, ⟨6, 6, .w1c, 0, 1⟩, ⟨7, 7, .w1c, 0, 1⟩]),
   (Reg.FRM_STRETCH, [⟨0, 3, .ta, 1, 8⟩, ⟨8, 15, .ta, 8, 255⟩]),
   (Reg.FRM_ALIGN_CFG, [⟨0, 15, .ta, 0, 65535⟩, ⟨16, 20, .ta, 16, 24⟩]),
   (Reg.FRM_RUNLOCK, [⟨0, 0, .w1c, 0, 1⟩, ⟨1, 1, .w1c, 0, 1⟩, ⟨2, 2, .w1c, 0, 1⟩, ⟨3, 3, .w1c, 0, 1⟩, ⟨4, 4, .w1c, 0, 1⟩, ⟨5, 5, .w1c, 0, 1⟩, ⟨6, 6, .w1c, 0, 1⟩, ⟨7, 7, .w1c, 0, 1⟩])]

/-- Writable fields of the FAC_ block. -/
def fieldsFac : List (Nat × List RegField) :=
  [(Reg.FAC_CORE_SEL, [⟨0, 9, .rw, 0, 543⟩, ⟨15, 15, .rw, 0, 1⟩]),
   (Reg.FAC_CFG, [⟨0, 0, .lk, 0, 1⟩, ⟨1, 1, .lk, 0, 1⟩]),
   (Reg.FAC_STATUS, [⟨0, 0, .w1c, 0, 1⟩, ⟨1, 1, .w1c, 0, 1⟩, ⟨2, 2, .w1c, 0, 1⟩, ⟨3, 3, .w1c, 0, 1⟩, ⟨4, 4, .w1c, 0, 1⟩, ⟨5, 5, .w1c, 0, 1⟩])]

/-- Writable fields of the ACC_ block. -/
def fieldsAcc : List (Nat × List RegField) :=
  [(Reg.ACC_CFG, [⟨0, 0, .lk, 0, 1⟩, ⟨1, 1, .lk, 0, 1⟩]),
   (Reg.ACC_STATUS, [⟨0, 0, .w1c, 0, 1⟩, ⟨1, 1, .w1c, 0, 1⟩, ⟨2, 2, .w1c, 0, 1⟩, ⟨3, 3, .w1c, 0, 1⟩, ⟨4, 4, .w1c, 0, 1⟩, ⟨5, 5, .w1c, 0, 1⟩])]

/-- Writable fields of the QNT_ block. -/
def fieldsQnt : List (Nat × List RegField) :=
  [(Reg.QNT_CFG, [⟨0, 2, .lk, 0, 7⟩]),
   (Reg.QNT_STATUS, [⟨0, 0, .w1c, 0, 1⟩, ⟨1, 1, .w1c, 0, 1⟩, ⟨2, 2, .w1c, 0, 1⟩, ⟨3, 3, .w1c, 0, 1⟩, ⟨4, 4, .w1c, 0, 1⟩, ⟨5, 5, .w1c, 0, 1⟩, ⟨6, 6, .w1c, 0, 1⟩, ⟨7, 7, .w1c, 0, 1⟩, ⟨8, 8, .w1c, 0, 1⟩, ⟨9, 9, .w1c, 0, 1⟩])]

/-- Writable fields of the UPD_ block. -/
def fieldsUpd : List (Nat × List RegField) :=
  [(Reg.UPD_CFG, [⟨0, 6, .lk, 8, 64⟩]),
   (Reg.UPD_STATUS, [⟨0, 0, .w1c, 0, 1⟩, ⟨1, 1, .w1c, 0, 1⟩, ⟨2, 2, .w1c, 0, 1⟩, ⟨3, 3, .w1c, 0, 1⟩, ⟨4, 4, .w1c, 0, 1⟩, ⟨5, 5, .w1c, 0, 1⟩, ⟨6, 6, .w1c, 0, 1⟩])]

/-- Writable fields of the LUP_ block. -/
def fieldsLup : List (Nat × List RegField) :=
  [(Reg.LUP_CFG, [⟨0, 0, .lk, 0, 1⟩, ⟨1, 1, .lk, 0, 1⟩, ⟨2, 2, .lk, 0, 1⟩, ⟨4, 7, .lk, 1, 15⟩]),
   (Reg.LUP_STATUS, [⟨0, 0, .w1c, 0, 1⟩, ⟨1, 1, .w1c, 0, 1⟩, ⟨2, 2, .w1c, 0, 1⟩, ⟨3, 3, .w1c, 0, 1⟩, ⟨4, 4, .w1c, 0, 1⟩, ⟨5, 5, .w1c, 0, 1⟩])]

/-- Writable fields of the STS_ block. -/
def fieldsSts : List (Nat × List RegField) :=
  [(Reg.STS_CFG, [⟨0, 6, .lk, 50, 99⟩, ⟨8, 14, .lk, 25, 98⟩, ⟨16, 16, .lk, 0, 1⟩]),
   (Reg.STS_STATUS, [⟨0, 0, .w1c, 0, 1⟩, ⟨1, 1, .w1c, 0, 1⟩, ⟨2, 2, .w1c, 0, 1⟩, ⟨3, 3, .w1c, 0, 1⟩, ⟨4, 4, .w1c, 0, 1⟩, ⟨5, 5, .w1c, 0, 1⟩])]

/-- Writable fields of the RNG_ block. -/
def fieldsRng : List (Nat × List RegField) :=
  [(Reg.RNG_SEED_LO, [⟨0, 31, .lk, 0, 4294967295⟩]),
   (Reg.RNG_SEED_HI, [⟨0, 31, .lk, 0, 4294967295⟩]),
   (Reg.RNG_STATUS, [⟨0, 0, .w1c, 0, 1⟩, ⟨1, 1, .w1c, 0, 1⟩])]

/-- Writable fields of the DSP_ block. -/
def fieldsDsp : List (Nat × List RegField) :=
  [(Reg.DSP_CFG, [⟨0, 0, .lk, 0, 1⟩, ⟨4, 7, .lk, 1, 4⟩]),
   (Reg.DSP_STATUS, [⟨0, 0, .w1c, 0, 1⟩, ⟨1, 1, .w1c, 0, 1⟩, ⟨2, 2, .w1c, 0, 1⟩, ⟨3, 3, .w1c, 0, 1⟩, ⟨4, 4, .w1c, 0, 1⟩, ⟨5, 5, .w1c, 0, 1⟩, ⟨6, 6, .w1c, 0, 1⟩, ⟨7, 7, .w1c, 0, 1⟩, ⟨8, 8, .w1c, 0, 1⟩])]

/-- Writable fields of the HBM_ block. -/
def fieldsHbm : List (Nat × List RegField) :=
  [(Reg.HBM_CFG, [⟨0, 0, .lk, 0, 1⟩, ⟨1, 1, .lk, 0, 1⟩, ⟨8, 15, .lk, 1, 255⟩, ⟨16, 16, .lk, 0, 1⟩]),
   (Reg.HBM_STATUS, [⟨0, 0, .w1c, 0, 1⟩, ⟨1, 1, .w1c, 0, 1⟩, ⟨2, 2, .w1c, 0, 1⟩, ⟨3, 3, .w1c, 0, 1⟩, ⟨4, 4, .w1c, 0, 1⟩, ⟨5, 5, .w1c, 0, 1⟩, ⟨6, 6, .w1c, 0, 1⟩, ⟨7, 7, .w1c, 0, 1⟩, ⟨8, 8, .w1c, 0, 1⟩, ⟨9, 9, .w1c, 0, 1⟩, ⟨10, 10, .w1c, 0, 1⟩]),
   (Reg.HBM_CHAN_SEL, [⟨0, 7, .rw, 0, 255⟩])]

/-- Writable fields of the MEM_ block. -/
def fieldsMem : List (Nat × List RegField) :=
  [(Reg.MEM_STATUS, [⟨0, 0, .w1c, 0, 1⟩, ⟨1, 1, .w1c, 0, 1⟩, ⟨2, 2, .w1c, 0, 1⟩, ⟨3, 3, .w1c, 0, 1⟩])]

/-- Writable fields of the LNK_ block. -/
def fieldsLnk : List (Nat × List RegField) :=
  [(Reg.LNK_CFG, [⟨0, 0, .lk, 0, 1⟩, ⟨1, 1, .lk, 0, 1⟩, ⟨2, 2, .lk, 0, 1⟩, ⟨4, 7, .lk, 1, 15⟩, ⟨8, 15, .lk, 2, 255⟩]),
   (Reg.LNK_STATUS, [⟨0, 0, .w1c, 0, 1⟩, ⟨1, 1, .w1c, 0, 1⟩, ⟨2, 2, .w1c, 0, 1⟩, ⟨3, 3, .w1c, 0, 1⟩, ⟨4, 4, .w1c, 0, 1⟩, ⟨5, 5, .w1c, 0, 1⟩, ⟨6, 6, .w1c, 0, 1⟩, ⟨7, 7, .w1c, 0, 1⟩]),
   (Reg.LNK_PORT_SEL, [⟨0, 4, .rw, 0, 23⟩])]

/-- Writable fields of the COL_ block. -/
def fieldsCol : List (Nat × List RegField) :=
  [(Reg.COL_CFG, [⟨0, 3, .lk, 1, 15⟩]),
   (Reg.COL_STATUS, [⟨0, 0, .w1c, 0, 1⟩, ⟨1, 1, .w1c, 0, 1⟩, ⟨2, 2, .w1c, 0, 1⟩, ⟨3, 3, .w1c, 0, 1⟩, ⟨4, 4, .w1c, 0, 1⟩])]

/-- Writable fields of the BOOT_ block. -/
def fieldsBoot : List (Nat × List RegField) :=
  [(Reg.BOOT_STATUS, [⟨0, 0, .w1c, 0, 1⟩, ⟨1, 1, .w1c, 0, 1⟩, ⟨2, 2, .w1c, 0, 1⟩, ⟨3, 3, .w1c, 0, 1⟩, ⟨4, 4, .w1c, 0, 1⟩, ⟨5, 5, .w1c, 0, 1⟩, ⟨6, 6, .w1c, 0, 1⟩, ⟨7, 7, .w1c, 0, 1⟩, ⟨8, 8, .w1c, 0, 1⟩])]

/-- Writable fields of the CLK_ block. -/
def fieldsClk : List (Nat × List RegField) :=
  [(Reg.CLK_STATUS, [⟨0, 0, .w1c, 0, 1⟩, ⟨1, 1, .w1c, 0, 1⟩, ⟨2, 2, .w1c, 0, 1⟩, ⟨3, 3, .w1c, 0, 1⟩, ⟨4, 4, .w1c, 0, 1⟩]),
   (Reg.CLK_DOMAIN_SEL, [⟨0, 5, .rw, 0, 36⟩]),
   (Reg.CLK_GATE_SEL, [⟨0, 9, .rw, 0, 1023⟩]),
   (Reg.CLK_GATE, [⟨0, 0, .rw, 0, 1⟩])]

/-- Writable fields of the PWR_ block. -/
def fieldsPwr : List (Nat × List RegField) :=
  [(Reg.PWR_CFG, [⟨0, 6, .ta, 50, 100⟩, ⟨8, 11, .ta, 1, 8⟩]),
   (Reg.PWR_STATUS, [⟨0, 0, .w1c, 0, 1⟩, ⟨1, 1, .w1c, 0, 1⟩, ⟨2, 2, .w1c, 0, 1⟩, ⟨3, 3, .w1c, 0, 1⟩, ⟨4, 4, .w1c, 0, 1⟩, ⟨5, 5, .w1c, 0, 1⟩])]

/-- Writable fields of the THM_ block. -/
def fieldsThm : List (Nat × List RegField) :=
  [(Reg.THM_CFG, [⟨0, 0, .rw, 0, 1⟩]),
   (Reg.THM_STATUS, [⟨0, 0, .w1c, 0, 1⟩, ⟨1, 1, .w1c, 0, 1⟩, ⟨2, 2, .w1c, 0, 1⟩]),
   (Reg.THM_SENSOR_SEL, [⟨0, 5, .rw, 0, 63⟩])]

/-- Writable fields of the RAS_ block. -/
def fieldsRas : List (Nat × List RegField) :=
  [(Reg.RAS_CFG, [⟨0, 0, .rw, 0, 1⟩, ⟨1, 1, .rw, 0, 1⟩, ⟨2, 2, .rw, 0, 1⟩]),
   (Reg.RAS_STATUS, [⟨0, 0, .w1c, 0, 1⟩, ⟨1, 1, .w1c, 0, 1⟩, ⟨2, 2, .w1c, 0, 1⟩, ⟨3, 3, .w1c, 0, 1⟩, ⟨4, 4, .w1c, 0, 1⟩, ⟨5, 5, .w1c, 0, 1⟩, ⟨6, 6, .w1c, 0, 1⟩, ⟨7, 7, .w1c, 0, 1⟩, ⟨8, 8, .w1c, 0, 1⟩, ⟨9, 9, .w1c, 0, 1⟩, ⟨10, 10, .w1c, 0, 1⟩, ⟨11, 11, .w1c, 0, 1⟩])]

/-- Writable fields of the SEC_ block. -/
def fieldsSec : List (Nat × List RegField) :=
  [(Reg.SEC_STATUS, [⟨0, 0, .w1c, 0, 1⟩, ⟨1, 1, .w1c, 0, 1⟩, ⟨2, 2, .w1c, 0, 1⟩, ⟨3, 3, .w1c, 0, 1⟩, ⟨4, 4, .w1c, 0, 1⟩, ⟨5, 5, .w1c, 0, 1⟩, ⟨6, 6, .w1c, 0, 1⟩, ⟨7, 7, .w1c, 0, 1⟩])]

/-- Every register with a writable field. -/
def writableRegs : List (Nat × List RegField) :=
  fieldsMbx ++ fieldsFrm ++ fieldsFac ++ fieldsAcc ++ fieldsQnt ++ fieldsUpd ++ fieldsLup ++ fieldsSts ++ fieldsRng ++ fieldsDsp ++ fieldsHbm ++ fieldsMem ++ fieldsLnk ++ fieldsCol ++ fieldsBoot ++ fieldsClk ++ fieldsPwr ++ fieldsThm ++ fieldsRas ++ fieldsSec

/-- The writable fields of the register at a window offset: none for an RO or unimplemented one. -/
def regFields (off : Nat) : List RegField :=
  match writableRegs.find? (fun e => e.1 == off) with
  | some e => e.2
  | none => []

/-- Plain-word registers whose reset value is not zero. -/
def regResets : List (Nat × Word) :=
  [(Reg.FRM_STRETCH, 0x4002),
   (Reg.FRM_ALIGN_CFG, 0x14ffff),
   (Reg.QNT_CFG, 0x2),
   (Reg.FAC_CFG, 0x3),
   (Reg.ACC_CFG, 0x1),
   (Reg.UPD_CFG, 0x10),
   (Reg.LUP_CFG, 0x45),
   (Reg.STS_CFG, 0x14b5a),
   (Reg.DSP_CFG, 0x40),
   (Reg.HBM_CFG, 0x1803),
   (Reg.LNK_CFG, 0x846),
   (Reg.COL_CFG, 0x4),
   (Reg.MBX_HDM_BASE_HI, 0x6c),
   (Reg.MBX_HDM_SIZE, 0x40),
   (Reg.PWR_CFG, 0x164),
   (Reg.RAS_CFG, 0x7)]

/-- Reset value of a register that is kept as a plain word (the spec's register summaries). Registers whose
contents other state holds (FRM_CFG, FAC_DEPTH, HBM_LAYOUT and so on) are read from that state. -/
def regReset (off : Nat) : Word :=
  match regResets.find? (fun e => e.1 == off) with
  | some e => e.2
  | none => 0

end Sys2Proof.Machine
end

