-- ==== Sys2Proof/Machine/State.lean ====
section
/-! DEFINITION. The state of the block: every register, buffer, queue, counter, mode and pin the spec gives the
device, as plain data, with the queue of waiting commands. Registers that other state determines (FRM_CFG,
MBX_DONE_LO and so on) are computed by Machine/RegRead.lean from that state and are not stored twice. -/

namespace Sys2Proof.Machine

/-! ### Names shared by several chapters -/

/-- A unit: the type nibble and the index of the UNIT encodings (Tables 2.5 and 16.2). -/
structure UnitId where
  ty : Nat
  idx : Nat
  deriving DecidableEq, Repr

/-- The status codes of Table 13.12 (R436). -/
inductive Status where
  | success | opStarted | inProgress | unknownOpcode | notAdmin | badParam | notReady | aborted | opLimit
  | runLock | busy | accessDenied | addrInvalid | internalError | descInvalid | planInvalid | planMismatch
  | formatUnsupported | layoutMismatch | prismMismatch | progInvalid | ssbInvalid | queueBusy | epochStale
  | armBusy | armLate | armNotStep | armMiss | abortLate | switchFail | rollbackExpired | verdictLate
  | tickLost | noSpare | repairBusy | stationConflict | collPeerLost | feedShared | noSpareCore | fillAborted
  | logGap | sigInvalid | challengeStale | debugLocked | keyUnknown | imageInvalid | bankActive
  | apertureDenied | clockStopped
  deriving DecidableEq, Repr

/-! ### Host link (chapter 13) -/

/-- STATE of a mailbox state word (Table 13.4). -/
inductive BoxState where
  | idle | busy | done
  deriving DecidableEq, Repr

/-- One mailbox page (Table 13.4) with the bytes captured at SUBMIT and the order of its submission (R413, R416). -/
structure Mailbox where
  cmd : List Byte
  captured : List Byte
  resp : List Byte
  ext : List Byte
  st : BoxState
  overwrite : Bool
  ignoredSubmit : Bool
  order : Nat
  deriving DecidableEq, Repr

/-- One entry of the MSI-X table (R423, R424). -/
structure MsixEntry where
  addr : BitVec 64
  data : Word
  masked : Bool
  deriving DecidableEq, Repr

/-- What a running long operation does when it ends (Table 13.8). -/
inductive LongOp where
  | none
  | layout (splitGib : Nat)
  | repair (id : Nat)
  | fwUpdate (bankB : Bool) (image : List Byte)
  | trainSweep (kind idx : Nat)
  | mirrorFill (mode : Nat) (t : Nat)
  | ckptExport (source : Nat) (dst : Nat) (t : Nat)
  | ckptImport (src : Nat)
  | logReplay (tEnd : Nat) (src : Nat) (entries : Nat)
  deriving DecidableEq, Repr

/-- A progress record (Table 13.7), with the order in which its operation ended (R419). -/
structure Progress where
  opcode : Nat
  status : Status
  seq : Nat
  mailbox : Nat
  startTick : Nat
  position : Nat
  total : Nat
  finished : Nat
  running : Bool
  used : Bool
  op : LongOp
  deriving DecidableEq, Repr

/-- What software programs in configuration space: the base addresses of BAR0 and BAR2 (R406). -/
structure ConfigSpace where
  bar0 : BitVec 64
  bar2 : BitVec 64
  deriving DecidableEq, Repr

def ConfigSpace.reset : ConfigSpace := ⟨0, 0⟩

/-- The host side: mailboxes, MSI-X, trapped stores, windows, the link and the progress records. -/
structure HostState where
  cfg : ConfigSpace
  boxes : Tab Mailbox
  submits : Nat
  msix : Tab MsixEntry
  pba : BitVec 64
  spaced : BitVec 64
  covered : BitVec 64
  vecBox : Tab Nat
  vecRas : Nat
  vecProgress : Nat
  vecFrame : Nat
  traps : List (Nat × Word)
  hdmBase : Nat
  hdmUnits : Nat
  hdmDecoder : Option Nat
  memoryActive : Bool
  hostLimit : Nat
  linkWidth : Nat
  linkRate : Nat
  linkActive : Bool
  ideIo : Bool
  ideCm : Bool
  ideKeys : Tab (List Byte)
  ideOn : List Nat
  records : Tab Progress
  handleSeq : Nat
  opEnds : Nat
  deriving DecidableEq, Repr

/-! ### Frame tick and schedule (chapter 2) -/

/-- Slot descriptor (Table 2.5). -/
structure SlotDesc where
  unit : UnitId
  kind : Nat
  flags : Nat
  start : Nat
  endNom : Nat
  endThr : Nat
  descAddr : Nat
  waitCtr : Nat
  signalCtr : Nat
  waitVal : Nat
  wrrNoc : Nat
  wrrUpd : Nat
  energy : Nat
  deriving DecidableEq, Repr

/-- Frame entry (Table 2.4). -/
structure FrameEntry where
  slotOffset : Nat
  slotCount : Nat
  stepEnd : Bool
  refocus : Bool
  phase : Nat
  energyBudget : Nat
  deriving DecidableEq, Repr

/-- A step descriptor as attached by TRAIN_STEP_CONFIG (R208). -/
structure StepDesc where
  programId : Nat
  bytes : List Byte
  deriving DecidableEq, Repr

/-- A frame program (R47), with the step descriptor attached to it. -/
structure Program where
  lenExp : Nat
  guard : Nat
  progId : Nat
  planId : Nat
  aperture : Nat
  digest : List Byte
  frames : List FrameEntry
  slots : List SlotDesc
  step : Option StepDesc
  deriving DecidableEq, Repr

/-- Layout plan shard entry (Table 2.8). -/
structure ShardEntry where
  tensorId : Nat
  phase : Nat
  axis : Nat
  owner : Nat
  start : Nat
  count : Nat
  localAddr : Nat
  deriving DecidableEq, Repr

/-- A layout plan (R579). -/
structure Plan where
  planId : Nat
  entries : List ShardEntry
  deriving DecidableEq, Repr

/-- The mode descriptor (R64, the 16 bytes after Table 2.7). -/
structure Mode where
  progId : Nat
  planId : Nat
  lenExp : Nat
  guard : Nat
  stretchAmt : Nat
  stretchCnt : Nat
  deriving DecidableEq, Repr

/-- An armed mode change. -/
structure Armed where
  mode : Mode
  epoch : BitVec 16
  tick : BitVec 64
  deriving DecidableEq, Repr

/-- What a rollback returns to, kept through the retention window (R68), and whether the switch changed the program and the
plan. -/
structure Retained where
  epoch : BitVec 16
  switchTick : BitVec 64
  lenExp : Nat
  guard : Nat
  stretchAmt : Nat
  stretchLeft : Nat
  prog : Bool
  plan : Bool
  deriving DecidableEq, Repr

/-- A rollback accepted for tick T′ (R68). -/
structure Rollback where
  epoch : BitVec 16
  tick : BitVec 64
  deriving DecidableEq, Repr

/-- A reference to a slot of the current frame: a slot of the program by its place in the slot-descriptor array, or
the rerun slot that the stash manager gave a core (R282). -/
inductive SlotRef where
  | prog (n : Nat)
  | rerun (core : Nat)
  deriving DecidableEq, Repr

/-- The state of one long accumulator (Table 6.2): its value in units of 2^-48, TAG (0 finite, 1 +Inf, 2 -Inf, 3 NaN)
and first cause. -/
structure AccCell where
  value : Int
  tag : Nat
  cause : Nat
  deriving DecidableEq, Repr

/-- A report to the Loupe combiner (R242 to R246): the STAT_TAG or TENSOR_ID, whether it names a STAT_ID, drain statistics with their TE_out (S and
the FP32 code of M), the seven counts (blocks, saturated, underflow, fallback, quota misses, exhaustion, non-finite)
and a tile status word. -/
structure Report where
  tensor : Nat
  byStat : Bool
  stat : Option (Int × AccCell × Nat)
  counts : List Nat
  tile : Nat
  deriving DecidableEq, Repr

/-- What a running slot has to report, held until the slot ends without error (R144, R205). -/
structure Effects where
  bumps : List (Nat × Nat)
  bits : List (Nat × Nat)
  reports : List Report
  tiles : List (Nat × Nat)
  writes : List (Nat × List Byte)
  deriving DecidableEq, Repr

/-- How far a slot of the current frame has come. -/
inductive SlotPhase where
  | running | ended | failed
  deriving DecidableEq, Repr

/-- A slot of the current frame that has started; `carried` marks a collective that runs on from an earlier frame (R57);
`fault` says that a remote access of it has failed (R378, R379). For a
DMA chain: the descriptors completed, whether LAST was reached, and the byte ranges written (R337, R338). `seen` is memory as
it stood when the slot started, from which its tensor descriptors are read, in a replay too (R96, R507); `frame` and `attempt`
say in which frame of which attempt it started (R209); `fetched` lists the ranges of other stations' memory that the operation in
progress has asked for (R330). -/
structure SlotRun where
  ref : SlotRef
  unit : UnitId
  phase : SlotPhase
  startRc : Nat
  carried : Bool
  replay : Bool
  half : Option Nat
  fault : Bool
  eff : Effects
  steps : Nat
  last : Bool
  wrote : List (Nat × Nat)
  seen : List Host.Cell
  frame : Nat
  attempt : Nat
  fetched : List (Nat × Nat)
  deriving DecidableEq, Repr

/-- The cause under which a frame's guard-band use is counted (Table 2.6). -/
inductive GuardCause where
  | replay | thermal | lane | power | other
  deriving DecidableEq, Repr

/-- One plane's answer to the alignment round in progress (R41, R45): its offset in 1/8 rc, and the number of the root tick
that aligns with this device's tick less this device's number. -/
structure AlignAnswer where
  plane : Nat
  offset : Int
  rootTick : BitVec 64
  deriving DecidableEq, Repr

/-- The frame timer, the program banks, the mode-epoch protocol and the slots of the current frame. `begun` is false from a
tick to the mode switch or rollback that is due at it; `alignOpen` says that a round's probes are out; `double` that the attempt runs
double frames, and `pairBase` is the length of the first frame while the second frame of
a double-frame pair runs (R262), else 0; `stopNext` says that no slots run from the next tick; `blocked` that the attempt
runs no slots for want of 512 cores (R25); `waits` lists the cores
held under R209 with the rc from which each is; `throttled` and `cooled` list the stacks, and 8 for the core die, that
entered and left the throttle state in the frame; `trim` is the frame's alignment trim and `frac` the part of an rc by which
the last tick lies after its rc, both in 1/8 rc (R42); `retried` says that a link was retried in the frame (R54); `lastArm` is
the last ARM that came (R70); `reader` is the memory from which descriptors are read while an operation of a slot works, none
between commands (R96); `halfSts` holds FAC_HALF_STS by physical core. -/
structure FrmState where
  tick : BitVec 64
  phase : Nat
  lenExp : Nat
  guard : Nat
  frameIndex : Nat
  ticking : Bool
  epoch : BitVec 16
  lastAborted : Option (BitVec 16)
  rolledBack : Option (BitVec 16)
  prevEpoch : Option (BitVec 16)
  framesSinceSwitch : Nat
  armed : Option Armed
  lastArm : Option Armed
  armTick : BitVec 64
  retained : Option Retained
  rollback : Option Rollback
  halted : Bool
  curProg : Option Program
  standbyProg : Option Program
  curPlan : Option Plan
  standbyPlan : Option Plan
  stretchAmt : Nat
  stretchLeft : Nat
  stretchRequested : Bool
  throttled : List Nat
  cooled : List Nat
  staged : List (Nat × Word × Word)
  stagedLate : List (Nat × Word × Word)
  events : Tab Nat
  slots : List SlotRun
  idleUnits : List UnitId
  noSlots : Bool
  guardCause : Option GuardCause
  guardUsed : Bool
  retried : Bool
  uncommittable : Bool
  replayedFrame : Bool
  signalsSeen : List (Nat × Nat)
  hold : Tab (List (Nat × Packet))
  alignOfs : Int
  alignLeft : Int
  trim : Int
  frac : Nat
  alignAnswers : List AlignAnswer
  alignOpen : Bool
  tickNext : Option (BitVec 64 × Option (BitVec 64))
  begun : Bool
  double : Bool
  pairBase : Nat
  stopNext : Bool
  blocked : Bool
  waits : Tab Nat
  halfSts : Tab Nat
  reader : Option (List Host.Cell)
  deriving DecidableEq, Repr

/-! ### Memory stacks (chapter 11) -/

/-- A lane mark: a lane, with a bank or for all banks (R350). -/
structure Mark where
  lane : Nat
  bank : Option Nat
  deriving DecidableEq, Repr

/-- One HBM channel: spare lanes in use, marks, spare rows used per bank, rows repaired, and the corrected errors
observed within the last 2^20 rc (lane, bank, row, code word, time). -/
structure Channel where
  spare0 : Nat
  spare1 : Nat
  marks : List Mark
  rowsUsed : Tab Nat
  degraded : Bool
  seen : List (Nat × Nat × Nat × Nat × Nat)
  deriving DecidableEq, Repr

/-- Stack and die thermal states (Tables 11.7 and 15.5). -/
inductive Therm where
  | normal | warning | throttle | critical
  deriving DecidableEq, Repr

/-- One stack's sensor: the last and the peak sample, the state, the consecutive samples below the exit threshold
(R351), the samples missed, and the hold of R352. -/
structure StackTherm where
  temp : Nat
  peak : Nat
  state : Therm
  below : Nat
  missed : Nat
  held : Bool
  deriving DecidableEq, Repr

/-- A repair: row or lane, with its place (R353). -/
structure Repair where
  lane : Bool
  channel : Nat
  bank : Nat
  row : Nat
  laneNo : Nat
  id : Nat
  deriving DecidableEq, Repr

/-- A line of a write-combining buffer: code word (local offset / 64), bytes written, tick of the last write. Lines
are listed least recently used first. -/
structure WcbLine where
  word : Nat
  mask : BitVec 64
  tick : BitVec 64
  deriving DecidableEq, Repr

/-- The eight stacks and base dies, and the core stores' soft state. -/
structure HbmState where
  split : Nat
  channels : Tab Channel
  therms : Tab StackTherm
  poison : List Nat
  wcb : List WcbLine
  queue : List Repair
  current : Option Repair
  lastRepairTick : Option (BitVec 64)
  nextRepair : Nat
  deriving DecidableEq, Repr

/-! ### Bring-up (chapter 14) -/

/-- DEV_STATE (Table 13.3). -/
inductive DevState where
  | reset | booting | ready | halted
  deriving DecidableEq, Repr

/-- Result of the start (BOOT_STATE.RESULT). -/
inductive StartResult where
  | inProgress | ready | halted | safeHalt
  deriving DecidableEq, Repr

/-- A boot journal entry (Table 14.5). -/
structure JournalEntry where
  type : Nat
  stage : Nat
  status : Nat
  startNo : Nat
  timeMs : Nat
  body : List Byte
  deriving DecidableEq, Repr

/-- The fuse fields of Table 14.4 that software can read, and a copy of them (the fuse shadow). A spare-row entry is
a core and its eight failed-row bytes; a core not listed has none (0x7F in every byte). -/
structure Fuses where
  coreMap : BitVec 544
  rows : Tab (List Byte)
  aperture : Nat
  deriving DecidableEq, Repr

/-- The persistent block of the boot journal (R459). -/
structure Persistent where
  preferredB : Bool
  aValid : Bool
  bValid : Bool
  aperture : Nat
  replacements : List (Nat × Nat × Nat)
  mappedOut : List Nat
  exclStacks : BitVec 8
  exclPorts : BitVec 24
  failedStarts : Nat
  startNo : Nat
  cntWarm : Word
  cntCold : Word
  cntFullTrain : Word
  cntMapout : Word
  cntFallback : Word
  cntSafeHalt : Word
  seq : Nat
  deriving DecidableEq, Repr

/-- The saved settings of a stack or a port: what training found, its SHA-256, and the firmware version that wrote it (R449). -/
structure SavedSettings where
  version : List Byte
  data : List Byte
  digest : List Byte
  deriving DecidableEq, Repr

/-- A Shell control processor: the bank of its Welfy, whether its role is on its backup, a swap in progress, and whether it
has failed (R26). -/
structure Scp where
  bankB : Bool
  away : Bool
  swapTo : Option Bool
  verified : Bool
  failed : Bool
  deriving DecidableEq, Repr

/-- Results of stage 8 (SELFTEST_RESULTS). -/
structure SelfTest where
  cores : BitVec 544
  stackSet : BitVec 8
  units : BitVec 8
  deriving DecidableEq, Repr

/-- The start sequence, flash, fuses, the core table and the Shell processors. `pendingMapIn` lists the map-ins in progress:
the logical core, the spare (544 while the action waits for a free place, R535), and whether its tick has come; `returning` the
mapped-out cores among those spares, which stay mapped out until that tick (R174). -/
structure BootState where
  dev : DevState
  stage : Nat
  cold : Bool
  cause : Nat
  result : StartResult
  startMs : Nat
  stage0Rc : Nat
  welfy : Bool
  fuses : Fuses
  fusesRead : Bool
  shadow : Fuses
  shadowAgrees : Bool
  persist : Persistent
  otherCopy : Persistent
  journal : List JournalEntry
  bankA : List Byte
  bankB : List Byte
  startedB : Bool
  fallback : Bool
  running : Nat
  logical : Tab Nat
  stage7Failed : List Nat
  selfTest : SelfTest
  scps : Tab Scp
  pendingMapIn : List (Nat × Nat × Bool)
  returning : List Nat
  settings : Tab SavedSettings
  softRepairs : List Repair
  hang : StageHang
  badCopies : BitVec 2
  fullStacks : BitVec 8
  fullPorts : BitVec 24
  planSafe : Bool
  planCore : Option Nat
  rowsBad : List Nat
  flashRcvLow : Bool
  recovery : Bool
  deriving DecidableEq, Repr

/-! ### Clocks, power and thermal (chapter 15) -/

/-- CLK_DOMAIN.STATE. -/
inductive ClockPhase where
  | off | onRef | locking | onPll
  deriving DecidableEq, Repr

/-- One clock domain: state, last count, consecutive passing windows, stable, a mux switch in progress with the rc
at which it was commanded. -/
structure ClockDomain where
  phase : ClockPhase
  count : Nat
  passes : Nat
  stable : Bool
  switching : Option Nat
  deriving DecidableEq, Repr

/-- Clock, power and thermal controllers. -/
structure PhysState where
  refPresent : Bool
  domains : Tab ClockDomain
  gatesOff : List Nat
  calDefault : Bool
  samples : List Nat
  power : Nat
  in0 : Nat × Nat
  in1 : Nat × Nat
  overFor : Nat
  fastHold : Bool
  idling : Bool
  energy : Nat
  rails : Bool
  sensors : Tab Nat
  missed : Tab Nat
  dieTemp : Nat
  dieHottest : Nat
  diePeak : Nat
  die : Therm
  dieBelow : Nat
  alert : Bool
  feedStraps : BitVec 8
  i3cOut : List Byte
  coolDie : Bool
  coolStacks : List Nat
  apSelect : Option (Nat × Nat)
  deriving DecidableEq, Repr

/-! ### Failure paths (chapter 16) -/

/-- A RAS record (Table 16.2). -/
structure RasRecord where
  severity : Nat
  cls : Nat
  unit : UnitId
  seq : Nat
  preempted : Bool
  half : Bool
  lastLoss : Bool
  tick : BitVec 64
  detail : Nat
  step : BitVec 64
  deriving DecidableEq, Repr

/-- RAS_MIRROR.STATE. -/
inductive MirrorPhase where
  | unpaired | pending | paired | feedRefused | filling
  deriving DecidableEq, Repr

/-- The Mirror pairing and its copies (R515 to R523). -/
structure MirrorState where
  phase : MirrorPhase
  override : Bool
  partner : Nat
  m : Nat
  manifest : Nat
  windowBase : Nat
  windowSize : Nat
  partnerWindow : Nat
  partnerFeed : Nat
  imageBytes : Nat
  windowOpen : Bool
  copying : Option Nat
  copyDone : Bool
  ownHalf : Nat
  deriving DecidableEq, Repr

/-- The RAS engine, the Mirror and the Flerra log; `stepSsb` is the scale state block as it stood at the step's first tick
(R267), `frameFatals` the logical core and rc of each frame-fatal record of a core. -/
structure RasState where
  active : Option RasRecord
  queue : List RasRecord
  seq : Nat
  lastLoss : List RasRecord
  fatalPending : Bool
  frameFatals : List (Nat × Nat)
  feedId : Nat
  fromStraps : Bool
  mirror : MirrorState
  ownT : BitVec 64
  stepSsb : List Byte
  flerraT : BitVec 64
  hostLagFrom : Option Nat
  replayTo : Option (Nat × Nat × Nat)
  avSched : BitVec 64
  avLost : BitVec 64
  avReplayed : BitVec 64
  attemptFrames : Nat
  ownFatalStep : Bool
  deriving DecidableEq, Repr

/-! ### Trust (chapter 17) -/

/-- A debug challenge that is still valid: level, nonce, and the rc at which it was issued. -/
structure Challenge where
  level : Nat
  nonce : List Byte
  rc : Nat
  deriving DecidableEq, Repr

/-- An open SPDM session: its identifier, whether FINISH has completed it, its transcript up to KEY_EXCHANGE_RSP, and the key
that FINISH is checked with. -/
structure SpdmSession where
  id : Nat
  finished : Bool
  log : List Byte
  finishKey : List Byte
  deriving DecidableEq, Repr

/-- The SPDM responder's connection: what has been negotiated, the requester's transfer size, the open sessions, the chunked
request being gathered (its handle, size and bytes), the large response being fetched, what was answered, the transcripts of
the negotiation, of the certificate requests and of the measurement requests, and the next session and handle. -/
structure SpdmState where
  version : Option Nat
  caps : Bool
  algos : Bool
  limit : Nat
  sessions : List SpdmSession
  chunk : Option (Nat × Nat × Nat × List Byte)
  large : Option (Nat × List Byte)
  out : List (List Byte)
  vca : List Byte
  certLog : List Byte
  measLog : List Byte
  nextSession : Nat
  nextHandle : Nat
  deriving DecidableEq, Repr

/-- The security processor. -/
structure SecState where
  debug : Nat
  ownerKey : Option (List Byte)
  ownerCounter : Nat
  ownerFuse : Nat
  ownerMacOk : Bool
  svnFloor : Nat
  identityKey : List Byte
  commitment : List Byte
  chain : List Byte
  certValid : Bool
  handles : Tab (List Byte)
  nextHandle : Nat
  challenge : Option Challenge
  measChanges : Tab Nat
  spdm : SpdmState
  deriving DecidableEq, Repr

/-! ### Fabric endpoint (chapter 12) -/

/-- LNK_PORT_STATE.STATE. -/
inductive PortPhase where
  | down | training | up | swapping | disabled
  deriving DecidableEq, Repr

/-- One optical port: state, laser in use, spare lanes (0xFF unused), the physical lanes that have failed, those that a swap in
progress replaces, whether a laser changeover is in progress, failed trainings in a row,
corrected symbols per physical lane in the last window, the link-retry sender and receiver (R368): sequence number, packet
as sent and packet before encryption of each entry of the retry buffer, the rc from which an acknowledgement is awaited, the
packets that wait for room in it, and the virtual channel of VC1 to VC3 last served (R369). -/
structure Port where
  phase : PortPhase
  spareLaser : Bool
  spare16 : Nat
  spare17 : Nat
  failed : List Nat
  replacing : List Nat
  changing : Bool
  trainFails : Nat
  symbols : List Nat
  worst : Nat
  joining : Bool
  rxNext : Nat
  txNext : Nat
  retry : List (Nat × Packet × Packet)
  ackRc : Nat
  waiting : List Packet
  lastVc : Nat
  deriving DecidableEq, Repr

/-- A key table entry (R380): peer, planes, REQUIRED, key handle, and the counter kept for each plane. -/
structure KeyEntry where
  peer : Nat
  planes : BitVec 24
  required : Bool
  handle : Nat
  counters : Tab Nat
  deriving DecidableEq, Repr

/-- Whose access a remote transaction serves. -/
inductive TransFor where
  | slot (ref : SlotRef)
  | offload (group : Nat)
  | mirror
  | log
  deriving DecidableEq, Repr

/-- An outstanding remote transaction (R378): the packet as first sent, the plane and the rc of its last sending, resends
so far, and the address that read data goes to; none where the reader itself takes it. -/
structure Trans where
  tag : Nat
  packet : Packet
  plane : Nat
  sentRc : Nat
  tries : Nat
  owner : TransFor
  dest : Option Nat
  deriving DecidableEq, Repr

/-- The fabric endpoint; `kept` holds the responses, credits and management messages sent, with the rc of sending, which an
UNREACH may return (R373). -/
structure LnkState where
  station : Option Nat
  assignEpoch : BitVec 16
  manager : Option Nat
  ports : Tab Port
  spray : Tab Nat
  unreach : List (Nat × Nat × Nat)
  timeouts : List (Nat × Nat × Nat)
  lastLost : Option Nat
  peers : BitVec 65536
  peersNext : Option (BitVec 65536)
  keys : Tab (Option KeyEntry)
  keysNext : List (Nat × Option KeyEntry)
  keysOld : Tab (Option KeyEntry)
  trans : List Trans
  backlog : List Trans
  nextTag : Nat
  kept : List (Nat × Packet)
  deriving DecidableEq, Repr

/-! ### Collective engine (chapter 12) -/

/-- COL_STATE.STATE. -/
inductive ColPhase where
  | idle | running | overrun
  deriving DecidableEq, Repr

/-- The collective engine: the running collective's descriptor bytes, its stations in rank order, the values in its
accumulators, the duplicate filter, the credits granted and received, and what each rank has delivered, the packets waiting
for credit and those sent, the places of the bytes that each rank copies here, the shards and the result descriptor as read,
and whether the results are written. -/
structure ColState where
  phase : ColPhase
  op : Nat
  curId : Nat
  windows : Nat
  descAddr : Nat
  desc : List Byte
  ref : Option SlotRef
  ranks : List Nat
  acc : Tab AccCell
  recs : Tab (List Byte)
  shifts : Tab Nat
  filter : List (Nat × Nat × Nat)
  got : Tab Nat
  need : Tab Nat
  granted : Tab Nat
  credit : Tab Nat
  toSend : List (Nat × Packet)
  sent : List Packet
  idle : Tab Nat
  transient : Bool
  lost : Option Nat
  attemptTick : BitVec 64
  txBytes : Nat
  rxBytes : Nat
  segs : Tab (List (Nat × Nat))
  shards : List (Nat × Nat)
  dstRaw : List Byte
  resulted : Bool
  deriving DecidableEq, Repr

/-! ### Update engines and commit (chapter 7) -/

/-- UPD_COMMIT_STATE.STATE. -/
inductive CommitPhase where
  | idle | running | window
  deriving DecidableEq, Repr

/-- A pair of a commit list (R232, R234): the shadow and live descriptors and the shadow tiles written in this step. -/
structure UpdPair where
  shadow : Nat
  live : Nat
  tiles : List Nat
  deriving DecidableEq, Repr

/-- An update job that an engine runs, as read at its start (R222): the descriptor's bytes, the stream entries, the
descriptors they name (an output's shadow) and the outputs' live descriptors, the parameter words, the schedule word
of step t, the program's prologue and body words, and the slabs not yet finished: the first K and N index of each with
the tiles that it has left. -/
structure UpdJob where
  addr : Nat
  raw : List Byte
  entries : List (List Byte)
  descs : List (List Byte)
  lives : List (List Byte)
  params : List Nat
  sched : Nat
  prologue : List Nat
  body : List Nat
  slabs : List (Nat × Nat × List Nat)
  deriving DecidableEq, Repr

/-- One update engine: its job, the place of its next instruction and whether that lies in the body, the scalar and
vector registers as FP32 codes, and, for each blocked output, the values of the slab's tiles already stored. -/
structure UpdEngine where
  job : Option UpdJob
  inBody : Bool
  pc : Nat
  scalars : Tab Nat
  vectors : Tab (List Nat)
  held : Tab (Tab (List Nat))
  deriving DecidableEq, Repr

/-- The update engines and the commit machinery: t, the attempts of step t so far, the step number that STEP_SET put in for the next tick, the state
of the commit, LAST, whether the step that ends at the next tick commits, the programs of slots 4 to 15 and those
loaded for the next tick, the commit lists and the engines by stack. -/
structure UpdState where
  t : BitVec 64
  attempt : Nat
  stepNext : Option (BitVec 64)
  stepBegun : Option (BitVec 64)
  commit : CommitPhase
  last : Nat
  clear : Bool
  programs : Tab (List Byte)
  progNext : List (Nat × List Byte)
  lists : Tab (List UpdPair)
  engines : Tab UpdEngine
  deriving DecidableEq, Repr

/-- LUP_STATE.STATE. -/
inductive LoupePhase where
  | unloaded | run | hold | stopped
  deriving DecidableEq, Repr

/-- Working statistics of one entry (Statistics, chapter 8): S, M as FP32 code, TE_out, the seven counts and the OR of the
tile status words. -/
structure LupStat where
  s : AccCell
  m : Nat
  te : Option Int
  counts : List Nat
  tile : Nat
  deriving DecidableEq, Repr

/-- The Loupe: the place of its scale state block, the block as of the last tick, a block accepted for the next tick,
N, NONNUM and DOUBLE, the attempt's statistics and causes, its verdict record and the combined records. -/
structure LupState where
  phase : LoupePhase
  addr : Nat
  snap : List Byte
  load : Option (Nat × List Byte)
  n : Nat
  nonnum : Nat
  double : Bool
  stats : Tab LupStat
  closed : Bool
  late : Bool
  mismatch : Bool
  localRec : Option (List Byte)
  verdict : Option (List Byte × List (List Byte))
  deriving DecidableEq, Repr

/-! ### The stash manager (chapter 9) -/

/-- State of a stash group (STASH_GROUP_QUERY). -/
inductive StashPhase where
  | unplaced | ring | offloading | target | recompute | released
  deriving DecidableEq, Repr

/-- A stash group: its entry (Table 9.2), its state, whether it is in the RECOMPUTE state in this attempt, the place and
size of its ring or recompute space, its place in the target, and whether its off-load completed in this frame. -/
structure StashGroup where
  raw : List Byte
  phase : StashPhase
  recomp : Bool
  addr : Nat
  size : Nat
  taddr : Nat
  inRing : Bool
  inTarget : Bool
  done : Bool
  deriving DecidableEq, Repr

/-- A far-stash window (R279): base, size, owner station, and whether its owner has written it in the attempt in progress. -/
structure FarWindow where
  base : Nat
  size : Nat
  owner : Nat
  used : Bool
  deriving DecidableEq, Repr

/-- The stash manager: the stash descriptor and groups in force, those accepted for the next tick, the windows it holds
for peers, the ring's head, the target's state, the first group that switched, the peak occupancy, the seed put in for the
next step, the groups as of the last tick, and the rerun slots of the frame (core, sequencer entry, group). -/
structure StsState where
  desc : Option (List Byte)
  groups : List StashGroup
  next : Option (List Byte × List StashGroup)
  windows : Tab FarWindow
  head : Nat
  lossSeen : Bool
  lost : Bool
  full : Bool
  first : Option Nat
  peak : Nat
  seedNext : Option Nat
  snap : List StashGroup
  reruns : List (Nat × Nat × Nat)
  deriving DecidableEq, Repr

/-! ### The dispatch engine (chapter 10) -/

/-- A queue that a running job names: its QID and what the job has placed, dropped and rerouted there. -/
structure JobQueue where
  qid : Nat
  count : Nat
  drops : Nat
  rerouted : Nat
  deriving DecidableEq, Repr

/-- A running dispatch job: the address and bytes of its descriptor, the slot that issued it, the queues on its list, and
whether its ring headers have been sent. -/
structure DspJob where
  desc : Nat
  raw : List Byte
  ref : SlotRef
  queues : List JobQueue
  headers : Bool
  deriving DecidableEq, Repr

/-- The dispatch engine: the running jobs, those issued that wait for a place, the cached queue descriptors (least
recently used first), the token base of each router-record area, and the router records of each route map. -/
structure DspState where
  jobs : List DspJob
  waiting : List (SlotRef × Nat)
  cache : List (Nat × List Byte)
  routes : List (Nat × Nat)
  maps : List (Nat × Nat)
  deriving DecidableEq, Repr

def UpdEngine.reset : UpdEngine :=
  { job := none, inBody := false, pc := 0, scalars := [], vectors := [], held := [] }

def UpdState.reset : UpdState :=
  { t := 0, attempt := 0, stepNext := none, stepBegun := none, commit := .idle, last := 0, clear := false, programs := [], progNext := [],
    lists := [], engines := [] }


/-- The Loupe after reset: no block loaded. -/
def LupState.reset : LupState :=
  { phase := .unloaded, addr := 0, snap := [], load := none, n := 0, nonnum := 0, double := false, stats := [],
    closed := false, late := false, mismatch := false, localRec := none, verdict := none }

/-- The stash manager after reset: UNCONFIGURED. -/
def StsState.reset : StsState :=
  { desc := none, groups := [], next := none, windows := [], head := 0, lossSeen := false, lost := false,
    full := false, first := none, peak := 0, seedNext := none, snap := [], reruns := [] }

/-- The dispatch engine after reset: nothing cached, no job. -/
def DspState.reset : DspState := { jobs := [], waiting := [], cache := [], routes := [], maps := [] }


/-! ### What the device has sent -/

/-- A management message or reply that the device sends to the fabric manager, the timing root or a prober (Tables 2.7 and
12.6), without the station number that each carries; times in 1/8 rc. -/
inductive MgmtOut where
  | armAck (epoch : BitVec 16) (digest : List Byte)
  | armNak (epoch : BitVec 16) (status : Status)
  | armMiss (seen current : BitVec 16)
  | abortDone (epoch : BitVec 16)
  | abortLate (epoch : BitVec 16)
  | switchFail (epoch : BitVec 16) (cause : Status)
  | rollbackDone (epoch : BitVec 16)
  | rollbackExpired (epoch : BitVec 16)
  | stretchReq (stack amt cnt : Nat)
  | portEvent (port state cause : Nat)
  | enumReply (port : Nat) (identity : List Byte) (aperture : Nat)
  | assignAck (station : Nat) (status : Status)
  | tickSetAck (status : Status) (tick : BitVec 64)
  | tickProbe (port : Nat) (t1 : Nat)
  | tickEcho (port : Nat) (dst : Nat) (t1 t2 t3 : Nat) (tick : BitVec 64) (since : Nat)
  | remoteProbe (port station : Nat)
  | verdictLate (t : BitVec 64)
  deriving DecidableEq, Repr

/-- Everything the device has sent out, oldest first: MSI-X vectors, management messages, fabric packets with the
port each left by. -/
structure OutState where
  msix : List Nat
  mgmt : List MgmtOut
  fabric : List (Nat × Packet)
  deriving DecidableEq, Repr

/-! ### Reset values (R441 and the reset columns of the register summaries; values marked DESIGN CHOICE in the log) -/

def Mailbox.reset : Mailbox :=
  { cmd := List.replicate 64 0, captured := List.replicate 64 0, resp := List.replicate 64 0,
    ext := List.replicate 3840 0, st := .idle, overwrite := false, ignoredSubmit := false, order := 0 }

def Progress.reset : Progress :=
  { opcode := 0, status := .success, seq := 0, mailbox := 0, startTick := 0, position := 0, total := 0,
    finished := 0, running := false, used := false, op := .none }

/-- Host side after reset: HDM base 0x006C_0000_0000 and 16 GiB (R426), host limit 0 (R430), default vectors. -/
def HostState.reset : HostState :=
  { cfg := ConfigSpace.reset, boxes := [], submits := 0, msix := [], pba := 0, spaced := 0, covered := 0, vecBox := [], vecRas := 1,
    vecProgress := 2, vecFrame := 3, traps := [], hdmBase := 0x006C00000000, hdmUnits := 64,
    hdmDecoder := none, memoryActive := false, hostLimit := 0, linkWidth := 0, linkRate := 0,
    linkActive := false, ideIo := false, ideCm := false, ideKeys := [], ideOn := [], records := [], handleSeq := 0, opEnds := 0 }

def Effects.empty : Effects := ⟨[], [], [], [], []⟩

/-- Frame timer after reset: n = 13, g = 8 (R37, R38), tick, epoch and events zero, no program. -/
def FrmState.reset : FrmState :=
  { tick := 0, phase := 0, lenExp := 13, guard := 8, frameIndex := 0, ticking := false, epoch := 0,
    lastAborted := none, rolledBack := none, prevEpoch := none, framesSinceSwitch := 0, armed := none, lastArm := none, armTick := 0,
    retained := none, rollback := none, halted := false, curProg := none, standbyProg := none,
    curPlan := none, standbyPlan := none, stretchAmt := 0, stretchLeft := 0, stretchRequested := false,
    throttled := [], cooled := [], staged := [], stagedLate := [], events := [], slots := [], idleUnits := [],
    noSlots := false, guardCause := none, guardUsed := false, retried := false, uncommittable := false, replayedFrame := false,
    signalsSeen := [], hold := [], alignOfs := 0, alignLeft := 0, trim := 0, frac := 0, alignAnswers := [], alignOpen := false, tickNext := none,
    begun := true, double := false, pairBase := 0, stopNext := false, blocked := false, waits := [], halfSts := [], reader := none }

def Channel.reset : Channel :=
  { spare0 := 0xFF, spare1 := 0xFF, marks := [], rowsUsed := [], degraded := false, seen := [] }

def StackTherm.reset : StackTherm :=
  { temp := 0, peak := 0, state := .normal, below := 0, missed := 0, held := false }

def HbmState.reset : HbmState :=
  { split := 8, channels := [], therms := [], poison := [], wcb := [], queue := [], current := none,
    lastRepairTick := none, nextRepair := 0 }

/-- The base dies at the beginning of a start: the last sensor samples and the lane repairs are kept (R449). -/
def HbmState.restart (h : HbmState) : HbmState :=
  { HbmState.reset with
      therms := h.therms.map (fun e => (e.1, { StackTherm.reset with temp := e.2.temp })),
      channels := h.channels.map (fun e => (e.1, { Channel.reset with spare0 := e.2.spare0, spare1 := e.2.spare1,
                                                                       rowsUsed := e.2.rowsUsed })) }

/-- Fuses as shipped: 544 cores passing, spares at x = 8 and x = 25 (R21), no failed rows, aperture 36. -/
def Fuses.reset : Fuses :=
  { coreMap := BitVec.ofNat 544 ((List.range 544).foldl
      (fun n p => if p % 34 = 8 ∨ p % 34 = 25 then n else n + 2 ^ p) 0),
    rows := [], aperture := 36 }

def Persistent.reset : Persistent :=
  { preferredB := false, aValid := false, bValid := false, aperture := 36, replacements := [],
    mappedOut := [], exclStacks := 0, exclPorts := 0, failedStarts := 0, startNo := 0, cntWarm := 0,
    cntCold := 0, cntFullTrain := 0, cntMapout := 0, cntFallback := 0, cntSafeHalt := 0, seq := 0 }

def Scp.reset : Scp := { bankB := false, away := false, swapTo := none, verified := false, failed := false }

def BootState.reset : BootState :=
  { dev := .reset, stage := 0, cold := false, cause := 0, result := .inProgress, startMs := 0, stage0Rc := 0,
    welfy := false, fuses := Fuses.reset, fusesRead := false, shadow := Fuses.reset, shadowAgrees := true,
    persist := Persistent.reset, otherCopy := Persistent.reset, journal := [], bankA := [], bankB := [], startedB := false, fallback := false, running := 36,
    logical := [], stage7Failed := [], selfTest := ⟨0, 0, 0⟩, scps := [], pendingMapIn := [], returning := [], settings := [],
    softRepairs := [], hang := ⟨0, 0, 0, 0, none, 0⟩, badCopies := 0,
    fullStacks := 0, fullPorts := 0, planSafe := false, planCore := none, rowsBad := [], flashRcvLow := false, recovery := false }

def ClockDomain.reset : ClockDomain := { phase := .off, count := 0, passes := 0, stable := false, switching := none }

/-- Every domain on input 0, the reference, as from reset once the reference is there (chapter 15, Clock multiplexers). -/
def domainsOnRef : Tab ClockDomain := (List.range 37).map (fun d => (d, { ClockDomain.reset with phase := .onRef }))

def PhysState.reset : PhysState :=
  { refPresent := false, domains := [], gatesOff := [], calDefault := false, samples := [], power := 0,
    in0 := (0, 0), in1 := (0, 0), overFor := 0, fastHold := false, idling := false,
    energy := 0, rails := false, sensors := [], missed := [], dieTemp := 0, dieHottest := 0,
    diePeak := 0, die := .normal, dieBelow := 0, alert := false, feedStraps := 0xFF, i3cOut := [],
    coolDie := false, coolStacks := [], apSelect := none }

def MirrorState.reset : MirrorState :=
  { phase := .unpaired, override := false, partner := 0, m := 0, manifest := 0, windowBase := 0,
    windowSize := 0, partnerWindow := 0, partnerFeed := 0, imageBytes := 0, windowOpen := false,
    copying := none, copyDone := false, ownHalf := 1 }

def RasState.reset : RasState :=
  { active := none, queue := [], seq := 0, lastLoss := [], fatalPending := false, frameFatals := [],
    feedId := 0xFF, fromStraps := false, mirror := MirrorState.reset, ownT := 0, stepSsb := [],
    flerraT := 0, hostLagFrom := none, replayTo := none, avSched := 0, avLost := 0, avReplayed := 0,
    attemptFrames := 0, ownFatalStep := false }

def SpdmState.reset : SpdmState :=
  { version := none, caps := false, algos := false, limit := 4096, sessions := [], chunk := none, large := none, out := [],
    vca := [], certLog := [], measLog := [], nextSession := 1, nextHandle := 1 }

def SecState.reset : SecState :=
  { debug := 0, ownerKey := none, ownerCounter := 0, ownerFuse := 0, ownerMacOk := true, svnFloor := 0,
    identityKey := [], commitment := [], chain := [], certValid := false, handles := [], nextHandle := 1,
    challenge := none, measChanges := [], spdm := SpdmState.reset }

def Port.reset : Port :=
  { phase := .down, spareLaser := false, spare16 := 0xFF, spare17 := 0xFF, failed := [], replacing := [], changing := false,
    trainFails := 0, symbols := [], worst := 0, joining := false, rxNext := 0, txNext := 0, retry := [], ackRc := 0, waiting := [], lastVc := 0 }

def LnkState.reset : LnkState :=
  { station := none, assignEpoch := 0, manager := none, ports := [], spray := [], unreach := [], timeouts := [],
    lastLost := none, peers := 0, peersNext := none, keys := [], keysNext := [], keysOld := [], trans := [], backlog := [],
    nextTag := 1, kept := [] }

/-- The endpoint at the beginning of a start: as after reset, but for the laser in use and the spare lanes, which
the saved settings keep (R440, R449). -/
def LnkState.restart (l : LnkState) (cold : Bool) : LnkState :=
  { LnkState.reset with
      ports := l.ports.map (fun e => (e.1, { Port.reset with
        spareLaser := !cold && e.2.spareLaser, spare16 := e.2.spare16, spare17 := e.2.spare17,
        failed := e.2.failed, trainFails := e.2.trainFails })) }

def ColState.reset : ColState :=
  { phase := .idle, op := 0, curId := 0, windows := 0, descAddr := 0, desc := [], ref := none, ranks := [], acc := [],
    recs := [], shifts := [], filter := [], got := [], need := [], granted := [], credit := [], toSend := [],
    sent := [], idle := [], transient := false, lost := none, attemptTick := 0, txBytes := 0, rxBytes := 0,
    segs := [], shards := [], dstRaw := [], resulted := false }

def OutState.reset : OutState := { msix := [], mgmt := [], fabric := [] }

/-! ### The whole state -/

/-- The state of the block (the lists of INVENTORY.md, '## State'). `regs` holds the registers that are plain words;
`mem` holds every byte that the device addresses (R329): local HBM and core stores by local offset, host memory at
0x4000_0000_0000 and up, and station x's memory as this device last saw it at (x + 1) · 2^48 and up. `rc` counts
reference cycles; `freeCtr` numbers free values. -/
structure State where
  pending : List Instr
  rc : Nat
  freeCtr : Nat
  regs : Tab Word
  mem : List Host.Cell
  host : HostState
  frm : FrmState
  hbm : HbmState
  boot : BootState
  phys : PhysState
  ras : RasState
  sec : SecState
  lnk : LnkState
  col : ColState
  upd : UpdState
  lup : LupState
  sts : StsState
  dsp : DspState
  out : OutState
  deriving DecidableEq, Repr

/-- The machine right after reset: DEV_STATE RESET, stage 0, the queue empty, memory with nothing listed. -/
def State.reset : State :=
  { pending := [], rc := 0, freeCtr := 0, regs := [], mem := [], host := HostState.reset,
    frm := FrmState.reset, hbm := HbmState.reset, boot := BootState.reset, phys := PhysState.reset,
    ras := RasState.reset, sec := SecState.reset, lnk := LnkState.reset, col := ColState.reset,
    upd := UpdState.reset, lup := LupState.reset, sts := StsState.reset, dsp := DspState.reset,
    out := OutState.reset }

/-- Why the machine stops with a fault. No meaning of this block faults: every error that the spec names has an
effect on the state. The one constructor names a command that breaks WellFormed where a meaning cannot read it;
safe. -/
inductive Fault where
  /-- Raised by no meaning; kept so that the type is inhabited (log entry 4). -/
  | none
  deriving DecidableEq, Repr

/-- Why a command is refused by the model. -/
inductive Refusal where
  /-- Raised by Dispatch for a row without a meaning; safe. -/
  | notModelled (mnemonic : String)
  deriving DecidableEq, Repr

end Sys2Proof.Machine
end

