-- ==== Sys2Proof/Machine/Ops.lean ====
section
/-! DEFINITION. The named operations over the state that every family shares: registers, sticky bits and saturating
counters, MSI-X, the RAS engine, restarts, free values, output, and device memory. -/

namespace Sys2Proof.Machine

/-! ### Registers -/

/-- A register kept as a plain word. -/
def State.reg (s : State) (off : Nat) : Word := tget (regReset off) s.regs off

/-- The state with a plain-word register set. -/
def State.putReg (s : State) (off : Nat) (w : Word) : State := { s with regs := tset s.regs off w }

/-- Bit `i` of a plain-word register. -/
def State.regBit (s : State) (off i : Nat) : Bool := (s.reg off).getLsbD i

/-- Bits lo to hi of a plain-word register. -/
def State.regField (s : State) (off lo hi : Nat) : Nat := bits (s.reg off).toNat lo hi

/-- A sticky bit set (W1C fields, Table 0.6). -/
def State.stick (s : State) (off i : Nat) : State := s.putReg off (wordSet (s.reg off) i)

/-- A saturating counter advanced by `n`. -/
def State.bump (s : State) (off n : Nat) : State := s.putReg off (satAdd (s.reg off) n)

/-- Registers cleared: every offset of the list set to zero. -/
def State.clearRegs (s : State) : List Nat → State
  | [] => s
  | off :: offs => (s.putReg off 0).clearRegs offs

/-- A 64-bit number kept in a _LO and _HI pair. -/
def State.putPair (s : State) (lo hi : Nat) (v : Nat) : State :=
  (s.putReg lo (BitVec.ofNat 32 v)).putReg hi (BitVec.ofNat 32 (v / 2 ^ 32))

def State.pair (s : State) (lo hi : Nat) : Nat := (s.reg lo).toNat + (s.reg hi).toNat * 2 ^ 32

/-! ### Free values -/

/-- The next free value of 64 bits: an open value of the spec (log entry 1). -/
def State.fresh (s : State) : BitVec 64 × State :=
  (Config.freeValue s.freeCtr, { s with freeCtr := s.freeCtr + 1 })

/-! ### MSI-X (R423, R424) -/

/-- The entry of a vector; every vector is masked after reset, as PCI Express resets it (log entry 8). -/
def State.msixEntry (s : State) (v : Nat) : MsixEntry := tget ⟨0, 0, true⟩ s.host.msix v

/-- An event on a vector: a masked vector sets its pending bit, a vector inside its 1 us spacing is covered by the
next message, any other sends its message now. -/
def State.sendVec (s : State) (v : Nat) : State :=
  if (s.msixEntry v).masked then { s with host := { s.host with pba := setBit64 s.host.pba v true } }
  else if s.host.spaced.getLsbD v then { s with host := { s.host with covered := setBit64 s.host.covered v true } }
  else { s with host := { s.host with spaced := setBit64 s.host.spaced v true },
                out := { s.out with msix := s.out.msix ++ [v] } }

/-- The vector of mailbox `m` (Table 13.10). -/
def State.boxVec (s : State) (m : Nat) : Nat :=
  tget (if m = 0 then 0 else 4 + (m - 1) % 60) s.host.vecBox m

/-- The RAS notification vector (Table 13.10). -/
def State.notifyRas (s : State) : State := s.sendVec s.host.vecRas

/-- A frame event: a sticky bit of FRM_STATUS and the frame-event vector (Table 13.10). -/
def State.frameEvent (s : State) (i : Nat) : State := (s.stick Reg.FRM_STATUS i).sendVec s.host.vecFrame

/-! ### Identity of the function (R406) -/

def vendorId : Nat := 0x1F3C
def deviceId : Nat := 0x0940

/-! ### Output -/

/-- A management message noted as sent. -/
def State.noteMgmt (s : State) (m : MgmtOut) : State := { s with out := { s.out with mgmt := s.out.mgmt ++ [m] } }

/-! ### Device state -/

/-- The device's own station number, where one is assigned. -/
def State.isOwn (s : State) (station : Nat) : Bool := station == 0xFFFF || s.lnk.station == some station

/-- DEV_STATE becomes HALTED, and ALERT# is asserted (R572). -/
def State.halt (s : State) (r : StartResult) : State :=
  { s with boot := { s.boot with dev := .halted, result := r }, phys := { s.phys with alert := true } }

/-! ### Restarts (R439 to R441, R505) -/

/-- The host side after a whole restart: the CXL link, the BAR programming, the decoder and the MSI-X table are
kept (R438), the mailboxes and the windows are as after reset (R441; log entry 9). -/
def HostState.restart (h : HostState) : HostState :=
  { HostState.reset with
      cfg := h.cfg, msix := h.msix, hdmDecoder := h.hdmDecoder, linkWidth := h.linkWidth,
      linkRate := h.linkRate, linkActive := h.linkActive, ideIo := h.ideIo, ideCm := h.ideCm,
      ideKeys := h.ideKeys, ideOn := h.ideOn }

/-- Every IDE stream is insecure, until it is re-keyed (R559). -/
def HostState.ideEnd (h : HostState) : HostState := { h with ideIo := false, ideCm := false, ideKeys := [], ideOn := [] }

/-- A change of measurement `i` since the start (Table 17.3). -/
def State.measChanged (s : State) (i : Nat) : State :=
  { s with sec := { s.sec with measChanges := tmod 0 s.sec.measChanges i (· + 1) } }

/-- The boot side at the beginning of a start: flash, fuses and pins are kept. -/
def BootState.restart (b : BootState) (cold : Bool) (cause : Nat) : BootState :=
  { BootState.reset with
      cold := cold, cause := cause, fuses := b.fuses, shadow := b.shadow, persist := b.persist, otherCopy := b.otherCopy,
      journal := b.journal, bankA := b.bankA, bankB := b.bankB, settings := b.settings,
      softRepairs := b.softRepairs, hang := b.hang, badCopies := b.badCopies, flashRcvLow := b.flashRcvLow }

/-- The RAS engine at the beginning of a start: the last-loss area survives every start; the active record, the
queue and the frame counts survive a warm one (R505). -/
def RasState.restart (r : RasState) (cold : Bool) : RasState :=
  if cold then { RasState.reset with lastLoss := r.lastLoss }
  else { RasState.reset with
           lastLoss := r.lastLoss, active := r.active, queue := r.queue, seq := r.seq,
           avSched := r.avSched, avLost := r.avLost, avReplayed := r.avReplayed }

/-- The security processor at the beginning of a start: fuses and the fuse-shadow partition are kept; handles,
sessions, challenges and the debug level are not (R556 to R558). -/
def SecState.restart (x : SecState) : SecState :=
  { SecState.reset with
      ownerKey := x.ownerKey, ownerCounter := x.ownerCounter, ownerFuse := x.ownerFuse,
      ownerMacOk := x.ownerMacOk, svnFloor := x.svnFloor, commitment := x.commitment, chain := x.chain }

/-- The physical side at the beginning of a start: inputs, sensors, pins, ALERT# and the reference detector are
kept, and in a warm start the regulators stay in range, so that lasers and stacks stay powered (R440). -/
def PhysState.restart (p : PhysState) (cold : Bool) : PhysState :=
  { PhysState.reset with
      rails := !cold && p.rails, refPresent := p.refPresent, domains := if p.refPresent then domainsOnRef else [], in0 := p.in0, in1 := p.in1, sensors := p.sensors, missed := p.missed,
      dieTemp := p.dieTemp, dieHottest := p.dieHottest, alert := p.alert, feedStraps := p.feedStraps,
      i3cOut := p.i3cOut, coolDie := p.coolDie, coolStacks := p.coolStacks }

/-- RAS_ counters (R505) and SEC_ counters (Table 17.6): kept through a warm start. -/
def warmKeptRegs : List Nat :=
  [Reg.RAS_CNT_DEFERRED, Reg.RAS_CNT_FRAME_FATAL, Reg.RAS_CNT_STEP_FATAL, Reg.RAS_CNT_DEVICE_FATAL,
   Reg.RAS_CNT_OVERFLOW, Reg.RAS_CNT_MAPIN, Reg.RAS_CNT_MIRROR, Reg.RAS_CNT_MIRROR_LATE, Reg.RAS_CNT_FILL,
   Reg.SEC_CNT_SIG_FAIL, Reg.SEC_CNT_ATTEST, Reg.SEC_CNT_DEBUG_FAIL, Reg.SEC_CNT_SPDM_ERR]

/-- The registers that a start keeps. -/
def keptRegs (s : State) (cold : Bool) : Tab Word :=
  if cold then [] else s.regs.filter (fun e => warmKeptRegs.contains e.1)

/-- The device restarts: everything is as after reset but for what a start keeps. Memory contents stay until the
zero-fill of stage 6 (R441); the commands waiting outside the device, its log of what it sent, and time go on. -/
def State.restart (s : State) (cold : Bool) (cause : Nat) : State :=
  { State.reset with
      host := s.host.restart, boot := s.boot.restart cold cause, ras := s.ras.restart cold,
      sec := s.sec.restart, phys := s.phys.restart cold, regs := keptRegs s cold, mem := s.mem, rc := s.rc,
      freeCtr := s.freeCtr, out := s.out, pending := s.pending,
      lnk := s.lnk.restart cold, hbm := s.hbm.restart }

/-! ### The RAS engine (R501 to R505) -/

/-- The record classes of Table 16.3. -/
inductive RasClass where
  | csUe | nocUe | facetFault | hbmPoison | remoteFail | hostAccess | frameFault | replaySkipped | refused
  | tickLost | peerLost | verdictLate | coreHard | mirrorLate | hbmDegraded | sensorFail | portEvent
  | unreachable | cxlDown | feedLow | overBudget | muxHangIdle | sparesLow | hostLogLag | stackCritical
  | dieCritical | clockFail | railFault | powerLoss | noSpareCore | shellFault | doubleFatal
  deriving DecidableEq, Repr

/-- Code of a class (Table 16.3). -/
def RasClass.code : RasClass → Nat
  | .csUe => 0x01 | .nocUe => 0x02 | .facetFault => 0x03 | .hbmPoison => 0x04 | .remoteFail => 0x05
  | .hostAccess => 0x06 | .frameFault => 0x10 | .replaySkipped => 0x11 | .refused => 0x12 | .tickLost => 0x13
  | .peerLost => 0x14 | .verdictLate => 0x15 | .coreHard => 0x16 | .mirrorLate => 0x17 | .hbmDegraded => 0x20
  | .sensorFail => 0x21 | .portEvent => 0x22 | .unreachable => 0x23 | .cxlDown => 0x24 | .feedLow => 0x25
  | .overBudget => 0x26 | .muxHangIdle => 0x27 | .sparesLow => 0x28 | .hostLogLag => 0x29
  | .stackCritical => 0x30 | .dieCritical => 0x31 | .clockFail => 0x32 | .railFault => 0x33
  | .powerLoss => 0x34 | .noSpareCore => 0x35 | .shellFault => 0x36 | .doubleFatal => 0x37

/-- Severity of a class (Table 16.3): 1 deferred, 2 frame-fatal, 3 step-fatal, 4 device-fatal. -/
def RasClass.severity (c : RasClass) : Nat :=
  if c.code < 0x10 then 2 else if c.code < 0x20 then 3 else if c.code < 0x30 then 1 else 4

/-- Whether record `a` stands before record `b` in the queue: descending severity, then arrival. -/
def rasBefore (a b : RasRecord) : Bool :=
  decide (b.severity < a.severity) || (a.severity == b.severity && decide (a.seq < b.seq))

/-- A record put into the ordered queue. -/
def rasInsert (r : RasRecord) : List RasRecord → List RasRecord
  | [] => [r]
  | q :: qs => if rasBefore r q then r :: q :: qs else q :: rasInsert r qs

/-- A record, new or preempted, joins the queue of 15; from a full queue the last in order is discarded (R503). -/
def State.rasEnqueue (s : State) (r : RasRecord) : State :=
  let q := rasInsert r s.ras.queue
  if q.length ≤ 15 then { s with ras := { s.ras with queue := q } }
  else (({ s with ras := { s.ras with queue := q.take 15 } }).bump Reg.RAS_CNT_OVERFLOW 1).stick Reg.RAS_STATUS 3

/-- A record written to the ring of 64 of the last-loss area (R505). -/
def State.writeLastLoss (s : State) (r : RasRecord) : State :=
  let l := s.ras.lastLoss ++ [{ r with lastLoss := true }]
  { s with ras := { s.ras with lastLoss := l.drop (l.length - 64) } }

/-- The counter of a severity (Table 16.11). -/
def rasCounter (sev : Nat) : Nat :=
  if sev = 1 then Reg.RAS_CNT_DEFERRED else if sev = 2 then Reg.RAS_CNT_FRAME_FATAL
  else if sev = 3 then Reg.RAS_CNT_STEP_FATAL else Reg.RAS_CNT_DEVICE_FATAL

/-- Counting an arriving record: its counter, its sticky bit, and the notification that RAS_CFG enables. -/
def State.rasArrive (s : State) (sev : Nat) : State :=
  let s1 := s.bump (rasCounter sev) 1
  let s2 := if sev ≤ 3 then s1.stick Reg.RAS_STATUS (sev - 1) else s1
  if (sev == 1 && s2.regBit Reg.RAS_CFG 0) || ((sev == 2 || sev == 3) && s2.regBit Reg.RAS_CFG 1)
  then s2.notifyRas else s2

/-- Placing an arriving record (R503). -/
def State.rasPlace (s : State) (r : RasRecord) : State :=
  match s.ras.active with
  | none => { s with ras := { s.ras with active := some r } }
  | some a =>
    if a.severity < r.severity then
      ({ s with ras := { s.ras with active := some r } }).rasEnqueue { a with preempted := true }
    else s.rasEnqueue r

/-- The device actions at the moment of detection that no queue delays (R502): a step-fatal error makes the step
uncommittable; a device-fatal one asserts ALERT# (R572) and leaves the reset of R504 due. -/
def State.rasAct (s : State) (sev : Nat) : State :=
  if sev = 3 then { s with frm := { s.frm with uncommittable := true }, ras := { s.ras with ownFatalStep := true } }
  else if sev = 4 then
    { s with ras := { s.ras with fatalPending := true }, phys := { s.phys with alert := true } }
  else s

/-- A device-fatal record while one is active: written to the last-loss area with class DOUBLE_FATAL, and the device resets at
once (R503); the next record of the queue becomes active. -/
def State.doubleFatal (s : State) (r : RasRecord) : State :=
  let s1 := s.writeLastLoss { r with cls := RasClass.doubleFatal.code }
  ({ s1 with ras := { s1.ras with active := s1.ras.queue.head?, queue := s1.ras.queue.drop 1, fatalPending := false },
             phys := { s1.phys with alert := true } }).restart false 5

/-- An error record raised: counted, acted on and placed. A device-fatal record while one is active resets the device
at once with class DOUBLE_FATAL (R503). -/
def State.raiseFull (s : State) (c : RasClass) (u : UnitId) (detail : Nat) (half : Bool) : State :=
  let r : RasRecord :=
    { severity := c.severity, cls := c.code, unit := u, seq := s.ras.seq, preempted := false, half := half,
      lastLoss := false, tick := s.frm.tick, detail := detail, step := s.upd.t }
  let s1 := ({ s with ras := { s.ras with seq := s.ras.seq + 1 } }).rasArrive c.severity
  match s.ras.active with
  | some a =>
    if a.severity = 4 && c.severity == 4 then
      s1.doubleFatal r
    else (s1.rasPlace r).rasAct c.severity
  | none => (s1.rasPlace r).rasAct c.severity

/-- An error record raised, not of a split-mode half 1. -/
def State.raise (s : State) (c : RasClass) (u : UnitId) (detail : Nat) : State := s.raiseFull c u detail false

/-! ### The boot journal (R460, R469) -/

/-- A journal entry appended; the ring holds 64,512. -/
def State.journal (s : State) (type status : Nat) (body : List Byte) : State :=
  let e : JournalEntry :=
    { type := type, stage := s.boot.stage, status := status, startNo := s.boot.persist.startNo,
      timeMs := (s.rc - s.boot.stage0Rc) / 100000, body := slice body 0 48 }
  let j := s.boot.journal ++ [e]
  { s with boot := { s.boot with journal := j.drop (j.length - 64512) } }

/-- The persistent block rewritten, to the copy not last written: the copy that held it keeps what it held (R459). -/
def State.persist (s : State) (f : Persistent → Persistent) : State :=
  { s with boot := { s.boot with
      persist := { f s.boot.persist with seq := s.boot.persist.seq + 1 }, otherCopy := s.boot.persist } }

/-- A part that leaves the throttle state has been in it in this frame. -/
def State.noteCooled (s : State) (i : Nat) (from_ : Therm) : State :=
  match from_ with
  | .throttle => { s with frm := { s.frm with cooled := i :: s.frm.cooled } }
  | _ => s

end Sys2Proof.Machine
end

