-- ==== Sys2Proof/Machine/RegRead.lean ====
section
/-! DEFINITION. Reading the register window (R431, R432): a register is a plain word, or is computed from the state
that holds it. Reserved bits read zero because no plain word ever has one set. -/

namespace Sys2Proof.Machine

/-- A word of fields: each value placed at its lowest bit. -/
def packWord (fs : List (Nat × Nat)) : Word := BitVec.ofNat 32 (sumNat (fs.map (fun f => f.2 * 2 ^ f.1)))

/-! ### Shared views -/

/-- Mailbox `m`. -/
def State.box (s : State) (m : Nat) : Mailbox := tget Mailbox.reset s.host.boxes m

/-- The lower or upper half of MBX_DONE: bit m for a mailbox that is DONE. -/
def State.doneBits (s : State) (base : Nat) : Word :=
  packWord ((List.range 32).map (fun i => (i, b2n (decide ((s.box (base + i)).st = .done)))))

/-- FRM_MODE_STATE.STATE: 0 STEADY, 1 ARMED, 2 RETAIN, 3 HALTED (ARMED shows before HALTED, HALTED before RETAIN; log
entry 12). -/
def FrmState.modeState (f : FrmState) : Nat :=
  if f.armed.isSome then 1 else if f.halted then 3 else if f.retained.isSome then 2 else 0

/-- Frames left in the retention window (R68). -/
def FrmState.retainLeft (f : FrmState) : Nat := if f.retained.isSome then 4 - f.framesSinceSwitch else 0

def Therm.code : Therm → Nat
  | .normal => 0 | .warning => 1 | .throttle => 2 | .critical => 3

/-- The thermal record of a stack. -/
def State.stack (s : State) (i : Nat) : StackTherm := tget StackTherm.reset s.hbm.therms i

/-- A channel of 0 to 255. -/
def State.chan (s : State) (c : Nat) : Channel := tget Channel.reset s.hbm.channels c

/-- HBM_LANE_MAP of a channel. -/
def Channel.laneMap (c : Channel) : Word := packWord [(0, c.spare0), (8, c.spare1)]

/-- HBM_ERASE i of a channel. -/
def Channel.erase (c : Channel) (i : Nat) : Word :=
  match c.marks[i]? with
  | none => 0
  | some m => packWord [(0, m.lane), (7, 1), (8, m.bank.getD 0), (14, b2n m.bank.isNone)]

/-- HBM_PPR_FREE of a channel: 2 spare rows in each of 64 banks. -/
def Channel.pprFree (c : Channel) : Word :=
  packWord [(0, 128 - sumNat (c.rowsUsed.map (·.2))), (8, (c.rowsUsed.filter (fun e => decide (2 ≤ e.2))).length)]

def State.hbmTherm (s : State) (i : Nat) : Word :=
  packWord [(0, (s.stack i).temp), (8, (s.stack i).state.code), (16, (s.stack i).peak)]

def State.thermAll (s : State) : Word :=
  packWord ((List.range 8).map (fun i => (2 * i, (s.stack i).state.code)))

/-- A physical core's fuse rows: eight bytes, two for each facet, 0x7F for none (Table 14.4). -/
def Fuses.coreRows (f : Fuses) (p : Nat) : List Byte := tget (List.replicate 8 0x7F) f.rows p

/-- Spare rows in use in facet `f` of a core: one for each failed row among the first 64; a failed spare row adds none
(R171). -/
def spareRows (rows : List Byte) (f : Nat) : Nat :=
  ((slice rows (2 * f) 2).filter (fun b => decide (b.toNat % 128 < 64))).length

/-- Pipeline depth of a core: 140 ac, one more for each spare row in use in the facet that uses most, at most 142
(R158, R159). -/
def coreDepth (rows : List Byte) : Nat :=
  140 + Nat.max (Nat.max (spareRows rows 0) (spareRows rows 1)) (Nat.max (spareRows rows 2) (spareRows rows 3))

/-- Skew registers as stage 4 loads them: before stage 4 a core shows no repair. -/
def State.loadedRows (s : State) (p : Nat) : List Byte :=
  if s.boot.fusesRead then s.boot.fuses.coreRows p else List.replicate 8 0x7F

/-- The physical core that holds a logical number (R22, R455). -/
def State.physOf (s : State) (logical : Nat) : Option Nat :=
  (s.boot.logical.find? (fun e => e.1 == logical)).map (·.2)

/-- The logical number of a physical core, where it holds one. -/
def State.logicalOf (s : State) (p : Nat) : Option Nat :=
  (s.boot.logical.find? (fun e => e.2 == p)).map (·.1)

/-- The physical core that FAC_CORE_SEL shows. -/
def State.selCore (s : State) (sel : Word) : Nat :=
  let i := bits sel.toNat 0 9
  if sel.getLsbD 15 then i else (s.physOf i).getD 0

def State.facDepth (s : State) (p : Nat) : Word :=
  let r := s.loadedRows p
  packWord [(0, coreDepth r), (8, spareRows r 0), (10, spareRows r 1), (12, spareRows r 2), (14, spareRows r 3)]

/-- FAC_DEPTH_MAX over all 544 cores (R159). -/
def State.facDepthMax (s : State) : Nat :=
  if s.boot.fusesRead then s.boot.fuses.rows.foldl (fun m e => Nat.max m (coreDepth e.2)) 140 else 140

/-- A physical core that is mapped out: one that a map-in returns to service stays so until its tick (R174, R511). -/
def State.outOfUse (s : State) (p : Nat) : Bool := s.boot.persist.mappedOut.contains p || s.boot.returning.contains p

/-- The 32 spare positions and the state of each: free means that it holds no logical number, is not mapped out and
passed the last stage 7 and stage 8 (R456, R457). -/
def State.freeSpares (s : State) : List Nat :=
  (List.range 544).filter (fun p =>
    (s.logicalOf p).isNone && !s.boot.persist.mappedOut.contains p && !s.boot.stage7Failed.contains p
      && !s.boot.selfTest.cores.getLsbD p)

/-- Package power limit of an aperture in W (Table 0.1). -/
def powerLimit (aperture : Nat) : Nat := if aperture = 36 then 2400 else if aperture = 32 then 1950 else 1500

/-- The guard limit in force, W (R488): LIMIT_PCT % of the running aperture's limit, 90 % of that while HOT. -/
def State.guardLimit (s : State) : Nat :=
  let l := powerLimit s.boot.running * s.regField Reg.PWR_CFG 0 6 / 100
  if s.phys.die = .throttle then l * 90 / 100 else l

/-- The sum of the last 1,000 power samples, in 0.1 mW (R488). -/
def PhysState.sum (p : PhysState) : Nat := sumNat (p.samples.take 1000)

/-- The rolling average of the last 1,000 power samples, whole W (R488). An average above 65,535 W shows in the bits
above the field of R10 (DESIGN CHOICE, log entry 42). -/
def PhysState.avg (p : PhysState) : Nat := p.sum / 10000000

def State.thmDie (s : State) : Word :=
  packWord [(0, s.phys.dieTemp), (8, s.phys.die.code), (10, s.phys.dieHottest), (16, s.phys.diePeak)]

/-- CLK_DOMAIN of a domain: state, class and deviation. -/
def ClockPhase.code : ClockPhase → Nat
  | .off => 0 | .onRef => 1 | .locking => 2 | .onPll => 3

def State.domain (s : State) (d : Nat) : ClockDomain := tget ClockDomain.reset s.phys.domains d

/-- Expected count N of a domain's window (R475): multiple × 2^16 / D. -/
def expectedCount (aperture d : Nat) : Nat :=
  if d = 2 then aperture * 65536
  else if d = 3 then 24 * 65536
  else if 4 ≤ d ∧ d ≤ 11 then 70 * 65536 / 4
  else if 12 ≤ d ∧ d ≤ 35 then 544000
  else if d = 36 then 160 * 65536 / 8
  else if d = 0 then 12 * 65536 else 4 * 65536

/-- The multiple at which the ARITH domain is being relocked, else the running one. -/
def State.lockMultiple (s : State) : Nat :=
  match s.phys.apSelect with
  | some (_, a) => a
  | none => s.boot.running

/-- Deviation of the last window in 0.01 ppm, as s16 (rounded toward minus infinity and held in the field's range; log
entry 13). -/
def State.deviation (s : State) (d : Nat) : Nat :=
  let n := expectedCount s.lockMultiple d
  let c := (s.domain d).count
  if c = 0 then 0 else
  let x : Int := ((c : Int) - n) * 100000000 / n
  ofInt 16 (if x > 32767 then 32767 else if x < -32768 then -32768 else x)

def State.clkDomain (s : State) (d : Nat) : Word :=
  packWord [(0, (s.domain d).phase.code), (2, b2n (decide (2 ≤ d))), (16, s.deviation d)]

/-! ### Clock gate tree (R482 to R484) -/

/-- Parent of a gate node: the root for a column, a column for a core (Table 15.3). -/
def gateParent (n : Nat) : Option Nat :=
  if n = 0 then none else if n ≤ 34 then some 0 else if 64 ≤ n ∧ n ≤ 607 then some (1 + (n - 64) % 34) else none

/-- The nodes of the gate tree. -/
def gateNode (n : Nat) : Bool := decide (n ≤ 34) || (decide (64 ≤ n) && decide (n ≤ 607))

def gateChildren (n : Nat) : List Nat :=
  if n = 0 then (List.range 34).map (· + 1)
  else if n ≤ 34 then (List.range 16).map (fun y => 64 + 34 * y + (n - 1)) else []

def State.gateOn (s : State) (n : Nat) : Bool := gateNode n && !s.phys.gatesOff.contains n

/-- A node's clock runs: the node and every node above it are enabled (R482). -/
def State.gateRuns (s : State) (n : Nat) : Bool :=
  s.gateOn n && (match gateParent n with
    | none => true
    | some p => s.gateOn p && (p == 0 || s.gateOn 0))

def State.gateChildOn (s : State) (n : Nat) : Bool := (gateChildren n).any s.gateOn

/-- Cores below a node, the node itself where it is a core. -/
def gateCores (n : Nat) : List Nat :=
  if n = 0 then List.range 544
  else if n ≤ 34 then (List.range 16).map (fun y => 34 * y + (n - 1))
  else if 64 ≤ n ∧ n ≤ 607 then [n - 64] else []

/-- A core below (or at) the node holds a logical number. -/
def State.gateHolds (s : State) (n : Nat) : Bool := (gateCores n).any (fun p => (s.logicalOf p).isSome)

/-- CLK_GATE.LOCKED: a core below holds a logical number, or the core is mapped out. -/
def State.gateLocked (s : State) (n : Nat) : Bool :=
  s.gateHolds n || (decide (64 ≤ n) && s.outOfUse (n - 64))

def State.clkGate (s : State) (n : Nat) : Word :=
  packWord [(0, b2n (s.gateOn n)), (1, b2n (s.gateChildOn n)), (2, b2n (s.gateLocked n))]

/-! ### Fabric -/

def State.port (s : State) (n : Nat) : Port := tget Port.reset s.lnk.ports n

def PortPhase.code : PortPhase → Nat
  | .down => 0 | .training => 1 | .up => 2 | .swapping => 3 | .disabled => 4

/-- A port that is UP or SWAPPING. -/
def State.portLive (s : State) (n : Nat) : Bool :=
  decide ((s.port n).phase = .up) || decide ((s.port n).phase = .swapping)

def State.livePorts (s : State) : Nat := ((List.range 24).filter s.portLive).length

def State.portsLive (s : State) : Word :=
  packWord ((List.range 24).map (fun n => (n, b2n (s.portLive n))) ++ [(24, s.livePorts)])

def Port.stateWord (p : Port) : Word :=
  packWord [(0, p.phase.code), (3, b2n p.spareLaser), (4, b2n (p.spare16 != 0xFF) + b2n (p.spare17 != 0xFF)),
    (8, p.worst)]

def Port.laneMap (p : Port) : Word := packWord [(0, p.spare16), (8, p.spare17)]

def State.lnkStation (s : State) : Word :=
  match s.lnk.station with
  | none => 0
  | some n => packWord [(0, n), (16, 1)]

/-! ### Bring-up and failure paths -/

def DevState.code : DevState → Nat
  | .reset => 0 | .booting => 1 | .ready => 2 | .halted => 3

def StartResult.code : StartResult → Nat
  | .inProgress => 0 | .ready => 1 | .halted => 2 | .safeHalt => 3

def State.bootState (s : State) : Word :=
  packWord [(0, s.boot.stage), (4, b2n s.boot.cold), (8, s.boot.cause), (16, s.boot.result.code)]

def State.scp (s : State) (i : Nat) : Scp := tget Scp.reset s.boot.scps i

def State.bootFw (s : State) : Word :=
  packWord ([(0, b2n s.boot.persist.preferredB), (1, b2n s.boot.startedB), (6, b2n s.boot.persist.aValid),
    (7, b2n s.boot.persist.bValid), (8, b2n ((List.range 4).any (fun i => (s.scp i).swapTo.isSome)))]
    ++ (List.range 4).map (fun i => (2 + i, b2n (s.scp i).bankB)))

/-- BOOT_CORES: zero until stage 7 has built the logical core table (R455, Table 14.9). -/
def State.bootCores (s : State) : Word :=
  if s.boot.logical.isEmpty then 0
  else packWord [(0, s.boot.logical.length), (16, Nat.min 32 s.freeSpares.length),
    (24, Nat.min 32 s.boot.persist.mappedOut.length)]

def State.rasActive (s : State) : Word :=
  match s.ras.active with
  | none => packWord [(16, s.ras.queue.length)]
  | some r => packWord [(0, r.cls), (8, r.severity), (16, s.ras.queue.length)]

def MirrorPhase.code : MirrorPhase → Nat
  | .unpaired => 0 | .pending => 1 | .paired => 2 | .feedRefused => 3 | .filling => 4

/-- RAS_MIRROR: OVERRIDE shows once a pairing on one feed has proceeded (R517). -/
def State.rasMirror (s : State) : Word :=
  let p := s.ras.mirror.phase
  packWord [(0, p.code), (3, b2n (s.ras.mirror.override && (p == .paired || p == .filling))), (16, s.ras.mirror.partner)]

/-- Header of the image in half 0 or 1 of the Mirror window that this device holds (Table 16.7): half 1 lies H bytes on. -/
def State.heldHeader (s : State) (half : Nat) : List Byte :=
  let w := s.ras.mirror.windowBase % 2 ^ 48 + 0x10000
  let h := mreads s.mem w 256
  if half = 0 then h else mreads s.mem (w + roundUp (u64At h 96) 65536) 256

/-- t of a complete image held for the partner. -/
def State.heldT (s : State) (half : Nat) : Option Nat :=
  let h := s.heldHeader half
  if s.ras.mirror.windowOpen && u32At h 0 == 0x474D494D && u32At h 24 == 2 then some (u64At h 8) else none

/-- t of the newest complete image held, and of the other half where it is complete too. -/
def State.heldPair (s : State) : Nat × Nat :=
  match s.heldT 0, s.heldT 1 with
  | some a, some b => (Nat.max a b, Nat.min a b)
  | some a, none => (a, 0)
  | none, some b => (b, 0)
  | none, none => (0, 0)

def State.rasFeed (s : State) : Word :=
  packWord [(0, s.ras.feedId), (8, b2n s.ras.fromStraps), (16, s.ras.mirror.partnerFeed)]

/-- The device identity (R551): the first 8 bytes of the SHA-256 of the identity public key, once derived. -/
def State.identity (s : State) : List Byte :=
  if s.sec.identityKey.isEmpty then List.replicate 8 0 else (sha256 s.sec.identityKey).take 8

/-! ### Update engines and commit (Table 7.10) -/

/-- The step descriptor attached to the current program. -/
def State.stepBytes (s : State) : Option (List Byte) :=
  match s.frm.curProg with
  | some p => p.step.map (fun d => d.bytes)
  | none => none

/-- ROUNDS of a step descriptor, and FWD_FIRST and BWD_FIRST of a round. -/
def stepRounds (b : List Byte) : Nat := u8At b 6
def fwdFirst (b : List Byte) (r : Nat) : Nat := u32At b (64 + 8 * r)
def bwdFirst (b : List Byte) (r : Nat) : Nat := u32At b (68 + 8 * r)

/-- The round that frame `f` lies in, and whether it lies in its backward range. -/
def roundOf (b : List Byte) (f : Nat) : Nat × Bool :=
  let r := ((List.range (stepRounds b)).filter (fun r => decide (fwdFirst b r ≤ f))).length - 1
  (r, decide (bwdFirst b r ≤ f))

def State.commitState (s : State) : Word :=
  let st := match s.upd.commit with
    | .idle => 0
    | .running => if s.frm.uncommittable then 3 else 1
    | .window => if s.frm.uncommittable then 3 else 2
  let rd := match s.stepBytes with
    | some b => if s.upd.commit == CommitPhase.idle then (0, false) else roundOf b s.frm.frameIndex
    | none => (0, false)
  packWord [(0, st), (2, s.upd.last), (4, rd.1), (8, b2n rd.2)]

/-- The commit list of a stack. -/
def State.commitList (s : State) (k : Nat) : List UpdPair := tget [] s.upd.lists k

def State.listMax (s : State) : Word :=
  let best := (List.range 8).foldl (fun b k =>
    if (s.commitList b).length < (s.commitList k).length then k else b) 0
  packWord [(0, (s.commitList best).length), (13, best)]

def State.progMap (s : State) : Word := packWord ((0, 15) :: (s.upd.programs.filter (fun e => decide (4 ≤ e.1))).map (fun e => (e.1, 1)))

/-! ### The stash manager (Table 9.4) -/

/-- TARGET_KIND of the stash descriptor in force. -/
def State.targetKind (s : State) : Nat :=
  match s.sts.desc with
  | some d => u8At d 68
  | none => 0

/-- Ring occupancy: the groups that hold ring space, off-loads in flight included (R273). -/
def State.ringUse (s : State) : Nat := sumNat ((s.sts.groups.filter (fun g => g.inRing)).map (fun g => g.size))

/-- Target space in use. -/
def State.targetUse (s : State) : Nat := sumNat ((s.sts.groups.filter (fun g => g.inTarget)).map (fun g => g.size))

def State.stashState (s : State) : Word :=
  packWord [(0, if s.sts.desc.isNone then 0 else if s.upd.commit == CommitPhase.idle then 1 else 2),
    (2, b2n (s.targetKind != 0 && !s.sts.lost)), (3, b2n s.sts.full)]

def State.firstRecomp (s : State) : Word :=
  match s.sts.first with
  | some g => packWord [(0, g), (16, match s.sts.groups[g]? with
      | some x => u16At x.raw 0
      | none => 0), (31, 1)]
  | none => 0

/-! ### The Loupe (Table 8.11) -/

def LoupePhase.code : LoupePhase → Nat
  | .unloaded => 0 | .run => 1 | .hold => 2 | .stopped => 3

def State.lupState (s : State) : Word :=
  packWord [(0, s.lup.phase.code), (2, s.lup.n), (4, b2n s.frm.double), (8, s.lup.nonnum)]

/-- The image of an update-program slot, 32 zero bytes for an empty one (Table 17.2). -/
def State.slotImage (s : State) (n : Nat) : List Byte := tget (List.replicate 32 0) s.upd.programs n

/-! ### The dispatch engine (Table 10.7) -/

/-- A dispatch job runs. -/
def State.dspBusy (s : State) : Bool := !s.dsp.jobs.isEmpty

/-- Base of the queue table. -/
def State.queueTable (s : State) : Nat := s.pair Reg.DSP_QTABLE_ADDR_LO Reg.DSP_QTABLE_ADDR_HI

/-- A queue descriptor as cached, or as in the table in local HBM. -/
def State.queueDesc (s : State) (qid : Nat) : List Byte :=
  match s.dsp.cache.find? (fun e => e.1 == qid) with
  | some e => e.2
  | none => mreads s.mem (s.queueTable % 2 ^ 48 + 64 * qid) 64

/-- PIN of a queue descriptor. -/
def queuePinned (d : List Byte) : Bool := bit (u8At d 0) 5

def State.cacheState (s : State) : Word :=
  packWord [(0, s.dsp.cache.length), (16, (s.dsp.cache.filter (fun e => queuePinned e.2)).length)]

end Sys2Proof.Machine
end

