-- ==== Sys2Proof/Machine/RegView.lean ====
section
/-! DEFINITION. The register window as software reads it: one view for each register that other state holds; every
other implemented register is a plain word, and reserved or unimplemented offsets read zero (R432). -/

namespace Sys2Proof.Machine

def loWord (v : Nat) : Word := BitVec.ofNat 32 v
def hiWord (v : Nat) : Word := BitVec.ofNat 32 (v / 2 ^ 32)

/-- Views of the MBX_ block. -/
def viewsMbx : List (Nat × (State → Word)) :=
  [(Reg.MBX_DONE_LO, fun s => s.doneBits 0), (Reg.MBX_DONE_HI, fun s => s.doneBits 32),
   (Reg.MBX_HDM_BASE_LO, fun s => loWord s.host.hdmBase), (Reg.MBX_HDM_BASE_HI, fun s => hiWord s.host.hdmBase),
   (Reg.MBX_HDM_SIZE, fun s => loWord s.host.hdmUnits),
   (Reg.MBX_HOST_LIMIT_LO, fun s => loWord s.host.hostLimit),
   (Reg.MBX_HOST_LIMIT_HI, fun s => hiWord s.host.hostLimit),
   (Reg.MBX_LINK, fun s => packWord [(0, s.host.linkWidth), (4, s.host.linkRate), (12, b2n s.host.linkActive),
     (13, b2n s.host.ideIo), (14, b2n s.host.ideCm)])]

/-- Views of the FRM_ block. FRM_STATUS, FRM_STRETCH and FRM_ALIGN_CFG are plain words with RO fields added. -/
def viewsFrm : List (Nat × (State → Word)) :=
  [(Reg.FRM_CFG, fun s => packWord [(0, s.frm.lenExp), (8, s.frm.guard)]),
   (Reg.FRM_PHASE, fun s => loWord (Nat.min s.frm.phase 262143)),
   (Reg.FRM_TICK_LO, fun s => loWord s.frm.tick.toNat), (Reg.FRM_TICK_HI, fun s => hiWord s.frm.tick.toNat),
   (Reg.FRM_EPOCH, fun s => packWord [(0, s.frm.epoch.toNat), (16, match s.frm.armed with
     | some a => a.epoch.toNat
     | none => 0)]),
   (Reg.FRM_MODE_STATE, fun s => packWord [(0, s.frm.modeState), (2, s.frm.retainLeft)]),
   (Reg.FRM_ARM_TICK_LO, fun s => loWord s.frm.armTick.toNat),
   (Reg.FRM_ARM_TICK_HI, fun s => hiWord s.frm.armTick.toNat),
   (Reg.FRM_PROG_ID, fun s => loWord (match s.frm.curProg with
     | some p => p.progId
     | none => 0)),
   (Reg.FRM_PLAN_ID, fun s => loWord (match s.frm.curPlan with
     | some p => p.planId
     | none => 0)),
   (Reg.FRM_STATUS, fun s => s.reg Reg.FRM_STATUS |||
     packWord [(16, b2n (decide (0 < s.frm.stretchLeft))), (17, b2n s.frm.stretchRequested)]),
   (Reg.FRM_STRETCH, fun s => s.reg Reg.FRM_STRETCH |||
     packWord [(16, if 0 < s.frm.stretchLeft then s.frm.stretchAmt else 0), (24, s.frm.stretchLeft)]),
   (Reg.FRM_ALIGN_OFS, fun s => loWord (ofInt 16 s.frm.alignOfs))]

/-- Views of the FAC_, HBM_, LNK_ and COL_ blocks; per-unit registers show the unit that the selector names. -/
def viewsUnits : List (Nat × (State → Word)) :=
  [(Reg.FAC_HALF_STS, fun s => loWord (tget 0 s.frm.halfSts (s.selCore (s.reg Reg.FAC_CORE_SEL)))),
   (Reg.FAC_DEPTH, fun s => s.facDepth (s.selCore (s.reg Reg.FAC_CORE_SEL))),
   (Reg.FAC_DEPTH_MAX, fun s => loWord s.facDepthMax),
   (Reg.FAC_REPAIR_F0, fun s => loWord (u16At (s.loadedRows (s.selCore (s.reg Reg.FAC_CORE_SEL))) 0)),
   (Reg.FAC_REPAIR_F1, fun s => loWord (u16At (s.loadedRows (s.selCore (s.reg Reg.FAC_CORE_SEL))) 2)),
   (Reg.FAC_REPAIR_F2, fun s => loWord (u16At (s.loadedRows (s.selCore (s.reg Reg.FAC_CORE_SEL))) 4)),
   (Reg.FAC_REPAIR_F3, fun s => loWord (u16At (s.loadedRows (s.selCore (s.reg Reg.FAC_CORE_SEL))) 6)),
   (Reg.HBM_LAYOUT, fun s => loWord s.hbm.split), (Reg.HBM_THERM_ALL, fun s => s.thermAll),
   (Reg.HBM_THERM, fun s => s.hbmTherm (s.regField Reg.HBM_CHAN_SEL 5 7)),
   (Reg.HBM_LANE_MAP, fun s => (s.chan (s.regField Reg.HBM_CHAN_SEL 0 7)).laneMap),
   (Reg.HBM_ERASE0, fun s => (s.chan (s.regField Reg.HBM_CHAN_SEL 0 7)).erase 0),
   (Reg.HBM_ERASE1, fun s => (s.chan (s.regField Reg.HBM_CHAN_SEL 0 7)).erase 1),
   (Reg.HBM_ERASE2, fun s => (s.chan (s.regField Reg.HBM_CHAN_SEL 0 7)).erase 2),
   (Reg.HBM_ERASE3, fun s => (s.chan (s.regField Reg.HBM_CHAN_SEL 0 7)).erase 3),
   (Reg.HBM_PPR_FREE, fun s => (s.chan (s.regField Reg.HBM_CHAN_SEL 0 7)).pprFree),
   (Reg.LNK_STATION, fun s => s.lnkStation), (Reg.LNK_PORTS_LIVE, fun s => s.portsLive),
   (Reg.LNK_PORT_STATE, fun s => (s.port (s.regField Reg.LNK_PORT_SEL 0 4)).stateWord),
   (Reg.LNK_LANE_MAP, fun s => (s.port (s.regField Reg.LNK_PORT_SEL 0 4)).laneMap),
   (Reg.LNK_LAST_LOST, fun s => match s.lnk.lastLost with
     | some n => packWord [(0, n), (16, 1)]
     | none => 0),
   (Reg.COL_STATE, fun s => packWord [(0, match s.col.phase with
     | .idle => 0
     | .running => 1
     | .overrun => 2), (2, s.col.op), (8, if s.col.phase = .idle then 0 else s.col.windows)]),
   (Reg.COL_CUR_ID, fun s => loWord s.col.curId)]

/-- Views of the BOOT_, CLK_, PWR_, THM_ blocks. -/
def viewsPhys : List (Nat × (State → Word)) :=
  [(Reg.BOOT_STATE, fun s => s.bootState),
   (Reg.BOOT_APERTURE, fun s => packWord [(0, s.boot.fuses.aperture), (8, s.boot.persist.aperture),
     (16, s.boot.running)]),
   (Reg.BOOT_FW, fun s => s.bootFw), (Reg.BOOT_CORES, fun s => s.bootCores),
   (Reg.BOOT_EXCLUDE, fun s => packWord [(0, s.boot.persist.exclStacks.toNat),
     (8, s.boot.persist.exclPorts.toNat)]),
   (Reg.BOOT_START_NO, fun s => loWord s.boot.persist.startNo), (Reg.BOOT_START_MS, fun s => loWord s.boot.startMs),
   (Reg.BOOT_CNT_WARM, fun s => s.boot.persist.cntWarm), (Reg.BOOT_CNT_COLD, fun s => s.boot.persist.cntCold),
   (Reg.BOOT_CNT_FULL_TRAIN, fun s => s.boot.persist.cntFullTrain),
   (Reg.BOOT_CNT_MAPOUT, fun s => s.boot.persist.cntMapout),
   (Reg.BOOT_CNT_BANK_FALLBACK, fun s => s.boot.persist.cntFallback),
   (Reg.BOOT_CNT_SAFE_HALT, fun s => s.boot.persist.cntSafeHalt),
   (Reg.CLK_DOMAIN, fun s => s.clkDomain (s.regField Reg.CLK_DOMAIN_SEL 0 5)),
   (Reg.CLK_GATE, fun s => s.clkGate (s.regField Reg.CLK_GATE_SEL 0 9)),
   (Reg.PWR_LIMIT_W, fun s => loWord s.guardLimit), (Reg.PWR_AVG_W, fun s => loWord s.phys.avg),
   (Reg.PWR_IN0, fun s => packWord [(0, s.phys.in0.1), (16, s.phys.in0.2)]),
   (Reg.PWR_IN1, fun s => packWord [(0, s.phys.in1.1), (16, s.phys.in1.2)]),
   (Reg.THM_DIE, fun s => s.thmDie),
   (Reg.THM_SENSOR, fun s => let i := s.regField Reg.THM_SENSOR_SEL 0 5
     packWord [(0, tget 0 s.phys.sensors i), (8, tget 0 s.phys.missed i)])]

/-- Views of the RAS_ and SEC_ blocks. -/
def viewsRas : List (Nat × (State → Word)) :=
  [(Reg.RAS_ACTIVE, fun s => s.rasActive), (Reg.RAS_MIRROR, fun s => s.rasMirror),
   (Reg.RAS_MIRROR_M, fun s => loWord s.ras.mirror.m), (Reg.RAS_FEED, fun s => s.rasFeed),
   (Reg.RAS_OWN_T_LO, fun s => loWord s.ras.ownT.toNat), (Reg.RAS_OWN_T_HI, fun s => hiWord s.ras.ownT.toNat),
   (Reg.RAS_HELD_CUR_LO, fun s => loWord s.heldPair.1),
   (Reg.RAS_HELD_CUR_HI, fun s => hiWord s.heldPair.1),
   (Reg.RAS_HELD_PREV_LO, fun s => loWord s.heldPair.2),
   (Reg.RAS_HELD_PREV_HI, fun s => hiWord s.heldPair.2),
   (Reg.RAS_FLERRA_T_LO, fun s => loWord s.ras.flerraT.toNat),
   (Reg.RAS_FLERRA_T_HI, fun s => hiWord s.ras.flerraT.toNat),
   (Reg.RAS_AV_SCHED_LO, fun s => loWord s.ras.avSched.toNat),
   (Reg.RAS_AV_SCHED_HI, fun s => hiWord s.ras.avSched.toNat),
   (Reg.RAS_AV_LOST_LO, fun s => loWord s.ras.avLost.toNat), (Reg.RAS_AV_LOST_HI, fun s => hiWord s.ras.avLost.toNat),
   (Reg.RAS_AV_REPLAYED_LO, fun s => loWord s.ras.avReplayed.toNat),
   (Reg.RAS_AV_REPLAYED_HI, fun s => hiWord s.ras.avReplayed.toNat),
   (Reg.SEC_STATE, fun s => packWord [(0, s.sec.debug), (2, b2n s.sec.ownerKey.isSome), (3, b2n s.sec.certValid),
     (4, b2n (decide (1 < (((List.range 4).map (fun i => (s.scp i).bankB)).eraseDups).length))),
     (5, s.sec.spdm.sessions.length), (8, s.sec.ownerCounter % 256)]),
   (Reg.SEC_SVN, fun s => packWord [(0, u16At (if s.boot.startedB then s.boot.bankB else s.boot.bankA) 6 % 64),
     (8, s.sec.svnFloor)]),
   (Reg.SEC_IDENTITY_LO, fun s => loWord (leNat (s.identity.take 4))),
   (Reg.SEC_IDENTITY_HI, fun s => loWord (leNat (s.identity.drop 4))),
   (Reg.SEC_HANDLES, fun s => loWord s.sec.handles.length)]

/-- Views of the UPD_ block. -/
def viewsUpd : List (Nat × (State → Word)) :=
  [(Reg.UPD_STEP_LO, fun s => loWord s.upd.t.toNat), (Reg.UPD_STEP_HI, fun s => hiWord s.upd.t.toNat),
   (Reg.UPD_COMMIT_STATE, fun s => s.commitState), (Reg.UPD_LIST_MAX, fun s => s.listMax),
   (Reg.UPD_PROG_MAP, fun s => s.progMap)]

/-- Views of the STS_ block, in whole MiB. -/
def viewsSts : List (Nat × (State → Word)) :=
  [(Reg.STS_STATE, fun s => s.stashState), (Reg.STS_OCC, fun s => loWord (s.ringUse / 2 ^ 20)),
   (Reg.STS_OCC_PEAK, fun s => loWord (s.sts.peak / 2 ^ 20)), (Reg.STS_TARGET_OCC, fun s => loWord (s.targetUse / 2 ^ 20)),
   (Reg.STS_FIRST_RECOMP, fun s => s.firstRecomp)]

/-- Views of the LUP_ and DSP_ blocks. -/
def viewsLup : List (Nat × (State → Word)) :=
  [(Reg.LUP_STATE, fun s => s.lupState), (Reg.DSP_CACHE_STATE, fun s => s.cacheState)]

/-- Every computed register. -/
def regViews : List (Nat × (State → Word)) :=
  viewsMbx ++ viewsFrm ++ viewsUnits ++ viewsPhys ++ viewsRas ++ viewsUpd ++ viewsSts ++ viewsLup

/-- A 32-bit read of the register window at a word offset (R432). -/
def State.readReg (s : State) (off : Nat) : Word :=
  match regViews.find? (fun e => e.1 == off) with
  | some e => e.2 s
  | none => s.reg off

/-- The registers of a list, as little-endian bytes in order. -/
def State.regBytes (s : State) (offs : List Nat) : List Byte := offs.flatMap (fun o => toLe 4 (s.readReg o).toNat)

/-- One byte of the register window. -/
def State.regByte (s : State) (off : Nat) : Byte :=
  BitVec.ofNat 8 ((s.readReg (off / 4 * 4)).toNat / 256 ^ (off % 4))

/-- The register window as the device-address window shows it: the selectors count as zero there (R435). -/
def State.windowByte (s : State) (off : Nat) : Byte :=
  (((s.putReg Reg.FAC_CORE_SEL 0).putReg Reg.HBM_CHAN_SEL 0).putReg Reg.LNK_PORT_SEL 0).regByte off

end Sys2Proof.Machine
end

