-- ==== Sys2Proof/Machine/Mem.lean ====
section
/-! DEFINITION. Device memory (chapter 11): classifying a device address, reading and writing bytes through it, the
write-combining buffers' bookkeeping, poison, and address faults. -/

namespace Sys2Proof.Machine

/-! ### The address map (R329 to R331) -/

/-- What a device address names. -/
inductive Region where
  | hbm (off : Nat)
  | core (c off : Nat)
  | queues (off : Nat)
  | window (off : Nat)
  | host (hpa : Nat)
  | remote (station off : Nat)
  | reserved
  deriving DecidableEq, Repr

/-- A 48-bit local offset (Table 11.2). -/
def localRegion (off : Nat) : Region :=
  if off < 0x008000000000 then .hbm off
  else if off < 0x008080000000 then
    let c := (off - 0x008000000000) / 0x400000
    let o := (off - 0x008000000000) % 0x400000
    if o < 0x300000 then .core c o else .reserved
  else if 0x008100000000 ≤ off ∧ off < 0x008104000000 then .queues (off - 0x008100000000)
  else if 0x008200080000 ≤ off ∧ off < 0x008200100000 then .window (off - 0x008200080000)
  else if 0x400000000000 ≤ off ∧ off < 0x800000000000 then .host (off - 0x400000000000)
  else .reserved

/-- A device address: station field and local offset (R330). What a remote access may name its target checks. -/
def State.region (s : State) (addr : Nat) : Region :=
  let st := addr / 2 ^ 48 % 2 ^ 16
  let off := addr % 2 ^ 48
  if s.isOwn st then localRegion off else .remote st off

/-- Key of an address in the memory list: the local offset; station x's memory lies at (x + 1) · 2^48. -/
def State.key (s : State) (addr : Nat) : Nat :=
  if s.isOwn (addr / 2 ^ 48 % 2 ^ 16) then addr % 2 ^ 48 else addr % 2 ^ 64 + 2 ^ 48

/-- Whether `n` bytes from an address lie in one region that admits the access (R331, R430). -/
def State.accessOk (s : State) (addr n : Nat) (write : Bool) : Bool :=
  n == 0 || match s.region addr, s.region (addr + (n - 1)) with
  | .hbm a, .hbm b => decide (b = a + (n - 1))
  | .core c a, .core d b => c == d && decide (b = a + (n - 1))
  | .queues a, .queues b => !write && decide (b = a + (n - 1))
  | .window a, .window b => !write && decide (b = a + (n - 1))
  | .host a, .host b => decide (b = a + (n - 1)) && decide (b < s.host.hostLimit)
  | .remote x a, .remote y b => x == y && decide (b = a + (n - 1))
  | _, _ => false

/-- Whether an access needs the host link: a slot's access to the host-memory window fails while it is down (R405). -/
def State.isHost (s : State) (addr : Nat) : Bool :=
  match s.region addr with
  | .host _ => true
  | _ => false

/-- Whether a device address names another station. -/
def State.isRemote (s : State) (addr : Nat) : Bool :=
  match s.region addr with
  | .remote _ _ => true
  | _ => false

/-- Whether a device address names local HBM. -/
def State.isHbm (s : State) (addr : Nat) : Bool :=
  match s.region addr with
  | .hbm _ => true
  | _ => false

/-- A command parameter that names memory is admitted: an accessible range, and none of local HBM while a stack is excluded
(R331, R411, R430). -/
def State.paramOk (s : State) (addr n : Nat) (write : Bool) : Bool :=
  s.accessOk addr n write && !(s.isHbm addr && s.boot.persist.exclStacks != 0)

/-! ### Interleave (R332, R333) -/

/-- Where a local HBM offset lies: stack, channel within the stack, code word, granule, bank and row. -/
structure Place where
  interleaved : Bool
  stack : Nat
  channel : Nat
  word : Nat
  granule : Nat
  bank : Nat
  row : Nat
  deriving DecidableEq, Repr

/-- Word, granule, bank and row of a channel-local address. -/
def placeIn (interleaved : Bool) (stack channel c : Nat) : Place :=
  { interleaved := interleaved, stack := stack, channel := channel, word := bits c 6 7, granule := bits c 8 10,
    bank := bits c 11 16 ^^^ bits c 17 22, row := bits c 17 30 }

/-- Size of the interleaved region for P = `p`. -/
def interleavedSize (p : Nat) : Nat := (512 - 8 * p) * 2 ^ 30

def placeOf (p off : Nat) : Place :=
  if off < interleavedSize p then
    let ch := bits off 8 15 ^^^ bits off 16 23 ^^^ bits off 24 31 ^^^ bits off 32 38
    placeIn true (ch / 32) (ch % 32) (bits off 16 38 * 256 + bits off 0 7)
  else
    let b := (off - interleavedSize p) % (p * 2 ^ 30)
    let st := (off - interleavedSize p) / (p * 2 ^ 30)
    let chs := bits b 8 12 ^^^ bits b 13 17 ^^^ bits b 18 22 ^^^ bits b 23 27 ^^^ bits b 28 32 ^^^ bits b 33 35
    placeIn false st chs ((2 ^ 31 - p * 2 ^ 25) + (bits b 13 35 * 256 + bits b 0 7))

/-- Place of a local HBM offset under the layout in force. -/
def State.place (s : State) (off : Nat) : Place := placeOf s.hbm.split off

/-- Base of the stack-local region of stack `st`. -/
def State.stackBase (s : State) (st : Nat) : Nat := interleavedSize s.hbm.split + st * s.hbm.split * 2 ^ 30

/-- Whether `n` bytes from an address lie in the stack-local region of stack `st` (R334). -/
def State.inStack (s : State) (st addr n : Nat) : Bool :=
  match s.region addr with
  | .hbm off => decide (s.stackBase st ≤ off) && decide (off + n ≤ s.stackBase st + s.hbm.split * 2 ^ 30)
  | _ => false

/-! ### Poison and the write-combining buffers (R343 to R349) -/

/-- Code words (local offset / 64) that `n` bytes from `off` touch. -/
def wordsOf (off n : Nat) : List Nat :=
  if n = 0 then [] else (List.range ((off + n - 1) / 64 + 1 - off / 64)).map (· + off / 64)

/-- Whether a code word is delivered poisoned: a poison word, or a stopped stack's (Table 11.7). -/
def State.wordPoisoned (s : State) (w : Nat) : Bool :=
  s.hbm.poison.contains w || decide ((s.stack (s.place (w * 64)).stack).state = .critical)

/-- The code words of a read of `n` bytes at a device address that are delivered poisoned. -/
def State.poisonWords (s : State) (addr n : Nat) : List Nat :=
  match s.region addr with
  | .hbm off => (wordsOf off n).filter s.wordPoisoned
  | _ => []

/-- Whether a read of `n` bytes at a device address meets poison. -/
def State.poisoned (s : State) (addr n : Nat) : Bool := !(s.poisonWords addr n).isEmpty

/-- Poisoned deliveries counted (R349). -/
def State.deliverPoison (s : State) (n : Nat) : State :=
  if n = 0 then s else (s.bump Reg.HBM_CNT_POISON_RD n).stick Reg.HBM_STATUS 2

/-- Set of a stack's write-combining buffer that a code word indexes: one of 4,096 (R343). -/
def wcbSet (w : Nat) : Nat := Config.wcbSet w % 4096

/-- A line written to the DRAM and dropped; a partial one by read-modify-write (R345), which leaves a poison word one (R349;
log entry 76). -/
def State.drainLine (s : State) (w : Nat) : State :=
  match s.hbm.wcb.find? (fun l => l.word == w) with
  | none => s
  | some l =>
    let s1 := { s with hbm := { s.hbm with wcb := s.hbm.wcb.filter (fun l => l.word != w) } }
    if l.mask = BitVec.allOnes 64 then s1
    else s1.bump Reg.HBM_CNT_WCB_RMW 1

/-- Lines written and dropped, in order. -/
def State.drainLines (s : State) : List Nat → State
  | [] => s
  | w :: ws => (s.drainLine w).drainLines ws

/-- Bytes lo up to lo + n of a code word as a mask. -/
def byteMask (lo n : Nat) : BitVec 64 := BitVec.ofNat 64 ((2 ^ n - 1) * 2 ^ lo)

/-- A write of part or all of code word `w`: a whole word replaces its line, which goes to the DRAM without a read; a part
is merged into its line, which is allocated (the least recently used line of a full set is evicted) if absent; a line that becomes full holds the whole
word, and every read is then forwarded from it (R343, R344). -/
def State.wcbWrite (s : State) (w lo n : Nat) : State :=
  if n = 64 then { s with hbm := { s.hbm with wcb := s.hbm.wcb.filter (fun l => l.word != w) } }
  else
    let old := s.hbm.wcb.find? (fun l => l.word == w)
    let same := s.hbm.wcb.filter (fun l => l.word != w && (s.place (l.word * 64)).stack == (s.place (w * 64)).stack)
    let full := decide (16 ≤ same.length)
    let peers := if full then same.filter (fun l => decide (wcbSet l.word = wcbSet w)) else []
    let s1 := if old.isNone && decide (16 ≤ peers.length) then
        match peers with
        | l :: _ => s.drainLine l.word
        | [] => s
      else s
    let m := (match old with
      | some l => l.mask
      | none => 0) ||| byteMask lo n
    { s1 with hbm := { s1.hbm with
        wcb := s1.hbm.wcb.filter (fun l => l.word != w) ++ [{ word := w, mask := m, tick := s.frm.tick }],
        poison := if m = BitVec.allOnes 64 then s1.hbm.poison.filter (· != w) else s1.hbm.poison } }

/-- The bookkeeping of a write of `n` bytes at local HBM offset `off`: poison is replaced by whole-word writes, lines
are merged or dropped. -/
def State.wcbRange (s : State) (off n : Nat) : List Nat → State
  | [] => s
  | w :: ws =>
    let lo := Nat.max off (w * 64)
    let hi := Nat.min (off + n) (w * 64 + 64)
    let s1 := s.wcbWrite w (lo - w * 64) (hi - lo)
    let s2 := if hi - lo = 64 then
        { s1 with hbm := { s1.hbm with poison := s1.hbm.poison.filter (· != w) } }
      else s1
    s2.wcbRange off n ws

/-! ### Bytes by device address -/

/-- A queue descriptor window byte: the descriptor as DSP_QUEUE_QUERY returns it (R331). -/
def State.queueByte (s : State) (off : Nat) : Byte := byteAt (s.queueDesc (off / 64)) (off % 64)

/-- One byte at a device address. -/
def State.loadByte (s : State) (addr : Nat) : Byte :=
  match s.region addr with
  | .window off => s.windowByte off
  | .queues off => s.queueByte off
  | .reserved => 0
  | _ => mread s.mem (s.key addr)

/-- `n` bytes from a device address. -/
def State.load (s : State) (addr n : Nat) : List Byte := (List.range n).map (fun i => s.loadByte (addr + i))

/-- Bytes stored to a device address that admits them: memory changes, and a write into local HBM passes the
write-combining buffer. -/
def State.store (s : State) (addr : Nat) (bs : List Byte) : State :=
  let s1 := match s.region addr with
    | .hbm off => s.wcbRange off bs.length (wordsOf off bs.length)
    | _ => s
  { s1 with mem := mwrites s1.mem (s.key addr) bs }

/-- Several stores in order. -/
def State.stores (s : State) : List (Nat × List Byte) → State
  | [] => s
  | w :: ws => (s.store w.1 w.2).stores ws

/-- All local HBM zero (R335, R441): contents, poison and buffered lines. -/
def State.zeroHbm (s : State) : State :=
  { s with mem := mzero s.mem 0 0x008000000000, hbm := { s.hbm with poison := [], wcb := [] } }

/-! ### Address faults (R331) -/

/-- UNIT encoding of a unit (Table 2.5). -/
def UnitId.code (u : UnitId) : Nat := u.ty % 16 * 4096 + u.idx % 4096

/-- A refused access counted, its unit and address recorded for the first one since clear. -/
def State.noteFault (s : State) (u : UnitId) (addr : Nat) : State :=
  let s1 := if s.regBit Reg.MEM_STATUS 2 then s
    else (s.putReg Reg.MEM_FAULT_UNIT (BitVec.ofNat 32 u.code)).putPair Reg.MEM_FAULT_ADDR_LO Reg.MEM_FAULT_ADDR_HI addr
  (s1.stick Reg.MEM_STATUS 2).bump Reg.MEM_CNT_ADDR_INVALID 1

/-- A refused access of a unit of this device: the step is marked uncommittable and the refusal recorded (class REFUSED). -/
def State.addrFault (s : State) (u : UnitId) (addr : Nat) : State := (s.noteFault u addr).raise .refused u 0x0019

end Sys2Proof.Machine
end

