-- ==== Sys2Proof/Machine/Welfy.lean ====
section
/-! DEFINITION. The Welfy mailbox protocol (chapter 13): the command index, the order and the checks under which a
command starts, its completion, long operations and their progress records, and REG_WRITE's field rules. -/

namespace Sys2Proof.Machine

/-! ### Status codes (Table 13.12) -/

def Status.code : Status → Nat
  | .success => 0x0000 | .opStarted => 0x0001 | .inProgress => 0x0002 | .unknownOpcode => 0x0010
  | .notAdmin => 0x0011 | .badParam => 0x0012 | .notReady => 0x0013 | .aborted => 0x0014 | .opLimit => 0x0015
  | .runLock => 0x0016 | .busy => 0x0017 | .accessDenied => 0x0018 | .addrInvalid => 0x0019
  | .internalError => 0x001A | .descInvalid => 0x0100 | .planInvalid => 0x0101 | .planMismatch => 0x0102
  | .formatUnsupported => 0x0103 | .layoutMismatch => 0x0104 | .prismMismatch => 0x0105
  | .progInvalid => 0x0106 | .ssbInvalid => 0x0107 | .queueBusy => 0x0108 | .epochStale => 0x0200
  | .armBusy => 0x0201 | .armLate => 0x0202 | .armNotStep => 0x0203 | .armMiss => 0x0204
  | .abortLate => 0x0205 | .switchFail => 0x0206 | .rollbackExpired => 0x0207 | .verdictLate => 0x0208
  | .tickLost => 0x0209 | .noSpare => 0x0300 | .repairBusy => 0x0301 | .stationConflict => 0x0400
  | .collPeerLost => 0x0401 | .feedShared => 0x0500 | .noSpareCore => 0x0501 | .fillAborted => 0x0502
  | .logGap => 0x0503 | .sigInvalid => 0x0600 | .challengeStale => 0x0601 | .debugLocked => 0x0602
  | .keyUnknown => 0x0603 | .imageInvalid => 0x0700 | .bankActive => 0x0701 | .apertureDenied => 0x0702
  | .clockStopped => 0x0800

/-! ### The command index (Tables 13.13 and 13.16) -/

/-- A Welfy command: opcode, admin mailbox only, long, and the parameter bits it defines, as runs of bytes (first
byte, last byte, mask of each byte). A byte in no run defines no bit. -/
structure CmdInfo where
  opcode : Nat
  admin : Bool
  long : Bool
  params : List (Nat × Nat × Nat)
  deriving DecidableEq, Repr

/-- Chapter 13. -/
def cmds13 : List CmdInfo :=
  [⟨0x0101, false, false, []⟩, ⟨0x0102, true, false, [(0, 0, 255)]⟩, ⟨0x0103, false, false, [(0, 3, 255)]⟩,
   ⟨0x0104, true, false, [(0, 2, 255)]⟩, ⟨0x0105, true, false, [(0, 0, 1)]⟩,
   ⟨0x0106, false, false, [(0, 47, 255)]⟩, ⟨0x0107, false, false, [(0, 0, 1)]⟩,
   ⟨0x0201, false, false, [(0, 11, 255)]⟩, ⟨0x0202, true, false, [(0, 15, 255)]⟩,
   ⟨0x0203, true, false, [(0, 7, 255)]⟩]

/-- Chapter 2. -/
def cmds2 : List CmdInfo :=
  [⟨0x0301, false, false, [(0, 11, 255)]⟩, ⟨0x0302, false, false, [(0, 11, 255)]⟩,
   ⟨0x0303, false, false, [(0, 17, 255), (24, 31, 255)]⟩, ⟨0x0304, false, false, [(0, 1, 255)]⟩,
   ⟨0x0305, false, false, [(0, 1, 255), (8, 15, 255)]⟩, ⟨0x0306, false, false, []⟩,
   ⟨0x0307, false, false, [(0, 15, 255)]⟩, ⟨0x0308, false, false, [(0, 2, 255)]⟩,
   ⟨0x0309, false, false, [(0, 0, 1)]⟩]

/-- Chapter 11. -/
def cmds11 : List CmdInfo :=
  [⟨0x0401, true, true, [(0, 0, 255)]⟩, ⟨0x0402, false, false, [(0, 0, 255)]⟩,
   ⟨0x0403, false, false, [(0, 7, 255)]⟩, ⟨0x0404, false, false, [(0, 0, 1)]⟩, ⟨0x0405, false, false, []⟩,
   ⟨0x0406, false, true, [(0, 5, 255)]⟩, ⟨0x0407, false, false, [(0, 0, 255)]⟩,
   ⟨0x0408, false, false, [(0, 0, 255), (8, 15, 255)]⟩]

/-- Chapter 12. -/
def cmds12 : List CmdInfo :=
  [⟨0x0501, false, false, []⟩, ⟨0x0502, false, false, [(0, 7, 255)]⟩, ⟨0x0503, false, false, [(0, 0, 255)]⟩,
   ⟨0x0504, false, false, [(0, 2, 255)]⟩, ⟨0x0505, false, false, [(0, 6, 255), (7, 7, 1), (8, 15, 255)]⟩,
   ⟨0x0506, false, false, [(0, 1, 255)]⟩, ⟨0x0507, false, false, [(0, 0, 1)]⟩,
   ⟨0x0508, false, false, [(0, 0, 1)]⟩, ⟨0x0509, false, false, [(0, 1, 255)]⟩]

/-- Chapters 4, 5 and 6. -/
def cmds456 : List CmdInfo :=
  [⟨0x0620, false, false, [(0, 9, 255)]⟩, ⟨0x0621, false, false, [(0, 0, 1)]⟩,
   ⟨0x0622, false, false, [(0, 3, 255), (8, 15, 255)]⟩, ⟨0x0628, false, false, [(0, 1, 255)]⟩,
   ⟨0x0629, false, false, [(0, 0, 1)]⟩, ⟨0x0630, false, false, [(0, 0, 1)]⟩, ⟨0x0631, false, false, [(0, 0, 1)]⟩]

/-- Chapters 7 and 8. -/
def cmds78 : List CmdInfo :=
  [⟨0x0640, false, false, [(0, 11, 255)]⟩, ⟨0x0641, false, false, [(0, 7, 255)]⟩,
   ⟨0x0642, false, false, [(0, 8, 255)]⟩, ⟨0x0643, false, false, [(0, 0, 1)]⟩, ⟨0x0644, false, false, []⟩,
   ⟨0x0650, false, false, [(0, 15, 255)]⟩, ⟨0x0651, false, false, [(0, 7, 255)]⟩,
   ⟨0x0652, false, false, [(0, 1, 255), (2, 2, 1)]⟩, ⟨0x0653, false, false, [(0, 1, 255)]⟩,
   ⟨0x0654, false, false, [(0, 0, 255)]⟩, ⟨0x0655, false, false, [(0, 0, 1)]⟩]

/-- Chapters 9 and 10. -/
def cmds910 : List CmdInfo :=
  [⟨0x0660, false, false, [(0, 7, 255)]⟩, ⟨0x0661, false, false, [(0, 0, 255), (8, 25, 255)]⟩,
   ⟨0x0662, false, false, [(0, 1, 255)]⟩, ⟨0x0663, false, false, [(0, 0, 1)]⟩,
   ⟨0x0668, false, false, [(0, 7, 255)]⟩, ⟨0x0669, false, false, [(0, 11, 255), (16, 27, 255)]⟩,
   ⟨0x0670, false, false, [(0, 7, 255)]⟩, ⟨0x0671, false, false, [(0, 3, 255), (8, 15, 255)]⟩,
   ⟨0x0672, false, false, [(0, 3, 255)]⟩, ⟨0x0673, false, false, [(0, 0, 1)]⟩]

/-- Chapter 16. -/
def cmds16 : List CmdInfo :=
  [⟨0x0701, false, false, [(0, 0, 255), (1, 1, 1)]⟩, ⟨0x0702, true, false, [(0, 0, 255)]⟩,
   ⟨0x0703, true, false, [(0, 1, 255), (2, 2, 3), (4, 5, 255), (8, 39, 255)]⟩,
   ⟨0x0704, false, true, [(0, 0, 255), (8, 15, 255)]⟩, ⟨0x0705, false, false, [(0, 3, 255)]⟩,
   ⟨0x0706, false, false, [(0, 11, 255), (16, 23, 255)]⟩,
   ⟨0x0707, false, true, [(0, 0, 255), (8, 15, 255)]⟩, ⟨0x0708, false, true, [(0, 7, 255)]⟩,
   ⟨0x0709, false, true, [(0, 19, 255)]⟩, ⟨0x070A, false, false, [(0, 0, 3)]⟩]

/-- Chapter 17. -/
def cmds17 : List CmdInfo :=
  [⟨0x0801, false, false, [(0, 39, 255)]⟩, ⟨0x0802, false, false, [(0, 7, 255)]⟩,
   ⟨0x0803, false, false, [(0, 0, 255)]⟩, ⟨0x0804, true, false, [(0, 39, 255)]⟩,
   ⟨0x0805, true, false, [(0, 0, 255)]⟩, ⟨0x0806, true, false, [(0, 0, 255), (8, 15, 255)]⟩,
   ⟨0x0807, false, false, [(0, 3, 255), (16, 47, 255)]⟩]

/-- Chapter 14. -/
def cmds14 : List CmdInfo :=
  [⟨0x0901, true, true, [(0, 12, 255)]⟩, ⟨0x0902, true, false, [(0, 0, 255)]⟩,
   ⟨0x0903, false, false, [(0, 0, 255), (4, 11, 255), (16, 23, 255)]⟩,
   ⟨0x0904, true, false, [(0, 0, 255)]⟩, ⟨0x0905, false, false, [(0, 1, 255)]⟩,
   ⟨0x0906, true, false, [(0, 1, 255)]⟩, ⟨0x0907, true, true, [(0, 1, 255)]⟩, ⟨0x0908, false, false, []⟩]

/-- Chapter 15. -/
def cmds15 : List CmdInfo :=
  [⟨0x0A01, false, false, [(0, 0, 0x83)]⟩, ⟨0x0A02, false, false, []⟩, ⟨0x0A03, false, false, []⟩,
   ⟨0x0A04, false, false, [(0, 0, 255)]⟩, ⟨0x0A05, false, false, [(0, 0, 255)]⟩,
   ⟨0x0A06, false, false, [(0, 1, 255)]⟩]

/-- Every Welfy command. -/
def cmdTable : List CmdInfo :=
  cmds13 ++ cmds2 ++ cmds11 ++ cmds12 ++ cmds456 ++ cmds78 ++ cmds910 ++ cmds16 ++ cmds17 ++ cmds14 ++ cmds15

def cmdInfo (op : Nat) : Option CmdInfo := cmdTable.find? (fun c => c.opcode == op)

/-- The opcode group of a command (Table 13.16): the lines of the table, numbered. -/
def cmdGroup (op : Nat) : Nat :=
  if op < 0x0300 then 1 else if op < 0x0400 then 3 else if op < 0x0500 then 4 else if op < 0x0600 then 5
  else if op < 0x0628 then 6 else if op < 0x0630 then 7 else if op < 0x0640 then 8 else if op < 0x0650 then 9
  else if op < 0x0660 then 10 else if op < 0x0670 then 11 else if op < 0x0700 then 12 else op / 256 + 10

/-- Mask of the parameter bits that a command defines in byte `i`. -/
def paramMask (c : CmdInfo) (i : Nat) : Nat :=
  c.params.foldl (fun m r => if r.1 ≤ i ∧ i ≤ r.2.1 then m ||| r.2.2 else m) 0

/-- The first parameter byte with a bit that the command does not define (R415, check 5). -/
def badParamByte (c : CmdInfo) (ps : List Byte) : Option Nat :=
  (List.range 48).find? (fun i => decide ((byteAt ps i).toNat &&& (255 - paramMask c i) ≠ 0))

/-! ### Device state (R410) -/

/-- Commands that HALTED executes besides every 0x09xx command. -/
def haltedCmds : List Nat :=
  [0x0101, 0x0102, 0x0103, 0x0104, 0x0105, 0x0106, 0x0107, 0x0203, 0x0701, 0x0706, 0x070A, 0x0801, 0x0802,
   0x0803, 0x0A01, 0x0A02, 0x0A03, 0x0A04, 0x0A05]

/-- Accepted in every device state: RAS_RECORDS and FLERRA_READ (R543), ATTEST, CERT_CHAIN_READ and MEASUREMENTS_READ (R560),
TELEMETRY_READ, POWER_QUERY, DIE_THERMAL_QUERY and CLOCK_QUERY (R500). -/
def everyStateCmds : List Nat := [0x0701, 0x0706, 0x0801, 0x0802, 0x0803, 0x0A01, 0x0A02, 0x0A03, 0x0A04]

/-- Whether the device state admits a command on a mailbox (R410, R500, R543, R560; log entry 80). -/
def stateAdmits (d : DevState) (op m : Nat) : Bool :=
  match d with
  | .ready => true
  | .halted => haltedCmds.contains op || op / 256 == 0x09
  | _ => everyStateCmds.contains op || (m == 0 && ([0x0101, 0x0103, 0x0106].contains op || op / 256 == 0x09))

/-! ### Replies -/

/-- What a command's own part answers: status, DETAIL, response data and the state it leaves. -/
structure Reply where
  status : Status
  detail : Nat
  data : List Byte
  st : State

/-- Success with response data. -/
def State.ok (s : State) (data : List Byte) : Reply := ⟨.success, 0, data, s⟩

/-- A refusal with a status. -/
def State.no (s : State) (x : Status) : Reply := ⟨x, 0, [], s⟩

/-- BAD_PARAM at a parameter byte offset. -/
def State.bad (s : State) (off : Nat) : Reply := ⟨.badParam, off, [], s⟩

/-! ### Starting and completing a command (R413 to R416, R27) -/

def State.putBox (s : State) (m : Nat) (b : Mailbox) : State :=
  { s with host := { s.host with boxes := tset s.host.boxes m b } }

/-- SCP0's role is moving: from the decision to the tick at which it moves, and from verification to its return. -/
def Scp.moving (p : Scp) : Bool := (p.swapTo.isSome && !p.away) || (p.away && p.verified)

/-- Mailbox `m` waits on an earlier-submitted command of its group (R416); one that a host reset parted from its mailbox still
counts (R407). -/
def State.groupWaits (s : State) (m : Nat) : Bool :=
  s.host.boxes.any (fun e => e.1 != m && decide (e.2.st = .busy) && decide (e.2.order < (s.box m).order)
    && cmdGroup (u16At e.2.captured 0) == cmdGroup (u16At (s.box m).captured 0))
  || (match s.phys.apSelect with
    | some (64, _) => cmdGroup (u16At (s.box m).captured 0) == cmdGroup 0x0904
    | _ => false)

/-- The command of mailbox `m` has started and waits on a clock switch (APERTURE_SELECT, R467). -/
def State.started (s : State) (m : Nat) : Bool :=
  match s.phys.apSelect with
  | some (b, _) => b == m
  | none => false

/-- An admin command waits with nothing before it: it starts before any waiting general command (R416). -/
def State.adminFirst (s : State) : Bool :=
  decide ((s.box 0).st = .busy) && !s.started 0 && !s.groupWaits 0

/-- Mailbox `m` may start its command now (R416, R27, R410). -/
def State.mayStart (s : State) (m : Nat) : Bool :=
  decide ((s.box m).st = .busy) && !s.started m && s.boot.welfy && !(s.scp 0).moving && !s.groupWaits m
    && (m == 0 || !s.adminFirst)

/-- A response page of 64 bytes (Table 13.6). -/
def responsePage (op st tag len detail : Nat) (data : List Byte) : List Byte :=
  toLe 2 op ++ toLe 2 st ++ toLe 4 tag ++ toLe 2 len ++ [0, 0] ++ toLe 4 detail ++ slice data 0 48

/-- Completing mailbox `m` (R414): extension and data, header, STATE = DONE, then the MSI-X message. -/
def State.complete (s : State) (m : Nat) (x : Status) (detail : Nat) (data : List Byte) : State :=
  let b := s.box m
  let b' := { b with
    ext := slice (data.drop 48) 0 3840,
    resp := responsePage (u16At b.captured 0) x.code (u32At b.captured 4) data.length detail data,
    st := .done }
  let s1 := (s.putBox m b').bump Reg.MBX_CNT_CMDS 1
  let s2 := if x = .success ∨ x = .opStarted then s1 else s1.bump Reg.MBX_CNT_REFUSED 1
  if bit (u8At b.captured 2) 0 then s2.sendVec (s.boxVec m) else s2

/-- A header failure, or an opcode outside the index: the checks 1 and 2 of R415. The DETAIL of a header failure, which
names no parameter byte, is a free value (log entry 5). -/
def State.headerCheck (s : State) (m : Nat) : Option (Status × Nat × State) :=
  let c := (s.box m).captured
  if u8At c 2 / 2 ≠ 0 ∨ u8At c 3 ≠ 0 ∨ !zeroBytes c 8 8 then
    let f := s.fresh
    some (.badParam, bits f.1.toNat 0 31, f.2)
  else if (cmdInfo (u16At c 0)).isNone then some (.unknownOpcode, 0, s)
  else none

/-- A command whose header passes: checks 3 to 5 of R415, then its own part. -/
def State.commandCheck (s : State) (m op : Nat) (body : List Byte → State → Reply) : Reply :=
  let ps := slice (s.box m).captured 16 48
  match cmdInfo op with
  | none => s.no .unknownOpcode
  | some c =>
    if c.admin && m != 0 then s.no .notAdmin
    else if !stateAdmits s.boot.dev op m then s.no .notReady
    else match badParamByte c ps with
      | some i => s.bad i
      | none => body ps s

/-- Commands with an opcode outside the index are answered as soon as they may start: no row of the table names
them. -/
def State.answerUnknown (s : State) : State :=
  (s.host.boxes.map (·.1)).foldl (fun s m =>
    if s.mayStart m && (cmdInfo (u16At (s.box m).captured 0)).isNone then
      match s.headerCheck m with
      | some (x, d, s') => s'.complete m x d []
      | none => s
    else s) s

/-- Welfy completes the command of mailbox `m`, and answers those with an unknown opcode whose turn this makes. -/
def State.finish (s : State) (m : Nat) (x : Status) (detail : Nat) (data : List Byte) : State :=
  (s.complete m x detail data).answerUnknown

/-- Welfy runs the command of mailbox `m` if that is a waiting `op` whose turn has come; otherwise nothing happens (log
entry 6). A reply IN_PROGRESS leaves the command running: it completes when its work ends. -/
def State.welfy (s : State) (op : Nat) (m : BitVec 6) (body : List Byte → State → Reply) : State :=
  let n := m.toNat
  if s.mayStart n && u16At (s.box n).captured 0 == op then
    match s.headerCheck n with
    | some (x, d, s') => s'.finish n x d []
    | none =>
      let r := s.commandCheck n op body
      if r.status = .inProgress then r.st else r.st.finish n r.status r.detail r.data
  else s

/-! ### Long operations (R418 to R420) -/

/-- Progress record `i`. -/
def State.record (s : State) (i : Nat) : Progress := tget Progress.reset s.host.records i

def State.putRecord (s : State) (i : Nat) (p : Progress) : State :=
  { s with host := { s.host with records := tset s.host.records i p } }

/-- A long operation runs. -/
def State.longRunning (s : State) : Bool := s.host.records.any (fun e => e.2.running)

/-- The record that an allocation takes: never used records first, in index order, then the one whose operation
finished earliest (R419). -/
def State.freeRecord (s : State) : Option Nat :=
  ((List.range 16).filter (fun i => !(s.record i).running)).foldl (fun best i =>
    match best with
    | none => some i
    | some j => if (s.record i).finished < (s.record j).finished then some i else some j) none

/-- The sequence after `q`: modulo 2^24, skipping 0 (R418). -/
def nextSeq (q : Nat) : Nat := if (q + 1) % 2 ^ 24 = 0 then 1 else (q + 1) % 2 ^ 24

/-- Starting a long operation: a record is allocated and the handle goes into DETAIL; with 16 running, OP_LIMIT. -/
def State.startLong (s : State) (op mailbox total : Nat) (work : LongOp) : Reply :=
  match s.freeRecord with
  | none => s.no .opLimit
  | some i =>
    let q := nextSeq s.host.handleSeq
    let p : Progress :=
      { opcode := op, status := .inProgress, seq := q, mailbox := mailbox, startTick := s.frm.tick.toNat % 2 ^ 32,
        position := 0, total := total, finished := 0, running := true, used := true, op := work }
    let s1 := ({ s with host := { s.host with handleSeq := q } }).putRecord i p
    ⟨.opStarted, q * 256 + i, [], s1⟩

/-- The work that a long operation begins with, once it has its record. -/
def Reply.thenDo (r : Reply) (f : State → State) : Reply := if r.status = .opStarted then { r with st := f r.st } else r

/-- A long operation ends with its final status, POSITION at TOTAL on SUCCESS, and raises the progress vector (R420). -/
def State.finishRecord (s : State) (i : Nat) (x : Status) : State :=
  let p := s.record i
  let pos := if x = .success then p.total else p.position
  let s1 := s.putRecord i { p with status := x, running := false, finished := s.host.opEnds + 1, position := pos }
  ({ s1 with host := { s1.host with opEnds := s1.host.opEnds + 1 } }).sendVec s.host.vecProgress

/-- PERCENT of a record (R420): 0xFFFF while TOTAL is 0; 0x6400 when it ended with SUCCESS. -/
def Progress.percent (p : Progress) : Nat :=
  if p.status = .success ∧ p.used then 0x6400
  else if p.total = 0 then 0xFFFF else 25600 * p.position / p.total

/-- A progress record as BAR0 and OP_QUERY show it (Table 13.7). -/
def Progress.bytes (p : Progress) (i : Nat) : List Byte :=
  if p.used then
    toLe 2 p.opcode ++ toLe 2 p.status.code ++ toLe 4 (p.seq * 256 + i) ++ toLe 2 p.percent ++ toLe 1 p.mailbox
      ++ [0] ++ toLe 4 p.startTick ++ toLe 8 p.position ++ toLe 8 p.total
  else List.replicate 32 0

/-! ### LK classes (R62) and REG_WRITE (R434) -/

/-- A slot of a unit type runs. -/
def State.slotRunning (s : State) (ty : Nat) : Bool :=
  s.frm.slots.any (fun r => decide (r.phase = .running) && r.unit.ty == ty)

/-- Any slot runs. -/
def State.anySlotRunning (s : State) : Bool := s.frm.slots.any (fun r => decide (r.phase = .running))

/-- The slots of the current frame, by their place in the slot-descriptor array. -/
def State.frameSlots (s : State) : List (Nat × SlotDesc) :=
  match s.frm.curProg with
  | none => []
  | some p => match p.frames[s.frm.frameIndex]? with
    | none => []
    | some f => (List.range f.slotCount).filterMap (fun i =>
        (p.slots[f.slotOffset + i]?).map (fun d => (f.slotOffset + i, d)))

/-- A step is in progress: from its first tick to the tick that ends it (Table 7.10's LK rule). -/
def State.stepRuns (s : State) : Bool := decide (s.upd.commit ≠ .idle)

/-- The units of a kind are busy (R62): from the start of their first slot in the frame to the end of their last one. -/
def State.unitsBusy (s : State) (of : UnitId → Bool) : Bool :=
  let left := s.frameSlots.any (fun d => of d.2.unit && !s.frm.idleUnits.contains d.2.unit && !s.frm.slots.any (fun r => r.ref == .prog d.1))
    || s.sts.reruns.any (fun x => of ⟨1, x.1⟩ && !s.frm.slots.any (fun r => r.ref == .rerun x.1))
  s.frm.slots.any (fun r => of r.unit && (decide (r.phase = .running) || (!r.carried && left)))

def State.typeBusy (s : State) (ty : Nat) : Bool := s.unitsBusy (fun u => u.ty == ty)

/-- A long operation on the memory stacks that a Welfy command started: a zero-fill, the training of a stack. -/
def State.memOpRuns (s : State) : Bool :=
  s.host.records.any (fun e => e.2.running && match e.2.op with
    | .layout _ => true
    | .trainSweep k _ => k == 2
    | _ => false)

/-- The LK block of a register offset: its bit in FRM_RUNLOCK and whether it is busy now, by R62 or by what the owning
chapter counts as busy (the text before Tables 4.6, 5.9, 6.10, 7.10, 8.11, 9.4, 10.7, 11.9 and 12.12; log entry 41). -/
def State.lockOf (s : State) (off : Nat) : Nat × Bool :=
  match off / 4096 with
  | 2 => (0, s.typeBusy 1 || (s.frm.epoch != 0 && s.frameSlots.any (fun d => d.2.unit.ty == 1)))
  | 4 => (1, s.typeBusy 1 || s.typeBusy 3)
  | 3 => (2, s.typeBusy 1)
  | 5 => (3, s.stepRuns)
  | 8 => (4, s.dspBusy)
  | 10 => (5, s.typeBusy 3 || decide (s.col.phase ≠ .idle) || (List.range 24).any (fun n =>
      decide ((s.port n).phase = .training) || decide ((s.port n).phase = .swapping)))
  | 9 => (6, s.hbm.current.isSome || s.memOpRuns || s.unitsBusy (fun _ => true))
  | _ => (7, s.stepRuns)

/-- A refused LK write (R62): its class's bit and, for the first since the register was cleared, its offset. -/
def State.lockRefuse (s : State) (off : Nat) : State :=
  let first := s.reg Reg.FRM_RUNLOCK == 0
  let s1 := if first then s.putReg Reg.FRM_RUNLOCK_ADDR (BitVec.ofNat 32 off) else s
  s1.stick Reg.FRM_RUNLOCK (s.lockOf off).1

/-- Length in rc of the frame in progress as its mode gives it (R37, R74). -/
def State.modeLen (s : State) : Nat :=
  let l := 2 ^ s.frm.lenExp
  if 0 < s.frm.stretchLeft then l + s.frm.stretchAmt * l / 8 else l

/-- Whole rc from this device's last tick to its next: the guard band is shorter by the frame's trim (R42), and `frac` is
the part of an rc, in eighths, by which the last tick lies after its rc. -/
def State.frameLen (s : State) : Nat := ((8 * s.modeLen + s.frm.frac : Int) - s.frm.trim).toNat / 8

/-- Frames of the current program. -/
def State.progLen (s : State) : Nat := (s.frm.curProg.map (fun p => p.frames.length)).getD 0

/-- Commit window in rc (R235). -/
def State.commitWin (s : State) : Nat := 16 * s.regField Reg.UPD_CFG 0 6

/-- The frame in progress ends its attempt, or would: frame F − 1, and the second of a double-frame pair. -/
def State.lastFrame (s : State) : Bool :=
  s.frm.frameIndex + 1 == s.progLen && (!s.frm.double || s.frm.pairBase != 0)

/-- A TA write may still be staged for the tick that ends the frame (R59); a double-frame pair is one frame (R262). -/
def State.beforeCutoff (s : State) : Bool :=
  (s.frm.double && s.frm.pairBase == 0) || decide (s.frm.phase + 64 ≤ s.frameLen)

/-- A TA write staged under R59: before the cut-off for the next tick, after it for the tick after. -/
def State.stage (s : State) (off : Nat) (mask value : Word) : State :=
  if s.beforeCutoff then { s with frm := { s.frm with staged := s.frm.staged ++ [(off, mask, value)] } }
  else { s with frm := { s.frm with stagedLate := s.frm.stagedLate ++ [(off, mask, value)] } }

/-- The value that a staged register will hold (MODE_QUERY, R60). -/
def State.stagedReg (s : State) (off : Nat) : Word :=
  (s.frm.staged ++ s.frm.stagedLate).foldl (fun w e =>
    if e.1 = off then (w &&& ~~~ e.2.1) ||| (e.2.2 &&& e.2.1) else w) (s.reg off)

/-- A write of CLK_GATE.EN under the checks of R483. -/
def State.gateWrite (s : State) (en : Bool) : Status × State :=
  let n := s.regField Reg.CLK_GATE_SEL 0 9
  let refuse := fun (x : Status) => (x, (s.stick Reg.CLK_STATUS 3).bump Reg.CLK_CNT_GATE_REFUSED 1)
  if !gateNode n then refuse .badParam
  else if !en then
    if s.gateChildOn n then refuse .busy
    else if s.gateHolds n then refuse .runLock
    else (.success, { s with phys := { s.phys with gatesOff := n :: s.phys.gatesOff.filter (· != n) } })
  else
    match gateParent n with
    | some p =>
      if !s.gateOn p then refuse .badParam
      else if decide (64 ≤ n) && s.outOfUse (n - 64) then refuse .runLock
      else (.success, { s with phys := { s.phys with gatesOff := s.phys.gatesOff.filter (· != n) } })
    | none => (.success, { s with phys := { s.phys with gatesOff := s.phys.gatesOff.filter (· != n) } })

/-- Whether every masked field's value lies in its documented range. -/
def State.rangesOk (s : State) (off : Nat) (mask value : Word) : Bool :=
  let new := (s.stagedReg off &&& ~~~ mask) ||| (value &&& mask)
  (regFields off).all (fun f =>
    if (mask &&& fieldMask f.lo f.hi) == 0 || f.cls == .w1c then true
    else decide (f.min ≤ bits new.toNat f.lo f.hi) && decide (bits new.toNat f.lo f.hi ≤ f.max))
  && (off != Reg.FAC_CORE_SEL || new.getLsbD 15 || decide (bits new.toNat 0 9 ≤ 511))
  && (off != Reg.STS_CFG || decide (bits new.toNat 8 14 < bits new.toNat 0 6))
  && (off != Reg.CLK_GATE_SEL || gateNode (bits new.toNat 0 9))

/-- The bits of a register that software may write. -/
def writableMask (off : Nat) : Word := (regFields off).foldl (fun m f => m ||| fieldMask f.lo f.hi) 0

/-- The bits of one class. -/
def classMask (off : Nat) (c : FieldClass) : Word :=
  (regFields off).foldl (fun m f => if f.cls = c then m ||| fieldMask f.lo f.hi else m) 0

/-- A write that clears ACC_STATUS begins a new record of the first tile status word (R201): ACC_FIRST_TILE reads 0 until a
word is kept. DESIGN CHOICE, log entry 69: the register is cleared by a write that leaves no bit of it set. -/
def State.accCleared (s : State) (off : Nat) (clear : Word) : State :=
  if off = Reg.ACC_STATUS ∧ clear ≠ 0 ∧ s.reg off = 0 then s.putReg Reg.ACC_FIRST_TILE 0 else s

/-- REG_WRITE's effect and status (R434): range, access, lock, then each field by its class. -/
def State.regWrite (s : State) (off : Nat) (mask value : Word) : Status × State :=
  if !s.rangesOk off mask value then (.badParam, s)
  else if (mask &&& ~~~ writableMask off) != 0 then (.accessDenied, s)
  else if (mask &&& classMask off .lk) != 0 && (s.lockOf off).2 then (.runLock, s.lockRefuse off)
  else if off = Reg.CLK_GATE then (if mask.getLsbD 0 then s.gateWrite (value.getLsbD 0) else (.success, s))
  else
    let direct := mask &&& (classMask off .rw ||| classMask off .lk)
    let clear := mask &&& classMask off .w1c &&& value
    let ta := mask &&& classMask off .ta
    let s1 := (s.putReg off (((s.reg off &&& ~~~ direct) ||| (value &&& direct)) &&& ~~~ clear)).accCleared off clear
    (.success, if ta == 0 then s1 else s1.stage off ta value)

end Sys2Proof.Machine
end

