-- ==== Sys2Proof/Machine/HostLink.lean ====
section
/-! DEFINITION. The host link (chapter 13): doorbells, mailboxes, trapped stores, resets of the host side, the CXL link,
the HDM window, MSI-X, and the 0x01xx and 0x02xx commands. -/

namespace Sys2Proof.Machine

/-- The outcome of a command. -/
abbrev Out := Host.Outcome State Fault Refusal

/-! ### Doorbells and the command area (R413, R421) -/

/-- A bad doorbell store: ignored, counted and flagged (R421). -/
def State.badDoorbell (s : State) : State := (s.bump Reg.MBX_CNT_DB_BAD 1).stick Reg.MBX_STATUS 3

/-- Whether a store to MBX_DB is well formed but for its action (Table 13.9). -/
def goodDoorbell (width : Width) (rsv : BitVec 24) : Bool := width == .w32 && rsv == 0

/-- SUBMIT on mailbox `m` (R413): captured, or ignored while BUSY. -/
def State.submitBox (s : State) (m : Nat) : State :=
  let b := s.box m
  match b.st with
  | .busy => (s.putBox m { b with ignoredSubmit := true }).stick Reg.MBX_STATUS 5
  | _ =>
    let b' := { b with
      captured := b.cmd, st := .busy, overwrite := false, ignoredSubmit := false, order := s.host.submits }
    let s1 := s.putBox m b'
    ({ s1 with host := { s1.host with submits := s1.host.submits + 1 } }).answerUnknown

/-- ACK on mailbox `m` (R413): DONE becomes IDLE; ignored in any other state. -/
def State.ackBox (s : State) (m : Nat) : State :=
  let b := s.box m
  match b.st with
  | .done => s.putBox m { b with st := .idle }
  | _ => s

/-- A store to MBX_DB (Table 13.9): action 1 SUBMIT, 2 ACK; 0 and 3 are reserved, and a store that holds one, has another
width or sets a reserved bit is a bad one (R413, R421). -/
def State.mbxDb (s : State) (m : Nat) (action : BitVec 2) (width : Width) (rsv : BitVec 24) : State :=
  if !goodDoorbell width rsv then s.badDoorbell
  else if action = 1 then s.submitBox m
  else if action = 2 then s.ackBox m
  else s.badDoorbell

/-- SUBMIT (R413, R421): a store to MBX_DB other than an ACK. -/
def execSubmit (m : BitVec 6) (width : Width) (store : DoorbellStore) (s : State) : Out :=
  .next (s.mbxDb m.toNat store.action width store.rsv)

/-- ACK (R413, R421). -/
def execAck (m : BitVec 6) (width : Width) (rsv : BitVec 24) (s : State) : Out := .next (s.mbxDb m.toNat 2 width rsv)

/-- Bytes put over a byte list from an offset, within its length. -/
def overlay (old : List Byte) (off : Nat) (new : List Byte) : List Byte :=
  (List.range old.length).map (fun i => if off ≤ i ∧ i < off + new.length then byteAt new (i - off) else byteAt old i)

/-- COMMAND_AREA_STORE (R413): discarded with OVERWRITE while the mailbox is BUSY. -/
def execCommandAreaStore (m off : BitVec 6) (data : List Byte) (s : State) : Out :=
  let n := m.toNat
  let b := s.box n
  .next (match b.st with
    | .busy => (s.putBox n { b with overwrite := true }).stick Reg.MBX_STATUS 4
    | _ => s.putBox n { b with cmd := overlay b.cmd off.toNat data })

/-! ### Trapped register stores (R433) -/

/-- REGISTER_STORE: a 32-bit aligned store to a register with a writable field is trapped; any other is discarded. -/
def execRegisterStore (off : BitVec 19) (width : Width) (value : BitVec 64) (s : State) : Out :=
  let o := off.toNat
  .next (if width = .w32 ∧ o % 4 = 0 ∧ !(regFields o).isEmpty then
      if s.host.traps.length < 64 then
        { s with host := { s.host with traps := s.host.traps ++ [(o, value.setWidth 32)] } }
      else s.stick Reg.MBX_STATUS 2
    else (s.bump Reg.MBX_CNT_STORE_DROP 1).stick Reg.MBX_STATUS 1)

/-- A refused trapped store: WTRAP_REFUSED, and the first refusal's offset and status. -/
def State.trapRefused (s : State) (off : Nat) (x : Status) : State :=
  let s1 := if s.regBit Reg.MBX_STATUS 0 then s
    else (s.putReg Reg.MBX_WTRAP_OFS (BitVec.ofNat 32 (off % 2 ^ 24 + 2 ^ 31))).putReg Reg.MBX_WTRAP_STS
      (BitVec.ofNat 32 x.code)
  s1.stick Reg.MBX_STATUS 0

/-- TRAPPED_STORE_EXEC: the oldest pending store as REG_WRITE with the mask of the register's writable fields. -/
def execTrappedStoreExec (s : State) : Out :=
  .next (match s.host.traps with
    | [] => s
    | (off, v) :: rest =>
      if !s.boot.welfy || (s.scp 0).moving then s
      else
        let s1 := { s with host := { s.host with traps := rest } }
        let r := s1.regWrite off (writableMask off) v
        let s2 := r.2.bump Reg.MBX_CNT_TRAPPED 1
        if r.1 = .success then s2 else s2.trapRefused off r.1)

/-! ### 0x01xx and 0x02xx commands (Table 13.14) -/

/-- DEV_STATE as the identity page shows it (Table 13.3). -/
def State.devStateWord (s : State) : Nat := s.boot.dev.code + s.boot.stage * 256

/-- FW_VERSION of a firmware image (Table 17.1). -/
def imageVersion (image : List Byte) : List Byte := slice image 8 8

/-- The image of a bank. -/
def State.bankImage (s : State) (b : Bool) : List Byte := if b then s.boot.bankB else s.boot.bankA

/-- FW_VERSION of the bank that this start ran. -/
def State.fwVersion (s : State) : List Byte := imageVersion (s.bankImage s.boot.startedB)

/-- IDENTIFY (R409). -/
def execIdentify (m : BitVec 6) (s : State) : Out :=
  .next (s.welfy 0x0101 m fun _ s =>
    s.ok (toLe 2 vendorId ++ toLe 2 deviceId ++ toLe 1 s.boot.fuses.aperture ++ toLe 1 s.boot.running
      ++ toLe 2 s.devStateWord ++ s.identity ++ s.fwVersion ++ toLe 1 (b2n s.boot.startedB)))

/-- MBX_ABORT (R437): a command that has not started on a general mailbox ends with ABORTED. -/
def execMbxAbort (m : BitVec 6) (s : State) : Out :=
  .next (s.welfy 0x0102 m fun ps s =>
    let n := u8At ps 0
    if n = 0 ∨ 63 < n then s.bad 0
    else if (s.box n).st = .busy ∧ !s.started n then (s.complete n .aborted 0 []).ok [] else s.ok [])

/-- OP_QUERY (R420). -/
def execOpQuery (m : BitVec 6) (s : State) : Out :=
  .next (s.welfy 0x0103 m fun ps s =>
    let h := u32At ps 0
    let p := s.record (h % 16)
    if bits h 4 7 ≠ 0 ∨ !p.used ∨ p.seq ≠ h / 256 then s.bad 0 else s.ok (p.bytes (h % 16)))

/-- IRQ_CONFIG (R423). -/
def execIrqConfig (m : BitVec 6) (s : State) : Out :=
  .next (s.welfy 0x0104 m fun ps s =>
    let src := u8At ps 0
    let b := u8At ps 1
    let v := u8At ps 2
    if 3 < src then s.bad 0
    else if (src = 0 ∧ 63 < b) ∨ (src ≠ 0 ∧ b ≠ 0) then s.bad 1
    else if 63 < v then s.bad 2
    else
      let h := s.host
      let h' := if src = 0 then { h with vecBox := tset h.vecBox b v }
        else if src = 1 then { h with vecRas := v }
        else if src = 2 then { h with vecProgress := v } else { h with vecFrame := v }
      ({ s with host := h' }).ok [])

/-- Whether DEVICE_RESET is admitted (R438). -/
def State.resetAdmitted (s : State) (force : Bool) : Bool :=
  force || decide (s.upd.commit = .idle) || decide (s.lup.phase = .hold) || decide (s.lup.phase = .stopped)
    || decide (s.boot.dev = .halted)

/-- DEVICE_RESET (R438): the response is written, then the device warm-starts with cause 2; the mailbox page that holds
the response is kept (log entry 9). -/
def execDeviceReset (m : BitVec 6) (s : State) : Out :=
  let s1 := s.welfy 0x0105 m fun ps s =>
    if s.resetAdmitted (bit (u8At ps 0) 0) then s.ok [] else s.no .runLock
  let ran := decide ((s.box m.toNat).st = .busy) && decide ((s1.box m.toNat).st = .done)
    && u16At (s.box m.toNat).captured 0 == 0x0105 && u16At (s1.box m.toNat).resp 2 == 0
  .next (if ran then (s1.restart false 2).putBox m.toNat (s1.box m.toNat) else s1)

/-- ECHO (R415): the parameter bytes, unchanged. -/
def execEcho (m : BitVec 6) (s : State) : Out := .next (s.welfy 0x0106 m fun ps s => s.ok ps)

/-- Counters returned in offset order and, where asked, cleared. -/
def State.countersReply (s : State) (offs : List Nat) (clear : Bool) : Reply :=
  let d := s.regBytes offs
  (if clear then s.clearRegs offs else s).ok d

def mbxCounters : List Nat :=
  [Reg.MBX_CNT_CMDS, Reg.MBX_CNT_REFUSED, Reg.MBX_CNT_TRAPPED, Reg.MBX_CNT_STORE_DROP, Reg.MBX_CNT_DB_BAD,
   Reg.MBX_CNT_FLR]

/-- MBX_COUNTERS (Table 13.14). -/
def execMbxCounters (m : BitVec 6) (s : State) : Out :=
  .next (s.welfy 0x0107 m fun ps s => s.countersReply mbxCounters (bit (u8At ps 0) 0))

/-- REG_WRITE (R434). -/
def execRegWrite (m : BitVec 6) (s : State) : Out :=
  .next (s.welfy 0x0201 m fun ps s =>
    let off := u32At ps 0
    if off % 4 ≠ 0 ∨ 0x80000 ≤ off then s.bad 0
    else
      let r := s.regWrite off (BitVec.ofNat 32 (u32At ps 4)) (BitVec.ofNat 32 (u32At ps 8))
      if r.1 = .success then r.2.ok (toLe 4 (r.2.readReg off).toNat)
      else ⟨r.1, if r.1 = .badParam then 8 else 0, [], r.2⟩)

/-- The HDM decoder of the component registers as the host has left it: its base while it is committed (R427, R428). -/
def State.setDecoder (s : State) (decoder : Option (BitVec 52)) : State :=
  { s with host := { s.host with hdmDecoder := decoder.map (fun d => d.toNat) } }

/-- HDM_CONFIG (R426, R428). -/
def execHdmConfig (m : Observed (Option (BitVec 52))) (s : State) : Out :=
  .next ((s.setDecoder m.seen).welfy 0x0202 m.box fun ps s =>
    let base := u64At ps 0
    let size := u64At ps 8
    if base % 2 ^ 28 ≠ 0 ∨ 512 * 2 ^ 30 < base then s.bad 0
    else if size % 2 ^ 28 ≠ 0 ∨ 64 * 2 ^ 30 < size ∨ 512 * 2 ^ 30 < base + size then s.bad 8
    else if s.host.hdmDecoder.isSome then s.no .runLock
    else ({ s with host := { s.host with hdmBase := base, hdmUnits := size / 2 ^ 28 } }).ok [])

/-- HOST_WINDOW_CONFIG (R430). -/
def execHostWindowConfig (m : BitVec 6) (s : State) : Out :=
  .next (s.welfy 0x0203 m fun ps s =>
    let l := u64At ps 0
    if l % 4096 ≠ 0 ∨ 2 ^ 46 < l then s.bad 0
    else ({ s with host := { s.host with hostLimit := l } }).ok [])

/-! ### Progress of long operations (R420) -/

/-- PROGRESS_UPDATE: POSITION of a running operation, which never decreases and never passes TOTAL. -/
def execProgressUpdate (rec : BitVec 4) (position : BitVec 64) (s : State) : Out :=
  let p := s.record rec.toNat
  let x := position.toNat
  .next (if p.running && decide (p.position ≤ x) && (p.total == 0 || decide (x ≤ p.total))
    then s.putRecord rec.toNat { p with position := x } else s)

/-! ### Resets of the host side (R407) -/

/-- Function level reset, hot reset or PERST#: configuration space, the mailbox and doorbell pages, the MSI-X table and the pending
register-window stores; nothing else. A command that has started (APERTURE_SELECT) runs to its end with its response
discarded: it belongs to no mailbox from here on. -/
def State.hostReset (s : State) : State :=
  let s1 := { s with
    host := { s.host with cfg := ConfigSpace.reset, boxes := [], msix := [], pba := 0, spaced := 0, covered := 0, traps := [] },
    phys := { s.phys with apSelect := s.phys.apSelect.map (fun (x : Nat × Nat) => (64, x.2)) } }
  (s1.bump Reg.MBX_CNT_FLR 1).stick Reg.MBX_STATUS 6

/-- PERST# (R407). The CXL domain locks when it is deasserted (Table 15.1). -/
def execPerst (s : State) : Out :=
  let s1 := s.hostReset
  .next (if s.phys.refPresent then
      { s1 with phys := { s1.phys with domains := tset s1.phys.domains 36 { ClockDomain.reset with phase := .locking } } }
    else s1)

/-- Function level reset (R407). -/
def execFunctionLevelReset (s : State) : Out := .next s.hostReset

/-- Hot reset (R407). -/
def execHotReset (s : State) : Out := .next s.hostReset

/-! ### The CXL link (R404, R405, R559) -/

/-- The link leaves the active state (R405): LINK_DOWN, a deferred error, IDE streams end until re-keyed, and a stash
target in host memory is lost (R281). -/
def State.linkLeaves (s : State) : State :=
  let s1 := { s with
    host := { s.host.ideEnd with linkActive := false },
    sts := { s.sts with lossSeen := s.sts.lossSeen || s.targetKind == 2 } }
  (s1.stick Reg.MBX_STATUS 7).raise .cxlDown ⟨10, 0⟩ 0

/-- LINK_DOWN (R405). -/
def execLinkDown (s : State) : Out := .next (if s.host.linkActive then s.linkLeaves else s)

/-- Widths and rates that the link trains at (Table 13.1). -/
def linkTrains (width rate : Nat) : Bool := [8, 4, 2].contains width && [64, 32].contains rate

/-- LINK_ACTIVE (R404, R405): MBX_LINK reports the width and rate trained, with the CXL domain on its PLL. The link trains on the connector's reference
clock alone, and at no width or rate outside Table 13.1 (R402, R403). -/
def execLinkActive (width : BitVec 4) (rate : BitVec 8) (s : State) : Out :=
  .next (if s.phys.refPresent && linkTrains width.toNat rate.toNat then
      { s with
          host := { s.host with linkWidth := width.toNat, linkRate := rate.toNat, linkActive := true },
          phys := { s.phys with domains := tset s.phys.domains 36 { s.domain 36 with phase := .onPll, stable := true, switching := none } } }
    else s)

/-- IDE_FAIL (R559): an integrity failure of an active stream takes the link out of the active state. -/
def execIdeFail (s : State) : Out :=
  .next (if s.host.ideIo || s.host.ideCm then
      let s1 := s.stick Reg.SEC_STATUS 6
      if s1.host.linkActive then s1.linkLeaves else s1
    else s)

/-! ### The HDM window (R426, R427, R446) -/

/-- HDM_ACCESS: a CXL.mem access at `hpa` while the host's decoder stands as `decoder` says (the host writes the decoder
in the component registers, which no row of the table does: log entry 10). Inside a committed range a write stores its
bytes; a read returns memory and changes nothing here, and one before Memory_Active is completed with poison. -/
def execHdmAccess (decoder : Option (BitVec 52)) (hpa : BitVec 52) (write : Bool) (data : List Byte) (s : State) : Out :=
  let s1 := s.setDecoder decoder
  .next (match decoder with
    | none => s1
    | some d =>
      let at' := 0xFFFF * 2 ^ 48 + (s.host.hdmBase + (hpa.toNat - d.toNat))
      if decide (d.toNat ≤ hpa.toNat) && decide (hpa.toNat + data.length ≤ d.toNat + s.host.hdmUnits * 2 ^ 28)
          && s.host.linkActive && write && s.host.memoryActive && s.accessOk at' data.length true
      then s1.store at' data else s1)

/-! ### MSI-X (R424) -/

/-- MSIX_TABLE_STORE: a table entry written; unmasking a vector whose pending bit is set sends its message. The entry
is the 16 bytes of PCI Express: address, data, and vector control with the mask in bit 0. -/
def execMsixTableStore (vector : BitVec 6) (entry : BitVec 128) (s : State) : Out :=
  let v := vector.toNat
  let e : MsixEntry := { addr := entry.setWidth 64, data := (entry >>> 64).setWidth 32, masked := entry.getLsbD 96 }
  let s1 := { s with host := { s.host with msix := tset s.host.msix v e } }
  .next (if !e.masked && s.host.pba.getLsbD v then
      ({ s1 with host := { s1.host with pba := setBit64 s1.host.pba v false } }).sendVec v
    else s1)

/-- MSIX_INTERVAL_END: the spacing of a vector expires; one message covers what arrived in it. -/
def execMsixIntervalEnd (vector : BitVec 6) (s : State) : Out :=
  let v := vector.toNat
  .next (if s.host.spaced.getLsbD v then
      let s1 := { s with host := { s.host with
        spaced := setBit64 s.host.spaced v false, covered := setBit64 s.host.covered v false } }
      if s.host.covered.getLsbD v then s1.sendVec v else s1
    else s)

end Sys2Proof.Machine
end

