-- ==== Sys2Proof/Machine/Packets.lean ====
section
/-! DEFINITION. Dreska packets and their sending (R365 to R375, R380): how a packet is formed, sealed, put on a plane and kept
for link retry, and the management messages of Tables 2.7 and 12.6 as packets. -/

namespace Sys2Proof.Machine

/-! ### Packets (Tables 12.4 and 12.5) -/

/-- TYPE codes. -/
def tyLinkCtl : Nat := 0x00
def tyMgmt : Nat := 0x01
def tyWrite : Nat := 0x10
def tyReadReq : Nat := 0x11
def tyReadResp : Nat := 0x12
def tyWriteAck : Nat := 0x13
def tyComplErr : Nat := 0x14
def tyUnreach : Nat := 0x15
def tySignal : Nat := 0x16
def tyColData : Nat := 0x20
def tyColCredit : Nat := 0x21


/-- Bytes 4 to 27 of a header. -/
def headBytes (p : Packet) : List Byte :=
  [p.type, p.flags] ++ toLe 2 p.epoch.toNat ++ toLe 2 p.dst.toNat ++ toLe 2 p.src.toNat ++ toLe 2 p.length.toNat
    ++ toLe 2 p.inst.toNat ++ toLe 4 p.tag.toNat ++ toLe 6 p.addr.toNat ++ toLe 2 p.aux.toNat

/-- ECRC over bytes 4 to 27, the payload and any trailer. -/
def packetCrc (p : Packet) : BitVec 32 := crc32 (headBytes p ++ p.payload ++ p.trailer)

def packetEnc (p : Packet) : Bool := p.flags.getLsbD 0
def packetPoison (p : Packet) : Bool := p.flags.getLsbD 1

/-- VC of a TYPE. -/
def packetVc (t : Nat) : Nat :=
  if t = tyMgmt then 0
  else if t = tyWrite ∨ t = tyReadReq ∨ t = tySignal then 1
  else if t = tyColData ∨ t = tyColCredit then 3 else 2

/-- The TYPE codes that are defined (R366). -/
def typeDefined (t : Nat) : Bool :=
  ([tyLinkCtl, tyMgmt, tyWrite, tyReadReq, tyReadResp, tyWriteAck, tyComplErr, tyUnreach, tySignal, tyColData,
    tyColCredit] : List Nat).contains t

/-- A defined TYPE, zero reserved fields and a LENGTH of at most 512 that the payload has (R366). -/
def packetFormed (p : Packet) : Bool :=
  let t := p.type.toNat
  typeDefined t
    && p.linkRsv == 0 && decide (p.flags.toNat < 8) && decide (p.length.toNat ≤ 512)
    && p.payload.length == p.length.toNat
    && (t != tyColData || decide (p.aux.toNat < 8)) && (t != tySignal || decide (p.addr.toNat < 2 ^ 28))

/-- A packet that this device sends: its own station, epoch and zero link word. -/
def State.mkPacket (s : State) (type flags dst inst tag addr aux : Nat) (payload : List Byte) : Packet :=
  { seq := 0, vc := BitVec.ofNat 2 (packetVc type), linkRsv := 0, lcrcOk := true, type := BitVec.ofNat 8 type,
    flags := BitVec.ofNat 8 flags, epoch := s.frm.epoch, dst := BitVec.ofNat 16 dst,
    src := BitVec.ofNat 16 (s.lnk.station.getD 0), length := BitVec.ofNat 16 payload.length,
    inst := BitVec.ofNat 16 inst, tag := BitVec.ofNat 32 tag, addr := BitVec.ofNat 48 addr,
    aux := BitVec.ofNat 16 aux, payload := payload, trailer := [], ecrc := 0 }

/-! ### Keys and encryption (R380 to R382) -/

/-- The key table's entry for a peer, by index and entry. -/
def keyFor (t : Tab (Option KeyEntry)) (peer : Nat) : Option (Nat × KeyEntry) :=
  firstSome (fun (e : Nat × Option KeyEntry) => match e.2 with
    | some k => if k.peer = peer then some (e.1, k) else none
    | none => none) t

/-- The key that a handle names. -/
def State.handleKey (s : State) (h : Nat) : List Byte := tget [] s.sec.handles h

/-- The 96-bit IV of a packet on a plane, little-endian (R380). -/
def packetIv (p : Packet) (plane ctr : Nat) : List Byte :=
  toLe 12 (ctr % 2 ^ 59 + plane % 32 * 2 ^ 59 + p.dst.toNat * 2 ^ 64 + p.src.toNat * 2 ^ 80)

/-- A packet as it leaves on a plane: encrypted where the peer has an entry whose mask holds the plane, ECRC last. None
where the entry's counter is used up: it stops sending until rekeyed. -/
def State.sealPacket (s : State) (p : Packet) (plane : Nat) : Option (Packet × State) :=
  let fin := fun (q : Packet) => { q with ecrc := packetCrc q }
  match keyFor s.lnk.keys p.dst.toNat with
  | none => some (fin p, s)
  | some (i, k) =>
    if p.type.toNat ≤ 1 ∨ !k.planes.getLsbD plane then some (fin p, s)
    else
      let c := tget 0 k.counters plane
      if 2 ^ 59 ≤ c then none
      else
        let q := { p with flags := p.flags ||| 1 }
        let r := gcmSeal (s.handleKey k.handle) (packetIv q plane c) (headBytes q) q.payload
        let k' := { k with counters := tset k.counters plane (c + 1) }
        some (fin { q with payload := r.1, trailer := toLe 8 c ++ slice r.2 0 16 },
          { s with lnk := { s.lnk with keys := tset s.lnk.keys i (some k') } })

/-! ### Sending (R368, R372, R373) -/

/-- A destination is marked unreachable on a plane. -/
def State.marked (s : State) (dst plane : Nat) : Bool := s.lnk.unreach.any (fun u => u.1 == dst && u.2.1 == plane)

/-- The spray set of a destination. -/
def State.spraySet (s : State) (dst : Nat) : List Nat :=
  (List.range 24).filter (fun n => decide ((s.port n).phase = .up) && !(s.port n).joining && !s.marked dst n)

/-- The plane of the next packet to a destination: the next of its spray set after the last plane used, wrapping from 23
to 0; the first packet takes the lowest. -/
def State.nextPlane (s : State) (dst : Nat) : Option Nat :=
  let last := tget 23 s.lnk.spray dst
  let set := s.spraySet dst
  match set.find? (fun n => decide (last < n)) with
  | some n => some n
  | none => set.head?

/-- A packet sent out of a port. -/
def State.emit (s : State) (port : Nat) (p : Packet) : State :=
  { s with out := { s.out with fabric := s.out.fabric ++ [(port, p)] } }

/-- A port's state. -/
def State.putPort (s : State) (n : Nat) (p : Port) : State :=
  { s with lnk := { s.lnk with ports := tset s.lnk.ports n p } }

/-- An outstanding remote transaction (R378). -/
def State.transOf (s : State) (tag : Nat) : Option Trans := s.lnk.trans.find? (fun t => t.tag == tag)

/-- A request of the stash manager's off-load (R277). -/
def TransFor.isOffload : TransFor → Bool
  | .offload _ => true
  | _ => false

/-- Traffic served in cycles that no slot claims: the stash manager's off-load and the Mirror's copies (R277, R518). -/
def TransFor.yields : TransFor → Bool
  | .offload _ | .mirror => true
  | _ => false

/-- A packet of traffic that gives way, which slot traffic of its channel goes before (R277, R369, R518). -/
def State.isBackground (s : State) (p : Packet) : Bool :=
  (p.type.toNat == tyWrite || p.type.toNat == tyReadReq)
    && (s.transOf p.tag.toNat).any (fun t => t.owner.yields && t.packet.dst == p.dst)

/-- A packet sent now on a port: sealed, with the next sequence number and a place in the retry buffer, where the wait for an
acknowledgement begins with the oldest entry (R368). -/
def State.transmit (s : State) (n : Nat) (p : Packet) : State :=
  let q := s.port n
  match s.sealPacket p n with
  | none => s
  | some (w, s1) =>
    let w1 := { w with seq := BitVec.ofNat 12 q.txNext }
    (s1.putPort n { q with
      txNext := (q.txNext + 1) % 4096, retry := q.retry ++ [(q.txNext, w1, p)],
      ackRc := if q.retry.isEmpty then s.rc else q.ackRc,
      lastVc := if p.vc = 0 then q.lastVc else p.vc.toNat }).emit n w1

/-- A packet put on a port under link retry; where the retry buffer is full it waits (R368). -/
def State.linkSend (s : State) (n : Nat) (p : Packet) : State :=
  let q := s.port n
  if 64 ≤ q.retry.length then s.putPort n { q with waiting := q.waiting ++ [p] } else s.transmit n p

/-- The virtual channels in the order in which they are served next: VC0 first, then the others in turn after the one
last served (R369). -/
def vcOrder (last : Nat) : List Nat := [0, last % 3 + 1, (last + 1) % 3 + 1, (last + 2) % 3 + 1]

/-- The waiting packet served next: of the first channel that has one, the oldest that is not off-load traffic, or else the
oldest (R369). -/
def pickWaiting (off : Packet → Bool) (last : Nat) (w : List Packet) : Option Packet :=
  firstSome (fun vc =>
    let l := w.filter (fun p => p.vc.toNat == vc)
    (l.find? (fun p => !off p)).or l.head?) (vcOrder last)

/-- Waiting packets that now find room in the retry buffer, `k` at most. -/
def State.drainSome (s : State) (n : Nat) : Nat → State
  | 0 => s
  | k + 1 =>
    let q := s.port n
    if 64 ≤ q.retry.length then s
    else match pickWaiting s.isBackground q.lastVc q.waiting with
      | none => s
      | some p => ((s.putPort n { q with waiting := q.waiting.erase p }).transmit n p).drainSome n k

/-- Waiting packets that now find room in the retry buffer. -/
def State.drainWaiting (s : State) (n : Nat) : State := s.drainSome n (s.port n).waiting.length

/-- A station became unreachable on every plane (R373): recorded, a deferred error, and the loss of a stash target there
(R281). -/
def State.stationLost (s : State) (dst : Nat) : State :=
  let s1 := { s with lnk := { s.lnk with lastLost := some dst } }
  let hit := match s.sts.desc with
    | some d => u8At d 68 == 1 && u64At d 40 / 2 ^ 48 == dst
    | none => false
  let s2 := if hit then { s1 with sts := { s1.sts with lossSeen := true } } else s1
  (s2.stick Reg.LNK_STATUS 4).raise .unreachable ⟨11, 0⟩ dst

/-- A packet noted for an UNREACH to return (R373): requests are kept as transactions and collective data by the engine; of
the others, those sent in the last 2^16 rc. -/
def State.keepSent (s : State) (p : Packet) : State :=
  let t := p.type.toNat
  if t = tyWrite ∨ t = tyReadReq ∨ t = tySignal ∨ t = tyColData then s
  else { s with lnk := { s.lnk with
    kept := s.lnk.kept.filter (fun k => decide (s.rc < k.1 + 2 ^ 16) && k.2 != p) ++ [(s.rc, p)] } }

/-- A destination to which packets have been sent. -/
def State.knowsPlane (s : State) (dst : Nat) : Bool := s.lnk.spray.any (fun e => e.1 == dst)

/-- The plane last used for a destination. -/
def State.notePlane (s : State) (dst n : Nat) : State := { s with lnk := { s.lnk with spray := tset s.lnk.spray dst n } }

/-- A packet sent to its destination on the next plane of the spray set; with an empty set it is not sent, and a destination
that never had a plane is then lost (R373). -/
def State.sendPacket (s : State) (p : Packet) : State :=
  let dst := p.dst.toNat
  match s.nextPlane dst with
  | none => if s.knowsPlane dst then s else (s.notePlane dst 23).stationLost dst
  | some n => ((s.notePlane dst n).keepSent p).linkSend n p

/-- Packets sent in order. -/
def State.sendPackets (s : State) : List Packet → State
  | [] => s
  | p :: ps => (s.sendPacket p).sendPackets ps

/-! ### Management messages sent (Tables 2.7 and 12.6) -/

/-- The message code, in TAG. -/
def MgmtOut.code : MgmtOut → Nat
  | .enumReply .. => 0x0002
  | .assignAck .. => 0x0004
  | .tickProbe .. => 0x0010
  | .tickEcho .. => 0x0011
  | .tickSetAck .. => 0x0013
  | .armAck .. => 0x0021
  | .armNak .. => 0x0022
  | .armMiss .. => 0x0023
  | .abortDone .. => 0x0025
  | .abortLate .. => 0x0026
  | .switchFail .. => 0x0027
  | .rollbackDone .. => 0x0029
  | .rollbackExpired .. => 0x002A
  | .stretchReq .. => 0x002B
  | .verdictLate .. => 0x0030
  | .portEvent .. => 0x0031
  | .remoteProbe .. => Config.remoteProbeCode

/-- The payload of a message of station `st`. The fields of Table 2.7 stand in its order, packed, with a status or cause of
two bytes last (DESIGN CHOICE, log entry 65). -/
def MgmtOut.payload (st : Nat) : MgmtOut → List Byte
  | .enumReply port id ap => id ++ toLe 1 port ++ toLe 1 ap ++ toLe 2 deviceId ++ toLe 2 vendorId
  | .assignAck n x => toLe 2 n ++ toLe 2 x.code
  | .tickProbe _ t1 => toLe 8 t1
  | .tickEcho _ _ t1 t2 t3 tick since => toLe 8 t1 ++ toLe 8 t2 ++ toLe 8 t3 ++ toLe 8 tick.toNat ++ toLe 4 since
  | .tickSetAck x tick => toLe 8 tick.toNat ++ toLe 2 x.code
  | .armAck e d => toLe 2 st ++ toLe 2 e.toNat ++ slice d 0 8
  | .armNak e x => toLe 2 st ++ toLe 2 e.toNat ++ toLe 2 x.code
  | .armMiss seen cur => toLe 2 st ++ toLe 2 seen.toNat ++ toLe 2 cur.toNat
  | .abortDone e => toLe 2 st ++ toLe 2 e.toNat
  | .abortLate e => toLe 2 st ++ toLe 2 e.toNat
  | .switchFail e x => toLe 2 st ++ toLe 2 e.toNat ++ toLe 2 x.code
  | .rollbackDone e => toLe 2 st ++ toLe 2 e.toNat
  | .rollbackExpired e => toLe 2 st ++ toLe 2 e.toNat
  | .stretchReq stack amt cnt => toLe 2 st ++ toLe 1 stack ++ toLe 1 amt ++ toLe 1 cnt
  | .verdictLate t => toLe 8 t.toNat
  | .portEvent port state cause => toLe 1 port ++ toLe 1 state ++ toLe 1 cause
  | .remoteProbe .. => []

/-- A message as a packet to a station. -/
def State.mgmtPacket (s : State) (dst : Nat) (m : MgmtOut) : Packet :=
  s.mkPacket tyMgmt 0 dst 0 m.code 0 0 (m.payload (s.lnk.station.getD 0))

/-- A message sent to the fabric manager; before it is assigned the message has no destination, and is noted only. -/
def State.say (s : State) (m : MgmtOut) : State :=
  match s.lnk.manager with
  | some d => (s.noteMgmt m).sendPacket (s.mgmtPacket d m)
  | none => s.noteMgmt m

/-- A message sent to a station on one port. -/
def State.sayOn (s : State) (n dst : Nat) (m : MgmtOut) : State := (s.noteMgmt m).linkSend n (s.mgmtPacket dst m)

end Sys2Proof.Machine
end

