-- ==== Sys2Proof/Machine/Sig.lean ====
section
/-! DEFINITION. SLH-DSA with SHA-256, in the two parameter sets that chapter 17 names (R545, R550, R554), and the curve
secp384r1 of Table 17.4. Both are PRESUMED from their public standards (FIPS 205, SEC 2; log entry 3). -/

namespace Sys2Proof.Machine

/-! ### SLH-DSA -/

/-- A parameter set: layers of the hypertree, height of a layer, height of a few-time tree, their number. -/
structure SlhSet where
  layers : Nat
  height : Nat
  fewHeight : Nat
  fewCount : Nat
  deriving DecidableEq, Repr

/-- SLH-DSA-SHA2-128s, of firmware images, the owner and the debug keys. -/
def slhSmall : SlhSet := ⟨7, 9, 12, 14⟩

/-- SLH-DSA-SHA2-128f, of the identity key. -/
def slhFast : SlhSet := ⟨22, 3, 6, 33⟩

/-- Chains of a one-time signature: 32 of message digits and 3 of the checksum. -/
def slhChains : Nat := 35

/-- Bytes of a signature: randomizer, few-time part, hypertree part. -/
def SlhSet.sigBytes (p : SlhSet) : Nat :=
  16 * (1 + p.fewCount * (p.fewHeight + 1) + p.layers * (slhChains + p.height))

/-- Where a hash stands: layer, tree, what it serves, and three words. -/
structure SlhPlace where
  layer : Nat
  tree : Nat
  use : Nat
  pair : Nat
  x : Nat
  y : Nat

/-- The 22-byte form of a place. -/
def SlhPlace.bytes (a : SlhPlace) : List Byte :=
  toBe 1 a.layer ++ toBe 8 a.tree ++ toBe 1 a.use ++ toBe 4 a.pair ++ toBe 4 a.x ++ toBe 4 a.y

/-- The keyed hash at a place, 16 bytes. -/
def slhHash (seed : List Byte) (a : SlhPlace) (m : List Byte) : List Byte :=
  (sha256 (slice seed 0 64 ++ a.bytes ++ m)).take 16

/-- `n` steps of a chain from step `i` on. -/
def slhChain (seed : List Byte) (a : SlhPlace) : Nat → Nat → List Byte → List Byte
  | _, 0, v => v
  | i, n + 1, v => slhChain seed a (i + 1) n (slhHash seed { a with y := i } v)

/-- The first `count` numbers of `w` bits in a byte string, most significant bit first. -/
def slhDigits (w count : Nat) (b : List Byte) : List Nat :=
  let v := beNat b
  (List.range count).map (fun i => v / 2 ^ (8 * b.length - w * (i + 1)) % 2 ^ w)

/-- The 35 digits that a one-time signature of 16 bytes signs. -/
def onceDigits (m : List Byte) : List Nat :=
  let d := slhDigits 4 32 m
  let sum := sumNat (d.map (15 - ·))
  d ++ [sum / 256 % 16, sum / 16 % 16, sum % 16]

/-- The secret start of chain `i` of the one-time key `a.pair`. -/
def onceSecret (sk seed : List Byte) (a : SlhPlace) (i : Nat) : List Byte :=
  slhHash seed { a with use := 5, x := i, y := 0 } sk

/-- Chain ends of a one-time key, each run on from a digit's place, hashed together. -/
def onceRoot (seed : List Byte) (a : SlhPlace) (parts : List (Nat × List Byte)) : List Byte :=
  slhHash seed { a with use := 1, x := 0, y := 0 } (parts.zipIdx.flatMap (fun (e : (Nat × List Byte) × Nat) =>
    slhChain seed { a with use := 0, x := e.2 } e.1.1 (15 - e.1.1) e.1.2))

/-- A node of height `z` of a tree, from its leaves: `leaf` gives those, `up` the place of a node. -/
def slhNode (seed : List Byte) (up : Nat → Nat → SlhPlace) (leaf : Nat → List Byte) : Nat → Nat → List Byte
  | 0, i => leaf i
  | z + 1, i => slhHash seed (up (z + 1) i) (slhNode seed up leaf z (2 * i) ++ slhNode seed up leaf z (2 * i + 1))

/-- The nodes beside the path from leaf `i` up through `z` heights. -/
def slhBeside (seed : List Byte) (up : Nat → Nat → SlhPlace) (leaf : Nat → List Byte) (z i : Nat) : List (List Byte) :=
  (List.range z).map (fun j => slhNode seed up leaf j (i / 2 ^ j + 1 - 2 * (i / 2 ^ j % 2)))

/-- The node that a leaf and the nodes beside its path lead to. -/
def slhClimb (seed : List Byte) (up : Nat → Nat → SlhPlace) : Nat → Nat → List (List Byte) → List Byte → List Byte
  | _, _, [], v => v
  | z, i, b :: bs, v =>
    slhClimb seed up (z + 1) (i / 2) bs (slhHash seed (up (z + 1) (i / 2)) (if i % 2 = 0 then v ++ b else b ++ v))

/-- Place of a node of a hypertree's tree. -/
def treeUp (layer tree : Nat) (z i : Nat) : SlhPlace := ⟨layer, tree, 2, 0, z, i⟩

/-- The one-time public key at leaf `i` of a hypertree's tree. -/
def treeLeaf (sk seed : List Byte) (layer tree : Nat) (i : Nat) : List Byte :=
  let a : SlhPlace := ⟨layer, tree, 0, i, 0, 0⟩
  onceRoot seed a ((List.range slhChains).map (fun j => (0, onceSecret sk seed a j)))

/-- Key generation: the public key, 32 bytes, from SK.seed, SK.prf and PK.seed. -/
def slhKeygen (p : SlhSet) (secret : List Byte) : List Byte :=
  let sk := slice secret 0 16
  let seed := slice secret 32 16
  seed ++ slhNode seed (treeUp (p.layers - 1) 0) (treeLeaf sk seed (p.layers - 1) 0) p.height 0

/-- One layer's signature of 16 bytes at leaf `i`: the chains, then the nodes beside the path. -/
def layerSign (p : SlhSet) (sk seed : List Byte) (layer tree i : Nat) (m : List Byte) : List (List Byte) :=
  let a : SlhPlace := ⟨layer, tree, 0, i, 0, 0⟩
  (onceDigits m).zipIdx.map (fun e => slhChain seed { a with x := e.2 } 0 e.1 (onceSecret sk seed a e.2))
    ++ slhBeside seed (treeUp layer tree) (treeLeaf sk seed layer tree) p.height i

/-- The root that a layer's signature leads to. -/
def layerRoot (seed : List Byte) (layer tree i : Nat) (m : List Byte) (sig : List (List Byte)) : List Byte :=
  slhClimb seed (treeUp layer tree) 0 i (sig.drop slhChains)
    (onceRoot seed ⟨layer, tree, 0, i, 0, 0⟩ ((onceDigits m).zip (sig.take slhChains)))

/-- The layers from `layer` on sign one another's roots. -/
def hyperSign (p : SlhSet) (sk seed : List Byte) : Nat → Nat → Nat → Nat → List Byte → List (List Byte)
  | 0, _, _, _, _ => []
  | n + 1, layer, tree, i, m =>
    let sig := layerSign p sk seed layer tree i m
    sig ++ hyperSign p sk seed n (layer + 1) (tree / 2 ^ p.height) (tree % 2 ^ p.height) (layerRoot seed layer tree i m sig)

/-- The last root that the layers' signatures lead to. -/
def hyperRoot (p : SlhSet) (seed : List Byte) : Nat → Nat → Nat → Nat → List Byte → List (List Byte) → List Byte
  | 0, _, _, _, m, _ => m
  | n + 1, layer, tree, i, m, sig =>
    let one := slhChains + p.height
    hyperRoot p seed n (layer + 1) (tree / 2 ^ p.height) (tree % 2 ^ p.height)
      (layerRoot seed layer tree i m (sig.take one)) (sig.drop one)

/-- Place of a node of the few-time trees beneath leaf `i`. -/
def fewUp (tree i : Nat) (z j : Nat) : SlhPlace := ⟨0, tree, 3, i, z, j⟩

/-- The secret of few-time leaf `j`. -/
def fewSecret (sk seed : List Byte) (tree i j : Nat) : List Byte := slhHash seed ⟨0, tree, 6, i, 0, j⟩ sk

/-- The few-time signature: for each tree the secret of its chosen leaf and the nodes beside the path. -/
def fewSign (p : SlhSet) (sk seed : List Byte) (tree i : Nat) (picks : List Nat) : List (List Byte) :=
  let leaf := fun j => slhHash seed (fewUp tree i 0 j) (fewSecret sk seed tree i j)
  picks.zipIdx.flatMap (fun e =>
    let j := e.2 * 2 ^ p.fewHeight + e.1
    fewSecret sk seed tree i j :: slhBeside seed (fewUp tree i) leaf p.fewHeight j)

/-- The few-time public key that a signature leads to. -/
def fewRoot (p : SlhSet) (seed : List Byte) (tree i : Nat) (picks : List Nat) (sig : List (List Byte)) : List Byte :=
  slhHash seed ⟨0, tree, 4, i, 0, 0⟩ (picks.zipIdx.flatMap (fun e =>
    let j := e.2 * 2 ^ p.fewHeight + e.1
    let own := sig.drop (e.2 * (p.fewHeight + 1))
    slhClimb seed (fewUp tree i) 0 j ((own.drop 1).take p.fewHeight)
      (slhHash seed (fewUp tree i 0 j) (own.headD []))))

/-- What a message with its randomizer selects: the few-time leaves, the tree and its leaf. -/
def slhSelect (p : SlhSet) (r pub msg : List Byte) : List Nat × Nat × Nat :=
  let treeBits := p.layers * p.height - p.height
  let few := cdiv (p.fewCount * p.fewHeight) 8
  let tree := cdiv treeBits 8
  let leaf := cdiv p.height 8
  let start := r ++ slice pub 0 16 ++ sha256 (r ++ pub ++ msg)
  let d := ((List.range (cdiv (few + tree + leaf) 32)).flatMap (fun i => sha256 (start ++ toBe 4 i))).take (few + tree + leaf)
  (slhDigits p.fewHeight p.fewCount (d.take few), beNat ((d.drop few).take tree) % 2 ^ treeBits,
    beNat (d.drop (few + tree)) % 2 ^ p.height)

/-- A message with its context, as the pure form signs it. -/
def slhMessage (ctx msg : List Byte) : List Byte := [0, BitVec.ofNat 8 ctx.length] ++ ctx ++ msg

/-- Signing under 48 secret bytes, with 16 bytes of randomness. -/
def slhSign (p : SlhSet) (secret ctx msg random : List Byte) : List Byte :=
  let sk := slice secret 0 16
  let seed := slice secret 32 16
  let m := slhMessage ctx msg
  let r := (hmacSha256 (slice secret 16 16) (slice random 0 16 ++ m)).take 16
  let at' := slhSelect p r (slhKeygen p secret) m
  let few := fewSign p sk seed at'.2.1 at'.2.2 at'.1
  r ++ few.flatten
    ++ (hyperSign p sk seed p.layers 0 at'.2.1 at'.2.2 (fewRoot p seed at'.2.1 at'.2.2 at'.1 few)).flatten

/-- Verification under a public key. -/
def slhVerify (p : SlhSet) (pub ctx msg sig : List Byte) : Bool :=
  let m := slhMessage ctx msg
  let seed := slice pub 0 16
  let parts := chunks 16 (p.sigBytes / 16) sig
  let at' := slhSelect p (parts.headD []) (slice pub 0 32) m
  let few := p.fewCount * (p.fewHeight + 1)
  sig.length == p.sigBytes
    && hyperRoot p seed p.layers 0 at'.2.1 at'.2.2
      (fewRoot p seed at'.2.1 at'.2.2 at'.1 ((parts.drop 1).take few)) (parts.drop (1 + few)) == slice pub 16 16

/-! ### The curve secp384r1 -/

/-- The prime of the field. -/
def curvePrime : Nat := 2 ^ 384 - 2 ^ 128 - 2 ^ 96 + 2 ^ 32 - 1

/-- The constant term of the curve y² = x³ - 3x + b. -/
def curveB : Nat :=
  0xb3312fa7e23ee7e4988e056be3f82d19181d9c6efe8141120314088f5013875ac656398d8a2ed19d2a85c8edd3ec2aef

/-- The base point. -/
def curveBase : Nat × Nat :=
  (0xaa87ca22be8b05378eb1c71ef320ad746e1d3b628ba79b9859f741e082542a385502f25dbf55296c3a545e3872760ab7,
   0x3617de4a96262c6f5d9e98bf9292dc29f8f41dbd289a147ce9da3113b5f0b8c00a60b1ce1d7e819d7a431d7c90ea0e5f)

/-- `a` to the power of the number whose bits, `n` of them, are those of `e`. -/
def powMod (a e : Nat) : Nat → Nat
  | 0 => 1
  | n + 1 =>
    let h := powMod a (e / 2) n
    h * h % curvePrime * (if e % 2 = 1 then a else 1) % curvePrime

/-- A quotient in the field. -/
def fieldDiv (a b : Nat) : Nat := a * powMod b (curvePrime - 2) 384 % curvePrime

/-- A difference in the field. -/
def fieldSub (a b : Nat) : Nat := (a % curvePrime + curvePrime - b % curvePrime) % curvePrime

/-- Whether a pair of coordinates is a point of the curve. -/
def onCurve (q : Nat × Nat) : Bool :=
  decide (q.1 < curvePrime) && decide (q.2 < curvePrime)
    && q.2 * q.2 % curvePrime == fieldSub (q.1 * q.1 * q.1 + curveB) (3 * q.1)

/-- The third point, mirrored, on the line of slope `l` through `q` and one with x-coordinate `x`. -/
def curveThird (l x : Nat) (q : Nat × Nat) : Nat × Nat :=
  let r := fieldSub (l * l) (q.1 + x)
  (r, fieldSub (l * fieldSub q.1 r) q.2)

/-- The sum of two points; none is the neutral one. -/
def curveAdd (p q : Option (Nat × Nat)) : Option (Nat × Nat) :=
  match p, q with
  | none, _ => q
  | _, none => p
  | some u, some v =>
    if u.1 = v.1 then
      if (u.2 + v.2) % curvePrime = 0 then none
      else some (curveThird (fieldDiv (fieldSub (3 * u.1 * u.1) 3) (2 * u.2)) u.1 u)
    else some (curveThird (fieldDiv (fieldSub v.2 u.2) (fieldSub v.1 u.1)) v.1 u)

/-- A point taken as many times as the number `k` of `n` bits says. -/
def curveMul (q : Nat × Nat) (k : Nat) : Nat → Option (Nat × Nat)
  | 0 => none
  | n + 1 =>
    let h := curveMul q (k / 2) n
    let d := curveAdd h h
    if k % 2 = 1 then curveAdd d (some q) else d

/-- A point as 96 bytes, and back where the bytes are a point. -/
def pointBytes (q : Option (Nat × Nat)) : List Byte :=
  match q with
  | some v => toBe 48 v.1 ++ toBe 48 v.2
  | none => List.replicate 96 0

def bytesPoint (b : List Byte) : Option (Nat × Nat) :=
  let q := (beNat (slice b 0 48), beNat (slice b 48 48))
  if onCurve q then some q else none

end Sys2Proof.Machine
end

