-- ==== Sys2Proof/Machine/Num.lean ====
section
/-! DEFINITION. Exact numbers and the formats of chapter 3: dyadic rationals with NaN and infinities, IEEE 754 binary
formats (R86, R87), FP4, INT4, FP8, INT8 and UE5M3 codes (R80 to R89), and their roundings (R124, R125). -/

namespace Sys2Proof.Machine

/-! ### Dyadic rationals -/

/-- The number m · 2^e. -/
structure Dy where
  m : Int
  e : Int
  deriving DecidableEq, Repr

namespace Dy

def zero : Dy := ⟨0, 0⟩
def ofNat (n : Nat) : Dy := ⟨n, 0⟩

/-- The numerator over 2^e' for e' at most the exponent. -/
def at' (x : Dy) (e' : Int) : Int := x.m * (2 ^ (x.e - e').toNat : Nat)

def add (x y : Dy) : Dy := let e := min x.e y.e; ⟨x.at' e + y.at' e, e⟩
def neg (x : Dy) : Dy := ⟨-x.m, x.e⟩
def sub (x y : Dy) : Dy := x.add y.neg
def mul (x y : Dy) : Dy := ⟨x.m * y.m, x.e + y.e⟩
def abs (x : Dy) : Dy := ⟨x.m.natAbs, x.e⟩

/-- Exact multiplication by 2^k (R91). -/
def scale (x : Dy) (k : Int) : Dy := ⟨x.m, x.e + k⟩

def isZero (x : Dy) : Bool := x.m == 0
def isNeg (x : Dy) : Bool := decide (x.m < 0)
def lt (x y : Dy) : Bool := let e := min x.e y.e; decide (x.at' e < y.at' e)
def le (x y : Dy) : Bool := !y.lt x
def eq (x y : Dy) : Bool := !x.lt y && !y.lt x

/-- floor(log2 |x|) of a nonzero number. -/
def log2 (x : Dy) : Int := x.e + Nat.log2 x.m.natAbs

end Dy

/-- A value that a unit reads: NaN, an infinity of a sign, or a finite number; negative zero is zero (R87). -/
inductive Val where
  | nan
  | inf (neg : Bool)
  | fin (x : Dy)
  deriving DecidableEq, Repr

namespace Val

def zero : Val := .fin Dy.zero

def isFin : Val → Bool
  | .fin _ => true
  | _ => false

def isZero : Val → Bool
  | .fin x => x.isZero
  | _ => false

/-- The number of a finite value, zero otherwise. -/
def dy : Val → Dy
  | .fin x => x
  | _ => Dy.zero

def scale (v : Val) (k : Int) : Val :=
  match v with
  | .fin x => .fin (x.scale k)
  | w => w

def neg : Val → Val
  | .nan => .nan
  | .inf s => .inf (!s)
  | .fin x => .fin x.neg

/-- Exact sum, with the NaN and infinity rules of IEEE 754. -/
def add (a b : Val) : Val :=
  match a, b with
  | .nan, _ => .nan
  | _, .nan => .nan
  | .inf s, .inf t => if s = t then .inf s else .nan
  | .inf s, _ => .inf s
  | _, .inf t => .inf t
  | .fin x, .fin y => .fin (x.add y)

/-- Exact product, with the NaN and infinity rules of IEEE 754. -/
def mul (a b : Val) : Val :=
  match a, b with
  | .nan, _ => .nan
  | _, .nan => .nan
  | .inf s, .inf t => .inf (s != t)
  | .inf s, .fin y => if y.isZero then .nan else .inf (s != y.isNeg)
  | .fin x, .inf t => if x.isZero then .nan else .inf (x.isNeg != t)
  | .fin x, .fin y => .fin (x.mul y)

/-- The sign a value carries; NaN and zero carry none. -/
def isNeg : Val → Bool
  | .nan => false
  | .inf s => s
  | .fin x => x.isNeg

end Val

/-! ### Rounding to a binary format -/

/-- n / 2^sh rounded to nearest, ties to even. -/
def rneShift (n sh : Nat) : Nat :=
  let q := n / 2 ^ sh
  let r := n % 2 ^ sh
  if 2 * r > 2 ^ sh then q + 1 else if 2 * r = 2 ^ sh then q + q % 2 else q

/-- a / b rounded to nearest, ties to even. -/
def rneDiv (a b : Nat) : Nat :=
  let q := a / b
  let r := a % b
  if 2 * r > b then q + 1 else if 2 * r = b then q + q % 2 else q

/-- A number rounded to `p` significant bits with a least exponent `emin`, ties to even. -/
def roundDy (p : Nat) (emin : Int) (x : Dy) : Dy :=
  if x.m = 0 then Dy.zero
  else
    let n := x.m.natAbs
    let ulp := max (x.e + (Nat.log2 n : Nat) + 1 - (p : Int)) emin
    if ulp ≤ x.e then x
    else
      let q := rneShift n (ulp - x.e).toNat
      ⟨if x.m < 0 then -(q : Int) else q, ulp⟩

/-- Largest finite magnitude of the binary formats with `mb` stored mantissa bits and 8 exponent bits. -/
def maxFinite (mb : Nat) : Dy := ⟨2 ^ (mb + 1) - 1, 127 - mb⟩

/-- Rounding once, to nearest-even, into binary32 (`mb` 23) or BF16 (`mb` 7): overflow gives an infinity (R86). -/
def roundBin (mb : Nat) (v : Val) : Val :=
  match v with
  | .fin x =>
    let r := roundDy (mb + 1) (-126 - mb) x
    if (maxFinite mb).lt r.abs then .inf x.isNeg else .fin r
  | w => w

/-- The code of a value that is representable with `mb` mantissa bits; zero is +0, NaN is canonical (R87). -/
def encodeBin (mb : Nat) (v : Val) : Nat :=
  let sgn := fun (s : Bool) => b2n s * 2 ^ (mb + 8)
  match v with
  | .nan => 255 * 2 ^ mb + 2 ^ (mb - 1)
  | .inf s => sgn s + 255 * 2 ^ mb
  | .fin x =>
    if x.m = 0 then 0
    else
      let n := x.m.natAbs
      let top := x.e + Nat.log2 n
      let ulp := max (top - mb) (-126 - mb)
      let q := if ulp ≤ x.e then n * 2 ^ (x.e - ulp).toNat else n / 2 ^ (ulp - x.e).toNat
      let exp := if top < -126 then 0 else (top + 127).toNat
      sgn (decide (x.m < 0)) + (if exp = 0 then q else exp * 2 ^ mb + (q - 2 ^ mb))

/-- The value of a code with `mb` mantissa bits and 8 exponent bits. -/
def decodeBin (mb : Nat) (c : Nat) : Val :=
  let s := bit c (mb + 8)
  let e := bits c mb (mb + 7)
  let m := c % 2 ^ mb
  let sg := fun (n : Nat) => if s then -(n : Int) else (n : Int)
  if e = 255 then (if m = 0 then .inf s else .nan)
  else if e = 0 then .fin ⟨sg m, -126 - mb⟩
  else .fin ⟨sg (m + 2 ^ mb), (e : Int) - 127 - mb⟩

def f32 (c : Nat) : Val := decodeBin 23 c
def bf16 (c : Nat) : Val := decodeBin 7 c

/-- Rounded once to FP32. -/
def round32 (v : Val) : Val := roundBin 23 v

/-- Rounded once to BF16. -/
def round16 (v : Val) : Val := roundBin 7 v

/-- FP32 code of a value rounded once. -/
def code32 (v : Val) : Nat := encodeBin 23 (round32 v)

/-- BF16 code of a value rounded once. -/
def code16 (v : Val) : Nat := encodeBin 7 (round16 v)

/-- FP32 addition, multiplication and fused multiply-add, each rounded once. -/
def fadd (a b : Val) : Val := round32 (a.add b)
def fsub (a b : Val) : Val := round32 (a.add b.neg)
def fmul (a b : Val) : Val := round32 (a.mul b)
def ffma (a b c : Val) : Val := round32 ((a.mul b).add c)

/-- A quotient of dyadic numbers rounded once to `p` bits with least exponent `emin`, ties to even. -/
def divDy (p : Nat) (emin : Int) (x y : Dy) : Dy :=
  let a := x.m.natAbs
  let b := y.m.natAbs
  let g := x.e - y.e + (Nat.log2 a : Nat) - (Nat.log2 b : Nat) - p
  let ulp := max g emin
  let k := x.e - y.e - ulp
  let q0 := if 0 ≤ k then rneDiv (a * 2 ^ k.toNat) b else rneDiv a (b * 2 ^ (-k).toNat)
  let fl := if 0 ≤ k then a * 2 ^ k.toNat / b else a / (b * 2 ^ (-k).toNat)
  let sg := fun (n : Nat) => if (decide (x.m < 0)) != (decide (y.m < 0)) then -(n : Int) else (n : Int)
  if fl < 2 ^ p then ⟨sg q0, ulp⟩
  else
    let k1 := k - 1
    let q1 := if 0 ≤ k1 then rneDiv (a * 2 ^ k1.toNat) b else rneDiv a (b * 2 ^ (-k1).toNat)
    ⟨sg q1, ulp + 1⟩

/-- FP32 division, rounded once, with the exceptional cases of IEEE 754. -/
def fdiv (a b : Val) : Val :=
  match a, b with
  | .nan, _ => .nan
  | _, .nan => .nan
  | .inf _, .inf _ => .nan
  | .inf s, .fin y => .inf (s != y.isNeg)
  | .fin _, .inf _ => .zero
  | .fin x, .fin y =>
    if y.isZero then (if x.isZero then .nan else .inf x.isNeg)
    else if x.isZero then .zero
    else
      let r := divDy 24 (-149) x y
      if (maxFinite 23).lt r.abs then .inf r.isNeg else .fin r

/-- Integer square root of `n`, by `fuel` Newton steps from above. -/
def isqrtGo : Nat → Nat → Nat → Nat
  | 0, _, x => x
  | fuel + 1, n, x =>
    let y := (x + n / x) / 2
    if y < x then isqrtGo fuel n y else x

def isqrt (n : Nat) : Nat := if n = 0 then 0 else isqrtGo (Nat.log2 n + 8) n (2 ^ (Nat.log2 n / 2 + 1))

/-- FP32 square root, rounded once; NaN of a negative number. -/
def fsqrt (a : Val) : Val :=
  match a with
  | .nan => .nan
  | .inf s => if s then .nan else .inf false
  | .fin x =>
    if x.isZero then .zero
    else if x.isNeg then .nan
    else
      let n0 := x.m.natAbs
      let odd := x.e % 2 ≠ 0
      let n1 := if odd then 2 * n0 else n0
      let e1 := if odd then x.e - 1 else x.e
      let k : Nat := 64
      let n := n1 * 2 ^ (2 * k)
      let r := isqrt n
      let sticky := if r * r = n then 0 else 1
      round32 (.fin ⟨(2 * r + sticky : Nat), e1 / 2 - k - 1⟩)

/-! ### Element formats (Tables 3.1, 3.2 and 3.5) -/

/-- FORMAT of a tensor descriptor. -/
inductive Format where
  | fp4 | int4 | e4m3 | e5m2 | int8 | bf16 | fp32
  deriving DecidableEq, Repr

def Format.ofCode (c : Nat) : Option Format :=
  match c with
  | 1 => some .fp4 | 2 => some .int4 | 3 => some .e4m3 | 4 => some .e5m2 | 5 => some .int8
  | 6 => some .bf16 | 7 => some .fp32 | _ => none

/-- A blocked format: every format but BF16 and FP32 (R90). -/
def Format.blocked (f : Format) : Bool := f != .bf16 && f != .fp32

/-- A four-bit format. -/
def Format.four (f : Format) : Bool := f == .fp4 || f == .int4

/-- Bytes of one element, in half bytes. -/
def Format.nibbles (f : Format) : Nat :=
  match f with
  | .fp4 | .int4 => 1
  | .bf16 => 4
  | .fp32 => 8
  | _ => 2

/-- Magnitude of FP4 code `k` (0 to 7) in halves. -/
def fp4Half (k : Nat) : Nat := (#[0, 1, 2, 3, 4, 6, 8, 12] : Array Nat).getD k 0

/-- Magnitude number `k` of a narrow format, in ascending order of value. -/
def Format.mag (f : Format) (k : Nat) : Dy :=
  match f with
  | .fp4 => ⟨fp4Half k, -1⟩
  | .e4m3 => if k < 8 then ⟨k, -9⟩ else ⟨(8 + k % 8 : Nat), (k / 8 : Nat) - 10⟩
  | .e5m2 => if k < 4 then ⟨k, -16⟩ else ⟨(4 + k % 4 : Nat), (k / 4 : Nat) - 17⟩
  | _ => ⟨k, 0⟩

/-- The number of the largest magnitude that the quantizer writes. -/
def Format.top (f : Format) : Nat :=
  match f with
  | .fp4 | .int4 => 7
  | .e4m3 => 0x7E
  | .e5m2 => 0x7B
  | _ => 127

/-- emax of R120. -/
def Format.emax (f : Format) : Dy := f.mag f.top

/-- The code of magnitude `k` with a sign; zero has no sign (R126). -/
def Format.code (f : Format) (neg : Bool) (k : Nat) : Nat :=
  if k = 0 ∨ !neg then k
  else match f with
    | .fp4 => 8 + k
    | .int4 => 16 - k
    | .int8 => 256 - k
    | _ => 128 + k

/-- The value of an element code. -/
def Format.value (f : Format) (c : Nat) : Val :=
  let sg := fun (s : Bool) (x : Dy) => Val.fin (if s then x.neg else x)
  match f with
  | .fp4 => sg (bit c 3) (f.mag (c % 8))
  | .int4 => .fin ⟨sext 4 c, 0⟩
  | .int8 => .fin ⟨sext 8 c, 0⟩
  | .e4m3 => if c % 128 = 127 then .nan else sg (bit c 7) (f.mag (c % 128))
  | .e5m2 =>
    if c % 128 = 0x7C then .inf (bit c 7) else if 0x7C < c % 128 then .nan else sg (bit c 7) (f.mag (c % 128))
  | .bf16 => decodeBin 7 c
  | .fp32 => decodeBin 23 c

/-- UE5M3 value of a code from 0x00 to 0xFE (R88). -/
def ue5m3 (c : Nat) : Dy := if c < 8 then ⟨c, -17⟩ else ⟨(8 + c % 8 : Nat), (c / 8 : Nat) - 18⟩

/-! ### Rounding to an element under a scale (R123 to R126) -/

/-- The largest magnitude number at most |y| / scale, at most `top`: found bit by bit. -/
def magFloor (f : Format) (scale y : Dy) : Nat :=
  ([64, 32, 16, 8, 4, 2, 1] : List Nat).foldl (fun k b =>
    if k + b ≤ f.top && ((f.mag (k + b)).mul scale).le y then k + b else k) 0

/-- Magnitude number after nearest-even rounding and clamping of the magnitude `y` under a scale. -/
def magNearest (f : Format) (scale y : Dy) : Nat :=
  let k := magFloor f scale y
  if k = f.top then k
  else
    let lo := (f.mag k).mul scale
    let hi := (f.mag (k + 1)).mul scale
    let mid2 := lo.add hi
    let y2 := y.scale 1
    if mid2.lt y2 then k + 1 else if y2.lt mid2 then k else k + k % 2

/-- Magnitude number after stochastic rounding with random byte `u` (R125). -/
def magStochastic (f : Format) (scale y : Dy) (u : Nat) : Nat :=
  let k := magFloor f scale y
  if k = f.top then k
  else
    let lo := (f.mag k).mul scale
    let hi := (f.mag (k + 1)).mul scale
    let e := min (min lo.e hi.e) y.e
    let t := (256 * (y.at' e - lo.at' e)) / (hi.at' e - lo.at' e)
    if (u : Int) < t then k + 1 else k

end Sys2Proof.Machine
end

