-- ==== Sys2Proof/Machine/Accum.lean ====
section
/-! DEFINITION. Long accumulators (R179 to R181, R188, R189, R196): the exact sum on the 2^-48 grid with its tag and
first cause, and the raw record that carries it. -/

namespace Sys2Proof.Machine

/-- Cause codes of Table 6.6. -/
def causeNanIn : Nat := 1
def causeInfIn : Nat := 2
def causeOvf : Nat := 3
def causeInv : Nat := 4

/-- An accumulator that holds zero. -/
def AccCell.zero : AccCell := ⟨0, 0, 0⟩

/-- A number rounded to nearest-even onto the 2^-48 grid, in units of 2^-48 (R179). -/
def toGrid (x : Dy) : Int :=
  if -48 ≤ x.e then x.m * (2 ^ (x.e + 48).toNat : Nat)
  else
    let q := (rneShift x.m.natAbs (-48 - x.e).toNat : Nat)
    if x.m < 0 then -(q : Int) else q

/-- Whether a number lies on the 2^-48 grid. -/
def onGrid (x : Dy) : Bool := (Dy.mk (toGrid x) (-48)).eq x

/-- An accumulator with a non-finite tag. -/
def AccCell.special (tag cause : Nat) : AccCell := ⟨0, tag, cause⟩

/-- A finite term, in units of 2^-48, added to a finite accumulator (R181): exact, or an infinity with cause OVF. -/
def AccCell.addInt (a : AccCell) (v : Int) : AccCell :=
  let r := a.value + v
  if -(2 ^ 111 : Int) ≤ r ∧ r < (2 ^ 111 : Int) then { a with value := r }
  else .special (if r < 0 then 2 else 1) causeOvf

/-- Table 6.5: an accumulator combined with a term. The term's tag is 0 for a finite value of `value`. -/
def AccCell.combine (a t : AccCell) : AccCell :=
  if a.tag = 3 then a
  else if t.tag = 3 then .special 3 (if a.tag = 0 then t.cause else a.cause)
  else if a.tag = 0 then (if t.tag = 0 then a.addInt t.value else .special t.tag t.cause)
  else if t.tag = 0 ∨ t.tag = a.tag then a
  else .special 3 a.cause

/-- Whether a combination is the INV event of Table 6.5. -/
def AccCell.inv (a t : AccCell) : Bool := a.tag != 0 && a.tag != 3 && t.tag != 0 && t.tag != 3 && a.tag != t.tag

/-- A value as a term, rounded onto the grid. -/
def termOf (v : Val) : AccCell :=
  match v with
  | .nan => .special 3 causeNanIn
  | .inf s => .special (if s then 2 else 1) causeInfIn
  | .fin x => ⟨toGrid x, 0, 0⟩

/-- The value of an accumulator times 2^k. -/
def AccCell.val (a : AccCell) (k : Int) : Val :=
  if a.tag = 0 then .fin ⟨a.value, k - 48⟩ else if a.tag = 1 then .inf false else if a.tag = 2 then .inf true else .nan

/-- The 16-byte raw record of an accumulator with shift `k` (R196). -/
def AccCell.record (a : AccCell) (k : Int) : List Byte :=
  toLe 14 (if a.tag = 0 then ofInt 112 a.value else 0) ++ toLe 2 (a.tag + a.cause * 4 + ofInt 10 k * 64)

/-- The accumulator that a raw record holds. -/
def recordCell (r : List Byte) : AccCell :=
  let h := u16At r 14
  if h % 4 = 0 then ⟨sext 112 (leNat (slice r 0 14)), 0, bits h 2 5⟩ else .special (h % 4) (bits h 2 5)

/-- The shift of a raw record. -/
def recordShift (r : List Byte) : Int := sext 10 (u16At r 14 / 64)

end Sys2Proof.Machine
end

