-- ==== Sys2Proof/Machine/Rng.lean ====
section
/-! DEFINITION. The counter-based generator (R284 to R289, R291). -/

namespace Sys2Proof.Machine

/-- One round of Philox-4x32 on the words x0 to x3 with the round's key. -/
def philoxRound (x : Nat × Nat × Nat × Nat) (k0 k1 : Nat) : Nat × Nat × Nat × Nat :=
  let p0 := 0xD2511F53 * x.1
  let p1 := 0xCD9E8D57 * x.2.2.1
  (p1 / 2 ^ 32 ^^^ x.2.1 ^^^ k0, p1 % 2 ^ 32, p0 / 2 ^ 32 ^^^ x.2.2.2 ^^^ k1, p0 % 2 ^ 32)

/-- A key word advanced by its Weyl constant. -/
def weyl (w k : Nat) : Nat := (k + w) % 2 ^ 32

/-- The rounds left, with the key advanced before every round but the first. -/
def philoxGo : Nat → Nat × Nat × Nat × Nat → Nat → Nat → Nat × Nat × Nat × Nat
  | 0, x, _, _ => x
  | n + 1, x, k0, k1 => philoxGo n (philoxRound x k0 k1) (weyl 0x9E3779B9 k0) (weyl 0xBB67AE85 k1)

/-- The 16 output bytes of the generator (R285, R286): seed, stream, position, step extension. -/
def philox (seed stream position ext : Nat) : List Byte :=
  let x := philoxGo 10 (position % 2 ^ 32, position / 2 ^ 32 % 2 ^ 32, stream % 2 ^ 32, ext % 2 ^ 32)
    (seed % 2 ^ 32) (seed / 2 ^ 32 % 2 ^ 32)
  toLe 4 x.1 ++ toLe 4 x.2.1 ++ toLe 4 x.2.2.1 ++ toLe 4 x.2.2.2

/-- The output for an element field at step t (R285): the step field is t[23:0], the extension t[55:24]. -/
def philoxStep (seed stream t elem : Nat) : List Byte :=
  philox seed stream (t % 2 ^ 24 * 2 ^ 40 + elem % 2 ^ 40) (t / 2 ^ 24)

/-- The output for an element field with step field 0. -/
def philoxFixed (seed stream elem : Nat) : List Byte := philox seed stream (elem % 2 ^ 40) 0

/-- The random byte of an element (R127). -/
def srByte (seed stream t e : Nat) : Nat := u8At (philoxStep seed stream t (e / 16)) (e % 16)

/-- The random half-word of an element (Table 9.3, dropout). -/
def dropHalf (seed stream t e : Nat) : Nat := u16At (philoxStep seed stream t (e / 8)) (2 * (e % 8))

/-- The random word of an element (Table 9.3, router noise). -/
def noiseWord (seed stream t e : Nat) : Nat := u32At (philoxStep seed stream t (e / 4)) (4 * (e % 4))

/-- Whether the Prism sign at index `i` is negative (R135). -/
def prismNeg (seed stream i : Nat) : Bool :=
  bit (leNat (philoxFixed seed stream (i / 128))) (i % 128)

end Sys2Proof.Machine
end

