-- ==== Sys2Proof/Machine/Operands.lean ====
section
/-! DEFINITION. Tensor operands (chapter 3): the tensor descriptor and its checks, the tile layout of the planes,
reading a block with its fallback record, outliers and sparsity pattern, and reading wide elements. -/

namespace Sys2Proof.Machine

/-! ### Tensor descriptors (R94, R95) -/

/-- A tensor descriptor as read from memory: its address and its 64 bytes. -/
structure TDesc where
  addr : Nat
  raw : List Byte
  deriving DecidableEq, Repr

namespace TDesc

def id (d : TDesc) : Nat := u32At d.raw 0
def fmtCode (d : TDesc) : Nat := u8At d.raw 4
def fmt (d : TDesc) : Format := (Format.ofCode d.fmtCode).getD .fp32
def flags (d : TDesc) : Nat := u8At d.raw 5
def axis (d : TDesc) : Nat := d.flags % 2
def sparse (d : TDesc) : Bool := bit d.flags 1
def outliers (d : TDesc) : Bool := bit d.flags 2
def fallback (d : TDesc) : Bool := bit d.flags 3
def saturate (d : TDesc) : Bool := bit d.flags 4
def te (d : TDesc) : Int := sext 8 (u8At d.raw 6)
def prism (d : TDesc) : Nat := u8At d.raw 7
def elemAddr (d : TDesc) : Nat := u64At d.raw 8
def scaleAddr (d : TDesc) : Nat := u64At d.raw 16
def metaAddr (d : TDesc) : Nat := u64At d.raw 24
def outAddr (d : TDesc) : Nat := u64At d.raw 32
def fbAddr (d : TDesc) : Nat := u64At d.raw 40
def dim0 (d : TDesc) : Nat := u32At d.raw 48
def dim1 (d : TDesc) : Nat := u32At d.raw 52
def stream (d : TDesc) : Nat := u32At d.raw 56
def outExp (d : TDesc) : Nat := u8At d.raw 60 % 16
def fbExp (d : TDesc) : Nat := u8At d.raw 60 / 16

/-- Rotation size, 0 for none. -/
def rot (d : TDesc) : Nat := if d.prism = 0 then 0 else 16 * 2 ^ d.prism

/-- Dimension along the blocked axis and along the other. -/
def db (d : TDesc) : Nat := if d.axis = 0 then d.dim0 else d.dim1
def do' (d : TDesc) : Nat := if d.axis = 0 then d.dim1 else d.dim0

/-- Padded lengths and tile counts. -/
def pb (d : TDesc) : Nat := roundUp d.db (Nat.max 64 d.rot)
def po (d : TDesc) : Nat := roundUp d.do' 64
def tb (d : TDesc) : Nat := d.pb / 64
def tOther (d : TDesc) : Nat := d.po / 64
def tiles (d : TDesc) : Nat := d.tb * d.tOther

/-- Padded extent along logical axis `a`. -/
def padded (d : TDesc) (a : Nat) : Nat := if a = d.axis then d.pb else d.po

/-- The checks of R95. -/
def ok (d : TDesc) : Bool :=
  let plane := fun (a : Nat) (needed : Bool) => a % 256 == 0 && (if needed then a != 0 else a == 0)
  (Format.ofCode d.fmtCode).isSome && decide (d.flags < 32) && decide (d.prism ≤ 4) && zeroBytes d.raw 61 3
    && d.id != 0 && decide (1 ≤ d.dim0) && decide (d.dim0 ≤ 2 ^ 31) && decide (1 ≤ d.dim1) && decide (d.dim1 ≤ 2 ^ 31)
    && plane d.elemAddr true && plane d.scaleAddr d.fmt.blocked && plane d.metaAddr d.sparse
    && plane d.outAddr d.outliers && plane d.fbAddr d.fallback
    && (!d.sparse || (d.fmt.four && d.axis == 0 && d.prism == 0))
    && (!(d.outliers || d.fallback) || (d.fmt.blocked && !d.sparse))
    && (!d.outliers || (decide (2 ≤ d.outExp) && decide (d.outExp ≤ 6)))
    && (!d.fallback || (decide (4 ≤ d.fbExp) && decide (d.fbExp ≤ 8)))

/-! ### Plane layout (R97 to R104) -/

/-- Bytes of one tile of the element plane (Table 3.6). -/
def tileBytes (d : TDesc) : Nat := if d.sparse then 1024 else 2048 * d.fmt.nibbles

/-- Bytes of one block (32 elements) of the element plane. -/
def blockBytes (d : TDesc) : Nat := d.tileBytes / 128

/-- Tile, line and half of an element; its block within the tile is 2j + h. -/
def tile (d : TDesc) (i o : Nat) : Nat := o / 64 * d.tb + i / 64

/-- Byte address of block `p` of tile `t` in the element plane. -/
def blockAddr (d : TDesc) (t p : Nat) : Nat := d.elemAddr + t * d.tileBytes + p * d.blockBytes

/-- First record of the outlier area, and of the fallback area (R101, R103). -/
def outBase (d : TDesc) : Nat := d.outAddr + roundUp (32 * d.tiles) 256
def fbBase (d : TDesc) : Nat := d.fbAddr + roundUp (32 * d.tiles) 256

/-- Shares of tile `t` (R139): first index and number of outlier records, and of fallback records. -/
def outShare (d : TDesc) (t : Nat) : Nat × Nat := (t * 2 ^ (7 - d.outExp), 2 ^ (7 - d.outExp))
def fbShare (d : TDesc) (t : Nat) : Nat × Nat :=
  let a := t * 128 / 2 ^ d.fbExp
  (a, (t + 1) * 128 / 2 ^ d.fbExp - a)

/-- Sizes of the planes in bytes (R104): elements, scales, metadata, outliers, fallback. -/
def planeSizes (d : TDesc) : List Nat :=
  let blocks := 128 * d.tiles
  [d.tiles * d.tileBytes, if d.fmt.blocked then blocks else 0, if d.sparse then 4 * blocks else 0,
   if d.outliers then roundUp (32 * d.tiles) 256 + 8 * cdiv blocks (2 ^ d.outExp) else 0,
   if d.fallback then roundUp (32 * d.tiles) 256 + 32 * cdiv blocks (2 ^ d.fbExp) else 0]

/-- The planes: address and size of each that the tensor has. -/
def planes (d : TDesc) : List (Nat × Nat) :=
  ([d.elemAddr, d.scaleAddr, d.metaAddr, d.outAddr, d.fbAddr].zip d.planeSizes).filter (fun p => p.2 != 0)

/-- Logical indices of an element from its blocked and other index, and back. -/
def logical (d : TDesc) (i o : Nat) : Nat × Nat := if d.axis = 0 then (i, o) else (o, i)
def placed (d : TDesc) (i0 i1 : Nat) : Nat × Nat := if d.axis = 0 then (i0, i1) else (i1, i0)

/-- Logical element index e = i0 · DIM1 + i1 (R127). -/
def index (d : TDesc) (i o : Nat) : Nat := (d.logical i o).1 * d.dim1 + (d.logical i o).2

end TDesc

/-- Bytes of a descriptor or of a table that it names: within an operation of a slot, as memory stood when the slot started
(R96); those of another station as its responses gave them. -/
def State.descLoad (s : State) (addr n : Nat) : List Byte :=
  match s.frm.reader with
  | some m => if s.isRemote addr then s.load addr n else ({ s with mem := m }).load addr n
  | none => s.load addr n

/-- Reading a descriptor (R96). -/
def State.tdesc (s : State) (addr : Nat) : TDesc := ⟨addr, s.descLoad addr 64⟩

/-- A descriptor that lies at a multiple of 64, can be read and passes R95 (R580). -/
def State.tdescOk (s : State) (addr : Nat) : Bool :=
  addr % 64 == 0 && s.accessOk addr 64 false && (s.tdesc addr).ok

/-- The first plane of a tensor that its unit may not access (R331), if any. -/
def State.planeFault (s : State) (d : TDesc) (write : Bool) : Option Nat :=
  (d.planes.find? (fun p => !s.accessOk p.1 p.2 write)).map (·.1)

/-- Whether a read of a tensor meets poison in any of its planes. -/
def State.tensorPoisoned (s : State) (d : TDesc) : Bool := d.planes.any (fun p => s.poisoned p.1 p.2)

/-! ### Sparsity patterns (R296 to R298) -/

/-- Binomial coefficient C(n, m). -/
def choose : Nat → Nat → Nat
  | _, 0 => 1
  | 0, _ + 1 => 0
  | n + 1, m + 1 => choose n m + choose n (m + 1)

/-- Pattern index of four ascending positions. -/
def patternIndex (p : List Nat) : Nat := sumNat ((List.range 4).map (fun i => choose (p.getD i 0) (i + 1)))

/-- The highest position q of slot `k` with C(q, k + 1) at most `idx`. -/
def patternPos (k idx : Nat) : Nat :=
  (List.range 8).foldl (fun q x => if k ≤ x ∧ choose x (k + 1) ≤ idx then x else q) k

/-- The kept positions of a pattern index from 0 to 69, ascending. -/
def patternDecode (idx : Nat) : List Nat :=
  let p3 := patternPos 3 idx
  let i2 := idx - choose p3 4
  let p2 := patternPos 2 i2
  let i1 := i2 - choose p2 3
  let p1 := patternPos 1 i1
  [patternPos 0 (i1 - choose p1 2), p1, p2, p3]

/-- The eight codes of a group from its two element bytes and its metadata byte. -/
def groupCodes (b0 b1 pat : Nat) : List Nat :=
  let ps := patternDecode pat
  let cs := [b0 % 16, b0 / 16, b1 % 16, b1 / 16]
  (List.range 8).map (fun q =>
    match (List.range 4).find? (fun k => ps.getD k 8 == q) with
    | some k => cs.getD k 0
    | none => 0)

/-! ### Reading a block (Table 3.4, R101 to R105) -/

/-- A block as read: scale code, element codes, the E4M3 codes of a fallback block, its outliers (position and BF16
code), whether it met a plane conflict, and how many of its groups had an invalid pattern. -/
structure Block where
  scale : Nat
  codes : List Nat
  fb : Option (List Nat)
  outs : List (Nat × Nat)
  conflict : Bool
  badMeta : Nat
  deriving DecidableEq, Repr

/-- The half bytes of a byte list, low first. -/
def halfBytes (bs : List Byte) : List Nat := bs.flatMap (fun b => [b.toNat % 16, b.toNat / 16])

/-- The codes of a block's bytes. -/
def Format.codes (f : Format) (bs : List Byte) : List Nat :=
  match f with
  | .fp4 | .int4 => halfBytes bs
  | .bf16 => (List.range 32).map (fun q => u16At bs (2 * q))
  | .fp32 => (List.range 32).map (fun q => u32At bs (4 * q))
  | _ => bs.map (·.toNat)

/-- Number of set bits below position `p` of a bitmap. -/
def popBelow (v p : Nat) : Nat := ((List.range p).filter (fun i => v.testBit i)).length

/-- Record address of block `p` of tile `t` in a directory plane, where its bitmap marks the block. -/
def State.dirRecord (s : State) (dir base size t p : Nat) : Option Nat :=
  let e := s.load (dir + 32 * t) 20
  let bm := leNat (e.take 16)
  if bm.testBit p then some (base + size * (u32At e 16 + popBelow bm p)) else none

/-- Outlier slots of a record (R102, R105): the valid ones that are used, and whether the record conflicts. -/
def outSlots (r : List Byte) : List (Nat × Nat) × Bool :=
  let a := u32At r 0
  let b := u32At r 4
  let sl := fun (w : Nat) => (bits w 16 20, w % 2 ^ 16)
  if bit a 31 then
    if bit b 31 then (if bits a 16 20 = bits b 16 20 then ([sl a], true) else ([sl a, sl b], false)) else ([sl a], false)
  else ([], bit b 31)

/-- Block `p` of tile `t`. -/
def State.block (s : State) (d : TDesc) (t p : Nat) : Block :=
  let bs := s.load (d.blockAddr t p) d.blockBytes
  let ms := if d.sparse then (s.load (d.metaAddr + 4 * (128 * t + p)) 4).map (·.toNat) else []
  let bad := (ms.filter (fun m => decide (70 ≤ m))).length
  let codes := if d.sparse then
      (List.range 4).flatMap (fun g => groupCodes (u8At bs (2 * g)) (u8At bs (2 * g + 1)) (ms.getD g 0))
    else d.fmt.codes bs
  let sc := if d.fmt.blocked then (s.loadByte (d.scaleAddr + 128 * t + p)).toNat else 0x78
  let fb := if d.fallback then (s.dirRecord d.fbAddr d.fbBase 32 t p).map (fun a => (s.load a 32).map (·.toNat)) else none
  let rec' := if d.outliers then (s.dirRecord d.outAddr d.outBase 8 t p).map (fun a => outSlots (s.load a 8)) else none
  { scale := if bad = 0 then sc else 0xFF, codes := codes, fb := fb,
    outs := if fb.isSome then [] else (match rec' with
      | some r => r.1
      | none => []),
    conflict := (match rec' with
      | some r => fb.isSome || r.2
      | none => false),
    badMeta := bad }

/-- The value of position `q` of a block, before the tensor exponent: cases 2 to 7 of Table 3.4. An outlier's value is
its BF16 value. -/
def Block.at' (b : Block) (f : Format) (q : Nat) : Val :=
  if !f.blocked then f.value (b.codes.getD q 0)
  else if b.scale = 0xFF then .nan
  else match b.fb with
    | some cs =>
      if b.scale = 0 then .zero
      else (Format.value .e4m3 (cs.getD q 0)).mul (.fin (ue5m3 b.scale))
    | none =>
      match b.outs.find? (fun x => x.1 == q) with
      | some x => bf16 x.2
      | none => if b.scale = 0 then .zero else (f.value (b.codes.getD q 0)).mul (.fin (ue5m3 b.scale))

/-- The 32 values of a block of line `o` from blocked index `i0`, in the tensor's units (Table 3.4). -/
def State.blockVals (s : State) (d : TDesc) (i0 o : Nat) : List Val :=
  let b := s.block d (d.tile i0 o) (2 * (o % 64) + i0 % 64 / 32)
  (List.range 32).map (fun q =>
    if d.db ≤ i0 + q ∨ d.do' ≤ o then .zero else (b.at' d.fmt q).scale d.te)

/-- Address of an element of a wide tensor. -/
def TDesc.wideAddr (d : TDesc) (i0 i1 : Nat) : Nat :=
  let x := d.placed i0 i1
  d.blockAddr (d.tile x.1 x.2) (2 * (x.2 % 64) + x.1 % 64 / 32) + d.fmt.nibbles / 2 * (x.1 % 32)

/-- Zero codes for every padding position of a wide tensor (R99). -/
def TDesc.padStores (d : TDesc) : List (Nat × List Byte) :=
  let rows : Nat → Nat → Nat → Nat → List (Nat × List Byte) := fun lo n c0 m => (List.range n).flatMap (fun i => (List.range m).map (fun c =>
    (d.wideAddr (lo + i) (c0 + c), List.replicate (d.fmt.nibbles / 2) 0)))
  rows d.dim0 (d.padded 0 - d.dim0) 0 (d.padded 1) ++ rows 0 d.dim0 d.dim1 (d.padded 1 - d.dim1)

/-- `n` values (a multiple of 32) along the blocked axis of line `o` from index `i0`. -/
def State.lineVals (s : State) (d : TDesc) (i0 o n : Nat) : List Val :=
  (List.range (n / 32)).flatMap (fun k => s.blockVals d (i0 + 32 * k) o)

/-- One element of a wide tensor by its logical indices: its code times 2^TE (R91, R230); zero in the padding. -/
def State.wideAt (s : State) (d : TDesc) (i0 i1 : Nat) : Val :=
  if d.dim0 ≤ i0 ∨ d.dim1 ≤ i1 then .zero
  else
    let x := d.placed i0 i1
    let t := d.tile x.1 x.2
    let p := 2 * (x.2 % 64) + x.1 % 64 / 32
    let n := d.fmt.nibbles / 2
    (d.fmt.value (leNat (s.load (d.blockAddr t p + n * (x.1 % 32)) n))).scale d.te

/-- Blocks that a read of a region touches: their tiles and places, by blocked and other extents. -/
def regionBlocks (d : TDesc) (i0 ni o0 no : Nat) : List (Nat × Nat) :=
  (List.range no).flatMap (fun o => (List.range (cdiv ni 32)).map (fun k =>
    let i := i0 + 32 * k
    (d.tile i (o0 + o), 2 * ((o0 + o) % 64) + i % 64 / 32)))

/-- Plane conflicts (R145) and invalid patterns (R298) that reading the listed blocks meets. -/
def State.readCounts (s : State) (d : TDesc) (bs : List (Nat × Nat)) : Nat × Nat :=
  if d.outliers || d.fallback || d.sparse then
    let xs := bs.map (fun x => s.block d x.1 x.2)
    ((xs.filter (fun (b : Block) => b.conflict)).length, sumNat (xs.map (fun (b : Block) => b.badMeta)))
  else (0, 0)

end Sys2Proof.Machine
end

