-- ==== Sys2Proof/Machine/Flags.lean ====
section
/-! DEFINITION. Counts and status bits that a conversion gives (Table 4.3, Table 4.5, R144, R145): one record of counts,
and the QNT_ and SPL_ counters and sticky bits it adds to. -/

namespace Sys2Proof.Machine

/-- The counts of one output layout (Tables 4.3 and 4.5, R111, R112). -/
structure QCnt where
  blocks : Nat
  zero : Nat
  underflow : Nat
  sat : Nat
  fitClip : Nat
  nonfin : Nat
  mxRequant : Nat
  mxClamp : Nat
  outBlocks : Nat
  fbBlocks : Nat
  quotaMiss : Nat
  fbExhaust : Nat
  deriving DecidableEq, Repr

namespace QCnt

def none : QCnt := ⟨0, 0, 0, 0, 0, 0, 0, 0, 0, 0, 0, 0⟩

def add (a b : QCnt) : QCnt :=
  { blocks := a.blocks + b.blocks, zero := a.zero + b.zero, underflow := a.underflow + b.underflow,
    sat := a.sat + b.sat, fitClip := a.fitClip + b.fitClip, nonfin := a.nonfin + b.nonfin,
    mxRequant := a.mxRequant + b.mxRequant, mxClamp := a.mxClamp + b.mxClamp,
    outBlocks := a.outBlocks + b.outBlocks, fbBlocks := a.fbBlocks + b.fbBlocks,
    quotaMiss := a.quotaMiss + b.quotaMiss, fbExhaust := a.fbExhaust + b.fbExhaust }

/-- The counters of Table 4.6 that the counts add to. -/
def bumps (c : QCnt) : List (Nat × Nat) :=
  [(Reg.QNT_CNT_BLOCKS, c.blocks), (Reg.QNT_CNT_ZERO, c.zero), (Reg.QNT_CNT_UNDERFLOW, c.underflow),
   (Reg.QNT_CNT_SAT, c.sat), (Reg.QNT_CNT_FIT_CLIP, c.fitClip), (Reg.QNT_CNT_NONFIN, c.nonfin),
   (Reg.QNT_CNT_MX_REQUANT, c.mxRequant), (Reg.QNT_CNT_MX_CLAMP, c.mxClamp), (Reg.SPL_OUT_BLOCKS, c.outBlocks),
   (Reg.SPL_FB_BLOCKS, c.fbBlocks), (Reg.SPL_QUOTA_MISS, c.quotaMiss), (Reg.SPL_FB_EXHAUST, c.fbExhaust)]

/-- The sticky bits of QNT_STATUS that the counts set. -/
def bits (c : QCnt) : List (Nat × Nat) :=
  ([(c.sat, 0), (c.underflow, 1), (c.nonfin, 2), (c.fbExhaust, 3), (c.mxRequant, 8), (c.mxClamp, 9)].filter
    (fun x => x.1 != 0)).map (fun x => (Reg.QNT_STATUS, x.2))

end QCnt

/-- Counters advanced. -/
def State.bumps (s : State) : List (Nat × Nat) → State
  | [] => s
  | b :: bs => (if b.2 = 0 then s else s.bump b.1 b.2).bumps bs

/-- Sticky bits set. -/
def State.sticks (s : State) : List (Nat × Nat) → State
  | [] => s
  | b :: bs => (s.stick b.1 b.2).sticks bs

end Sys2Proof.Machine
end

