-- ==== Sys2Proof/Machine/Loupe.lean ====
section
/-! DEFINITION. The Loupe (chapter 8): the scale state block, reports, levels and causes, the verdict and the exchange
records, the actions of the response ladder, and the 0x065x commands. -/

namespace Sys2Proof.Machine

/-! ### The scale state block (Tables 8.6 to 8.10) -/

/-- Bytes of the block in force, from local HBM. -/
def State.ssb (s : State) (off n : Nat) : List Byte := s.load (s.lup.addr + off) n

def State.putSsb (s : State) (off : Nat) (bs : List Byte) : State := s.store (s.lup.addr + off) bs

/-- A block is loaded. -/
def State.ssbLoaded (s : State) : Bool := s.lup.phase != .unloaded && s.lup.addr != 0

def State.ssbEntries (s : State) : Nat := if s.ssbLoaded then u16At (s.ssb 6 2) 0 else 0

/-- Offset of an entry, of a class record, of a layer word. -/
def entryOff (i : Nat) : Nat := 0xC40 + 64 * i
def classOff (c : Nat) : Nat := 0x40 + 32 * c
def layerOff (l : Nat) : Nat := 0x240 + 2 * l

def State.entry (s : State) (i : Nat) : List Byte := s.ssb (entryOff i) 64
def State.classRec (s : State) (c : Nat) : List Byte := s.ssb (classOff c) 32

/-- Size of a block of `n` entries. -/
def ssbSize (n : Nat) : Nat := 0xC40 + 64 * n

def entryGlobal (e : List Byte) : Bool := bit (u8At e 13) 0
def entryUpd (e : List Byte) : Bool := bit (u8At e 13) 1

/-! ### Reports (R242 to R246) -/

def LupStat.empty : LupStat := ⟨AccCell.zero, 0, none, [0, 0, 0, 0, 0, 0, 0], 0⟩

def State.lupStat (s : State) (i : Nat) : LupStat := tget LupStat.empty s.lup.stats i

def State.setLup (s : State) (f : LupState → LupState) : State := { s with lup := f s.lup }

/-- A u32 count that saturates. -/
def sat32 (n : Nat) : Nat := Nat.min n 0xFFFFFFFF

def addCounts (a b : List Nat) : List Nat := (List.range 7).map (fun i => sat32 (a.getD i 0 + b.getD i 0))

/-- The larger of two magnitudes as FP32 codes, NaN winning. -/
def maxCode32 (a b : Nat) : Nat := if a = 0x7FC00000 ∨ b = 0x7FC00000 then 0x7FC00000 else Nat.max a b

/-- Drain statistics of values in units of 2^TE_out: S, each square rounded onto the grid, and M (R245). -/
def statOf (vs : List Val) : AccCell × Nat :=
  vs.foldl (fun (a : AccCell × Nat) v =>
    let sq := termOf (v.mul v)
    let m := match v with
      | .nan => 0x7FC00000
      | .inf _ => 0x7F800000
      | .fin x => code32 (.fin x.abs)
    (a.1.combine sq, maxCode32 a.2 m)) (AccCell.zero, 0)

/-- Whether a report matches an entry: drain statistics by STAT_ID, counts by a layout's TENSOR_ID. -/
def reportMatches (r : Report) (e : List Byte) : Bool :=
  r.tensor != 0 && (if r.byStat then u32At e 0 == r.tensor else u32At e 4 == r.tensor || u32At e 8 == r.tensor)

/-- An accepted report added to the entry's statistics. -/
def State.addReport (s : State) (i : Nat) (r : Report) : State :=
  let st := s.lupStat i
  match r.stat with
  | some (te, acc, m) =>
    if st.te.isSome && st.te != some te then
      (s.stick Reg.LUP_STATUS 1).setLup (fun l => { l with mismatch := true })
    else
      let st' : LupStat :=
        { s := st.s.combine acc, m := maxCode32 st.m m, te := some te, counts := addCounts st.counts r.counts,
          tile := st.tile ||| r.tile }
      s.setLup (fun l => { l with stats := tset l.stats i st' })
  | none =>
    s.setLup (fun l => { l with stats := tset l.stats i { st with counts := addCounts st.counts r.counts } })

/-- The combiner takes a report (R242, R251). -/
def State.loupeReport (s : State) (r : Report) : State :=
  match (List.range s.ssbEntries).find? (fun i => reportMatches r (s.entry i)) with
  | none => s.bump Reg.LUP_CNT_UNTRACKED 1
  | some i =>
    if s.lup.closed then
      (((s.bump Reg.LUP_CNT_LATE_REPORT 1).stick Reg.LUP_STATUS 2)).setLup (fun l => { l with late := true })
    else s.addReport i r

def State.loupeReports (s : State) : List Report → State
  | [] => s
  | r :: rs => (s.loupeReport r).loupeReports rs

/-- The report that the operand of LOUPE_REPORT spells. -/
def reportOf (a : ReportArg) : Report :=
  { tensor := a.id.toNat, byStat := a.drain,
    stat := if a.drain then
        (let st := statOf (a.values.map (fun (v : BitVec 32) => f32 v.toNat)); some (sext 8 a.te.toNat, st.1, st.2))
      else none,
    counts := a.counts.map (fun (c : BitVec 32) => c.toNat), tile := if a.drain then a.tile.toNat else 0 }

/-- LOUPE_REPORT (R242 to R246): a report from a recompute rerun is discarded (R243). -/
def execLoupeReport (report : ReportArg) (s : State) : Out :=
  .next (if report.rerun then s else s.loupeReport (reportOf report))

/-! ### Levels and causes (R247, R249) -/

/-- LOGV of a positive finite FP32 code. -/
def logv (x : Nat) : Int :=
  let e := bits x 23 30
  let f := x % 2 ^ 23
  if e ≠ 0 then ((e : Int) - 127) * 65536 + (f / 128 : Nat)
  else
    let p := Nat.log2 f
    ((p : Int) - 149) * 65536 + ((f * 2 ^ (23 - p) % 2 ^ 23) / 128 : Nat)

/-- What an entry is judged on. -/
structure Stats where
  s : AccCell
  m : Nat
  te : Int
  blocks : Nat
  sat : Nat
  ufl : Nat
  exh : Nat
  nonfin : Nat
  tile : Nat

def LupStat.stats (x : LupStat) : Stats :=
  { s := x.s, m := x.m, te := x.te.getD 0, blocks := x.counts.getD 0 0, sat := x.counts.getD 1 0,
    ufl := x.counts.getD 2 0, exh := x.counts.getD 5 0, nonfin := x.counts.getD 6 0, tile := x.tile }

/-- M is finite and nonzero. -/
def goodMax (m : Nat) : Bool := m != 0 && decide (m < 0x7F800000)

/-- Levels LN and LM, where S is finite and nonzero. -/
def Stats.levels (x : Stats) : Option (Int × Int) :=
  let c := code32 (x.s.val 0)
  if x.s.tag ≠ 0 ∨ c = 0 ∨ 0x7F800000 ≤ c ∨ !goodMax x.m then none
  else some (logv c / 2 + x.te * 65536, logv x.m + x.te * 65536)

/-- Signed 32-bit field of an entry. -/
def s32At (e : List Byte) (i : Nat) : Int := sext 32 (u32At e i)

/-- CAUSE bits 0 to 5 of an entry (Table 8.1). -/
def causesOf (e cls : List Byte) (x : Stats) : Nat :=
  let fl := u8At cls 17
  let warm := decide (u16At cls 18 ≤ u16At e 44)
  let jump := match x.levels with
    | none => 0
    | some l =>
      (if warm && bit fl 0 && decide ((l.1 - s32At e 36).natAbs > u16At cls 2 * 256) then 1 else 0)
        + (if warm && bit fl 1 && decide (l.2 - s32At e 40 > (u16At cls 4 * 256 : Nat)) then 2 else 0)
  let nonfin := x.s.tag != 0 || decide (0x7F800000 ≤ x.m) || x.nonfin != 0 || bit x.tile 31
  let ue := u8At cls 16
  jump + 4 * b2n nonfin + 8 * b2n (decide (u32At cls 8 < x.sat))
    + 16 * b2n (ue != 0 && decide (x.blocks < x.ufl * 2 ^ ue)) + 32 * b2n (decide (u32At cls 12 < x.exh))

/-- CAUSE bits of entry `i` from given statistics; none while the Loupe is disabled. -/
def State.entryCause (s : State) (i : Nat) (x : Stats) : Nat :=
  if s.regBit Reg.LUP_CFG 0 then let e := s.entry i; causesOf e (s.classRec (u8At e 12)) x else 0

/-- Non-numeric causes of Table 8.2, but for COVER, which the caller gives. -/
def State.nonNumeric (s : State) (cover : Bool) : Nat :=
  64 * b2n s.frm.uncommittable + 128 * b2n cover + 256 * b2n s.lup.late
    + 512 * b2n s.lup.mismatch

/-! ### The verdict (R251 to R254, Table 8.3) -/

/-- A verdict record. -/
def verdictRecord (cause attempt station entry : Nat) (layers : Nat) : List Byte :=
  toLe 2 cause ++ [BitVec.ofNat 8 attempt, 0] ++ toLe 2 station ++ toLe 2 entry ++ List.replicate 24 0 ++ toLe 128 layers

/-- The statistics record of an entry. -/
def Stats.record (x : Stats) : List Byte :=
  x.s.record (2 * x.te) ++ toLe 4 x.m ++ toLe 4 x.blocks ++ toLe 4 x.sat ++ toLe 4 x.ufl ++ toLe 4 x.exh
    ++ toLe 4 x.nonfin ++ List.replicate 8 0

/-- The statistics that a combined record gives; its raw record S carries twice TE_out as its shift. -/
def statsOfRecord (r : List Byte) : Stats :=
  { s := recordCell r, m := u32At r 16, te := recordShift r / 2, blocks := u32At r 20, sat := u32At r 24, ufl := u32At r 28,
    exh := u32At r 32, nonfin := u32At r 36, tile := 0 }

/-- Combining two verdict records. -/
def combineVerdict (a b : List Byte) : List Byte :=
  let first := if u16At a 4 ≤ u16At b 4 then a else b
  verdictRecord (u16At a 0 ||| u16At b 0) (Nat.max (u8At a 2) (u8At b 2)) (u16At first 4) (u16At first 6)
    (leNat (slice a 32 128) ||| leNat (slice b 32 128))

/-- A statistics record to which no report has added. -/
def emptyStats (r : List Byte) : Bool := (recordCell r).tag == 0 && (recordCell r).value == 0 && u32At r 16 == 0

/-- S of two statistics records: an exact sum; records of differing TE_out give NaN, as raw records do (R196), but one that
holds no report has no TE_out of its own (DESIGN CHOICE, log entry 74). -/
def combineS (a b : List Byte) : List Byte :=
  if emptyStats a then ((recordCell a).combine (recordCell b)).record (recordShift b)
  else if emptyStats b || recordShift a == recordShift b then ((recordCell a).combine (recordCell b)).record (recordShift a)
  else (AccCell.special 3 causeInv).record (recordShift a)

/-- Combining two statistics records. -/
def combineStats (a b : List Byte) : List Byte :=
  combineS a b ++ toLe 4 (maxCode32 (u32At a 16) (u32At b 16))
    ++ (List.range 5).flatMap (fun i => toLe 4 (sat32 (u32At a (20 + 4 * i) + u32At b (20 + 4 * i))))
    ++ List.replicate 8 0

/-- Entries flagged GLOBAL, in order. -/
def State.globalEntries (s : State) : List Nat :=
  (List.range s.ssbEntries).filter (fun i => entryGlobal (s.entry i))

/-- The map bit of an entry's layer. -/
def layerBit (e : List Byte) : Nat := if u16At e 14 < 1024 then 2 ^ u16At e 14 else 0

/-- Causes of a list of entries with their statistics: CAUSE, layer map, lowest troubled entry. -/
def State.judge (s : State) (es : List (Nat × Stats)) : Nat × Nat × Nat :=
  es.foldl (fun (a : Nat × Nat × Nat) x =>
    let c := s.entryCause x.1 x.2
    if c = 0 then a else (a.1 ||| c, a.2.1 ||| layerBit (s.entry x.1), Nat.min a.2.2 x.1)) (0, 0, 0xFFFF)

/-- The local entries (all but GLOBAL ones) with their statistics. -/
def State.localStats (s : State) : List (Nat × Stats) :=
  ((List.range s.ssbEntries).filter (fun i => !entryGlobal (s.entry i) || s.regBit Reg.LUP_CFG 1)).map
    (fun i => (i, (s.lupStat i).stats))

/-- The combined verdict as LUP_VERDICT and LUP_FIRST show it. -/
def State.showVerdict (s : State) (r : List Byte) : State :=
  let c := u16At r 0
  (s.putReg Reg.LUP_VERDICT (BitVec.ofNat 32 (c + (if c = 0 then 0 else 2 ^ 16) + (if c % 64 = 0 then 0 else 2 ^ 17)))).putReg
    Reg.LUP_FIRST (BitVec.ofNat 32 (u16At r 4 + u16At r 6 % 4096 * 2 ^ 16))

/-- Entries judged whose S is zero, counted (R247). -/
def State.countZero (s : State) (es : List (Nat × Stats)) : State :=
  s.bumps [(Reg.LUP_CNT_ZERO_STAT, (es.filter (fun x => x.2.s.tag == 0 && x.2.s.value == 0)).length)]

/-- The commit window of the attempt is open, or its decision has been taken: a verdict from now on is late (R236). -/
def State.windowOpen (s : State) : Bool :=
  s.upd.commit == .window
    || (s.upd.commit == .running && s.lastFrame && decide (s.frameLen < s.frm.phase + s.commitWin))

/-- The GLOBAL entries with the statistics of the combined records. -/
def State.globalStats (s : State) (stats : List (List Byte)) : List (Nat × Stats) :=
  (s.globalEntries.zip stats).map (fun x => (x.1, statsOfRecord x.2))

/-- The verdict taken from combined records (R254): GLOBAL entries are judged from them. One that comes once the commit window
has begun is not taken (R236, R255). -/
def State.takeVerdict (s : State) (rec' : List Byte) (stats : List (List Byte)) : State :=
  let g := s.globalStats stats
  let j := s.judge g
  let r := verdictRecord (u16At rec' 0 ||| j.1) (u8At rec' 2) (u16At rec' 4) (u16At rec' 6)
    (leNat (slice rec' 32 128) ||| j.2.1)
  if s.windowOpen then s
  else ((s.countZero g).setLup (fun l => { l with verdict := some (r, stats) })).showVerdict r

/-- STATISTICS_CLOSE (R251): at the tick that begins program frame F - 1 the statistics close and the local verdict is
formed; with SOLO, or no block, it is final. -/
def State.loupeClose (s : State) (cover : Bool) : State :=
  let j := s.judge s.localStats
  let cause := j.1 ||| s.nonNumeric cover
  let r := verdictRecord cause (s.lup.n + 1) (if cause = 0 then 0xFFFF else s.lnk.station.getD 0) j.2.2 j.2.1
  let s1 := (s.setLup (fun l => { l with closed := true, localRec := some r })).countZero s.localStats
  if s.regBit Reg.LUP_CFG 1 then s1.takeVerdict r [] else s1

/-- This station's verdict record as the exchange takes it: a report that came after the close has added LATE (R250, R251). -/
def State.exchangeVerdict (s : State) : List Byte :=
  let r := s.lup.localRec.getD (verdictRecord 0 1 0xFFFF 0xFFFF 0)
  if s.lup.late then
    verdictRecord (u16At r 0 ||| 256) (u8At r 2) (s.lnk.station.getD 0) (u16At r 6) (leNat (slice r 32 128))
  else r

/-- What this station contributes to the exchange: its verdict record and the GLOBAL entries' statistics. -/
def State.exchangeRecords (s : State) : List (List Byte) :=
  s.exchangeVerdict :: s.globalEntries.map (fun i => (s.lupStat i).stats.record)

/-! ### The response ladder (R256 to R264) -/

/-- TE as a byte after clamping to -128 .. 127. -/
def clampTe (x : Int) : Int := max (-128) (min 127 x)

/-- The statistics on which entry `i` was judged. -/
def State.judged (s : State) (i : Nat) : Stats :=
  match s.lup.verdict with
  | some (_, gs) =>
    match (s.globalEntries.zip gs).find? (fun x => x.1 == i) with
    | some x => statsOfRecord x.2
    | none => (s.lupStat i).stats
  | none => (s.lupStat i).stats

/-- E of an entry's M. -/
def maxExp (x : Stats) : Int := (f32 x.m).dy.log2 + x.te

/-- A byte written into descriptors that exist. -/
def State.putDescByte (s : State) (addrs : List Nat) (off : Nat) (b : Nat) : State :=
  (addrs.filter (· != 0)).foldl (fun (s : State) a => s.store (a + off) [BitVec.ofNat 8 b]) s

/-- The descriptors of an entry that the Loupe writes: those it names, the FP8 alternates among them, so that a reversed
exchange (R261) finds them up to date; of an entry flagged UPD its shadow descriptors only (R257, R258, R260). -/
def entryDescs (e : List Byte) : List Nat :=
  [u64At e 16, u64At e 24] ++ (if entryUpd e then [] else [u64At e 48, u64At e 56])

/-- TE of entry `i` set: in its entry, its descriptors and their alternates (R257). -/
def State.putTe (s : State) (i : Nat) (te : Int) : State :=
  let e := s.entry i
  (s.putSsb (entryOff i + 32) [BitVec.ofNat 8 (ofInt 8 te)]).putDescByte
    (entryDescs e) 6 (ofInt 8 te)

/-- The new TE of an entry under exponent recompute (R257), if it takes one. -/
def State.recomputeTe (s : State) (i cause : Nat) : Option Int :=
  let e := s.entry i
  let c := s.classRec (u8At e 12)
  let x := s.judged i
  if !bit (u8At c 17) 2 then none
  else if entryUpd e then
    some (clampTe (sext 8 (u8At e 32) + (if bit cause 3 then 2 else 0) - (if bit cause 4 then 2 else 0)))
  else if goodMax x.m then some (clampTe (maxExp x - u8At c 6)) else none

/-- EXPONENT_RECOMPUTE of one entry. -/
def State.recompute (s : State) (i cause : Nat) : State :=
  match s.recomputeTe i cause with
  | some te => s.putTe i te
  | none => s

/-- One BUDGETS exponent lowered by one, never below its largest budget's; a budget already at or beyond it stays, since none
shrinks by device action. -/
def lowerBudget (b mx : Nat) : Nat := if b ≤ mx then b else b - 1

/-- BUDGET_ENLARGEMENT of one entry (R258). -/
def State.enlarge (s : State) (i cause : Nat) : State :=
  let e := s.entry i
  let x := s.lupStat i
  if cause ≠ 0 ∨ x.counts.getD 4 0 ≠ 0 ∨ x.counts.getD 5 0 ≠ 0 then
    let b := u8At e 33
    let mx := u8At e 35
    let v := lowerBudget (b % 16) (mx % 16) + 16 * lowerBudget (b / 16) (mx / 16)
    (s.putSsb (entryOff i + 33) [BitVec.ofNat 8 v]).putDescByte (entryDescs e) 60 v
  else s

/-- The contents of two descriptors exchanged. -/
def State.swapDesc (s : State) (a b : Nat) : State :=
  if a = 0 ∨ b = 0 then s
  else
    let x := s.load a 64
    let y := s.load b 64
    (s.store a y).store b x

/-- Descriptors of a layer's entries exchanged with their E4M3 alternates, or back (R261). -/
def State.swapLayer (s : State) (layer : Nat) : State :=
  (List.range s.ssbEntries).foldl (fun (s : State) i =>
    let e := s.entry i
    if u16At e 14 = layer then (s.swapDesc (u64At e 16) (u64At e 48)).swapDesc (u64At e 24) (u64At e 56) else s) s

/-- FP8_FALLBACK of a layer: FB_ACTIVE set, FB_COUNT advanced. -/
def State.fallbackLayer (s : State) (l : Nat) : State :=
  let w := s.ssb (layerOff l) 2
  if bit (u8At w 0) 0 then s
  else (s.swapLayer l).putSsb (layerOff l) [1, BitVec.ofNat 8 (Nat.min 255 (u8At w 1 + 1))]

/-- The layers whose fallback is active. -/
def State.fallbackActive (s : State) : List Nat :=
  if s.ssbLoaded then
    let w := s.ssb 0x240 2048
    (List.range 1024).filter (fun l => bit (u8At w (2 * l)) 0)
  else []

/-- Every fallback reversed (R261). -/
def State.fallbackReverse (s : State) : State :=
  s.fallbackActive.foldl (fun (s : State) l =>
    let w := s.ssb (layerOff l) 2
    (s.swapLayer l).putSsb (layerOff l) [0, byteAt w 1]) s

/-- Header fields STEP, EPOCH, N, NONNUM, DOUBLE written from the Loupe's state. -/
def State.putHeader (s : State) (t : Nat) : State :=
  if s.ssbLoaded then
    ((s.putSsb 8 (toLe 8 t)).putSsb 16 (toLe 2 s.frm.epoch.toNat)).putSsb 21
      [BitVec.ofNat 8 s.lup.n, BitVec.ofNat 8 s.lup.nonnum, BitVec.ofNat 8 (b2n s.lup.double)]
  else s

/-- A trouble history record (Table 8.10), and TROUBLE_TOTAL. -/
def State.history (s : State) (attempt rung : Nat) (rec' : List Byte) (endTick : Nat) : State :=
  if s.ssbLoaded then
    let h := u8At (s.ssb 20 1) 0 % 16
    let r := toLe 8 s.upd.t.toNat ++ toLe 2 s.frm.epoch.toNat ++ [BitVec.ofNat 8 attempt, BitVec.ofNat 8 rung]
      ++ slice rec' 0 2 ++ slice rec' 4 4 ++ List.replicate 6 0 ++ toLe 8 endTick
    let total := u64At (s.ssb 24 8) 0
    ((s.putSsb (0xA40 + 32 * h) r).putSsb 20 [BitVec.ofNat 8 ((h + 1) % 16)]).putSsb 24 (toLe 8 (total + 1))
  else s

/-- Causes of every entry as judged. -/
def State.judgedCauses (s : State) : List (Nat × Nat) :=
  (List.range s.ssbEntries).map (fun i => (i, s.entryCause i (s.judged i)))

/-- LAST_CAUSE of the troubled entries. -/
def State.markCauses (s : State) (cs : List (Nat × Nat)) : State :=
  cs.foldl (fun (s : State) x => if x.2 = 0 then s else s.putSsb (entryOff x.1 + 46) (toLe 2 x.2)) s

/-- Rungs 1 and 2 of Table 8.4. -/
def State.rungActions (s : State) (n : Nat) (rec' : List Byte) : State :=
  let cs := s.judgedCauses
  let s1 := cs.foldl (fun (s : State) x => s.recompute x.1 x.2) (s.markCauses cs)
  let s2 := cs.foldl (fun (s : State) x => s.enlarge x.1 x.2) s1
  if n = 2 then
    ((List.range 1024).filter (fun l => (leNat (slice rec' 32 128)).testBit l)).foldl
      (fun (s : State) l => s.fallbackLayer l) s2
  else s2

/-- One reference after a commit (R248). -/
def newRef (seen : Nat) (r x : Int) (k : Nat) : Int := if seen = 0 then x else r + (x - r) / (2 ^ k : Nat)

/-- References of entry `i` after a clear attempt. -/
def State.updateRefs (s : State) (i : Nat) : State :=
  let e := s.entry i
  let c := s.classRec (u8At e 12)
  match (s.judged i).levels with
  | none => s
  | some l =>
    let seen := u16At e 44
    s.putSsb (entryOff i + 36) (toLe 4 (ofInt 32 (newRef seen (s32At e 36) l.1 (u8At c 0)))
      ++ toLe 4 (ofInt 32 (newRef seen (s32At e 40) l.2 (u8At c 1))) ++ toLe 2 (Nat.min 65535 (seen + 1)))

/-- Drift of entry `i` corrected (R264, 2). -/
def State.driftFix (s : State) (i : Nat) : State :=
  let e := s.entry i
  let c := s.classRec (u8At e 12)
  let x := s.judged i
  if !entryUpd e && goodMax x.m
      && decide ((maxExp x - sext 8 (u8At e 32) - u8At c 6).natAbs > u8At c 7)
  then s.recompute i 0 else s

/-- The shadow descriptors of UPD entries once more, after the exchange of a commit (R260). -/
def State.rewriteShadow (s : State) (i : Nat) : State :=
  let e := s.entry i
  if entryUpd e then
    (s.putDescByte [u64At e 16, u64At e 24] 6 (u8At e 32)).putDescByte [u64At e 16, u64At e 24] 60 (u8At e 33)
  else s

/-- The Loupe's part of the commit window of a clear attempt (R264, R260). -/
def State.loupeClear (s : State) : State :=
  let is := List.range s.ssbEntries
  let s1 := is.foldl (fun (s : State) i => s.updateRefs i) s
  let s2 := is.foldl (fun (s : State) i => s.driftFix i) s1
  let s3 := s2.fallbackReverse.setLup (fun l => { l with n := 0, nonnum := 0, double := false })
  (is.foldl (fun (s : State) i => s.rewriteShadow i) s3).putHeader (s.upd.t.toNat + 1)

/-- The statistics of a new attempt. -/
def State.loupeBegin (s : State) : State :=
  s.setLup (fun l => { l with stats := [], closed := false, late := false, mismatch := false, localRec := none,
                              verdict := none })

/-- At a tick: a block accepted since the last one comes into force (R268), and the block is noted as of this tick. -/
def State.loupeTick (s : State) : State :=
  let s1 := match s.lup.load with
    | none => s
    | some (a, img) =>
      let p : LoupePhase := match s.lup.phase with
        | .unloaded => .run
        | x => x
      let s1 := s.setLup (fun l => { l with
        addr := a, load := none, phase := p, n := u8At img 21, nonnum := u8At img 22, double := u8At img 23 == 1 })
      (s1.store a img).putPair Reg.LUP_SSB_ADDR_LO Reg.LUP_SSB_ADDR_HI a
  if s1.ssbLoaded then s1.setLup (fun l => { l with snap := s1.ssb 0 (ssbSize s1.ssbEntries) }) else s1

/-! ### Checks of LOUPE_LOAD (R267) -/

def inRange (x lo hi : Nat) : Bool := decide (lo ≤ x) && decide (x ≤ hi)

def headerOk (b : List Byte) : Bool :=
  u32At b 0 == 0x534C4353 && u16At b 4 == 1 && inRange (u16At b 6) 1 4096 && inRange (u16At b 18) 1 1024
    && decide (u8At b 20 ≤ 15) && decide (u8At b 21 ≤ 2) && decide (u8At b 22 ≤ 15) && decide (u8At b 23 ≤ 1)
    && zeroBytes b 32 32

def classOk (c : List Byte) : Bool :=
  inRange (u8At c 0) 1 12 && inRange (u8At c 1) 1 12 && inRange (u16At c 2) 82 2048 && inRange (u16At c 4) 82 2048
    && inRange (u8At c 6) 8 19 && inRange (u8At c 7) 1 8 && (u8At c 16 == 0 || inRange (u8At c 16) 2 16)
    && decide (u8At c 17 < 8) && zeroBytes c 20 12

/-- A BUDGETS byte: each exponent in its range (Table 3.5). -/
def budgetsOk (b : Nat) : Bool := inRange (b % 16) 2 6 && inRange (b / 16) 4 8

/-- An FP8 alternate agrees with its descriptor in what R261 requires to be equal. -/
def State.alternateOk (s : State) (d f : Nat) : Bool :=
  f == 0 || (let x := s.tdesc d; let y := s.tdesc f
    x.id == y.id && x.dim0 == y.dim0 && x.dim1 == y.dim1 && x.axis == y.axis
      && x.prism == y.prism && x.stream == y.stream)

def State.entryOk (s : State) (layers : Nat) (e : List Byte) : Bool :=
  u32At e 4 != 0 && decide (u8At e 12 ≤ 15) && decide (u8At e 13 < 4)
    && (u16At e 14 == 0xFFFF || decide (u16At e 14 < layers))
    && budgetsOk (u8At e 33) && budgetsOk (u8At e 34) && budgetsOk (u8At e 35)
    && decide (u8At e 35 % 16 ≤ u8At e 34 % 16) && decide (u8At e 35 / 16 ≤ u8At e 34 / 16)
    && s.alternateOk (u64At e 16) (u64At e 48) && s.alternateOk (u64At e 24) (u64At e 56)

/-- The names an entry claims: its STAT_ID and its layouts' TENSOR_IDs, each with its kind; one entry's two layouts may have one
TENSOR_ID (R267 refuses only what two entries share). -/
def entryNames (e : List Byte) : List (Nat × Nat) :=
  ([(0, u32At e 0), (1, u32At e 4), (1, u32At e 8)] : List (Nat × Nat)).filter (fun x => x.2 != 0)

/-- The index of the first failing entry of an image, none where every entry passes. -/
def State.firstBadEntry (s : State) (img : List Byte) : Option Nat :=
  let n := u16At img 6
  let ent := fun i => slice img (entryOff i) 64
  (List.range n).find? (fun i =>
    !s.entryOk (u16At img 18) (ent i)
      || (entryNames (ent i)).any (fun x => (List.range i).any (fun j => (entryNames (ent j)).contains x)))

/-- Everything of an image but its entries passes. -/
def imageOk (img : List Byte) : Bool :=
  headerOk img && (List.range 16).all (fun c => classOk (slice img (classOff c) 32))
    && (List.range 1024).all (fun l => decide (u8At img (layerOff l) < 2))
    && (List.range 16).all (fun h => zeroBytes img (0xA40 + 32 * h + 18) 6)

/-! ### The 0x065x commands (Table 8.12) -/

/-- A refused LOUPE_LOAD: SSB_INVALID is flagged. -/
def State.ssbRefuse (s : State) (entries idx : Nat) : Reply :=
  ⟨.ssbInvalid, 0, toLe 2 entries ++ toLe 2 idx, s.stick Reg.LUP_STATUS 4⟩

/-- LOUPE_LOAD (R267, R268); the block is kept in local HBM (R266). -/
def execLoupeLoad (m : BitVec 6) (s : State) : Out :=
  .next (s.welfy 0x0650 m fun ps s =>
    let src := u64At ps 0
    let dst := u64At ps 8
    if s.upd.commit ≠ .idle ∧ s.lup.phase ≠ .hold ∧ s.lup.phase ≠ .stopped then s.no .runLock
    else if !s.paramOk src 64 false then s.no .addrInvalid
    else
      let n := u16At (s.load src 64) 6
      if !headerOk (s.load src 64) then s.ssbRefuse n 0xFFFF
      else if !s.paramOk src (ssbSize n) false then s.no .addrInvalid
      else if !s.paramOk dst (ssbSize n) true then s.no .addrInvalid
      else if !s.isHbm dst then s.bad 8
      else
        let img := s.load src (ssbSize n)
        if !imageOk img then s.ssbRefuse n 0xFFFF
        else match s.firstBadEntry img with
          | some i => s.ssbRefuse n i
          | none => (s.setLup (fun l => { l with load := some (dst, img) })).ok (toLe 2 n ++ [0xFF, 0xFF]))

/-- LOUPE_SAVE (R269): the block as of the last tick. -/
def execLoupeSave (m : BitVec 6) (s : State) : Out :=
  .next (s.welfy 0x0651 m fun ps s =>
    let dst := u64At ps 0
    let b := s.lup.snap
    if b.isEmpty then s.no .runLock
    else if !s.paramOk dst b.length true then s.no .addrInvalid
    else (s.store dst b).ok (toLe 4 b.length ++ sha256 b))

/-- LOUPE_ENTRY_QUERY (R269). -/
def execLoupeEntryQuery (m : BitVec 6) (s : State) : Out :=
  .next (s.welfy 0x0652 m fun ps s =>
    let i := u16At ps 0
    if s.lup.snap.length < entryOff (i + 1) then s.bad 0
    else s.ok (slice s.lup.snap (entryOff i + 32 * (u8At ps 2 % 2)) 32))

/-- LOUPE_STATS (R269). -/
def execLoupeStats (m : BitVec 6) (s : State) : Out :=
  .next (s.welfy 0x0653 m fun ps s =>
    let i := u16At ps 0
    if s.ssbEntries ≤ i then s.bad 0
    else
      let x := s.lupStat i
      s.ok (slice x.stats.record 0 40 ++ toLe 4 x.tile))

/-- LOUPE_HISTORY (R266). -/
def execLoupeHistory (m : BitVec 6) (s : State) : Out :=
  .next (s.welfy 0x0654 m fun ps s =>
    let i := u8At ps 0
    if 15 < i then s.bad 0
    else s.ok (if s.ssbLoaded then s.ssb (0xA40 + 32 * i) 32 else List.replicate 32 0))

def lupCounters : List Nat :=
  [Reg.LUP_CNT_CLEAR, Reg.LUP_CNT_NUMERIC, Reg.LUP_CNT_NONNUM, Reg.LUP_CNT_DOUBLE, Reg.LUP_CNT_STOP,
   Reg.LUP_CNT_UNTRACKED, Reg.LUP_CNT_ZERO_STAT, Reg.LUP_CNT_LATE_REPORT]

/-- LOUPE_COUNTERS (R242). -/
def execLoupeCounters (m : BitVec 6) (s : State) : Out :=
  .next (s.welfy 0x0655 m fun ps s => s.countersReply lupCounters (bit (u8At ps 0) 0))

end Sys2Proof.Machine
end

