-- ==== Sys2Proof/Machine/QuantCore.lean ====
section
/-! DEFINITION. The arithmetic of the quantizer, the Prism and the Splitter (R115 to R143): scale selection, rounding,
the outcome of a block, the tile's records, and a region of one output layout. -/

namespace Sys2Proof.Machine

/-! ### Scale selection (R121, R122) -/

def maxAbs (a : List Dy) : Dy := a.foldl (fun m x => if m.lt x.abs then x.abs else m) Dy.zero

/-- Whether emax times a scale reaches a magnitude. -/
def reaches (f : Format) (c : Nat) (m : Dy) : Bool := m.le ((f.emax).mul (ue5m3 c))

/-- The MAX code of a nonzero maximum, and whether the block saturates (case 4a). -/
def maxCode (f : Format) (m : Dy) : Nat × Bool :=
  let c := ([128, 64, 32, 16, 8, 4, 2, 1] : List Nat).foldl (fun c b =>
    if c + b ≤ 0xFE && !reaches f (c + b) m then c + b else c) 0
  if c < 0xFE then (c + 1, false) else (0xFE, true)

/-- Sum of squared errors of nearest-even rounding with clamping under a scale code. -/
def sse (f : Format) (c : Nat) (a : List Dy) : Dy :=
  let sc := ue5m3 c
  a.foldl (fun t x =>
    let y := x.abs
    let d := y.sub ((f.mag (magNearest f sc y)).mul sc)
    t.add (d.mul d)) Dy.zero

/-- The FIT code: the best of the MAX code and the three below it, the larger scale on a tie. -/
def fitCode (f : Format) (c0 : Nat) (a : List Dy) : Nat :=
  (([1, 2, 3] : List Nat).foldl (fun (best : Nat × Dy) k =>
    if c0 < k + 1 then best
    else
      let e := sse f (c0 - k) a
      if e.lt best.2 then (c0 - k, e) else best) (c0, sse f c0 a)).1

/-! ### One block (R123 to R126, Table 4.3) -/

/-- How a layout rounds: FIT, stochastic, and SATURATE of its descriptor. -/
structure Rounding where
  fit : Bool
  stoch : Bool
  sat : Bool
  deriving DecidableEq, Repr

/-- The code written for a saturating element (R123). -/
def satCode (f : Format) (sat neg : Bool) : Nat :=
  match f with
  | .e4m3 => if sat then f.code neg f.top else 0x7F
  | .e5m2 => if sat then f.code neg f.top else if neg then 0xFC else 0x7C
  | _ => f.code neg f.top

/-- One element under a scale: its code and whether it is a FIT clip. -/
def elemCode (f : Format) (r : Rounding) (c0 c : Nat) (x : Dy) (u : Nat) : Nat × Bool :=
  let y := x.abs
  if !reaches f c0 y then (satCode f r.sat x.isNeg, false)
  else if !reaches f c y then (f.code x.isNeg f.top, true)
  else
    let k := if r.stoch then magStochastic f (ue5m3 c) y u else magNearest f (ue5m3 c) y
    (f.code x.isNeg k, false)

/-- A block's scale and codes: cases 4, 4a and 4b with their counts; the scale of a saturated block in FIT mode is the one that
R122 chooses (DESIGN CHOICE, log entry 68). `u` gives each position's random byte. -/
def ordinaryBlock (f : Format) (r : Rounding) (a : List Dy) (u : Nat → Nat) : Nat × List Nat × QCnt :=
  let m := maxAbs a
  if m.isZero then (0, a.map (fun _ => 0), { QCnt.none with underflow := 1 })
  else
    let c0 := maxCode f m
    let c := if r.fit then fitCode f c0.1 a else c0.1
    let es := (a.zip (List.range 32)).map (fun x => elemCode f r c0.1 c x.1 (if r.stoch then u x.2 else 0))
    let codes := es.map (·.1)
    let clips := (es.filter (fun (x : Nat × Bool) => x.2)).length
    let n : QCnt := { QCnt.none with sat := b2n c0.2, fitClip := clips }
    if codes.all (· == 0) then (0, codes, { n with underflow := 1 }) else (c, codes, n)

/-! ### The Splitter (R138 to R143) -/

/-- Magnitudes in descending order. -/
def insertDesc (x : Dy) : List Dy → List Dy
  | [] => [x]
  | y :: ys => if y.lt x then x :: y :: ys else y :: insertDesc x ys

def sortDesc (a : List Dy) : List Dy := a.foldl (fun t x => insertDesc x.abs t) []

/-- Positions of the outliers of a block for the threshold exponent `x` (R138). -/
def outlierPos (x : Nat) (a : List Dy) : List Nat :=
  let m8 := (sortDesc a).getD 7 Dy.zero
  if m8.isZero then [] else (List.range a.length).filter (fun k => (m8.scale x).lt (a.getD k Dy.zero).abs)

/-- BF16 code of an outlier, held to the largest finite magnitude (R141), and whether it was. -/
def outlierCode (v : Dy) : Nat × Bool :=
  match round16 (.fin v) with
  | .inf s => (encodeBin 7 (.fin (if s then (maxFinite 7).neg else maxFinite 7)), true)
  | w => (encodeBin 7 w, false)

/-- A settled block: scale, element codes, outlier record, fallback record, counts. -/
structure BlockOut where
  scale : Nat
  codes : List Nat
  out : Option (List Byte)
  fb : Option (List Byte)
  cnt : QCnt
  deriving DecidableEq, Repr

/-- An outlier record of up to two slots. -/
def outlierRecord (slots : List (Nat × Nat)) : List Byte :=
  (List.range 2).flatMap (fun i =>
    match slots[i]? with
    | some x => toLe 4 (x.2 + x.1 * 2 ^ 16 + 2 ^ 31)
    | none => [0, 0, 0, 0])

/-- A block that reaches case 4, with the records still left in its tile's shares (Table 4.5). -/
def settleBlock (d : TDesc) (r : Rounding) (x : Nat) (a : List Dy) (u : Nat → Nat) (outLeft fbLeft : Nat) : BlockOut :=
  let f := d.fmt
  let plain := fun (r : Rounding) (c : QCnt) =>
    let b := ordinaryBlock f r a u
    ({ scale := b.1, codes := b.2.1, out := none, fb := none, cnt := b.2.2.add c } : BlockOut)
  let pos := if f.four && (d.outliers || d.fallback) then outlierPos x a else []
  let miss : QCnt := { QCnt.none with quotaMiss := if pos.length ≤ 2 then b2n d.outliers else 0 }
  if pos.isEmpty then plain r QCnt.none
  else if pos.length ≤ 2 && d.outliers && decide (0 < outLeft) then
    let b := ordinaryBlock f r ((List.range 32).map (fun k => if pos.contains k then Dy.zero else a.getD k Dy.zero)) u
    let oc := pos.map (fun k => (k, outlierCode (a.getD k Dy.zero)))
    let big := oc.any (fun (y : Nat × Nat × Bool) => y.2.2)
    { scale := b.1, codes := b.2.1, out := some (outlierRecord (oc.map (fun (y : Nat × Nat × Bool) => (y.1, y.2.1)))),
      fb := none, cnt := b.2.2.add { QCnt.none with outBlocks := 1, sat := b2n (big && b.2.2.sat == 0) } }
  else if d.fallback && decide (0 < fbLeft) then
    let b := ordinaryBlock .e4m3 r a u
    { scale := b.1, codes := List.replicate 32 0, out := none, fb := some (b.2.1.map (BitVec.ofNat 8 ·)),
      cnt := (b.2.2.add { QCnt.none with fbBlocks := 1 }).add miss }
  else plain { r with fit := false } ({ QCnt.none with fbExhaust := 1 }.add miss)

/-! ### The Prism (R132 to R135) -/

/-- Scaling exponent h and correction c of a PRISM_SIZE code (Table 4.4). -/
def prismH (code : Nat) : Nat := if code = 1 then 2 else if code = 2 ∨ code = 3 then 3 else 4
def prismC (code : Nat) : Nat := if code = 1 ∨ code = 3 then 1 else 0

/-- One butterfly stage of span `sp` on a segment. -/
def butterfly (sp : Nat) (v : List Val) : List Val :=
  let a := v.toArray
  (List.range v.length).map (fun p =>
    if p / sp % 2 = 0 then fadd (a.getD p .zero) (a.getD (p + sp) .zero)
    else fsub (a.getD (p - sp) .zero) (a.getD p .zero))

/-- The stages of span 1, 2, 4, ... for a segment of 2^n. -/
def butterflies (n : Nat) (v : List Val) : List Val := (List.range n).foldl (fun v k => butterfly (2 ^ k) v) v

/-- Signs applied to a segment from index `i`. -/
def signed' (seed stream i : Nat) (v : List Val) : List Val :=
  (v.zip (List.range v.length)).map (fun x => if prismNeg seed stream (i + x.2) then x.1.neg else x.1)

/-- Forward rotation of the segment that starts at index `i` (R134). -/
def prismForward (code seed stream i : Nat) (v : List Val) : List Val :=
  (butterflies (code + 4) (signed' seed stream i v)).map (fun x => round32 (x.scale (-(prismH code : Int))))

/-- Inverse rotation of a segment (R134). -/
def prismInverse (code seed stream i : Nat) (v : List Val) : List Val :=
  signed' seed stream i
    ((butterflies (code + 4) v).map (fun x => round32 (x.scale ((prismH code : Int) - (code + 4 : Nat)))))

/-! ### One layout of a region (R115, R139) -/

/-- What one output layout of a job needs: its descriptor, roundings, stream, seed, step, threshold, the wide values by
logical index, the patterns of a sparse block (its four pattern indices from its values, infinite ones among them), and the positions that a
pruned copy zeroes. -/
structure Layout where
  d : TDesc
  r : Rounding
  stream : Nat
  seed : Nat
  step : Nat
  x : Nat
  values : Nat → Nat → Val
  patterns : Nat → Nat → List Val → List Nat
  zeroAt : Nat → Nat → Bool

/-- A line of scaled values with, for each, whether an input of its segment (or block) is not finite. -/
def Layout.line (l : Layout) (ib n o : Nat) : List (Val × Bool) :=
  let d := l.d
  let seg := if d.rot = 0 then 32 else d.rot
  (List.range (n / seg)).flatMap (fun k =>
    let i0 := ib + seg * k
    let raw := (List.range seg).map (fun q =>
      if d.db ≤ i0 + q ∨ d.do' ≤ o then Val.zero
      else let x := d.logical (i0 + q) o; l.values x.1 x.2)
    let bad := raw.any (fun (v : Val) => !v.isFin)
    let rot := if d.rot = 0 then raw else prismForward d.prism l.seed d.stream i0 raw
    rot.map (fun (v : Val) => (v.scale (-d.te), bad)))

/-- The values of a block that a sparse pattern is chosen from: zero at the positions that a pruned copy zeroes (R299). -/
def Layout.chosen (l : Layout) (ib o : Nat) (vs : List (Val × Bool)) : List Val :=
  (vs.zip (List.range 32)).map (fun (x : (Val × Bool) × Nat) => if l.zeroAt (ib + x.2) o then Val.zero else x.1.1)

/-- A pattern index that names no kept set (R298). -/
def badPattern (m : Nat) : Bool := decide (70 ≤ m)

/-- The patterns that a sparse block keeps, as the layout gives them. -/
def Layout.rawPats (l : Layout) (ib o : Nat) (vs : List (Val × Bool)) : List Nat :=
  if l.d.sparse then l.patterns ib o (l.chosen ib o vs) else []

/-- A block of a line: Table 4.3; a kept pattern that is invalid makes the block one of scale 0xFF (R298). -/
def Layout.blockOut (l : Layout) (ib o : Nat) (vs : List (Val × Bool)) (outLeft fbLeft : Nat) : BlockOut :=
  let d := l.d
  let zero := List.replicate 32 0
  let one : QCnt := { QCnt.none with blocks := 1 }
  if d.db ≤ ib ∨ d.do' ≤ o then ⟨0, zero, none, none, one⟩
  else if vs.any (fun (v : Val × Bool) => v.2 || !v.1.isFin) || (l.rawPats ib o vs).any badPattern then
    ⟨0xFF, zero, none, none, { one with nonfin := 1 }⟩
  else
    let a := (l.chosen ib o vs).map (fun (v : Val) => v.dy)
    let kept := if d.sparse then
        let pats := l.rawPats ib o vs
        (a.zip (List.range 32)).map (fun (x : Dy × Nat) =>
          if (patternDecode (pats.getD (x.2 / 8) 0)).contains (x.2 % 8) then x.1 else Dy.zero)
      else a
    if kept.all (fun (x : Dy) => x.isZero) then ⟨0, zero, none, none, { one with zero := 1 }⟩
    else
      let u := fun (q : Nat) => srByte l.seed l.stream l.step (d.index (ib + q) o)
      let b := settleBlock d l.r l.x kept u outLeft fbLeft
      { b with cnt := b.cnt.add one }

/-- The element bytes of a dense block's codes. -/
def packCodes (f : Format) (codes : List Nat) : List Byte :=
  if f.four then (List.range 16).map (fun i => BitVec.ofNat 8 (codes.getD (2 * i) 0 + 16 * codes.getD (2 * i + 1) 0))
  else codes.map (BitVec.ofNat 8 ·)

/-- The element bytes of a sparse block's codes under its patterns (R297). -/
def packSparse (codes pats : List Nat) : List Byte :=
  (List.range 4).flatMap (fun g =>
    let ps := patternDecode (pats.getD g 0)
    let c := fun (k : Nat) => codes.getD (8 * g + ps.getD k 0) 0
    [BitVec.ofNat 8 (c 0 + 16 * c 1), BitVec.ofNat 8 (c 2 + 16 * c 3)])

/-- A tile as it is gathered: element, scale and metadata bytes, records, bitmaps, counts. -/
structure TileOut where
  elems : List Byte
  scales : List Byte
  meta' : List Byte
  outs : List Byte
  outBits : Nat
  outUsed : Nat
  fbs : List Byte
  fbBits : Nat
  fbUsed : Nat
  cnt : QCnt

def TileOut.empty : TileOut := ⟨[], [], [], [], 0, 0, [], 0, 0, QCnt.none⟩

/-- Block `p` added to its tile, claiming records in ascending `p` (R139). -/
def TileOut.push (t : TileOut) (d : TDesc) (p : Nat) (b : BlockOut) (pats : List Nat) : TileOut :=
  { elems := t.elems ++ (if d.sparse then packSparse b.codes pats else packCodes d.fmt b.codes),
    scales := t.scales ++ [BitVec.ofNat 8 b.scale],
    meta' := if d.sparse then t.meta' ++ (List.range 4).map (fun g => BitVec.ofNat 8 (pats.getD g 0)) else t.meta',
    outs := t.outs ++ b.out.getD [], outBits := t.outBits + (if b.out.isSome then 2 ^ p else 0),
    outUsed := t.outUsed + b2n b.out.isSome,
    fbs := t.fbs ++ b.fb.getD [], fbBits := t.fbBits + (if b.fb.isSome then 2 ^ p else 0),
    fbUsed := t.fbUsed + b2n b.fb.isSome, cnt := t.cnt.add b.cnt }

/-- The bytes that a finished tile writes (R97 to R103). -/
def TileOut.writes (t : TileOut) (d : TDesc) (tile : Nat) : List (Nat × List Byte) :=
  let o := d.outShare tile
  let f := d.fbShare tile
  let dir := fun (bm first : Nat) => toLe 16 bm ++ toLe 4 first ++ List.replicate 12 0
  [(d.blockAddr tile 0, t.elems), (d.scaleAddr + 128 * tile, t.scales)]
    ++ (if d.sparse then [(d.metaAddr + 512 * tile, t.meta')] else [])
    ++ (if d.outliers then [(d.outAddr + 32 * tile, dir t.outBits o.1), (d.outBase + 8 * o.1, t.outs)] else [])
    ++ (if d.fallback then [(d.fbAddr + 32 * tile, dir t.fbBits f.1), (d.fbBase + 32 * f.1, t.fbs)] else [])

/-- Pattern indices written for a block: those that it keeps; index 0 for a group in padding (R299) and where the kept index is
invalid, which the device never writes (R298). -/
def Layout.pats (l : Layout) (ib o : Nat) (vs : List (Val × Bool)) : List Nat :=
  if l.d.sparse then
    let ps := l.rawPats ib o vs
    (List.range 4).map (fun g =>
      if l.d.db ≤ ib + 8 * g ∨ l.d.do' ≤ o ∨ badPattern (ps.getD g 0) then 0 else ps.getD g 0)
  else []

/-- One tile of a line band: `lines` are its 64 lines over the region, `k` the tile's place along the blocked axis. -/
def Layout.tileOut (l : Layout) (lines : List (List (Val × Bool))) (ib o0 k : Nat) : TileOut :=
  let tile := l.d.tile (ib + 64 * k) o0
  let os := (l.d.outShare tile).2
  let fs := (l.d.fbShare tile).2
  (List.range 128).foldl (fun (t : TileOut) p =>
    let vs := ((lines.getD (p / 2) []).drop (64 * k + 32 * (p % 2))).take 32
    let i := ib + 64 * k + 32 * (p % 2)
    let b := l.blockOut i (o0 + p / 2) vs (os - t.outUsed) (fs - t.fbUsed)
    t.push l.d p b (l.pats i (o0 + p / 2) vs)) TileOut.empty

/-- A region of a layout by its blocked and other extents: the bytes written and the counts. -/
def Layout.region (l : Layout) (ib nb o0 no : Nat) : List (Nat × List Byte) × QCnt :=
  (List.range (no / 64)).foldl (fun (acc : List (Nat × List Byte) × QCnt) ob =>
    let lines := (List.range 64).map (fun j => l.line ib nb (o0 + 64 * ob + j))
    (List.range (nb / 64)).foldl (fun (acc : List (Nat × List Byte) × QCnt) k =>
      let t := l.tileOut lines ib (o0 + 64 * ob) k
      (acc.1 ++ t.writes l.d (l.d.tile (ib + 64 * k) (o0 + 64 * ob)), acc.2.add t.cnt)) acc) ([], QCnt.none)

/-- A region named by its logical start and extents along axes 0 and 1. -/
def Layout.logicalRegion (l : Layout) (i0 i1 n0 n1 : Nat) : List (Nat × List Byte) × QCnt :=
  if l.d.axis = 0 then l.region i0 n0 i1 n1 else l.region i1 n1 i0 n0

end Sys2Proof.Machine
end

