-- ==== Sys2Proof/Machine/QuantJob.lean ====
section
/-! DEFINITION. Quantize jobs (Table 4.2): the descriptor, its checks (R117, R119, R129, R292, R580, R581), expansion
(R130, R131), and the OCP Microscaling conversions (R109 to R112). -/

namespace Sys2Proof.Machine

/-- A quantize job descriptor. -/
structure QJob where
  raw : List Byte
  deriving DecidableEq, Repr

namespace QJob

def op (j : QJob) : Nat := u8At j.raw 0
def mode (j : QJob) : Nat := u8At j.raw 1
def ratio (j : QJob) : Nat := u8At j.raw 2 % 16
def variant (j : QJob) : Nat := u8At j.raw 3
def srA (j : QJob) : Nat := u32At j.raw 4
def srB (j : QJob) : Nat := u32At j.raw 8
def src (j : QJob) : Nat := u64At j.raw 16
def aux (j : QJob) : Nat := u64At j.raw 24
def dstA (j : QJob) : Nat := u64At j.raw 32
def dstB (j : QJob) : Nat := u64At j.raw 40
def start (j : QJob) (a : Nat) : Nat := u32At j.raw (48 + 4 * a)
def extent (j : QJob) (a : Nat) : Nat := u32At j.raw (56 + 4 * a)

/-- A conversion from wide values. -/
def narrowing (j : QJob) : Bool := j.op == 1 || j.op == 2

/-- MX_VARIANT's element format. -/
def mxFormat (j : QJob) : Format := if j.variant = 0 then .fp4 else if j.variant = 1 then .e4m3 else .e5m2

/-- The fields that name a tensor descriptor, with their byte offsets. -/
def named (j : QJob) : List (Nat × Nat) :=
  match j.op with
  | 1 => (if j.src = 0 then [] else [(16, j.src)]) ++ [(32, j.dstA)]
  | 2 => (if j.src = 0 then [] else [(16, j.src)]) ++ [(32, j.dstA), (40, j.dstB)]
  | 3 => [(16, j.src), (32, j.dstA)]
  | 4 => [(32, j.dstA)]
  | 5 => [(16, j.src)]
  | _ => []

/-- Checks of the job's own fields: the offsets charged with DESC_INVALID. -/
def ownFails (j : QJob) (epilogue : Bool) : List Nat :=
  (if 1 ≤ j.op ∧ j.op ≤ 5 then [] else [0])
    ++ (if j.mode < 32 ∧ (j.mode < 16 ∨ j.op = 3) then [] else [1])
    ++ (if j.ratio ≤ 8 ∧ u8At j.raw 2 < 16 then [] else [2])
    ++ (if j.variant = 0 ∨ 4 ≤ j.op then [] else [3])
    ++ (if zeroBytes j.raw 12 4 then [] else [12])
    ++ (if (j.narrowing && j.src == 0 && !epilogue) || (decide (3 ≤ j.op) && j.src == 0) then [16] else [])
    ++ (if j.op = 4 then (if j.aux = 0 then [24] else []) else if j.aux ≠ 0 then [24] else [])
    ++ (if j.op = 2 ∨ j.op = 5 then [] else if j.dstB ≠ 0 then [40] else [])

end QJob

/-- A destination of a narrowing job: its own checks against the source (R117, R119, R292). -/
def dstOk (d : TDesc) (src : Option TDesc) (stoch : Bool) : Bool :=
  d.fmt.blocked && !d.sparse && (d.fmt.four || !(d.outliers || d.fallback))
    && (match src with
      | some x => d.dim0 == x.dim0 && d.dim1 == x.dim1
      | none => true)
    && (!stoch || decide (d.dim0 * d.dim1 ≤ 2 ^ 44))

/-- Offsets charged by the descriptors that the job names (R581): a failed descriptor, or one whose format, dimensions,
blocked axis or flags the job refuses. DESIGN CHOICE, log entry 68: what DST_A and DST_B disagree on is charged to DST_B. -/
def State.descFails (s : State) (j : QJob) : List Nat :=
  let bad := (j.named.filter (fun x => !s.tdescOk x.2)).map (·.1)
  let okAt := fun (o : Nat) => (j.named.any (fun x => x.1 == o)) && !bad.contains o
  let S := s.tdesc j.src
  let A := s.tdesc j.dstA
  let B := s.tdesc j.dstB
  let rotOk := fun (d : TDesc) => d.rot == 0 || d.db % d.rot == 0
  let srcT := if okAt 16 then some S else none
  let fails := match j.op with
    | 1 => (if okAt 16 && (S.fmt.blocked || !rotOk S) then [16] else [])
        ++ (if okAt 32 && !(dstOk A srcT (bit j.mode 1) && rotOk A) then [32] else [])
    | 2 => (if okAt 16 && (S.fmt.blocked || !rotOk S) then [16] else [])
        ++ (if okAt 32 && !(dstOk A srcT (bit j.mode 1) && rotOk A && decide (Nat.max 64 A.rot ≤ 256)) then [32] else [])
        ++ (if okAt 40 && !(dstOk B srcT (bit j.mode 3) && rotOk B
            && (!okAt 32 || (A.axis != B.axis && A.dim0 == B.dim0 && A.dim1 == B.dim1))) then [40] else [])
    | 3 => (if okAt 16 && !(S.fmt.blocked && rotOk S) then [16] else [])
        ++ (if okAt 32 && !(!A.fmt.blocked && rotOk A && (!okAt 16 || (A.dim0 == S.dim0 && A.dim1 == S.dim1))) then [32] else [])
    | 4 => if okAt 32 && !(A.fmt == j.mxFormat && !(A.outliers || A.fallback || A.sparse) && rotOk A) then [32] else []
    | 5 => if okAt 16 && !(S.fmt.blocked && rotOk S) then [16] else []
    | _ => []
  bad ++ fails

/-- The padded end along an axis that an extent of 0 runs to: that of the first tensor that the job names last. -/
def State.jobEnd (s : State) (j : QJob) (a : Nat) : Nat :=
  match j.named.getLast? with
  | some x => (s.tdesc x.2).padded a
  | none => 0

/-- Extent of the region along an axis. -/
def State.jobExtent (s : State) (j : QJob) (a : Nat) : Nat :=
  if j.extent a = 0 then s.jobEnd j a - j.start a else j.extent a

/-- Offsets charged by the region against one named descriptor. -/
def State.regionFails (s : State) (j : QJob) (d : TDesc) : List Nat :=
  ([0, 1] : List Nat).flatMap (fun a =>
    let unit := if a = d.axis ∧ d.rot ≠ 0 then Nat.max 64 d.rot else 64
    (if j.start a % unit ≠ 0 ∨ d.padded a ≤ j.start a then [48 + 4 * a] else [])
      ++ (if s.jobExtent j a % unit ≠ 0 ∨ d.padded a < j.start a + s.jobExtent j a then [56 + 4 * a] else []))

/-- The refusal of a job (R117, R581): none, or its status and the lowest offset charged. DESIGN CHOICE, log entry 68: where
checks of both statuses fail, the status is that of the lowest offset charged. -/
def State.jobCheck (s : State) (j : QJob) (epilogue : Bool) : Option (Status × Nat) :=
  let own := j.ownFails epilogue
  let ds := s.descFails j
  let rs := ((j.named.filter (fun x => s.tdescOk x.2)).flatMap (fun x => s.regionFails j (s.tdesc x.2)))
  let fmt := if (j.op = 4 ∨ j.op = 5) ∧ 2 < j.variant then [3] else []
  let all := own ++ ds ++ rs ++ fmt
  match all with
  | [] => none
  | x :: xs =>
    let lo := xs.foldl Nat.min x
    some (if fmt.contains lo && !own.contains lo then .formatUnsupported else .descInvalid, lo)

/-! ### QUANTIZE and QUANTIZE_DUAL -/

/-- Threshold exponent of a job (R138). -/
def State.jobRatio (s : State) (j : QJob) : Nat :=
  if j.ratio = 0 then s.regField Reg.QNT_CFG 0 2 + 1 else j.ratio

/-- The seed in force (R287). -/
def State.seed (s : State) : Nat := s.pair Reg.RNG_SEED_LO Reg.RNG_SEED_HI

/-- Layout A (`b` false) or B of a narrowing job over given wide values. -/
def State.jobLayout (s : State) (j : QJob) (b : Bool) (values : Nat → Nat → Val) : Layout :=
  let d := s.tdesc (if b then j.dstB else j.dstA)
  { d := d, r := ⟨bit j.mode (if b then 2 else 0), bit j.mode (if b then 3 else 1), d.saturate⟩,
    stream := if b then j.srB else j.srA, seed := s.seed, step := s.upd.t.toNat, x := s.jobRatio j,
    values := values, patterns := fun _ _ _ => [], zeroAt := fun _ _ => false }

/-- What a job does: bytes written, counts for each layout under its TENSOR_ID, and blocks processed (R582). -/
structure JobOut where
  writes : List (Nat × List Byte)
  counts : List (Nat × QCnt)
  blocks : Nat
  frees : Nat

/-- A narrowing job over given wide values. -/
def State.quantJob (s : State) (j : QJob) (values : Nat → Nat → Val) : JobOut :=
  let run := fun (b : Bool) =>
    (s.jobLayout j b values).logicalRegion (j.start 0) (j.start 1) (s.jobExtent j 0) (s.jobExtent j 1)
  let a := run false
  if j.op = 2 then
    let b := run true
    ⟨a.1 ++ b.1, [((s.tdesc j.dstA).id, a.2), ((s.tdesc j.dstB).id, b.2)], a.2.blocks + b.2.blocks, 0⟩
  else ⟨a.1, [((s.tdesc j.dstA).id, a.2)], a.2.blocks, 0⟩

/-- Wide values of a named source. -/
def State.sourceVals (s : State) (j : QJob) : Nat → Nat → Val := fun i0 i1 => s.wideAt (s.tdesc j.src) i0 i1

/-! ### EXPAND (R130, R131) -/

/-- Bytes of one wide element: its value over 2^TE rounded once to the format. -/
def TDesc.wideBytes (d : TDesc) (v : Val) : List Byte :=
  let x := v.scale (-d.te)
  if d.fmt = .bf16 then toLe 2 (code16 x) else toLe 4 (code32 x)

/-- One line of an expansion: the values along the source's blocked axis, rotated back where INV_PRISM asks. -/
def State.expandLine (s : State) (d : TDesc) (inv : Bool) (ib n o : Nat) : List Val :=
  let v := s.lineVals d ib o n
  if inv && d.rot != 0 then
    (List.range (n / d.rot)).flatMap (fun k =>
      prismInverse d.prism s.seed d.stream (ib + d.rot * k) (((v.drop (d.rot * k)).take d.rot).map round32))
  else v

/-- EXPAND over the region. -/
def State.expandJob (s : State) (j : QJob) : JobOut :=
  let S := s.tdesc j.src
  let D := s.tdesc j.dstA
  let b := S.axis
  let ib := j.start b
  let nb := s.jobExtent j b
  let o0 := j.start (1 - b)
  let no := s.jobExtent j (1 - b)
  let ws := (List.range no).flatMap (fun o =>
    ((s.expandLine S (bit j.mode 4) ib nb (o0 + o)).zip (List.range nb)).filterMap (fun x =>
      let i := S.logical (ib + x.2) (o0 + o)
      let v := if D.dim0 ≤ i.1 ∨ D.dim1 ≤ i.2 then Val.zero else x.1
      some (D.wideAddr i.1 i.2, D.wideBytes v)))
  ⟨ws, [], no * (nb / 32), 0⟩

/-! ### MX conversions (R109 to R112) -/

/-- Blocks of a line of an MX tensor, and the number of a block. -/
def mxRow (d : TDesc) : Nat := cdiv d.db 32
def mxBlock (d : TDesc) (i o : Nat) : Nat := o * mxRow d + i / 32

/-- Element code of an MX tensor. -/
def State.mxCode (s : State) (f : Format) (base : Nat) (e : Nat) : Nat :=
  if f = .fp4 then (let b := (s.loadByte (base + e / 2)).toNat; if e % 2 = 0 then b % 16 else b / 16)
  else (s.loadByte (base + e)).toNat

/-- Codes of one MX block, zero beyond the logical end. -/
def State.mxCodes (s : State) (d : TDesc) (base i o : Nat) : List Nat :=
  (List.range 32).map (fun q => if d.db ≤ i + q ∨ d.do' ≤ o then 0 else s.mxCode d.fmt base (o * d.db + i + q))

/-- Whether every element of a block is zero (either sign). -/
def zeroCodes (f : Format) (cs : List Nat) : Bool := cs.all (fun c => (f.value c).isZero)

/-- c_max over the blocks of the MX tensor that are not NaN and have a nonzero element; 0 where there is none (DESIGN CHOICE,
log entry 68). -/
def State.mxCmax (s : State) (d : TDesc) (elems scales : Nat) : Nat :=
  (List.range d.do').foldl (fun (m : Nat) o =>
    (List.range (mxRow d)).foldl (fun (m : Nat) k =>
      let c := (s.loadByte (scales + mxBlock d (32 * k) o)).toNat
      if c ≠ 255 ∧ m < c ∧ !zeroCodes d.fmt (s.mxCodes d elems (32 * k) o) then c else m) m) 0

/-- UE5M3 code of the power of two 2^k, k from -17 to 16. -/
def pow2Code (k : Int) : Nat := if k < -14 then 2 ^ (k + 17).toNat else (k + 15).toNat * 8

/-- The code that a NaN or infinite element is re-rounded to: the canonical NaN (Table 3.2), or the infinity of its sign. -/
def nonfinCode (f : Format) (x : Nat) : Nat :=
  match f.value x with
  | .nan => 0x7F
  | _ => x

/-- One imported block (R111): scale, codes, counts. Codes copied bit for bit keep a code 0x8 or 0x80 of negative zero, which
the quantizer's own rounding never writes (DESIGN CHOICE, log entry 68). -/
def importBlock (f : Format) (te : Int) (c : Nat) (cs : List Nat) : Nat × List Nat × QCnt :=
  let one : QCnt := { QCnt.none with blocks := 1 }
  let k := (c : Int) - 127 - te
  if c = 255 then (255, cs, one)
  else if zeroCodes f cs then (0, cs.map (fun _ => 0), one)
  else if -17 ≤ k then (pow2Code k, cs, one)
  else
    let out := cs.map (fun x =>
      match f.value x with
      | .fin v => f.code v.isNeg (magNearest f ⟨1, 0⟩ (v.abs.scale (k + 17)))
      | _ => nonfinCode f x)
    if out.all (· == 0) then (0, out, { one with mxRequant := 1, underflow := 1 }) else (1, out, { one with mxRequant := 1 })

/-- MX_IMPORT over the region; its first write is the derived TE into the destination descriptor (R131). -/
def State.importJob (s : State) (j : QJob) : JobOut :=
  let d := s.tdesc j.dstA
  let te := max (-128) (min 127 ((s.mxCmax d j.src j.aux : Int) - 143))
  let b := d.axis
  let blk := fun (i o : Nat) =>
    if d.db ≤ i ∨ d.do' ≤ o then (0, List.replicate 32 0, { QCnt.none with blocks := 1 })
    else importBlock d.fmt te (s.loadByte (j.aux + mxBlock d i o)).toNat (s.mxCodes d j.src i o)
  let cells := (List.range (s.jobExtent j (1 - b))).flatMap (fun o =>
    (List.range (s.jobExtent j b / 32)).map (fun k =>
      let i := j.start b + 32 * k
      let oo := j.start (1 - b) + o
      (d.tile i oo, 2 * (oo % 64) + i % 64 / 32, blk i oo)))
  let ws := cells.flatMap (fun x =>
    [(d.blockAddr x.1 x.2.1, packCodes d.fmt x.2.2.2.1), (d.scaleAddr + 128 * x.1 + x.2.1, [BitVec.ofNat 8 x.2.2.1])])
  let cnt := cells.foldl (fun (c : QCnt) x => c.add x.2.2.2.2) QCnt.none
  ⟨(j.dstA + 6, [BitVec.ofNat 8 (ofInt 8 te)]) :: ws, [(d.id, cnt)], cnt.blocks, 0⟩

/-- Whether a block is exported as it stands (R112), with its E8M0 code. -/
def exportCopy (f : Format) (d : TDesc) (b : Block) : Option (Nat × List Nat) :=
  let c := (b.scale / 8 : Nat) - 15 + d.te + 127
  let codes := match b.fb with
    | some cs => if f = .e4m3 then some cs else none
    | none => if d.fmt = f then some b.codes else none
  match codes with
  | some cs =>
    if b.scale % 8 = 0 ∧ 8 ≤ b.scale ∧ b.outs.isEmpty ∧ 0 ≤ c ∧ c ≤ 254 then some (c.toNat, cs) else none
  | none => none

/-- A block requantized by the OCP rule: E8M0 code, element codes, whether the code was clamped. One whose values are all zero
has code 0 (DESIGN CHOICE, log entry 68). -/
def exportRound (f : Format) (vs : List Dy) : Nat × List Nat × Bool :=
  let m := maxAbs vs
  if m.isZero then (0, vs.map (fun _ => 0), false)
  else
    let em : Int := if f = .fp4 then 2 else if f = .e4m3 then 8 else 15
    let c := m.log2 - em + 127
    let cc := max 0 (min 254 c)
    (cc.toNat, vs.map (fun v => f.code v.isNeg (magNearest f ⟨1, cc - 127⟩ v.abs)), cc != c)

/-- A code that the quantizer may produce (R82, R126), taken from a free value. -/
def freeCode (f : Format) (x : Nat) : Nat :=
  if f.four then (if x % 16 = 8 then 0 else x % 16) else if x % 256 = 0x80 then 0 else x % 256

/-- One exported block of line `o`: E8M0 code, codes, clamped, free values used. A block to be requantized that holds a
NaN or infinite element has no result stated: its scale and codes are free values (log entry 1). DESIGN CHOICE, log entry 68:
a block of scale 0xFF keeps its codes where the formats agree and has zero codes elsewhere; one of scale 0x00 with an outlier
is requantized. -/
def State.exportBlock (s : State) (f : Format) (d : TDesc) (i o ctr : Nat) : Nat × List Nat × Bool × Nat :=
  let b := s.block d (d.tile i o) (2 * (o % 64) + i % 64 / 32)
  let vs := s.blockVals d i o
  if b.scale = 0xFF then (255, (match exportCopy f d { b with scale := 0x78 } with
    | some x => x.2
    | none => List.replicate 32 0), false, 0)
  else if b.scale = 0 && b.outs.isEmpty then (0, List.replicate 32 0, false, 0)
  else match exportCopy f d b with
    | some x => (x.1, x.2, false, 0)
    | none =>
      if vs.all (fun (v : Val) => v.isFin) then
        let r := exportRound f (vs.map (fun (v : Val) => v.dy))
        (r.1, r.2.1, r.2.2, 0)
      else
        let fr := fun (k : Nat) => (Config.freeValue (ctr + k)).toNat
        (fr 0 % 256, (List.range 32).map (fun q => freeCode f (fr (q + 1))), false, 33)

/-- MX_EXPORT over the region; it has no output layout, so its counts go under no TENSOR_ID. -/
def State.exportJob (s : State) (j : QJob) : JobOut :=
  let d := s.tdesc j.src
  let f := j.mxFormat
  let b := d.axis
  let no := Nat.min (s.jobExtent j (1 - b)) (d.do' - j.start (1 - b))
  let nk := cdiv (Nat.min (s.jobExtent j b) (d.db - j.start b)) 32
  let total := s.jobExtent j (1 - b) * (s.jobExtent j b / 32)
  let run := (List.range no).foldl (fun (acc : JobOut) o =>
    (List.range nk).foldl (fun (acc : JobOut) k =>
      let i := j.start b + 32 * k
      let oo := j.start (1 - b) + o
      let r := s.exportBlock f d i oo (s.freeCtr + acc.frees)
      let n := Nat.min 32 (d.db - i)
      let e0 := oo * d.db + i
      let cs := r.2.1.take n
      let ws := if f = .fp4 then
          (List.range (cdiv (e0 + n) 2 - e0 / 2)).map (fun x =>
            let a := e0 / 2 + x
            let old := (s.loadByte (j.dstA + a)).toNat
            let prev := ((acc.writes.filter (fun w => w.1 == j.dstA + a)).getLast?.map (fun w => u8At w.2 0)).getD old
            let lo := if e0 ≤ 2 * a ∧ 2 * a < e0 + n then cs.getD (2 * a - e0) 0 else prev % 16
            let hi := if e0 ≤ 2 * a + 1 ∧ 2 * a + 1 < e0 + n then cs.getD (2 * a + 1 - e0) 0 else prev / 16
            (j.dstA + a, [BitVec.ofNat 8 (lo + 16 * hi)]))
        else [(j.dstA + e0, cs.map (BitVec.ofNat 8 ·))]
      { writes := acc.writes ++ ws ++ [(j.dstB + mxBlock d i oo, [BitVec.ofNat 8 r.1])],
        counts := acc.counts.map (fun c => (c.1, c.2.add { QCnt.none with mxClamp := b2n r.2.2.1 })),
        blocks := acc.blocks, frees := acc.frees + r.2.2.2 }) acc) ⟨[], [(0, QCnt.none)], 0, 0⟩
  { run with blocks := total }

/-- A job that has passed its checks, over given wide values for a narrowing one. -/
def State.jobOut (s : State) (j : QJob) (values : Nat → Nat → Val) : JobOut :=
  match j.op with
  | 3 => s.expandJob j
  | 4 => s.importJob j
  | 5 => s.exportJob j
  | _ => s.quantJob j values

/-- The blocked tensor that a job reads, where it reads one, and its blocks (R145). -/
def State.jobBlocks (s : State) (j : QJob) : List (Nat × Nat) :=
  let d := s.tdesc j.src
  if j.op = 3 ∨ j.op = 5 then
    regionBlocks d (j.start d.axis) (s.jobExtent j d.axis) (j.start (1 - d.axis)) (s.jobExtent j (1 - d.axis))
  else []

/-- Memory that a job reads and writes, for the access rules: address, size, write. Planes are taken whole. -/
def State.jobAccess (s : State) (j : QJob) : List (Nat × Nat × Bool) :=
  let rd := fun (a : Nat) => (s.tdesc a).planes.map (fun p => (p.1, p.2, false))
  let wr := fun (a : Nat) => (s.tdesc a).planes.map (fun p => (p.1, p.2, true))
  let mx := fun (d : TDesc) (e x : Nat) (w : Bool) =>
    [(e, cdiv (d.db * d.do' * j.mxFormat.nibbles) 2, w), (x, mxRow d * d.do', w)]
  match j.op with
  | 1 => (if j.src = 0 then [] else rd j.src) ++ wr j.dstA
  | 2 => (if j.src = 0 then [] else rd j.src) ++ wr j.dstA ++ wr j.dstB
  | 3 => rd j.src ++ wr j.dstA
  | 4 => mx (s.tdesc j.dstA) j.src j.aux false ++ wr j.dstA ++ [(j.dstA + 6, 1, true)]
  | _ => rd j.src ++ mx (s.tdesc j.src) j.dstA j.dstB true

end Sys2Proof.Machine
end

