-- ==== Sys2Proof/Machine/Slots.lean ====
section
/-! DEFINITION. The slots of the current frame as the units see them (R48, R144, R205): the slot that a unit runs, what it
reports when it ends, and the refusal of what it asked for. -/

namespace Sys2Proof.Machine

/-! ### Running slots -/

/-- The slot that a unit runs now. -/
def State.runOf (s : State) (u : UnitId) : Option SlotRun :=
  s.frm.slots.find? (fun r => r.unit == u && decide (r.phase = .running))

/-- A started slot by its reference. -/
def State.run (s : State) (ref : SlotRef) : Option SlotRun := s.frm.slots.find? (fun r => r.ref == ref)

/-- A started slot changed. -/
def State.setRun (s : State) (ref : SlotRef) (f : SlotRun → SlotRun) : State :=
  { s with frm := { s.frm with slots := s.frm.slots.map (fun r => if r.ref == ref then f r else r) } }

/-- Slot descriptor of a slot of the current program. -/
def State.progSlot (s : State) (n : Nat) : Option SlotDesc :=
  match s.frm.curProg with
  | some p => p.slots[n]?
  | none => none

/-- DESC_ADDR of a slot of the program; 0 for a rerun slot, whose run the group's recompute work names (R282). -/
def State.slotAddr (s : State) (ref : SlotRef) : Nat :=
  match ref with
  | .prog n => ((s.progSlot n).map (fun d => d.descAddr)).getD 0
  | .rerun _ => 0

/-- The slot that unit `u` runs with a descriptor address, for a unit whose slot names its work directly. -/
def State.runAt (s : State) (u : UnitId) (desc : Nat) : Option SlotRun :=
  match s.runOf u with
  | some r => if s.slotAddr r.ref = desc then some r else none
  | none => none

/-- A rerun slot gives no report to the Loupe (R243, R283). -/
def SlotRef.isRerun : SlotRef → Bool
  | .rerun _ => true
  | .prog _ => false

/-! ### Effects (R144, R205) -/

/-- Two reports of one slot under one TENSOR_ID are one report. -/
def Report.merge (a b : Report) : Report :=
  { a with
      stat := match a.stat, b.stat with
        | some x, some y => some (x.1, x.2.1.combine y.2.1, maxCode32 x.2.2 y.2.2)
        | some x, none => some x
        | none, y => y,
      counts := (List.range 7).map (fun i => a.counts.getD i 0 + b.counts.getD i 0), tile := a.tile ||| b.tile }

/-- Whether two reports are of one kind, tensor and tensor exponent. -/
def Report.same (a b : Report) : Bool :=
  a.tensor == b.tensor && a.byStat == b.byStat && a.stat.map (·.1) == b.stat.map (·.1)

/-- A report joined to those of its slot. -/
def joinReport (r : Report) : List Report → List Report
  | [] => [r]
  | x :: xs => if x.same r then x.merge r :: xs else x :: joinReport r xs

def Effects.add (a b : Effects) : Effects :=
  { bumps := a.bumps ++ b.bumps, bits := a.bits ++ b.bits, reports := b.reports.foldl (fun l r => joinReport r l) a.reports,
    tiles := a.tiles ++ b.tiles, writes := a.writes ++ b.writes }

/-- The first nonzero tile status word since clear (R201): word, place and tick, where ACC_CFG keeps it. -/
def State.keepFirst (s : State) (t : Nat × Nat) : State :=
  if s.regBit Reg.ACC_CFG 0 && s.reg Reg.ACC_FIRST_TILE == 0 then
    ((s.putReg Reg.ACC_FIRST_TILE (BitVec.ofNat 32 t.2)).putReg Reg.ACC_FIRST_LOC (BitVec.ofNat 32 t.1)).putPair
      Reg.ACC_FIRST_TICK_LO Reg.ACC_FIRST_TICK_HI s.frm.tick.toNat
  else s

/-- A tile status word reported: kept if first, NONFIN flagged, and the first with NONFIN since clear notified where
ACC_CFG asks for it. -/
def State.firstTile (s : State) (t : Nat × Nat) : State :=
  if t.2 = 0 then s
  else
    let s1 := s.keepFirst t
    if t.2 < 2 ^ 31 then s1
    else
      let s2 := if s1.regBit Reg.ACC_CFG 1 && !s1.regBit Reg.ACC_STATUS 0 then s1.notifyRas else s1
      s2.stick Reg.ACC_STATUS 0

/-- Effects applied: counters, sticky bits, result words, the first tile, and, unless a rerun made them, reports. -/
def State.applyEffects (s : State) (rerun : Bool) (e : Effects) : State :=
  let s1 := ((s.bumps e.bumps).sticks e.bits).stores e.writes
  let s2 := e.tiles.foldl (fun (s : State) t => s.firstTile t) s1
  if rerun then s2 else s2.loupeReports e.reports

/-- Effects charged: held by a running slot until it ends without error, applied at once outside a slot. -/
def State.charge (s : State) (ref : Option SlotRef) (e : Effects) : State :=
  match ref with
  | some r => s.setRun r (fun x => { x with eff := x.eff.add e })
  | none => s.applyEffects false e

/-- The report of a layout's counts under its TENSOR_ID (R144). -/
def countReport (id : Nat) (c : QCnt) : Report :=
  { tensor := id, byStat := false, stat := none, counts := [c.blocks, c.sat, c.underflow, c.fbBlocks, c.quotaMiss, c.fbExhaust, c.nonfin],
    tile := 0 }

/-- The effects of quantizer counts. A job with no output layout (`id` 0, which no tensor has) gives no report. -/
def quantEffects (id : Nat) (c : QCnt) : Effects :=
  { Effects.empty with bumps := c.bumps, bits := c.bits, reports := if id = 0 then [] else [countReport id c] }

/-- The effects of plane conflicts met (R145). -/
def conflictEffects (n : Nat) : Effects :=
  if n = 0 then Effects.empty
  else { Effects.empty with bumps := [(Reg.QNT_CNT_PLANE_CONFLICT, n)], bits := [(Reg.QNT_STATUS, 4)] }

/-- Invalid patterns met are counted once per read (R298). -/
def State.countMeta (s : State) (n : Nat) : State :=
  if n = 0 then s else (s.bump Reg.DSP_CNT_META_INVALID n).stick Reg.DSP_STATUS 4

/-- The blocks listed are read: what the read meets is counted, the plane conflicts with the slot's other counts (R144). -/
def State.countRead (s : State) (ref : Option SlotRef) (d : TDesc) (bs : List (Nat × Nat)) : State :=
  (s.countMeta (s.readCounts d bs).2).charge ref (conflictEffects (s.readCounts d bs).1)

/-! ### Refusals and failures -/

/-- Work refused with a status: the step becomes uncommittable through a record of class REFUSED. -/
def State.refuse (s : State) (u : UnitId) (x : Status) : State := s.raise .refused u x.code

/-- A slot that cannot complete: it fails without a replay (R331, R379). -/
def State.failRun (s : State) (ref : Option SlotRef) : State :=
  match ref with
  | some r => s.setRun r (fun x => { x with phase := .failed })
  | none => s

/-- Work of a slot refused with a status: the slot ends there with nothing of it written. -/
def State.refuseRun (s : State) (u : UnitId) (ref : Option SlotRef) (x : Status) : State := (s.refuse u x).failRun ref

/-- The collective engine (Table 2.5). -/
def colUnit : UnitId := ⟨3, 0⟩

def State.setCol (s : State) (f : ColState → ColState) : State := { s with col := f s.col }

/-- A transient datapath error of the collective engine is flagged, and its packets are marked (R396). -/
def State.transientOf (s : State) (u : UnitId) : State :=
  if u = colUnit then (s.stick Reg.COL_STATUS 4).setCol (fun c => { c with transient := true }) else s

/-- A slot that met poison, a failed remote access or host access: its attempt ends with an error (R336, R378, R405). -/
def State.faultRun (s : State) (ref : Option SlotRef) : State :=
  match ref with
  | some r => (s.transientOf (((s.run r).map (fun x => x.unit)).getD ⟨0, 0⟩)).setRun r (fun x => { x with fault := true })
  | none => s

/-- The first byte range of a list that its unit may not access. -/
def State.firstBad (s : State) (acc : List (Nat × Nat × Bool)) : Option Nat :=
  (acc.find? (fun a => !s.accessOk a.1 a.2.1 a.2.2)).map (·.1)

/-- The state as the units of a slot read descriptors in it: as memory stood when the slot started (R96). -/
def State.slotView (s : State) (r : SlotRun) : State := { s with frm := { s.frm with reader := some r.seen } }

/-- Work of a slot that reads its descriptors as memory stood when the slot started (R96). -/
def State.inSlot (s : State) (ref : Option SlotRef) (work : State → State) : State :=
  match ref.bind s.run with
  | some r =>
    let t := work (s.slotView r)
    { t with frm := { t.frm with reader := s.frm.reader } }
  | none => work s

/-- Whether a list of accesses meets poison on a read, or the host link is down for a host access (R336, R405). -/
def State.accessFault (s : State) (acc : List (Nat × Nat × Bool)) : Bool :=
  acc.any (fun a => (!a.2.2 && s.poisoned a.1 a.2.1) || (s.isHost a.1 && !s.host.linkActive))

/-- The poisoned words that a list of accesses reads, counted (R349). -/
def State.countPoison (s : State) (acc : List (Nat × Nat × Bool)) : State :=
  s.deliverPoison (sumNat ((acc.filter (fun a => !a.2.2)).map (fun a => (s.poisonWords a.1 a.2.1).length)))

/-- Work of a slot behind its access rules: an address that its unit may not access fails the slot and is recorded
(R331); poison or a host access while the link is down fails the attempt; otherwise the work is done. -/
def State.guarded (s : State) (u : UnitId) (ref : Option SlotRef) (acc : List (Nat × Nat × Bool))
    (work : State → State) : State :=
  match s.firstBad acc with
  | some a => (s.addrFault u a).failRun ref
  | none => if s.accessFault acc then (s.countPoison acc).faultRun ref else work s

end Sys2Proof.Machine
end

