-- ==== Sys2Proof/Machine/UpdProg.lean ====
section
/-! DEFINITION. Update programs (R225, R226): instruction words, the checks of an image, and the supplied programs. -/

namespace Sys2Proof.Machine

/-! ### Instruction words (R225) -/

/-- An instruction word of its fields. -/
def updWord (op d a b c imm : Nat) : Nat := op * 2 ^ 24 + d * 2 ^ 20 + a * 2 ^ 16 + b * 2 ^ 12 + c * 2 ^ 8 + imm

/-- The file of a register operand. -/
inductive UpdFile where
  | scalar | vector
  deriving DecidableEq, Repr

/-- What an opcode of Table 7.8 uses: where it may stand (1 prologue, 2 body), the bits of its fields, the file of its
destination, and the registers that it reads (file and lowest bit of the field). -/
structure UpdShape where
  sect : Nat
  mask : Nat
  dest : Option UpdFile
  reads : List (UpdFile × Nat)
  deriving DecidableEq, Repr

/-- Opcodes 0x01 to 0x09: prologue. -/
def scalarShape (op : Nat) : Option UpdShape :=
  match op with
  | 0x01 | 0x02 => some ⟨1, 0xF000FF, some .scalar, []⟩
  | 0x03 => some ⟨1, 0xF00000, some .scalar, []⟩
  | 0x04 | 0x05 | 0x06 | 0x07 => some ⟨1, 0xFFF000, some .scalar, [(.scalar, 16), (.scalar, 12)]⟩
  | 0x08 => some ⟨1, 0xFF0000, some .scalar, [(.scalar, 16)]⟩
  | 0x09 => some ⟨1, 0xFF00FF, some .scalar, [(.scalar, 16)]⟩
  | _ => none

/-- Opcodes 0x20 to 0x3F: body. -/
def vectorShape (op : Nat) : Option UpdShape :=
  match op with
  | 0x20 => some ⟨2, 0xFF0000, some .vector, []⟩
  | 0x21 => some ⟨2, 0x0FF000, none, [(.vector, 12)]⟩
  | 0x30 | 0x31 | 0x32 | 0x33 | 0x39 | 0x3A => some ⟨2, 0xFFF000, some .vector, [(.vector, 16), (.vector, 12)]⟩
  | 0x34 => some ⟨2, 0xFFFF00, some .vector, [(.vector, 16), (.vector, 12), (.vector, 8)]⟩
  | 0x35 | 0x36 | 0x3E => some ⟨2, 0xFFF000, some .vector, [(.vector, 16), (.scalar, 12)]⟩
  | 0x37 => some ⟨2, 0xFFFF00, some .vector, [(.vector, 16), (.scalar, 12), (.vector, 8)]⟩
  | 0x38 | 0x3B | 0x3C | 0x3D | 0x3F => some ⟨2, 0xFF0000, some .vector, [(.vector, 16)]⟩
  | _ => none

def updShape (op : Nat) : Option UpdShape :=
  if op = 0 then some ⟨3, 0, none, []⟩
  else match scalarShape op with
    | some x => some x
    | none => vectorShape op

/-! ### Checks of an image (R226) -/

def imagePrologue (im : List Byte) : Nat := u16At im 4
def imageBody (im : List Byte) : Nat := u16At im 6
def imageIns (im : List Byte) : Nat := u8At im 8
def imageOuts (im : List Byte) : Nat := u8At im 9

/-- Instruction word `n` of an image. -/
def imageWord (im : List Byte) (n : Nat) : Nat := u32At im (16 + 4 * n)

def progHeaderOk (im : List Byte) : Bool :=
  u32At im 0 == 0x47504455 && zeroBytes im 10 6 && inRange (imageIns im) 1 8 && inRange (imageOuts im) 1 8
    && decide (1 ≤ imagePrologue im) && decide (1 ≤ imageBody im) && decide (imagePrologue im + imageBody im ≤ 256)

/-- What the words read so far have written: scalar and vector registers, streams loaded and stored. -/
structure ProgSeen where
  scalars : List Nat
  vectors : List Nat
  loaded : List Nat
  stored : List Nat
  deriving DecidableEq, Repr

/-- Whether the registers that a word reads have been written. -/
def readsOk (x : UpdShape) (w : Nat) (seen : ProgSeen) : Bool :=
  x.reads.all (fun r => match r.1 with
    | .scalar => seen.scalars.contains (bits w r.2 (r.2 + 3))
    | .vector => seen.vectors.contains (bits w r.2 (r.2 + 3)))

/-- The stream and parameter rules of one word. -/
def streamOk (im : List Byte) (w : Nat) (seen : ProgSeen) : Bool :=
  let op := w / 2 ^ 24
  let a := bits w 16 19
  if op = 0x20 then decide (a < imageIns im) && !seen.loaded.contains a
  else if op = 0x21 then decide (a < imageOuts im) && !seen.stored.contains a
  else if op = 0x01 then decide (w % 256 ≤ 15) else true

/-- Whether word `n` of an image passes after the words before it. -/
def wordOk (im : List Byte) (n : Nat) (seen : ProgSeen) : Bool :=
  let w := imageWord im n
  let p := imagePrologue im
  let last := n + 1 == p || n + 1 == p + imageBody im
  match updShape (w / 2 ^ 24) with
  | none => false
  | some x =>
    decide (w % 2 ^ 24 &&& (2 ^ 24 - 1 - x.mask) = 0) && ((w / 2 ^ 24 == 0) == last)
      && (x.sect == 3 || (x.sect == if n < p then 1 else 2)) && readsOk x w seen && streamOk im w seen
      && (n + 1 != p + imageBody im || (seen.loaded.length == imageIns im && seen.stored.length == imageOuts im))

/-- What is known after word `w`. -/
def ProgSeen.after (seen : ProgSeen) (w : Nat) : ProgSeen :=
  let d := bits w 20 23
  let a := bits w 16 19
  let s1 := match (updShape (w / 2 ^ 24)).bind (fun x => x.dest) with
    | some .scalar => { seen with scalars := d :: seen.scalars }
    | some .vector => { seen with vectors := d :: seen.vectors }
    | none => seen
  if w / 2 ^ 24 = 0x20 then { s1 with loaded := a :: s1.loaded }
  else if w / 2 ^ 24 = 0x21 then { s1 with stored := a :: s1.stored } else s1

/-- The first failing word, of `k` words from word `n`. -/
def firstBadWord (im : List Byte) : Nat → Nat → ProgSeen → Option Nat
  | 0, _, _ => none
  | k + 1, n, seen => if wordOk im n seen then firstBadWord im k (n + 1) (seen.after (imageWord im n)) else some n

/-- Index that a refused image reports: none for a good image, 0xFFFE for its header. -/
def progFail (im : List Byte) : Option Nat :=
  if !progHeaderOk im then some 0xFFFE
  else firstBadWord im (imagePrologue im + imageBody im) 0 ⟨[], [], [], []⟩

/-- The prologue and body words of an image. -/
def progWords (im : List Byte) : List Nat × List Nat :=
  ((List.range (imagePrologue im)).map (imageWord im ·),
   (List.range (imageBody im)).map (fun n => imageWord im (imagePrologue im + n)))

/-! ### Supplied programs (Table 7.9) -/

/-- The prologue of the AdamW listing. -/
def adamwPrologue : List Nat :=
  [updWord 0x01 0 0 0 0 0, updWord 0x01 1 0 0 0 1, updWord 0x01 2 0 0 0 2, updWord 0x01 3 0 0 0 3,
   updWord 0x03 4 0 0 0 0, updWord 0x02 5 0 0 0 1, updWord 0x05 6 5 0 0 0, updWord 0x05 7 5 1 0 0,
   updWord 0x09 8 0 0 0 1, updWord 0x09 9 1 0 0 1, updWord 0x05 8 5 8 0 0, updWord 0x05 9 5 9 0 0,
   updWord 0x07 9 5 9 0 0, updWord 0x07 10 4 8 0 0, updWord 0x02 11 0 0 0 0xFF, updWord 0x06 10 10 11 0 0,
   updWord 0x06 12 4 3 0 0, updWord 0x05 12 5 12 0 0, updWord 0 0 0 0 0 0]

/-- The body of the AdamW listing. -/
def adamwBody : List Nat :=
  [updWord 0x20 0 0 0 0 0, updWord 0x20 1 1 0 0 0, updWord 0x20 2 2 0 0 0, updWord 0x20 3 3 0 0 0,
   updWord 0x36 4 3 6 0 0, updWord 0x37 1 1 0 4 0, updWord 0x32 5 3 3 0 0, updWord 0x36 5 5 7 0 0,
   updWord 0x37 2 2 1 5 0, updWord 0x21 0 1 1 0 0, updWord 0x21 0 2 2 0 0, updWord 0x36 6 2 9 0 0,
   updWord 0x38 6 6 0 0 0, updWord 0x35 6 6 2 0 0, updWord 0x33 7 1 6 0 0, updWord 0x36 0 0 12 0 0,
   updWord 0x37 0 7 10 0 0, updWord 0x21 0 0 0 0 0, updWord 0x21 0 3 0 0 0, updWord 0x21 0 4 0 0 0,
   updWord 0 0 0 0 0 0]

/-- The image of the AdamW program of slot 2: four inputs, five outputs. -/
def adamwImage : List Byte :=
  toLe 4 0x47504455 ++ toLe 2 19 ++ toLe 2 21 ++ [4, 5] ++ List.replicate 6 0
    ++ (adamwPrologue ++ adamwBody).flatMap (fun w => toLe 4 w)

/-- The images that a firmware bank's update-engine component gives slots 0 to 3 (R221); slot 2 is the AdamW listing. -/
def suppliedPrograms (component : List Byte) : Tab (List Byte) :=
  [(0, Config.suppliedProgram component 0), (1, Config.suppliedProgram component 1), (2, adamwImage),
   (3, Config.suppliedProgram component 3)]

/-- Slots 0 to 3 loaded from the component, in every engine (R221). -/
def State.loadSupplied (s : State) (component : List Byte) : State :=
  { s with upd := { s.upd with programs := (suppliedPrograms component).foldl (fun t e => tset t e.1 e.2) s.upd.programs } }

/-- The image of a program slot, empty where it holds none. -/
def State.progImage (s : State) (slot : Nat) : List Byte := tget [] s.upd.programs slot

/-- Whether a slot holds a verified program; UPD_PROG_MAP shows slots 0 to 3 loaded from reset on, as its reset value has it. -/
def State.progLoaded (s : State) (slot : Nat) : Bool := s.upd.programs.any (fun e => e.1 == slot)

end Sys2Proof.Machine
end

