-- ==== Sys2Proof/Machine/Boot.lean ====
section
/-! DEFINITION. Bring-up (chapter 14), with the parts of chapters 15 to 18 that a start runs: firmware images and their
verification, the core map, the stages, firmware and aperture commands, and the management connector. -/

namespace Sys2Proof.Machine

/-! ### Firmware images (Table 17.1, R546) -/

def asciiBytes (x : String) : List Byte := x.toList.map (fun c => BitVec.ofNat 8 c.toNat)

/-- Component `i` of an image: kind, offset, length, digest. -/
def imageComponent (im : List Byte) (i : Nat) : Nat × Nat × Nat × List Byte :=
  let e := slice im (64 + 48 * i) 48
  (u8At e 0, u32At e 8, u32At e 12, slice e 16 32)

/-- Bytes of the component of a kind (1 stage two, 2 Welfy, 3 sequencer, 4 update-engine programs). -/
def componentBytes (im : List Byte) (kind : Nat) : List Byte :=
  match (List.range 4).find? (fun i => (imageComponent im i).1 == kind) with
  | some i => let c := imageComponent im i; slice im c.2.1 c.2.2.1
  | none => []

def componentDigest (im : List Byte) (kind : Nat) : List Byte :=
  match (List.range 4).find? (fun i => (imageComponent im i).1 == kind) with
  | some i => (imageComponent im i).2.2.2
  | none => List.replicate 32 0

/-- An image is malformed when its header or component table breaks Table 17.1, or when it is longer than a bank (R34)
(IMAGE_INVALID). -/
def imageMalformed (im : List Byte) : Bool :=
  im.length < 16384 || decide (96 * 2 ^ 20 < im.length) || u32At im 0 != 0x4D495746 || u16At im 4 != 1 || decide (63 < u16At im 6)
    || u32At im 28 != 4 || !zeroBytes im 32 32 || !zeroBytes im 15968 416
    || (List.range 4).any (fun i =>
      let c := imageComponent im i
      c.1 != i + 1 || !zeroBytes im (64 + 48 * i + 1) 7 || decide (c.2.1 < 16384)
        || decide (im.length < c.2.1 + c.2.2.1))

/-- The signatures of R546: the vendor's, and the owner's where a key is enrolled; a broken owner record is an
enrolment that no image satisfies (R549). -/
def State.imageSigned (s : State) (im : List Byte) : Bool :=
  slhVerify slhSmall Config.firmwareKey (asciiBytes "V9T-FW") (slice im 0 256) (slice im 256 7856)
    && s.sec.ownerMacOk && s.sec.ownerCounter == s.sec.ownerFuse
    && match s.sec.ownerKey with
      | some k => slhVerify slhSmall k (asciiBytes "V9T-FW") (slice im 0 256) (slice im 8112 7856)
      | none => true

/-- Whether the component of a kind matches its digest. -/
def componentOk (im : List Byte) (kind : Nat) : Bool := sha256 (componentBytes im kind) == componentDigest im kind

/-- Verification of a whole image (R546) over a list of component kinds: none when it verifies. -/
def State.imageVerdict (s : State) (im : List Byte) (kinds : List Nat) : Option Status :=
  if imageMalformed im then some .imageInvalid
  else if !s.imageSigned im then some .sigInvalid
  else if u16At im 6 < s.sec.svnFloor then some .imageInvalid
  else if kinds.any (fun k => !componentOk im k) then some .imageInvalid
  else none

/-- A failed verification counts, whatever its status (R546), and sets its sticky bit. -/
def State.imageFailed (s : State) (im : List Byte) (x : Status) : State :=
  let s1 := s.bump Reg.SEC_CNT_SIG_FAIL 1
  if x = .sigInvalid then s1.stick Reg.SEC_STATUS 0
  else if u16At im 6 < s.sec.svnFloor then s1.stick Reg.SEC_STATUS 1 else s1

/-! ### The core map (R22, R23, R455) -/

/-- Mesh hops between two physical cores. -/
def hops (p q : Nat) : Nat :=
  let d := fun a b => if a < b then b - a else a - b
  d (p % 34) (q % 34) + d (p / 34) (q / 34)

/-- The core of a rising list with the fewest hops from `p`, the lowest index among equals (R23). -/
def nearest (p : Nat) (qs : List Nat) : Option Nat :=
  qs.foldl (fun best q =>
    match best with
    | none => some q
    | some b => if hops p q < hops p b then some q else some b) none

/-- The free spare that takes the place of `p` (R23). -/
def State.chooseSpare (s : State) (p : Nat) : Option Nat := nearest p s.freeSpares

/-- The logical table from the fuses and the recorded replacements (R455, steps 1 and 2). A core that an earlier start or
a hard failure mapped out holds no number (R456). -/
def logicalTable (coreMap : BitVec 544) (replacements : List (Nat × Nat × Nat)) (mappedOut : List Nat) : Tab Nat :=
  let enabled := (List.range 544).filter (fun p => coreMap.getLsbD p)
  let base := (List.range enabled.length).zip enabled
  (replacements.foldl (fun t r => tset t r.1 r.2.2) base).filter (fun e => !mappedOut.contains e.2)

/-- A core mapped out in a start (R455, step 3; R456): a core that holds a logical number is replaced by the spare of
R23, which is recorded; without a free spare its number stays without a core. Journal reason 1 digest, 2 self-test. -/
def State.mapOut (s : State) (p reason : Nat) : State :=
  let s0 := s.persist (fun b => { b with
    mappedOut := if b.mappedOut.contains p then b.mappedOut else b.mappedOut ++ [p], cntMapout := satAdd b.cntMapout 1 })
  let s1 := s0.stick Reg.BOOT_STATUS 3
  match s.logicalOf p with
  | none => s1
  | some l =>
    match s1.chooseSpare p with
    | none => { s1 with boot := { s1.boot with logical := s1.boot.logical.filter (fun e => e.1 != l) } }
    | some q =>
      let s3 := s1.journal 0x04 0 (toLe 2 l ++ toLe 2 p ++ toLe 2 q ++ toLe 1 reason)
      let s4 := s3.persist (fun b => { b with replacements := b.replacements ++ [(l, p, q)] })
      { s4 with boot := { s4.boot with logical := tset s4.boot.logical l q } }

def State.mapOuts (s : State) (reason : Nat) : List Nat → State
  | [] => s
  | p :: ps => (if s.boot.persist.mappedOut.contains p then s else s.mapOut p reason).mapOuts reason ps

/-! ### Stage 0 and the journal rules (R442, R460, R461) -/

/-- A temperature threshold, 3 degrees lower with default calibration (R478). -/
def State.threshold (s : State) (t : Nat) : Nat := if s.phys.calDefault then t - 3 else t

/-- The inputs are in range: at least one connector from 40 V up, none above 60 V (R485, R486; volts in 10 mV). -/
def PhysState.inputOk (p : PhysState) : Bool :=
  (decide (4000 ≤ p.in0.1) || decide (4000 ≤ p.in1.1)) && decide (p.in0.1 ≤ 6000) && decide (p.in1.1 ≤ 6000)

/-- Stage 0 may end: reference present, regulators in range, and after a CRITICAL every sensor below 90 degrees, with which the
core-die rails return (R495, R532). -/
def State.resetMayEnd (s : State) : Bool :=
  s.phys.refPresent && (s.phys.rails || (s.phys.coolDie && !s.boot.cold)) && s.phys.inputOk
    && (!s.phys.coolDie || (List.range 64).all (fun i => decide (tget 0 s.phys.sensors i < s.threshold 90)))
    && s.phys.coolStacks.all (fun st => decide ((s.stack st).temp < s.threshold 90))

/-- The stage that the previous start failed in: its last STAGE_BEGIN with no STAGE_END and no END (R461). -/
def failedStage (j : List JournalEntry) (startNo : Nat) : Option Nat :=
  let es := j.filter (fun e => e.startNo == startNo)
  if es.isEmpty || es.any (fun e => e.type == 0x08) then none
  else match (es.filter (fun e => e.type == 0x02)).getLast? with
    | none => none
    | some b => if es.any (fun e => e.type == 0x03 && e.stage == b.stage) then none else some b.stage

/-- The bank that a start runs where no journal rule names another: the preferred one, or the other where only that one
is marked valid (log entry 63). -/
def Persistent.startBank (p : Persistent) : Bool :=
  let pv := if p.preferredB then p.bValid else p.aValid
  let ov := if p.preferredB then p.aValid else p.bValid
  if !pv && ov then !p.preferredB else p.preferredB

/-- A stack excluded (R453). -/
def State.excludeStack (s : State) (st : Nat) : State :=
  let s1 := (s.stick Reg.BOOT_STATUS 4).journal 0x05 0 [1, BitVec.ofNat 8 st]
  s1.persist (fun b => { b with exclStacks := b.exclStacks ||| BitVec.ofNat 8 (2 ^ st) })

/-- The stacks that hung in full training in the previous start are excluded (Table 14.6, R453). -/
def State.excludeHung (s : State) (f : Option Nat) : State :=
  if f = some 6 ∧ s.boot.planSafe = false then
    ((List.range 8).filter (fun st => s.boot.hang.stackFull.getLsbD st)).foldl State.excludeStack s
  else s

/-- Each port that hung in full training counts one failed training (Table 14.6). -/
def hungPorts (hung : BitVec 24) (ports : Tab Port) : Tab Port :=
  ((List.range 24).filter (fun n => hung.getLsbD n)).foldl (fun t n =>
    tmod Port.reset t n (fun q => { q with trainFails := q.trainFails + 1 })) ports

/-- What this start does because of a failed stage (Table 14.6), the exclusion of a hung stack apart. -/
def State.journalRule (s : State) (f : Option Nat) : State :=
  match f with
  | none => s
  | some st =>
    let p := s.persist (fun b => { b with failedStarts := b.failedStarts + 1 })
    let h := s.boot.hang
    if 3 ≤ p.boot.persist.failedStarts then { p with boot := { p.boot with planSafe := true, startedB := p.boot.persist.startBank } }
    else if st = 2 then
      let bad := s.boot.startedB
      { p with boot := { p.boot with startedB := !bad } }.persist
        (fun b => if bad then { b with bValid := false } else { b with aValid := false })
    else if (st = 3 ∨ st = 7 ∨ st = 8) ∧ s.boot.cause = 4 then
      let other := !s.boot.startedB
      if (if other then s.boot.persist.bValid else s.boot.persist.aValid)
      then { p with boot := { p.boot with startedB := other } } else p
    else if st = 6 then
      { p with boot := { p.boot with
          fullStacks := h.stackSaved, fullPorts := h.portSaved ||| h.portFull },
               lnk := { p.lnk with ports := hungPorts h.portFull p.lnk.ports } }
    else if st = 7 ∨ st = 8 then { p with boot := { p.boot with planCore := h.core.map (fun (c : BitVec 10) => c.toNat) } }
    else p

/-- The bank that the previous start ran, from its START entry; bank A without one (R459). -/
def lastBank (j : List JournalEntry) (startNo : Nat) : Bool :=
  match j.find? (fun e => e.type == 0x01 && e.startNo == startNo) with
  | some e => byteAt e.body 2 != 0
  | none => false

/-- A stage begins: DEV_STATE's stage and a STAGE_BEGIN entry. -/
def State.beginStage (s : State) (st : Nat) : State :=
  ({ s with boot := { s.boot with stage := st } }).journal 0x02 0 []

/-- The persistent block that a start uses: the copy last written, the other one where that one is damaged, and where both are
none: no saved setting is valid, no replacement is applied and bank A is preferred. DESIGN CHOICE, log entry 78: the rest of
the block is then as on a part that has never started. -/
def State.readBlocks (s : State) : State :=
  let bad := s.boot.badCopies
  if !bad.getLsbD 0 then s
  else if !bad.getLsbD 1 then { s with boot := { s.boot with persist := s.boot.otherCopy } }
  else { s with boot := { s.boot with persist := Persistent.reset, otherCopy := Persistent.reset, settings := [] } }

/-- What ends stage 0, with the persistent block read: the failed stage of the previous start and its rule, the counts, the
START entry. -/
def State.beginStart (s : State) : State :=
  let old := s.boot.persist.startNo
  let f := failedStage s.boot.journal old
  let s0 := { s with
    boot := { s.boot with stage0Rc := s.rc, startedB := lastBank s.boot.journal old, badCopies := 0 },
    ras := { s.ras with feedId := s.phys.feedStraps.toNat, fromStraps := s.phys.feedStraps != 0xFF },
    phys := { s.phys with rails := true, coolDie := false, coolStacks := [] } }
  let pref := { s0 with boot := { s0.boot with startedB := s0.boot.persist.startBank } }
  let s1 := match f with
    | none => pref
    | some 2 => s0.journalRule f
    | some 3 => if s.boot.cause = 4 then s0.journalRule f else pref.journalRule f
    | some 7 => if s.boot.cause = 4 then s0.journalRule f else pref.journalRule f
    | some 8 => if s.boot.cause = 4 then s0.journalRule f else pref.journalRule f
    | some _ => pref.journalRule f
  let s2 := s1.persist (fun b => { b with
    startNo := b.startNo + 1,
    cntWarm := if s.boot.cold then b.cntWarm else satAdd b.cntWarm 1,
    cntCold := if s.boot.cold then satAdd b.cntCold 1 else b.cntCold })
  let s3 := s2.journal 0x01 0 ([BitVec.ofNat 8 (b2n s.boot.cold), BitVec.ofNat 8 s.boot.cause,
    BitVec.ofNat 8 (b2n s2.boot.startedB), BitVec.ofNat 8 s2.boot.persist.aperture])
  let s3b := s3.excludeHung f
  let s4 := if s.ras.lastLoss.isEmpty then s3b else s3b.stick Reg.RAS_STATUS 11
  s4.beginStage 1

/-- STAGE_RESET_END: stage 0 ends (R442, R459, R460, R514). The persistent block is read, the journal gives the failed stage of the previous start, the
straps give the feed ID, and the START entry is written. -/
def execStageResetEnd (s : State) : Out :=
  .next (if s.boot.dev = .reset ∧ s.boot.stage = 0 ∧ s.resetMayEnd then s.readBlocks.beginStart else s)

/-! ### Stages 1 to 8 (R442 to R458) -/

/-- The entry that closes a stage: its duration in ms, and whether a stack or port trained in full in it (Table 14.5). -/
def State.closeStage (s : State) (ms : Nat) : State :=
  s.journal 0x03 0 (toLe 4 ms ++ toLe 1 (b2n (s.boot.stage == 6 && s.regBit Reg.BOOT_STATUS 2)))

/-- The PLLs that a stage locks (Table 15.1): ARITH, NOC and MEM in stage 5, LINK in stage 6. -/
def stageDomains (st : Nat) : List Nat :=
  if st = 5 then (List.range 10).map (· + 2) else if st = 6 then (List.range 24).map (· + 12) else []

/-- Domains put to locking. -/
def State.lockDomains (s : State) (ds : List Nat) : State :=
  { s with phys := { s.phys with
      domains := ds.foldl (fun t d => tset t d { ClockDomain.reset with phase := .locking }) s.phys.domains } }

/-- A stage ends and the next begins. -/
def State.nextStage (s : State) (ms st : Nat) : State := ((s.closeStage ms).beginStage st).lockDomains (stageDomains st)

/-- The start ends in HALTED (R457 and others): END entry, DEV_STATE HALTED, ALERT#. -/
def State.endHalted (s : State) (r : StartResult) : State :=
  let s1 := s.halt r
  let s2 := { s1 with boot := { s1.boot with startMs := (s1.rc - s1.boot.stage0Rc) / 100000 } }
  s2.journal 0x08 0 (toLe 4 r.code ++ toLe 4 s2.boot.startMs)

/-- A stage ends, and the start with it in HALTED. -/
def State.stageHalts (s : State) (ms : Nat) (r : StartResult) : State := (s.closeStage ms).endHalted r

/-- The secret identity key material (R550): 48 bytes of HKDF-SHA-256. -/
def idSecret : List Byte :=
  hkdfSha256 Config.identitySeed (asciiBytes "PARYDEL-V9T") (asciiBytes "ID-128F") 48

/-- Stage 1, ROM: FLASH_RCV# is sampled; identity, certificate chain (R550 to R552). -/
def State.stageRom (s : State) (ms : Nat) : State :=
  if s.boot.flashRcvLow then { s with boot := { s.boot with recovery := true } }
  else
    let key := slhKeygen slhFast idSecret
    let ok := Config.chainValid key s.sec.chain
    let s1 := { s with sec := { s.sec with identityKey := key, certValid := ok } }
    let s2 := if ok then s1 else s1.stick Reg.SEC_STATUS 2
    let s3 := if sha256 key = s.sec.commitment then s2 else (s2.stick Reg.BOOT_STATUS 0).journal 0x06 0 []
    s3.nextStage ms 2

/-- Stage 2: the chosen bank's stage two is verified; a failing bank is journalled and the other is run at once; with
neither verified the start stays here and Welfy never runs (R461, R462). -/
def State.stageTwo (s : State) (ms : Nat) : State :=
  let a := s.boot.startedB
  match s.imageVerdict (s.bankImage a) [1] with
  | none => s.nextStage ms 3
  | some x =>
    let s1 := (s.imageFailed (s.bankImage a) x).journal 0x07 x.code [1, BitVec.ofNat 8 (b2n a)]
    match s.imageVerdict (s.bankImage (!a)) [1] with
    | none => ({ s1 with boot := { s1.boot with startedB := !a } }).nextStage ms 3
    | some y => s1.imageFailed (s.bankImage (!a)) y

/-- Stage 3, SHELL: Welfy loaded on SCP0 to SCP3, sequencer and update-engine components checked, slots 0 to 3 of the update
engines loaded (R221); DEV_STATE BOOTING and
waiting commands are taken (R410, R442). A component that fails ends the start in HALTED (log entry 15). -/
def State.stageShell (s : State) (ms : Nat) : State :=
  let im := s.bankImage s.boot.startedB
  let fb := s.boot.startedB != s.boot.persist.preferredB
  let s1 := if fb then (s.stick Reg.BOOT_STATUS 1).persist (fun b => { b with cntFallback := satAdd b.cntFallback 1 })
    else s
  let s2 := { s1 with boot := { s1.boot with
    welfy := true, dev := .booting, fallback := fb,
    scps := (List.range 4).map (fun i => (i, { Scp.reset with bankB := s.boot.startedB })) } }
  let bad := [2, 3, 4].filter (fun k => !componentOk im k)
  if bad.isEmpty then (s2.loadSupplied (componentBytes im 4)).answerUnknown.nextStage ms 4
  else (s2.imageFailed im .imageInvalid).stageHalts ms .halted

/-- Stage 4, FUSES (R447, R448): copies that disagree halt the start or map a core out later; the shadow is compared;
skew registers and FAC_DEPTH follow from the fuses. -/
def State.stageFuses (s : State) (o : StageOut) (ms : Nat) : State :=
  if !o.fuseApertureOk || !o.fuseMapOk then s.stageHalts ms .halted
  else
    let f := s.boot.fuses
    let h := s.boot.shadow
    let diffs := [f.coreMap != h.coreMap, f.rows != h.rows, f.aperture != h.aperture].filter id
    let s1 := { s with boot := { s.boot with
      fusesRead := true, shadowAgrees := diffs.isEmpty, rowsBad := o.rowsBad.map (·.toNat) } }
    let s2 := if diffs.isEmpty then s1 else
      diffs.foldl (fun (s : State) _ => s.journal 0x06 0 []) (s1.stick Reg.BOOT_STATUS 0)
    s2.nextStage ms 5

/-- Stage 5, CLOCKS: calibration (R478), PLLs locked at the selected aperture, never above the fused one (R1, R467). A
safe halt ends here (Table 14.6). -/
def State.stageClocks (s : State) (o : StageOut) (ms : Nat) : State :=
  let ap := if s.boot.persist.aperture ≤ s.boot.fuses.aperture then s.boot.persist.aperture else s.boot.fuses.aperture
  let d : ClockDomain := { phase := .onPll, count := 0, passes := 2, stable := true, switching := none }
  let s1 := { s with
    boot := { s.boot with running := ap },
    phys := { s.phys with
      calDefault := !o.calOk,
      domains := (List.range 10).foldl (fun t i => tset t (i + 2) d) s.phys.domains } }
  let s2 := if o.calOk then s1 else s1.stick Reg.CLK_STATUS 4
  if s2.boot.planSafe then
    ((s2.stick Reg.BOOT_STATUS 5).persist (fun b => { b with cntSafeHalt := satAdd b.cntSafeHalt 1 })).stageHalts ms .safeHalt
  else s2.nextStage ms 6

/-- Saved settings of a part (stack st at st, port n at 8 + n) are valid for the running firmware (R449): their SHA-256
matches, and its version wrote them, or one not older than SETTINGS_MIN. -/
def State.settingsValid (s : State) (part : Nat) : Bool :=
  match s.boot.settings.find? (fun e => e.1 == part) with
  | none => false
  | some e => e.2.digest == sha256 e.2.data && (e.2.version == s.fwVersion
      || decide (leNat (slice (s.bankImage s.boot.startedB) 20 8) ≤ leNat e.2.version))

/-- The settings of a part rewritten with what a training found, which the spec does not describe: a free value (log entry
1). -/
def State.saveSettings (s : State) (part : Nat) : State :=
  let f := s.fresh
  let data := toLe 8 f.1.toNat
  let e : SavedSettings := { version := s.fwVersion, data := data, digest := sha256 data }
  { f.2 with boot := { f.2.boot with settings := tset f.2.boot.settings part e } }

/-- One part trained in full: counted, flagged, its settings rewritten where it succeeded (R450). -/
def State.trainedFull (s : State) (part : Nat) (good : Bool) : State :=
  let s1 := (s.stick Reg.BOOT_STATUS 2).persist (fun b => { b with cntFullTrain := satAdd b.cntFullTrain 1 })
  if good then s1.saveSettings part else s1

/-- A port recorded DOWN (R452). -/
def State.excludePort (s : State) (n : Nat) : State :=
  (s.stick Reg.BOOT_STATUS 4).persist (fun b => { b with exclPorts := b.exclPorts ||| BitVec.ofNat 24 (2 ^ n) })

/-- PORT_EVENT and the counts of a port going DOWN (R363, R364). Cause: 1 lane, 2 laser, 3 training, 4 command. -/
def State.portEvent (s : State) (n cause : Nat) : State := s.say (.portEvent n (s.port n).phase.code cause)

/-- Fewer than 22 live ports: flagged, with a deferred error (R364). -/
def State.portsCheck (s : State) : State :=
  if s.livePorts < 22 then (s.stick Reg.LNK_STATUS 3).raise .portEvent ⟨6, 0⟩ 0 else s

/-- A port gone DOWN, or DISABLED by command: out of the spray set, counted, reported, in the boot journal, with a deferred
error (R363, Tables 12.3 and 16.3). -/
def State.portOut (s : State) (n cause : Nat) (ph : PortPhase) : State :=
  let s1 := s.putPort n { s.port n with phase := ph, replacing := [], changing := false }
  ((((s1.bump Reg.LNK_CNT_PORT_DOWN 1).stick Reg.LNK_STATUS 2).portEvent n cause).raise .portEvent ⟨6, n⟩ 0).journal
    0x05 0 [2, BitVec.ofNat 8 n]

/-- One port goes DOWN; fewer than 22 live ports raise another error (R364). -/
def State.portDown (s : State) (n cause : Nat) (ph : PortPhase) : State := (s.portOut n cause ph).portsCheck

/-- The logical lane that a physical lane carries, if any. -/
def Port.carries (p : Port) (lane : Nat) : Option Nat :=
  let held := fun (x : Nat) => if x = 0xFF then none else some x
  if lane = 16 then held p.spare16
  else if lane = 17 then held p.spare17
  else if lane < 16 ∧ p.spare16 ≠ lane ∧ p.spare17 ≠ lane then some lane else none

/-- The spare lanes that are free: not in use and not failed. -/
def Port.freeSpares (p : Port) : List Nat :=
  (if p.spare16 = 0xFF ∧ !p.failed.contains 16 then [16] else [])
    ++ (if p.spare17 = 0xFF ∧ !p.failed.contains 17 then [17] else [])

/-- A spare lane takes over what a physical lane carried; a spare that is itself replaced is out of use. -/
def Port.takeSpare (p : Port) (lane : Nat) : Option Port :=
  match p.carries lane with
  | none => none
  | some l =>
    let q := if lane = 16 then { p with spare16 := 0xFF } else if lane = 17 then { p with spare17 := 0xFF } else p
    match p.freeSpares with
    | 16 :: _ => some { q with spare16 := l }
    | 17 :: _ => some { q with spare17 := l }
    | _ => none

/-- A lane noted as failed, once (R363). -/
def Port.fail (p : Port) (lane : Nat) : Port := { p with failed := if p.failed.contains lane then p.failed else p.failed ++ [lane] }

/-- A lane failing in full training is replaced by a free spare lane (R452, R361). -/
def Port.spareLane (p : Port) (lane : Nat) : Port :=
  let q := p.fail lane
  (q.takeSpare lane).getD q

/-- One stack of stage 6. -/
def State.trainStack (s : State) (o : StageOut) (st : Nat) : State :=
  if s.boot.persist.exclStacks.getLsbD st then s
  else
    let full := s.boot.fullStacks.getLsbD st || !s.settingsValid st || o.stackSavedBad.getLsbD st
    if full then
      let s1 := s.trainedFull st (!o.stackBad.getLsbD st)
      if o.stackBad.getLsbD st then s1.excludeStack st else s1
    else s

/-- One port of stage 6: a full training replaces the lanes that fail; one that leaves fewer than 16 working lanes, or the
third failed training in a row, those of hung starts among them, takes the port DOWN (R452, Table 14.6). -/
def State.trainPort (s : State) (o : StageOut) (n : Nat) : State :=
  if s.boot.persist.exclPorts.getLsbD n then s
  else
    let p := s.port n
    let full := s.boot.fullPorts.getLsbD n || !s.settingsValid (8 + n) || o.portSavedBad.getLsbD n
    if !full then s.putPort n { p with phase := .up, trainFails := 0 }
    else
      let fails := p.trainFails + ((o.portFails.filter (fun e => e.1.val == n)).map (fun e => e.2.toNat)).sum
      let lanes := (o.lanesBad.filter (fun e => e.1.val == n)).map (·.2.toNat)
      let q := lanes.foldl Port.spareLane p
      let down := decide (3 ≤ fails) || decide (2 < q.failed.length)
      let s1 := lanes.foldl (fun (s : State) l => s.journal 0x05 0 [3, BitVec.ofNat 8 n, BitVec.ofNat 8 l])
        ((s.putPort n { q with phase := .up, trainFails := if down then fails else 0 }).trainedFull (8 + n) (!down))
      if down then (s1.excludePort n).portOut n 3 .down else s1

/-- Hard post-package repair at a cold start: each recorded soft repair becomes permanent unless its hard step fails
(R451). -/
def State.hardRepair (s : State) (o : StageOut) : State :=
  if s.boot.cold then
    { s with boot := { s.boot with
        softRepairs := (List.zip s.boot.softRepairs (List.range s.boot.softRepairs.length)).filterMap (fun r =>
          if o.repairsBad.any (fun b => b.toNat == r.2) then some r.1 else none) } }
  else s

/-- Every stack and every port trained; fewer than 22 live ports raise a deferred error (R364). -/
def State.trainAll (s : State) (o : StageOut) : State :=
  let s1 := (List.range 8).foldl (fun (s : State) st => s.trainStack o st) (s.hardRepair o)
  ((List.range 24).foldl (fun (s : State) n => s.trainPort o n) s1).portsCheck

/-- The LINK domain of every live port is stable and runs from its PLL; the others run on the reference. -/
def State.linkDomains (s : State) : State :=
  let d : ClockDomain := { phase := .onPll, count := 0, passes := 2, stable := true, switching := none }
  { s with phys := { s.phys with
      domains := (List.range 24).foldl (fun t n => tset t (12 + n) (if s.portLive n then d else { ClockDomain.reset with phase := .onRef })) s.phys.domains } }

/-- The zero-fill of local HBM ends, and Memory_Active is set (R441, R446). -/
def State.fillDone (s : State) : State :=
  { s.zeroHbm with host := { s.host with memoryActive := true } }

/-- After stage 6: an excluded stack ends the start in HALTED (R453). -/
def State.afterTrain (s : State) (ms : Nat) : State :=
  if s.boot.persist.exclStacks != 0 then s.stageHalts ms .halted else s.nextStage ms 7

/-- Stage 6, TRAIN: stacks and ports, the zero-fill, Memory_Active (R441, R446, R449 to R453). -/
def State.stageTrain (s : State) (o : StageOut) (ms : Nat) : State := ((s.trainAll o).linkDomains.fillDone).afterTrain ms

/-- Stage 7, SEQ_LOAD (R454, R455): cores that fail their digest twice, and cores whose spare-row fuse copies
disagree, are mapped out; the logical table is built. -/
def State.stageSeq (s : State) (o : StageOut) (ms : Nat) : State :=
  let bad := s.boot.rowsBad ++ o.digestBad.map (·.toNat)
  let s1 := { s with boot := { s.boot with
    logical := logicalTable s.boot.fuses.coreMap s.boot.persist.replacements s.boot.persist.mappedOut, stage7Failed := bad } }
  let s2 := (s1.mapOuts 1 bad).mapOuts 2 (match s.boot.planCore with
    | some p => [p]
    | none => [])
  s2.nextStage ms 8

/-- The set of physical cores of a list, as bits. -/
def coreSet (ps : List Nat) : BitVec 544 := ps.foldl (fun b p => b ||| BitVec.ofNat 544 (2 ^ p)) 0

/-- Stage 8, SELFTEST (Table 14.7): the second result decides. -/
def State.stageTest (s : State) (o : StageOut) (ms : Nat) : State :=
  let cores := o.testBad.map (·.toNat)
  let any := o.firstFailed || !cores.isEmpty || o.updBad != 0 || o.unitsBad != 0
  let s0 := if o.rngBad then s.stick Reg.RNG_STATUS 0 else s
  let s1 := if any || o.rngBad then s0.stick Reg.BOOT_STATUS 8 else s0
  let s2 := { s1 with boot := { s1.boot with
    selfTest := ⟨coreSet cores, o.updBad, o.unitsBad.setWidth 8⟩ } }
  let s3 := s2.mapOuts 2 cores
  let s4 := (List.range 8).foldl (fun (s : State) st => if o.updBad.getLsbD st then s.excludeStack st else s) s3
  let short := decide (s4.boot.logical.length < 512)
  let s5 := if short then s4.stick Reg.BOOT_STATUS 7 else s4
  if o.updBad ≠ 0 ∨ o.unitsBad ≠ 0 ∨ short then s5.stageHalts ms .halted else s5.nextStage ms 9

/-- STAGE_END: the current stage completes and the next begins, or the start ends (R442). -/
def execStageEnd (out : StageOut) (ms : BitVec 32) (s : State) : Out :=
  .next (if s.boot.result ≠ .inProgress ∨ s.boot.recovery ∨ !s.phys.refPresent then s
  else
    let n := ms.toNat
    match s.boot.stage with
    | 1 => s.stageRom n
    | 2 => s.stageTwo n
    | 3 => s.stageShell n
    | 4 => s.stageFuses out n
    | 5 => s.stageClocks out n
    | 6 => s.stageTrain out n
    | 7 => s.stageSeq out n
    | 8 => s.stageTest out n
    | _ => s)

/-- The gates that are off at READY (R484): cores without a logical number, and columns 8 and 25 without a mapped-in
core. -/
def State.readyGates (s : State) : List Nat :=
  ((List.range 544).filter (fun p => (s.logicalOf p).isNone)).map (· + 64)
    ++ ([9, 26].filter (fun n => !s.gateHolds n))

/-- READY (R442, R457, R484, R547, R572): DEV_STATE READY, gates, the SVN floor, the END entry; ticks run from here
(R40). -/
def execReady (s : State) : Out :=
  .next (if s.boot.stage = 9 ∧ s.boot.dev = .booting ∧ s.boot.result = .inProgress then
    let ms := (s.rc - s.boot.stage0Rc) / 100000
    let low := decide (s.freeSpares.length < 4)
    let both := s.boot.persist.aValid && s.boot.persist.bValid
    let svn := Nat.min (u16At s.boot.bankA 6) (u16At s.boot.bankB 6)
    let s1 := { s with
      boot := { s.boot with dev := .ready, result := .ready, startMs := ms },
      phys := { s.phys with alert := false, gatesOff := s.readyGates },
      sec := { s.sec with svnFloor := if both then Nat.max s.sec.svnFloor svn else s.sec.svnFloor },
      frm := { s.frm with ticking := true, phase := 0 } }
    let s1 := if s.sec.svnFloor < s1.sec.svnFloor then s1.measChanged 7 else s1
    let s2 := s1.persist (fun b => { b with failedStarts := 0 })
    let s3 := s2.journal 0x08 0 (toLe 4 1 ++ toLe 4 ms)
    if low then (s3.stick Reg.BOOT_STATUS 6).raise .sparesLow ⟨7, 0⟩ 0 else s3
  else s)

/-- A start that a fault cuts off: what was in training or in test, and the blocks that it damaged (Table 14.6, R459). -/
def State.noteHang (s : State) (h : StageHang) : State := { s with boot := { s.boot with hang := h, badCopies := h.badCopies } }

/-- STAGE_WATCHDOG (R444): the start ends with a warm restart, cause 3; `hang` is what was in training or in test. -/
def execStageWatchdog (hang : StageHang) (s : State) : Out :=
  .next (if s.boot.result = .inProgress ∧ 1 ≤ s.boot.stage ∧ s.boot.stage ≤ 8 ∧ !s.boot.recovery then
    (s.noteHang hang).restart false 3
  else s)

/-- A Shell processor out of service after a fault: its role moves at the next tick (R26). -/
def State.failScp (s : State) (scp : Option (BitVec 2)) : State :=
  match scp with
  | none => s
  | some i => { s with boot := { s.boot with scps := tset s.boot.scps i.toNat { s.scp i.toNat with failed := true } } }

/-- SHELL_FAULT (R504): device-fatal in service; during a start, a restart with cause 4 (Table 14.1). -/
def execShellFault (event : ShellEvent) (s : State) : Out :=
  .next (if s.boot.result = .inProgress then
      if s.boot.dev = .booting then (s.noteHang event.hang).restart false 4 else s
    else (s.failScp event.scp).raise .shellFault ⟨7, 0⟩ 0)

/-- DEVICE_FATAL_RESET (R504, R505): the record goes to the last-loss area and the device warm-starts, cause 5. The record's handling ends with the reset, and the next in the queue becomes active (log entry
16). -/
def execDeviceFatalReset (s : State) : Out :=
  .next (match s.ras.fatalPending, s.ras.active with
    | true, some r =>
      if r.severity = 4 then
        let s1 := s.writeLastLoss r
        let s2 := { s1 with ras := { s1.ras with
          active := s1.ras.queue.head?, queue := s1.ras.queue.drop 1, fatalPending := false } }
        s2.restart false 5
      else s
    | _, _ => s)

/-! ### Power and reference (R439, R472, R473, R486, R575) -/

/-- POWER_APPLIED (R575): the first connector powered while both were unpowered starts the device cold. -/
def execPowerApplied (connector : Bool) (supply : PowerOn) (s : State) : Out :=
  let volts := supply.volts
  let both := decide (s.phys.in0.1 < 4000) && decide (s.phys.in1.1 < 4000)
  let put := fun (p : PhysState) =>
    if connector then { p with in1 := (volts.toNat, p.in1.2) } else { p with in0 := (volts.toNat, p.in0.2) }
  .next (if volts.toNat < 4000 then s
    else if both then
      let s1 := s.restart true 0
      { s1 with phys := { put s1.phys with rails := true }, boot := { s1.boot with badCopies := supply.badCopies } }
    else { s with phys := put s.phys })

/-- REFCLK_PRESENT (R472, R473): the detector declares the reference present; the device leaves reset. -/
def execRefclkPresent (s : State) : Out :=
  .next (if s.phys.refPresent then s else { s with phys := { s.phys with refPresent := true, domains := domainsOnRef } })

/-- REFCLK_LOST (R473): every domain stops and the device is held in reset; regulators stay on; the next start is warm
with cause 1. -/
def execRefclkLost (s : State) : Out :=
  .next (if s.phys.refPresent then
    let s1 := s.restart (s.boot.cold && s.boot.stage == 0) (if s.boot.cold && s.boot.stage == 0 then 0 else 1)
    { s1 with
        phys := { s1.phys with refPresent := false, domains := [], rails := s.phys.rails },
        host := { s1.host.ideEnd with linkActive := false } }
  else s)

/-- POWER_LOSS (R486): both inputs below 40 V, or either above 60 V: the loss is recorded in the last-loss area, every
clock stops and the rails are removed; the next start is cold. -/
def execPowerLoss (v0 v1 : BitVec 16) (s : State) : Out :=
  let a := v0.toNat
  let b := v1.toNat
  .next (if (a < 4000 ∧ b < 4000) ∨ 6000 < a ∨ 6000 < b then
    let r : RasRecord :=
      { severity := 4, cls := RasClass.powerLoss.code, unit := ⟨9, 0⟩, seq := s.ras.seq, preempted := false,
        half := false, lastLoss := true, tick := s.frm.tick, detail := 0, step := s.upd.t }
    let s1 := (s.writeLastLoss r).restart true 0
    { s1 with
        phys := { s1.phys with in0 := (a, 0), in1 := (b, 0), domains := [], rails := false },
        host := { s1.host.ideEnd with linkActive := false } }
  else s)

/-! ### Management connector (R571, R573) -/

/-- FLASH_RECOVERY_IMAGE (R573): accepted in flash recovery only; verified under R546 and written to the bank that the
transfer names; a bank whose image fails is left marked invalid. -/
def execFlashRecoveryImage (bankB : Bool) (image : List Byte) (s : State) : Out :=
  let mark := fun (s : State) (ok : Bool) => s.persist (fun b =>
    if bankB then { b with bValid := ok } else { b with aValid := ok })
  .next (if s.boot.recovery then
    match s.imageVerdict image [1, 2, 3, 4] with
    | some x => mark (s.imageFailed image x) false
    | none =>
      let s1 := { s with boot :=
        if bankB then { s.boot with bankB := image } else { s.boot with bankA := image } }
      mark (s1.journal 0x07 0 [1, BitVec.ofNat 8 (b2n bankB)]) true
  else s)

/-- The identity page (Table 13.3); from stage 4's end on, all its fields (R445). -/
def State.identityPage (s : State) : List Byte :=
  let full := s.boot.fusesRead
  let z := fun (n : Nat) (b : List Byte) => if full then b else List.replicate n 0
  toLe 4 0x59464C57 ++ toLe 4 1 ++ toLe 4 (vendorId + deviceId * 65536) ++ toLe 4 s.devStateWord
    ++ z 4 (toLe 1 s.boot.fuses.aperture ++ toLe 1 s.boot.running ++ [0, 0]) ++ z 4 (toLe 4 (b2n s.boot.startedB))
    ++ z 8 s.fwVersion ++ z 8 s.identity

/-- I3C_READ (R571): the registers that the target serves, and nothing else. -/
def execI3cRead (sel : I3cSel) (s : State) : Out :=
  .next { s with phys := { s.phys with i3cOut := match sel with
    | .identity off => slice s.identityPage off.toNat 4
    | .bootState => toLe 4 s.bootState.toNat
    | .thmDie => toLe 4 s.thmDie.toNat
    | .hbmThermAll => toLe 4 s.thermAll.toNat
    | .pwrAvg => toLe 4 s.phys.avg } }

/-! ### 0x09xx commands (Table 14.10) -/

/-- FW_UPDATE (R463): BANK_ACTIVE, then the image's checks; the bank is marked invalid until the write completes. -/
def execFwUpdate (m : BitVec 6) (s : State) : Out :=
  .next (s.welfy 0x0901 m fun ps s =>
    let src := u64At ps 0
    let len := u32At ps 8
    let bk := u8At ps 12
    let isB := bk == 1
    if 1 < bk then s.bad 12
    else if s.boot.startedB == isB || (List.range 4).any (fun i => (s.scp i).bankB == isB) then s.no .bankActive
    else if !s.paramOk src len false then s.no .addrInvalid
    else
      let im := s.load src len
      match s.imageVerdict im [1, 2, 3, 4] with
      | some x => (s.imageFailed im x).no x
      | none =>
        (s.startLong 0x0901 m.toNat len (.fwUpdate isB im)).thenDo (fun s =>
          (s.journal 0x07 0 [1, BitVec.ofNat 8 bk]).persist (fun b =>
            if isB then { b with bValid := false } else { b with aValid := false })))

/-- FW_ACTIVATE (R464). -/
def execFwActivate (m : BitVec 6) (s : State) : Out :=
  .next (s.welfy 0x0902 m fun ps s =>
    let bk := u8At ps 0
    if 1 < bk then s.bad 0
    else if !(if bk = 1 then s.boot.persist.bValid else s.boot.persist.aValid) then s.no .imageInvalid
    else ((s.journal 0x07 0 [2, BitVec.ofNat 8 bk]).persist (fun b => { b with preferredB := bk == 1 })).ok [])

/-- A journal entry as flash holds it (Table 14.5). -/
def JournalEntry.bytes (e : JournalEntry) : List Byte :=
  toLe 1 e.type ++ toLe 1 e.stage ++ toLe 2 e.status ++ toLe 4 e.startNo ++ toLe 4 e.timeMs ++ toLe 4 0
    ++ slice e.body 0 48

/-- The persistent block as bytes: the contents of R459 in their order; the layout is the model's (log entry 14). -/
def Persistent.bytes (p : Persistent) : List Byte :=
  slice (toLe 8 p.seq ++ [BitVec.ofNat 8 (b2n p.preferredB), BitVec.ofNat 8 (b2n p.aValid), BitVec.ofNat 8 (b2n p.bValid),
    BitVec.ofNat 8 p.aperture] ++ toLe 1 p.exclStacks.toNat ++ toLe 3 p.exclPorts.toNat ++ toLe 4 p.failedStarts
    ++ toLe 4 p.startNo ++ toLe 4 p.cntWarm.toNat ++ toLe 4 p.cntCold.toNat ++ toLe 4 p.cntFullTrain.toNat
    ++ toLe 4 p.cntMapout.toNat ++ toLe 4 p.cntFallback.toNat ++ toLe 4 p.cntSafeHalt.toNat
    ++ toLe 2 p.replacements.length ++ p.replacements.flatMap (fun r => toLe 2 r.1 ++ toLe 2 r.2.1 ++ toLe 2 r.2.2)
    ++ toLe 2 p.mappedOut.length ++ p.mappedOut.flatMap (toLe 2)) 0 4096

/-- BOOT_JOURNAL_READ (R470). Entry indices count from the oldest entry that the ring holds (log entry 14). -/
def execBootJournalRead (m : BitVec 6) (s : State) : Out :=
  .next (s.welfy 0x0903 m fun ps s =>
    let kind := u8At ps 0
    let first := u32At ps 4
    let count := u32At ps 8
    let dst := u64At ps 16
    let total := s.boot.journal.length
    if 1 < kind then s.bad 0
    else if kind = 1 then
      if dst = 0 then s.bad 16
      else if !s.paramOk dst 4096 true then s.no .addrInvalid
      else (s.store dst s.boot.persist.bytes).ok (toLe 4 0 ++ toLe 4 1)
    else
      let f := if first = 0xFFFFFFFF then total - 60 else Nat.min first total
      let c := Nat.min (if first = 0xFFFFFFFF then 60 else count) (total - f)
      let es := ((s.boot.journal.drop f).take c).flatMap JournalEntry.bytes
      let head := toLe 4 f ++ toLe 4 c
      if dst = 0 then
        if 60 < c then s.bad 16 else s.ok (slice head 0 48 ++ es)
      else if !s.paramOk dst es.length true then s.no .addrInvalid
      else (s.store dst es).ok head)

/-- APERTURE_SELECT (R466, R467, R480): checked, then the ARITH domain is switched to the reference, where it is not there
already, and locks; the command completes when the domain runs from its PLL at the new multiple (CLOCK_MUX_SWITCH).
Observed is whether the old clock's activity counter has advanced within the last 16 rc. -/
def execApertureSelect (m : Observed Bool) (s : State) : Out :=
  .next (s.welfy 0x0904 m.box fun ps s =>
    let a := u8At ps 0
    if a ≠ 36 ∧ a ≠ 32 ∧ a ≠ 26 then s.bad 0
    else if s.boot.fuses.aperture < a then s.no .apertureDenied
    else if s.frm.epoch ≠ 0 ∨ s.longRunning then s.no .runLock
    else if !m.seen then (s.stick Reg.CLK_STATUS 2).no .clockStopped
    else
      let c : ClockDomain := { s.domain 2 with passes := 0, stable := false }
      let d := if c.phase = .onPll then { c with switching := some s.rc } else { c with phase := .locking, switching := none }
      ⟨.inProgress, 0, [], { s with phys := { s.phys with
        domains := tset s.phys.domains 2 d, apSelect := some (m.box.toNat, a) } }⟩)

/-- FUSE_QUERY (R470). -/
def execFuseQuery (m : BitVec 6) (s : State) : Out :=
  .next (s.welfy 0x0905 m fun ps s =>
    let p := u16At ps 0
    let f := s.boot.fuses
    if p = 0xFFFF then
      s.ok (toLe 68 f.coreMap.toNat ++ toLe 1 f.aperture ++ toLe 1 (b2n s.boot.shadowAgrees))
    else if 544 ≤ p then s.bad 0
    else s.ok (f.coreRows p ++ toLe 1 (b2n (f.coreMap.getLsbD p))
      ++ toLe 1 (b2n (f.coreRows p == s.boot.shadow.coreRows p && f.coreMap.getLsbD p == s.boot.shadow.coreMap.getLsbD p))))

/-- SCP_BANK_SWAP (R465): the response is written, and the role moves at the next tick. -/
def execScpBankSwap (m : BitVec 6) (s : State) : Out :=
  .next (s.welfy 0x0906 m fun ps s =>
    let i := u8At ps 0
    let bk := u8At ps 1
    let run := s.bankImage (s.scp i).bankB
    let im := s.bankImage (bk == 1)
    if 3 < i then s.bad 0
    else if 1 < bk then s.bad 1
    else if (List.range 4).any (fun j => (s.scp j).swapTo.isSome) then s.no .runLock
    else if !(if bk = 1 then s.boot.persist.bValid else s.boot.persist.aValid) then s.no .imageInvalid
    else if u16At im 16 ≠ u16At run 16 ∨ u16At im 18 ≠ u16At run 18 then s.no .imageInvalid
    else
      let s1 := (s.journal 0x07 0 [3, BitVec.ofNat 8 bk, BitVec.ofNat 8 i]).persist id
      ({ s1 with boot := { s1.boot with
        scps := tset s1.boot.scps i { s.scp i with swapTo := some (bk == 1) } } }).ok [])

/-- SCP_IMAGE_VERIFIED (R465): the processor has loaded and verified its image; its role returns at the next tick. -/
def execScpImageVerified (scp : BitVec 2) (s : State) : Out :=
  let i := scp.toNat
  let p := s.scp i
  .next (if p.away && p.swapTo.isSome && !p.verified then
      { s with boot := { s.boot with scps := tset s.boot.scps i { p with verified := true } } }
    else s)

/-- The default roles of the Shell control processors (Table 1.5). -/
inductive ScpRole where
  | host | frame | recovery | physical
  deriving DecidableEq, Repr

/-- The processor of a role by default, and its backup (Table 1.5). -/
def ScpRole.scp : ScpRole → Nat
  | .host => 0 | .frame => 1 | .recovery => 2 | .physical => 3

def ScpRole.backup : ScpRole → Nat
  | .host => 1 | .frame => 0 | .recovery => 3 | .physical => 2

/-- The processor that a role is on now (R26). -/
def State.roleOn (s : State) (r : ScpRole) : Nat := if (s.scp r.scp).away then r.backup else r.scp

/-- At a tick a role that is to move goes to its backup, and one whose image is verified returns (R26, R465). -/
def State.moveRoles (s : State) : State :=
  (List.range 4).foldl (fun (s : State) i =>
    let p := s.scp i
    match p.swapTo with
    | none =>
      if p.failed && !p.away then { s with boot := { s.boot with scps := tset s.boot.scps i { p with away := true } } } else s
    | some b =>
      if p.away then
        if p.verified then
          let s1 := { s with
              boot := { s.boot with scps := tset s.boot.scps i { bankB := b, away := false, swapTo := none, verified := false, failed := false } } }
          if componentDigest (s.bankImage p.bankB) 2 = componentDigest (s.bankImage b) 2 then s1 else s1.measChanged 3
        else s
      else { s with boot := { s.boot with scps := tset s.boot.scps i { p with away := true } } }) s

/-- Recovery actions in progress (R535): map-ins, fills, exports, imports, an HBM repair, a port retraining. -/
def State.recoveryActions (s : State) : Nat :=
  (s.boot.pendingMapIn.filter (fun e => decide (e.2.1 < 544))).length + b2n s.hbm.current.isSome
    + (s.host.records.filter (fun e => e.2.running && match e.2.op with
        | .mirrorFill _ _ => true
        | .ckptExport _ _ _ => true
        | .ckptImport _ => true
        | .trainSweep k _ => k == 0
        | _ => false)).length

/-- TRAIN_SWEEP (R468, R535). -/
def execTrainSweep (m : BitVec 6) (s : State) : Out :=
  .next (s.welfy 0x0907 m fun ps s =>
    let kind := u8At ps 0
    let i := u8At ps 1
    let lanes := if kind = 0 then 18 else if kind = 1 then 18 * 24 else 74 * 32
    if 2 < kind then s.bad 0
    else if (kind = 0 ∧ 23 < i) ∨ (kind = 1 ∧ i ≠ 0) ∨ (kind = 2 ∧ 7 < i) then s.bad 1
    else if kind = 0 ∧ (s.port i).phase ≠ .down ∧ (s.port i).phase ≠ .disabled then s.no .runLock
    else if kind = 0 ∧ 4 ≤ s.recoveryActions then s.no .runLock
    else if kind ≠ 0 ∧ s.frm.epoch ≠ 0 then s.no .runLock
    else
      let r := s.startLong 0x0907 m.toNat lanes (.trainSweep kind i)
      if r.status = .opStarted then
        let ports := if kind = 0 then [i] else if kind = 1 then List.range 24 else []
        { r with st := (ports.foldl (fun (s : State) n => s.putPort n { s.port n with phase := .training }) r.st).portsCheck }
      else r)

/-- SELFTEST_RESULTS (R458). -/
def execSelftestResults (m : BitVec 6) (s : State) : Out :=
  .next (s.welfy 0x0908 m fun _ s =>
    s.ok (toLe 68 s.boot.selfTest.cores.toNat ++ toLe 1 s.boot.selfTest.stackSet.toNat
      ++ toLe 1 s.boot.selfTest.units.toNat))

/-- A trained port taken out of BOOT_EXCLUDE.PORTS: an EXCLUDE entry for the change (R468, R469; log entry 79). -/
def State.readmitPort (s : State) (n : Nat) : State :=
  if s.boot.persist.exclPorts.getLsbD n then
    (s.journal 0x05 0 [2, BitVec.ofNat 8 n]).persist (fun b => { b with exclPorts := b.exclPorts &&& ~~~ BitVec.ofNat 24 (2 ^ n) })
  else s

/-- A trained stack is no longer excluded. -/
def State.readmitStack (s : State) (i : Nat) : State :=
  if s.boot.persist.exclStacks.getLsbD i then
    (s.journal 0x05 0 [1, BitVec.ofNat 8 i]).persist (fun b => { b with exclStacks := b.exclStacks &&& ~~~ BitVec.ofNat 8 (2 ^ i) })
  else s

/-- What a finished TRAIN_SWEEP leaves (R468): saved settings written, exclusions cleared; kind 2 leaves local HBM
zero, and a stack whose training fails is excluded (R453). A trained port joins the spray sets at the next tick (Table 14.8). -/
def State.sweepEnd (s : State) (kind i : Nat) (good : Bool) : State :=
  let ports := if kind = 0 then [i] else if kind = 1 then List.range 24 else []
  let s1 := ports.foldl (fun (s : State) n =>
    let s := s.trainedFull (8 + n) good
    if good then
      ((s.putPort n { s.port n with phase := .up, trainFails := 0, joining := true }).readmitPort n).portEvent n 3
    else (s.putPort n { s.port n with trainFails := (s.port n).trainFails + 1 }).portOut n 3 .down) s
  if kind = 2 then
    let s2 := (s1.trainedFull i good).zeroHbm
    if good then s2.readmitStack i else if s2.boot.persist.exclStacks.getLsbD i then s2 else s2.excludeStack i
  else s1.portsCheck

end Sys2Proof.Machine
end

