-- ==== Sys2Proof/Machine/Clocks.lean ====
section
/-! DEFINITION. Clocks, power and thermal (chapter 15): clock windows and multiplexers, the power guard, the core-die
thermal states, and the 0x0Axx commands. -/

namespace Sys2Proof.Machine

/-! ### Clock domains (R475 to R481) -/

def State.putDomain (s : State) (d : Nat) (c : ClockDomain) : State :=
  { s with phys := { s.phys with domains := tset s.phys.domains d c } }

/-- A window passes when its count differs from N by at most floor(N / 10,000) (R475). -/
def windowPasses (n c : Nat) : Bool := decide ((if n < c then c - n else n - c) ≤ n / 10000)

/-- A frame-timed domain fails its window in service (Table 15.2). -/
def State.windowFail (s : State) (d : Nat) : State :=
  let s1 := (s.stick Reg.CLK_STATUS 0).bump Reg.CLK_CNT_WINDOW_FAIL 1
  if d ≤ 11 then s1.raise .clockFail ⟨8, d⟩ 0
  else if d ≤ 35 then
    if s1.portLive (d - 12) then (s1.portDown (d - 12) 3 .down) else s1
  else
    let s2 := s1.putDomain 36 { s1.domain 36 with phase := .locking, passes := 0, stable := false }
    if s2.host.linkActive then s2.linkLeaves else s2

/-- CLOCK_WINDOW (R475, R477): the count of a 2^16 rc window of a frame-timed domain. Two passing windows in a row make
a domain that locks stable, and its multiplexer is then commanded over. -/
def execClockWindow (domain : Fin 37) (count : BitVec 32) (s : State) : Out :=
  let d := domain.val
  let c := s.domain d
  let ok := windowPasses (expectedCount s.lockMultiple d) count.toNat
  let c1 := { c with count := count.toNat, passes := if ok then c.passes + 1 else 0 }
  .next (if d < 2 then s
    else match c.phase with
    | .locking =>
      if ok && decide (2 ≤ c1.passes) && c.switching.isNone
      then s.putDomain d { c1 with stable := true, switching := some s.rc } else s.putDomain d c1
    | .onPll => if ok then s.putDomain d c1 else (s.putDomain d c1).windowFail d
    | _ => s.putDomain d c1)

/-- HK_STABLE (R476): a housekeeping domain is declared stable and moves to its PLL. -/
def execHkStable (domain : Fin 2) (s : State) : Out :=
  .next (if s.phys.refPresent then
      s.putDomain domain.val { s.domain domain.val with phase := .onPll, stable := true, switching := none }
    else s)

/-- The command that asked for a clock switch completes. -/
def State.apertureDone (s : State) (x : Status) : State :=
  match s.phys.apSelect with
  | none => s
  | some (b, _) =>
    let s1 := { s with phys := { s.phys with apSelect := none } }
    if (s.box b).st = .busy then s1.finish b x 0 (if x = .success then toLe 1 s1.boot.running else []) else s1

/-- CLOCK_MUX_SWITCH (R479, R467): the multiplexer completes its change. The ARITH domain of an aperture selection
moves to the reference and relocks at the new multiple; once stable it moves back, and the new aperture is in force
and stored. -/
def execClockMuxSwitch (domain : Fin 37) (s : State) : Out :=
  let d := domain.val
  let c := s.domain d
  .next (match c.switching, c.phase with
    | some _, .onPll => s.putDomain d { c with phase := .locking, switching := none, passes := 0, stable := false }
    | some _, _ =>
      let s1 := s.putDomain d { c with phase := .onPll, switching := none, stable := true }
      match s.phys.apSelect with
      | some (_, a) =>
        if d = 2 then
          let s2 := { s1 with boot := { s1.boot with running := a } }
          (s2.persist (fun p => { p with aperture := a })).apertureDone .success
        else s1
      | none => s1
    | none, _ => s)

/-- A slot runs in a domain. -/
def State.slotInDomain (s : State) (d : Nat) : Bool :=
  if d = 2 then s.slotRunning 1 else if d = 3 then s.slotRunning 2 || s.slotRunning 3
  else if 4 ≤ d ∧ d ≤ 11 then
    s.frm.slots.any (fun r => decide (r.phase = .running) && r.unit.ty == 4 && r.unit.idx == d - 4)
  else false

/-- MUX_HANG (R481): a switch not complete 1,024 rc after it was commanded resets the domain to input 0. -/
def execMuxHang (domain : Fin 37) (s : State) : Out :=
  let d := domain.val
  let c := s.domain d
  .next (match c.switching with
    | none => s
    | some t =>
      if s.rc < t + 1024 then s
      else
        let s1 := s.putDomain d { ClockDomain.reset with phase := .onRef }
        let s2 := (s1.stick Reg.CLK_STATUS 1).bump Reg.CLK_CNT_MUX_HANG 1
        let s3 := if d = 2 then s2.apertureDone .clockStopped else s2
        if s.slotInDomain d then s3.raise .clockFail ⟨8, d⟩ 0 else s3.raise .muxHangIdle ⟨8, d⟩ 0)

/-! ### Power (R485 to R491) -/

/-- OVER_BUDGET (R490): the average has exceeded the guard limit for 10 ms (10,000 samples). -/
def execOverBudget (s : State) : Out :=
  .next (if 10000 ≤ s.phys.overFor then
      ((({ s with phys := { s.phys with overFor := 0 } }).stick Reg.PWR_STATUS 1).bump Reg.PWR_CNT_OVER_BUDGET 1).raise
        .overBudget ⟨9, 0⟩ 0
    else s)

/-- FEED_LOW (R485, R575): one connector below 40 V, or its PRES pin broken (`volts` 0), the other in range. -/
def execFeedLow (connector : Bool) (volts : BitVec 16) (s : State) : Out :=
  let other := if connector then s.phys.in0.1 else s.phys.in1.1
  let p := if connector then { s.phys with in1 := (volts.toNat, 0) } else { s.phys with in0 := (volts.toNat, 0) }
  .next (if volts.toNat < 4000 ∧ 4000 ≤ other ∧ other ≤ 6000 then
      (({ s with phys := p }).stick Reg.PWR_STATUS (3 + b2n connector)).raise .feedLow ⟨9, b2n connector⟩ 0
    else s)

/-- RAIL_FAULT (R487): a second-stage rail (1 VDD_ARR, 2 VDD_LOGIC, 3 VDD_SHELL, 4 to 11 stacks, 12 to 35 ports) more
than 5 % off for 10 us; VBUS, rail 0, is the first stage's. -/
def execRailFault (rail : Fin 36) (s : State) : Out :=
  .next (if rail.val = 0 then s else s.raise .railFault ⟨9, rail.val⟩ 0)

/-! ### Core-die thermal states (R493 to R496) -/

/-- Exit threshold of a state (Tables 11.7 and 15.5). -/
def State.exitBelow (s : State) (t : Therm) : Nat :=
  match t with
  | .throttle => s.threshold 97
  | .warning => s.threshold 92
  | _ => 0

/-- The state that a sample's temperature enters, if any. -/
def State.entryState (s : State) (temp : Nat) : Therm :=
  if s.threshold 105 ≤ temp then .critical else if s.threshold 100 ≤ temp then .throttle
  else if s.threshold 95 ≤ temp then .warning else .normal

/-- The hotter of two states. -/
def Therm.max (a b : Therm) : Therm := if a.code < b.code then b else a

/-- The state one step down (R351). -/
def Therm.down : Therm → Therm
  | .throttle => .warning
  | .warning => .normal
  | t => t

/-- The core die enters a state: its actions (Table 15.5, R494). -/
def State.dieEnter (s : State) (t : Therm) : State :=
  match t with
  | .warning =>
    let s1 := (s.stick Reg.THM_STATUS 0).bump Reg.THM_CNT_WARN 1
    if s1.regBit Reg.THM_CFG 0 then s1.notifyRas else s1
  | .throttle =>
    let s1 := (s.stick Reg.THM_STATUS 1).stick Reg.PWR_STATUS 5
    { s1 with frm := { s1.frm with throttled := if s1.frm.throttled.contains 8 then s1.frm.throttled
                                                else s1.frm.throttled ++ [8] } }
  | .critical => ({ s with phys := { s.phys with coolDie := true, rails := false } }).raise .dieCritical ⟨9, 0⟩ 0
  | .normal => s

/-- The die in a new state after a sample: entry actions where it is hotter than before, and the count of samples below
the exit threshold (R351), which stays 0 while a sensor is failed (R496). -/
def State.dieTo (s : State) (t : Therm) (temp : Nat) (held : Bool) : State :=
  let was := s.phys.die
  let b := if held then 0 else if decide (temp < s.exitBelow t) then (if t = was then s.phys.dieBelow + 1 else 1) else 0
  let s1 := { s with phys := { s.phys with die := t, dieBelow := b } }
  if was.code < t.code then s1.dieEnter t else s1

/-- DIE_SAMPLE (R493, R496): the readings of the sensors that report; the highest is taken. -/
def execDieSample (readings : List (Fin 64 × BitVec 8)) (s : State) : Out :=
  let sens := readings.foldl (fun t r => tset t r.1.val r.2.toNat) s.phys.sensors
  let miss := readings.foldl (fun t r => tset t r.1.val 0) s.phys.missed
  let hot := readings.foldl (fun (m : Nat × Nat) r => if m.1 < r.2.toNat then (r.2.toNat, r.1.val) else m) (0, 0)
  let held := miss.any (fun e => e.2 != 0)
  let s1 := { s with phys := { s.phys with
    sensors := sens, missed := miss, dieTemp := hot.1, dieHottest := hot.2, diePeak := Nat.max s.phys.diePeak hot.1 } }
  .next (if readings.isEmpty then s
    else s1.dieTo (s.phys.die.max ((s.entryState hot.1).max (if held then .throttle else .normal))) hot.1 held)

/-- DIE_STATE_EXIT (R351, R493): 65 consecutive samples below the exit threshold step the die down one state; the
sample that made the step counts for the next, and a step down from HOT enters WARNING. -/
def execDieStateExit (s : State) : Out :=
  let t := s.phys.die
  .next (if (t = .warning ∨ t = .throttle) ∧ 65 ≤ s.phys.dieBelow then
      let s1 := { s with phys := { s.phys with
        die := t.down, dieBelow := if s.phys.dieTemp < s.exitBelow t.down then 1 else 0 } }
      (s1.dieEnter t.down).noteCooled 8 t
    else s)

/-- DIE_SENSOR_FAIL (R496): a sensor that missed four samples is marked failed and holds the die at least in HOT. -/
def execDieSensorFail (sensor : Fin 64) (s : State) : Out :=
  let s1 := { s with phys := { s.phys with missed := tset s.phys.missed sensor.val 1, dieBelow := 0 } }
  let s2 := (s1.stick Reg.THM_STATUS 2).raise .sensorFail ⟨7, sensor.val⟩ 0
  .next (if tget 0 s.phys.missed sensor.val = 1 then s
    else if s.phys.die.code < Therm.throttle.code then s2.dieTo .throttle s.phys.dieTemp true else s2)

/-- ANALOGUE_TRIP (R495): the core-die rails are removed; the die has failed critical, and stage 0 of the start that
follows waits for every sensor (log entry 17). -/
def execAnalogueTrip (sensor : Fin 64) (s : State) : Out :=
  let s1 := { s with phys := { s.phys with dieHottest := sensor.val, die := .critical, dieBelow := 0 } }
  .next (if s.phys.die = .critical then s else s1.dieEnter .critical)

/-! ### The work window's end (R54, R489) -/

/-- End of the work window in rc after the tick: a stretch lengthens the guard band alone (R38, R74); a double-frame pair is
one frame of twice the length (R262). -/
def State.workEnd (s : State) : Nat :=
  let w := 2 ^ s.frm.lenExp - s.frm.guard * 2 ^ s.frm.lenExp / 64
  if s.frm.double then 2 * w - s.frm.pairBase else w

/-- Guard-band use of this frame, under the first cause attributed to it (R54). -/
def State.useGuard (s : State) (c : GuardCause) : State :=
  { s with frm := { s.frm with
      guardUsed := true,
      guardCause := match s.frm.guardCause with
        | some x => some x
        | none => some c } }

/-- A unit that still runs after the work window uses the guard band: thermal reserve while a stack is at throttle, a
replay's own cause where it is a replay, else no attributed cause. -/
def State.runningUse (s : State) : State :=
  if s.frm.slots.any (fun r => decide (r.phase = .running) && r.replay) then s.useGuard .replay
  else if s.anySlotRunning then
    if (List.range 8).any (fun i => decide ((s.stack i).state = .throttle)) then s.useGuard .thermal
    else if (List.range 24).any (fun n => decide ((s.port n).phase = .swapping)) || s.frm.retried then s.useGuard .lane
    else s.useGuard .other
  else s

/-- Time passes to phase `n` of the frame, if that lies ahead: rc, and the rc idled under the power guard (R489). -/
def State.advance (s : State) (n : Nat) : State :=
  let d := n - s.frm.phase
  let s1 := { s with rc := s.rc + d, frm := { s.frm with phase := s.frm.phase + d } }
  if s.phys.idling then s1.bump Reg.PWR_CNT_IDLE_RC d else s1

/-- WORK_WINDOW_END (R54, R489): guard-band use begins where a unit still runs; a rolling average above the guard limit
idles the device for the rest of the guard band. -/
def execWorkWindowEnd (s : State) : Out :=
  let s1 := (s.advance s.workEnd).runningUse
  .next (if !s.frm.ticking || (s.frm.double && s.frm.pairBase == 0) then s
    else if s1.guardLimit * 10000000 < s1.phys.sum then
      (({ s1 with phys := { s1.phys with idling := true } }).stick Reg.PWR_STATUS 0).useGuard .power
    else s1)

/-! ### 0x0Axx commands (Table 15.8) -/

def clkCounters : List Nat := [Reg.CLK_CNT_WINDOW_FAIL, Reg.CLK_CNT_MUX_HANG, Reg.CLK_CNT_GATE_REFUSED]
def pwrCounters : List Nat := [Reg.PWR_CNT_IDLE_RC, Reg.PWR_CNT_FAST_HOLD, Reg.PWR_CNT_OVER_BUDGET]
def thmCounters : List Nat := [Reg.THM_CNT_HOT_FR, Reg.THM_CNT_WARN]

/-- Sensor readings, 0xFF for failed. -/
def State.sensorBytes (s : State) : List Byte :=
  (List.range 64).map (fun i => if tget 0 s.phys.missed i = 1 then 0xFF else BitVec.ofNat 8 (tget 0 s.phys.sensors i))

/-- `n` free 16-bit values: readings that no sample of the spec supplies. -/
def State.freshWords (s : State) : Nat → List Byte × State
  | 0 => ([], s)
  | n + 1 =>
    let f := s.fresh
    let r := f.2.freshWords n
    (toLe 2 f.1.toNat ++ r.1, r.2)

/-- TELEMETRY_READ (R500). The rail readings are measurements that no row supplies: free values (log entry 18). -/
def execTelemetryRead (m : BitVec 6) (s : State) : Out :=
  .next (s.welfy 0x0A01 m fun ps s =>
    let k := u8At ps 0 % 4
    let clear := bit (u8At ps 0) 7
    if k = 3 ∨ (clear ∧ k ≠ 0) then s.bad 0
    else if k = 0 then
      let r := s.countersReply (clkCounters ++ pwrCounters ++ thmCounters) clear
      if clear then { r with st := { r.st with phys := { r.st.phys with diePeak := r.st.phys.dieTemp } } } else r
    else if k = 1 then s.ok s.sensorBytes
    else let f := s.freshWords 72; f.2.ok f.1)

/-- POWER_QUERY (R500): input energy in mJ from the 1 us samples, of 0.1 nJ units. -/
def execPowerQuery (m : BitVec 6) (s : State) : Out :=
  .next (s.welfy 0x0A02 m fun _ s =>
    s.ok (s.regBytes [Reg.PWR_AVG_W, Reg.PWR_IN0, Reg.PWR_IN1, Reg.PWR_LIMIT_W] ++ toLe 8 (s.phys.energy / 10000000)))

/-- DIE_THERMAL_QUERY (R500). -/
def execDieThermalQuery (m : BitVec 6) (s : State) : Out :=
  .next (s.welfy 0x0A03 m fun _ s => s.ok (toLe 4 s.thmDie.toNat ++ s.sensorBytes))

/-- CLOCK_QUERY (R500). -/
def execClockQuery (m : BitVec 6) (s : State) : Out :=
  .next (s.welfy 0x0A04 m fun ps s =>
    let d := u8At ps 0
    if 36 < d then s.bad 0
    else s.ok (toLe 4 (s.clkDomain d).toNat ++ toLe 4 (s.domain d).count ++ toLe 4 (expectedCount s.lockMultiple d)))

/-- The energy model of an aperture (Table 15.6) in the units of Table 15.8. -/
def energyModel (a : Nat) : List Nat :=
  (if a = 36 then [460000, 298, 596, 2384, 1600] else if a = 32 then [435000, 266, 532, 2128, 1400]
   else [405000, 229, 458, 1832, 1200]) ++ [900, 3200, 15300, 9400, 500, 61145]

/-- ENERGY_MODEL_READ (R498). -/
def execEnergyModelRead (m : BitVec 6) (s : State) : Out :=
  .next (s.welfy 0x0A05 m fun ps s =>
    let a := u8At ps 0
    if a ≠ 36 ∧ a ≠ 32 ∧ a ≠ 26 then s.bad 0 else s.ok ((energyModel a).flatMap (toLe 4)))

/-- POWER_GUARD_CONFIG (R499): PWR_CFG staged under R59. -/
def execPowerGuardConfig (m : BitVec 6) (s : State) : Out :=
  .next (s.welfy 0x0A06 m fun ps s =>
    let l := u8At ps 0
    let h := u8At ps 1
    if l < 50 ∨ 100 < l then s.bad 0
    else if h < 1 ∨ 8 < h then s.bad 1
    else
      let s1 := s.stage Reg.PWR_CFG 0xF7F (BitVec.ofNat 32 (l + h * 256))
      s1.ok (toLe 4 (s1.stagedReg Reg.PWR_CFG).toNat))

end Sys2Proof.Machine
end

