-- ==== Sys2Proof/Machine/Link.lean ====
section
/-! DEFINITION. Optical ports and the Dreska link layer (R359 to R373, R380, R381): ports, lanes and lasers, link retry, and
receiving up to the epoch rule. -/

namespace Sys2Proof.Machine

/-! ### Receiving encrypted packets (R380 to R382) -/

/-- The payload of a received packet in clear: opened under the entry that names SRC, or, for one frame after a change,
under the entry before it (R400); none where no entry matches or the tag fails. -/
def State.openPacket (s : State) (p : Packet) (plane : Nat) : Option Packet :=
  let ctr := leNat (slice p.trailer 0 8)
  let try' := fun (t : Tab (Option KeyEntry)) => match keyFor t p.src.toNat with
    | some (_, k) => (gcmOpen (s.handleKey k.handle) (packetIv p plane ctr) (headBytes p) p.payload
        (slice p.trailer 8 16)).map (fun b => { p with payload := b, trailer := [] })
    | none => none
  match try' s.lnk.keys with
  | some q => some q
  | none => try' s.lnk.keysOld

/-- Encryption is required for a source on a plane (R382). -/
def State.encRequired (s : State) (src plane : Nat) : Bool :=
  s.regBit Reg.LNK_CFG 0 || (match keyFor s.lnk.keys src with
    | some (_, k) => k.required && k.planes.getLsbD plane
    | none => false)

/-! ### Link retry (R368) -/

/-- LINK_CTL sent: ACK or NAK of a sequence number. It has no place in the retry buffer. -/
def State.linkReply (s : State) (n seq : Nat) (nak : Bool) : State :=
  let p := s.mkPacket tyLinkCtl 0 0 0 0 seq (b2n nak) []
  s.emit n { p with ecrc := packetCrc p }

/-- Entries of the retry buffer resent (R368); the wait for an acknowledgement begins anew, and the frame's use of its guard
band may be a link retry's (Table 2.6). -/
def State.resend (s : State) (n : Nat) (es : List (Nat × Packet × Packet)) : State :=
  if es.isEmpty then s
  else
    let s1 := (es.foldl (fun (s : State) e => s.emit n e.2.1) s).bump Reg.LNK_CNT_RETRY es.length
    { s1.putPort n { s1.port n with ackRc := s.rc } with frm := { s1.frm with retried := true } }

/-- Entries of a retry buffer before `seq`, and from `seq` on. -/
def splitRetry (seq : Nat) : List (Nat × Packet × Packet) → List (Nat × Packet × Packet) × List (Nat × Packet × Packet)
  | [] => ([], [])
  | e :: es => if e.1 = seq then ([], e :: es) else let r := splitRetry seq es; (e :: r.1, r.2)

/-- LINK_CTL (R368): an ACK frees the entries up to its sequence; a NAK frees those before its sequence and resends from
it on. A sequence that the buffer does not hold frees nothing, but for a NAK of the next one to be sent. -/
def State.linkCtl (s : State) (n : Nat) (p : Packet) : State :=
  let q := s.port n
  let seq := p.addr.toNat % 4096
  if p.aux.getLsbD 0 then
    let r := splitRetry seq q.retry
    if r.2.isEmpty && seq != q.txNext then s
    else ((s.putPort n { q with retry := r.2 }).resend n r.2).drainWaiting n
  else if q.retry.any (fun e => e.1 == seq) then
    (s.putPort n { q with retry := (splitRetry seq q.retry).2.drop 1, ackRc := s.rc }).drainWaiting n
  else s

/-- A row's packet can be taken: the port is UP, and the packet has the row's TYPE or one that is not defined, which R366
drops. A packet of another row's TYPE is not this row's and changes nothing. -/
def State.rowTakes (s : State) (n ty : Nat) (p : Packet) : Bool :=
  decide ((s.port n).phase = .up) && (p.type.toNat == ty || !typeDefined p.type.toNat)

/-- LINK_CTL row: accepted whatever its epoch (R371); one that fails a check is dropped and counted. -/
def execLinkCtl (port : Fin 24) (p : Packet) (s : State) : Out :=
  .next (if !s.rowTakes port.val tyLinkCtl p then s
    else if p.lcrcOk && p.ecrc == packetCrc p && packetFormed p then s.linkCtl port.val p
    else s.bump Reg.LNK_CNT_CRC_DROP 1)

/-- LINK_RETRY_TIMEOUT (R368): no acknowledgement within 2 us (200 rc); the sender resends. -/
def execLinkRetryTimeout (port : Fin 24) (s : State) : Out :=
  let q := s.port port.val
  .next (if decide (q.phase = .up) && decide (q.ackRc + 200 ≤ s.rc) then s.resend port.val q.retry else s)

/-! ### Receiving -/

/-- A dropped packet of R71: counted and flagged. -/
def State.epochDrop (s : State) (n : Nat) : State :=
  if n = 0 then s else (s.bump Reg.FRM_EPOCH_DROP n).stick Reg.FRM_STATUS 4

/-- Epoch `a` is newer than epoch `b` (modular, chapter 2). -/
def newerEpoch (a b : BitVec 16) : Bool := let d := (a - b).toNat; decide (1 ≤ d) && decide (d ≤ 32767)

/-- ARM_MISS reported for an epoch that this device has not armed (R70). -/
def State.armMiss (s : State) (seen : BitVec 16) : State :=
  (s.frameEvent 2).say (.armMiss seen s.frm.epoch)

/-- The hold buffer of a port. -/
def State.holdOf (s : State) (n : Nat) : List (Nat × Packet) := tget [] s.frm.hold n

/-- The device has armed an epoch: one still waiting for its tick, or one whose switch failed there (R67, R70). -/
def State.knowsEpoch (s : State) (e : BitVec 16) : Bool :=
  s.frm.armed.any (fun a => a.epoch == e) || (s.frm.halted && s.frm.retained.any (fun r => r.epoch == e))

/-- A newer-epoch packet: held, or dropped where the port's buffer of 256 is full, with an ARM_MISS report where its epoch is
not armed (R70, R71). An entry notes the frames it has been held. -/
def State.holdPacket (s : State) (n : Nat) (p : Packet) : State :=
  let s1 := if 256 ≤ (s.holdOf n).length then s.epochDrop 1
    else { s with frm := { s.frm with hold := tset s.frm.hold n (s.holdOf n ++ [(0, p)]) } }
  if s.knowsEpoch p.epoch then s1 else s1.armMiss p.epoch

/-- The epoch rule of R71 for a packet that has passed the link. -/
def State.admitPacket (s : State) (n : Nat) (p : Packet) (serve : State → State) : State :=
  let e := p.epoch
  if s.frm.rolledBack = some e then s.epochDrop 1
  else if e = s.frm.epoch then serve s
  else if newerEpoch e s.frm.epoch then s.holdPacket n p
  else if s.frm.prevEpoch = some e ∧ s.frm.framesSinceSwitch = 0 then serve s
  else s.epochDrop 1

/-- A packet dropped for its encryption (R381, R382). -/
def State.encDrop (s : State) : State := (s.bump Reg.LNK_CNT_ENC_DROP 1).stick Reg.LNK_STATUS 6

/-- Decryption and the requirement of R382; then `k` on the packet in clear. -/
def State.decrypt (s : State) (n : Nat) (p : Packet) (k : Packet → State → State) : State :=
  if packetEnc p then
    match s.openPacket p n with
    | some q => k q s
    | none => s.encDrop
  else if s.encRequired p.src.toNat n then s.encDrop else k p s

/-- The link's receiver (R366 to R368): a failed check is counted and answered with a NAK; a gap with a NAK; a repeated
packet is acknowledged again; the next one is acknowledged and passed on, unless R366 drops it. -/
def State.linkReceive (s : State) (n : Nat) (p : Packet) (k : State → State) : State :=
  let q := s.port n
  let seq := p.seq.toNat
  if !(p.lcrcOk && p.ecrc == packetCrc p) then (s.bump Reg.LNK_CNT_CRC_DROP 1).linkReply n q.rxNext true
  else if seq = q.rxNext then
    let s1 := (s.putPort n { q with rxNext := (q.rxNext + 1) % 4096 }).linkReply n seq false
    if packetFormed p then k s1 else s1.bump Reg.LNK_CNT_CRC_DROP 1
  else if (q.rxNext + 4096 - seq) % 4096 ≤ 2048 then s.linkReply n ((q.rxNext + 4095) % 4096) false
  else s.linkReply n q.rxNext true

/-- A packet of TYPE `ty` on port `n`, up to its service: the port must be UP, the link must accept it, the device must
have a station number, and encryption and epoch must let it in. -/
def State.receive (s : State) (n ty : Nat) (p : Packet) (serve : Packet → State → State) : State :=
  if !s.rowTakes n ty p then s
  else s.linkReceive n p (fun s =>
    if s.lnk.station.isNone then s
    else s.decrypt n p (fun p s => s.admitPacket n p (fun s => serve p s)))

/-- A packet with a header and the payload given. -/
def carrying (h : Packet) (payload : List Byte) : Packet := { h with payload := payload }

/-- A management message of a row on a port: the link must accept its packet, which must carry the message's code; MGMT packets
are never encrypted and are taken whatever their EPOCH (R371, R381). One of another code changes nothing more (log entry 65). -/
def State.mgmtReceive (s : State) (n code : Nat) (p : Packet) (serve : State → State) : State :=
  if !s.rowTakes n tyMgmt p then s
  else s.linkReceive n p (fun s => if p.tag.toNat = code then serve s else s)

/-- From a station that is not the fabric manager's, once that is assigned, the messages that Table 12.6 keeps to it are
dropped and counted. -/
def State.fromManager (s : State) (src : Nat) (k : State → State) : State :=
  if s.lnk.manager.isNone || s.lnk.manager == some src then k s else s.bump Reg.LNK_CNT_DENIED 1

/-! ### Lanes and lasers (R361 to R364) -/

/-- Corrected symbols above 2^-12 of a lane's symbols in a window of 2^14 rc: 3,481,600 ten-bit symbols at the line rate
of Table 12.1 (DEDUCED, log entry 20). -/
def laneBad (corrected : Nat) : Bool := decide (3481600 < corrected * 4096)

/-- Index of the largest number, the lowest on a tie. -/
def argMax (l : List Nat) : Nat :=
  (List.range l.length).foldl (fun b i => if l.getD b 0 < l.getD i 0 then i else b) 0

/-- Unacknowledged and waiting packets of a port that went DOWN, sent again on the planes that are left. -/
def State.respray (s : State) (n : Nat) : State :=
  let q := s.port n
  (s.putPort n { q with retry := [], waiting := [] }).sendPackets (q.retry.map (fun e => e.2.2) ++ q.waiting)

/-- A fill from a partner that can no longer be read ends with FILL_ABORTED (R536). -/
def State.abortFill (s : State) : State :=
  match s.ras.mirror.phase with
  | .filling =>
    let s1 := ({ s with ras := { s.ras with mirror := { s.ras.mirror with phase := .unpaired } } }).stick Reg.RAS_STATUS 8
    match s1.host.records.find? (fun e => e.2.running && (match e.2.op with
      | .mirrorFill _ _ => true
      | _ => false)) with
    | some e => s1.finishRecord e.1 .fillAborted
    | none => s1
  | _ => s

/-- A station lost, and with it a fill from it. -/
def State.peerLost (s : State) (dst : Nat) : State :=
  let s1 := s.stationLost dst
  if s1.ras.mirror.partner = dst then s1.abortFill else s1

/-- The destinations whose spray set was not empty in `before` and is empty now are lost (R373). -/
def State.lostSince (s before : State) : State :=
  ((s.lnk.spray.map (fun e => e.1)).filter (fun d => (s.spraySet d).isEmpty && !(before.spraySet d).isEmpty)).foldl
    (fun (s : State) d => s.peerLost d) s

/-- A port leaves the UP state for a swap or changeover: it carries no packets, and the spray sets lose it (R361, R362). -/
def State.portSwaps (s : State) (n : Nat) (q : Port) : State := (s.putPort n { q with phase := .swapping }).lostSince s

/-- A port goes DOWN: reported and recorded in the boot journal, its packets resent elsewhere (R363). -/
def State.portGone (s : State) (n cause : Nat) (ph : PortPhase) : State :=
  ((s.portDown n cause ph).respray n).lostSince s

/-- Lanes of a port that a swap can replace: as many as spare lanes are free. -/
def Port.swappable (q : Port) (lanes : List Nat) : List Nat :=
  (lanes.filter (fun l => (q.carries l).isSome && !q.replacing.contains l)).take (q.freeSpares.length - q.replacing.length)

/-- FEC_WINDOW (R361, R363): the window's counts; a third failed lane takes the port DOWN; where LANE_AUTO is set, a swap of the
failing lanes for the spare lanes that are free begins, or takes them in. -/
def execFecWindow (port : Fin 24) (symbols : List (BitVec 32)) (uncorrectable : BitVec 18) (s : State) : Out :=
  let n := port.val
  let q := s.port n
  let syms := (List.range 18).map (fun i => (symbols.getD i 0).toNat)
  let bad := (List.range 18).filter (fun i => (q.carries i).isSome && (laneBad (syms.getD i 0) || uncorrectable.getLsbD i))
  let unc := ((List.range 18).filter (fun i => uncorrectable.getLsbD i)).length
  let q1 := { q with symbols := syms, worst := argMax syms }
  let q2 := bad.foldl Port.fail q1
  let swap := q2.swappable bad
  let q3 := { q2 with replacing := q2.replacing ++ swap }
  .next ((if !s.portLive n then s.putPort n q1
    else if 3 ≤ q2.failed.length then (s.putPort n q2).portGone n 1 .down
    else if !s.regBit Reg.LNK_CFG 1 || swap.isEmpty then s.putPort n q2
    else s.portSwaps n q3).bump Reg.LNK_CNT_FEC_UNCORR unc)

/-- The end of a swap or changeover, once no lane and no laser is left to replace: the port is UP again and resends its retry
buffer (R361, R362). -/
def State.swapEnd (s : State) (n : Nat) (q : Port) : State :=
  if q.replacing.isEmpty && !q.changing then ((s.putPort n { q with phase := .up }).resend n q.retry).drainWaiting n
  else s.putPort n q

/-- LANE_SWAP (R361): at both ends of the hop a spare lane replaces a lane of those that the swap of a SWAPPING port replaces. -/
def execLaneSwap (port : Fin 24) (lane : BitVec 5) (s : State) : Out :=
  let n := port.val
  let q := s.port n
  let l := lane.toNat
  .next (if decide (q.phase = .swapping) && q.replacing.contains l then
      match q.takeSpare l with
      | some r => ((s.swapEnd n { r with replacing := q.replacing.filter (fun x => x != l) }).bump
          Reg.LNK_CNT_LANE_SWAP 1).stick Reg.LNK_STATUS 0
      | none => s.portGone n 1 .down
    else s)

/-- A changeover to the other laser source begins (R362). -/
def State.changeLaser (s : State) (n : Nat) : State :=
  ((s.portSwaps n { s.port n with changing := true, spareLaser := !(s.port n).spareLaser }).bump Reg.LNK_CNT_LASER_SWAP
    1).stick Reg.LNK_STATUS 1

/-- LASER_FAIL (R362, R363, Table 16.3): a failing primary is replaced by the spare where LASER_AUTO is set, with a
deferred error; a failing spare takes the port DOWN. -/
def execLaserFail (port : Fin 24) (spare : Bool) (s : State) : Out :=
  let n := port.val
  let q := s.port n
  .next (if !s.portLive n then s
    else if spare then s.portGone n 2 .down
    else if q.spareLaser || !s.regBit Reg.LNK_CFG 2 then s
    else (s.changeLaser n).raise .portEvent ⟨6, n⟩ 0)

/-- LASER_CHANGEOVER_END (R362). -/
def execLaserChangeoverEnd (port : Fin 24) (s : State) : Out :=
  let n := port.val
  let q := s.port n
  .next (if decide (q.phase = .swapping) && q.changing then s.swapEnd n { q with changing := false } else s)

/-- PORT_TRAINING_DONE (R363): UP, or a failed training; the third in a row takes the port DOWN. -/
def execPortTrainingDone (port : Fin 24) (ok : Bool) (s : State) : Out :=
  let n := port.val
  let q := s.port n
  .next (match q.phase with
    | .training =>
      if ok then (s.putPort n { q with phase := .up, trainFails := 0 }).portEvent n 3
      else if 3 ≤ q.trainFails + 1 then (s.putPort n { q with trainFails := q.trainFails + 1 }).portGone n 3 .down
      else s.putPort n { q with trainFails := q.trainFails + 1 }
    | _ => s)

/-! ### Port and key commands (Table 12.13) -/

/-- STATION_QUERY (R374). -/
def execStationQuery (m : BitVec 6) (s : State) : Out :=
  .next (s.welfy 0x0501 m fun _ s => s.ok (s.regBytes [Reg.LNK_STATION, Reg.LNK_PORTS_LIVE] ++ s.identity))

/-- PEER_MAP_LOAD (R377): in force at the next tick. -/
def execPeerMapLoad (m : BitVec 6) (s : State) : Out :=
  .next (s.welfy 0x0502 m fun ps s =>
    let src := u64At ps 0
    if !s.paramOk src 8192 false then s.no .addrInvalid
    else
      let b := BitVec.ofNat 65536 (leNat (s.load src 8192))
      ({ s with lnk := { s.lnk with peersNext := some b } }).ok
        (toLe 4 ((List.range 65536).filter (fun i => b.getLsbD i)).length))

/-- PORT_QUERY (R361). -/
def execPortQuery (m : BitVec 6) (s : State) : Out :=
  .next (s.welfy 0x0503 m fun ps s =>
    let n := u8At ps 0
    if 23 < n then s.bad 0
    else
      let q := s.port n
      s.ok (toLe 4 q.stateWord.toNat ++ toLe 4 q.laneMap.toNat
        ++ (List.range 18).flatMap (fun i => toLe 4 (q.symbols.getD i 0))))

/-- The actions of PORT_CONTROL: 0 disable, 1 enable, 2 swap a lane, 3 change the laser. Disabling is refused where fewer
than 22 ports would be left live, actions 2 and 3 while the port is not UP (R399). -/
def State.portAction (s : State) (n act lane : Nat) : Reply :=
  let q := s.port n
  let up := decide (q.phase = .up)
  match act with
  | 0 =>
    if s.livePorts - b2n (s.portLive n) < 22 then s.no .runLock
    else if q.phase = .disabled then s.ok []
    else (s.portGone n 4 .disabled).ok []
  | 1 =>
    if q.phase = .down ∨ q.phase = .disabled then
      ((s.putPort n { q with phase := .training, trainFails := 0 }).portEvent n 4).ok []
    else s.ok []
  | 2 =>
    if !up then s.no .runLock
    else if 17 < lane ∨ (q.carries lane).isNone then s.bad 2
    else if (q.takeSpare lane).isNone then s.no .noSpare
    else (s.portSwaps n { q with replacing := [lane] }).ok []
  | _ => if !up then s.no .runLock else (s.changeLaser n).ok []

/-- PORT_CONTROL (R399). -/
def execPortControl (m : BitVec 6) (s : State) : Out :=
  .next (s.welfy 0x0504 m fun ps s =>
    if 23 < u8At ps 0 then s.bad 0
    else if 3 < u8At ps 1 then s.bad 1
    else if u8At ps 1 = 2 ∧ 17 < u8At ps 2 then s.bad 2
    else s.portAction (u8At ps 0) (u8At ps 1) (u8At ps 2))

/-- The key table as it will be at the next tick. -/
def State.keysStaged (s : State) : Tab (Option KeyEntry) :=
  s.lnk.keysNext.foldl (fun t e => tset t e.1 e.2) s.lnk.keys

/-- DRESKA_KEY_SET (R380, R400). -/
def execDreskaKeySet (m : BitVec 6) (s : State) : Out :=
  .next (s.welfy 0x0505 m fun ps s =>
    let i := u16At ps 0
    let peer := u16At ps 2
    let h := u64At ps 8
    let others := s.keysStaged.filterMap (fun e => if e.1 = i then none else e.2)
    if 1023 < i then s.bad 0
    else if others.any (fun k => k.peer == peer) then s.bad 2
    else if others.any (fun k => k.handle == h) then s.bad 8
    else if !s.sec.handles.any (fun e => e.1 == h) then s.no .keyUnknown
    else
      let k : KeyEntry :=
        { peer := peer, planes := BitVec.ofNat 24 (leNat (slice ps 4 3)), required := bit (u8At ps 7) 0, handle := h,
          counters := [] }
      ({ s with lnk := { s.lnk with keysNext := s.lnk.keysNext ++ [(i, some k)] } }).ok [])

/-- DRESKA_KEY_CLEAR (R400). -/
def execDreskaKeyClear (m : BitVec 6) (s : State) : Out :=
  .next (s.welfy 0x0506 m fun ps s =>
    if 1023 < u16At ps 0 then s.bad 0
    else ({ s with lnk := { s.lnk with keysNext := s.lnk.keysNext ++ [(u16At ps 0, none)] } }).ok [])

/-- Two entries under one key. -/
def sameKey (a b : Option KeyEntry) : Bool := a.map (fun k => k.handle) == b.map (fun k => k.handle)

/-- Staged key changes at a tick: the entries they replace stay valid for receiving for one frame; a counter restarts
when the entry's key changes (R380, R400). -/
def State.keysTick (s : State) : State :=
  let changed := s.lnk.keysNext.map (fun e => (e.1, tget none s.lnk.keys e.1))
  let keep := fun (t : Tab (Option KeyEntry)) (e : Nat × Option KeyEntry) =>
    let old := tget none t e.1
    tset t e.1 (if sameKey old e.2 then
        (match old, e.2 with
          | some o, some k => some { k with counters := o.counters }
          | _, x => x)
      else e.2)
  { s with lnk := { s.lnk with
      keys := s.lnk.keysNext.foldl keep s.lnk.keys, keysNext := [],
      keysOld := changed.foldl (fun t e => tset t e.1 e.2) [] } }

/-- A peer map loaded since the last tick comes into force (R377). -/
def State.peersTick (s : State) : State :=
  match s.lnk.peersNext with
  | some b => { s with lnk := { s.lnk with peers := b, peersNext := none } }
  | none => s

def lnkCounters : List Nat :=
  [Reg.LNK_CNT_RETRY, Reg.LNK_CNT_LANE_SWAP, Reg.LNK_CNT_LASER_SWAP, Reg.LNK_CNT_PORT_DOWN, Reg.LNK_CNT_FEC_UNCORR,
   Reg.LNK_CNT_CRC_DROP, Reg.LNK_CNT_E2E_RETX, Reg.LNK_CNT_UNREACH, Reg.LNK_CNT_DENIED, Reg.LNK_CNT_ENC_DROP]

/-- LINK_COUNTERS. -/
def execLinkCounters (m : BitVec 6) (s : State) : Out :=
  .next (s.welfy 0x0507 m fun ps s => s.countersReply lnkCounters (bit (u8At ps 0) 0))

def colCounters : List Nat :=
  [Reg.COL_CNT_OPS, Reg.COL_CNT_TX_MIB, Reg.COL_CNT_RX_MIB, Reg.COL_CNT_DUP, Reg.COL_CNT_INSTANCE_DROP,
   Reg.COL_CNT_OVERRUN, Reg.COL_CNT_PEER_LOST]

/-- COLL_COUNTERS. -/
def execCollCounters (m : BitVec 6) (s : State) : Out :=
  .next (s.welfy 0x0508 m fun ps s => s.countersReply colCounters (bit (u8At ps 0) 0))

/-- REMOTE_PROBE (R401): a probe sent to the station on every plane whose port is UP, and the round-trip times found; a plane
whose port is not UP answers none. The environment gives the times of the answers, of which the spec names no row. -/
def execRemoteProbe (m : BitVec 6) (times : List (BitVec 16)) (s : State) : Out :=
  .next (s.welfy 0x0509 m fun ps s =>
    let up := fun n => decide ((s.port n).phase = .up)
    (((List.range 24).filter up).foldl (fun (s : State) n => s.sayOn n (u16At ps 0) (.remoteProbe n (u16At ps 0))) s).ok
      ((List.range 24).flatMap (fun n => toLe 2 (if up n then (times.getD n 0xFFFF).toNat else 0xFFFF))))

end Sys2Proof.Machine
end

