-- ==== Sys2Proof/Machine/Fabric.lean ====
section
/-! DEFINITION. The fabric endpoint's memory traffic (R374 to R379): outstanding transactions, remote requests served
under Table 12.7, completions, resends and unreachable stations, and the enumeration messages. -/

namespace Sys2Proof.Machine

/-! ### Outstanding transactions (R378) -/

/-- A transaction's packet on its way: noted with its plane and the time, and sent on the next plane. -/
def State.sendTrans (s : State) (t : Trans) : State :=
  let plane := (s.nextPlane t.packet.dst.toNat).getD 0
  ({ s with lnk := { s.lnk with trans := s.lnk.trans ++ [{ t with plane := plane, sentRc := s.rc }] } }).sendPacket t.packet

/-- The newest outstanding transaction of the traffic that gives way gives up its place and waits to be sent anew (R277, R518). -/
def State.yieldBackground (s : State) : State :=
  match s.lnk.trans.reverse.find? (fun t => t.owner.yields) with
  | some t => { s with lnk := { s.lnk with trans := s.lnk.trans.erase t, backlog := s.lnk.backlog ++ [t] } }
  | none => s

/-- The power guard holds the off-load traffic while it idles the device (R489). -/
def State.heldBack (s : State) (owner : TransFor) : Bool := s.phys.idling && owner.isOffload

/-- A request: a new transaction number, sent at once, or once an earlier one completes where 65,536 are outstanding, of which none
can give way (R277, R378). -/
def State.request (s : State) (type dst addr aux : Nat) (payload : List Byte) (owner : TransFor) (dest : Option Nat) : State :=
  let tag := s.lnk.nextTag
  let t : Trans :=
    { tag := tag, packet := s.mkPacket type 0 dst 0 tag addr aux payload, plane := 0, sentRc := s.rc, tries := 0,
      owner := owner, dest := dest }
  let s1 := { s with lnk := { s.lnk with nextTag := (tag + 1) % 2 ^ 32 } }
  let s2 := if s1.lnk.trans.length < 65536 ∨ owner.yields then s1 else s1.yieldBackground
  if s2.lnk.trans.length < 65536 ∧ !s2.heldBack owner then s2.sendTrans t
  else { s2 with lnk := { s2.lnk with backlog := s2.lnk.backlog ++ [t] } }

/-- The transaction started next of those that wait: the oldest that gives way to none, or else the oldest that the power guard
does not hold (R277, R369, R489, R518). -/
def State.nextTrans (s : State) : Option Trans :=
  (s.lnk.backlog.find? (fun t => !t.owner.yields)).or (s.lnk.backlog.find? (fun t => !s.heldBack t.owner))

/-- Transactions that wait started while there is room, `n` at most. -/
def State.refill (s : State) : Nat → State
  | 0 => s
  | n + 1 =>
    match s.nextTrans with
    | some t =>
      if s.lnk.trans.length < 65536 then
        (({ s with lnk := { s.lnk with backlog := s.lnk.backlog.erase t } }).sendTrans t).refill n
      else s
    | none => s

/-- A transaction removed, and one of those that wait started in its place. -/
def State.closeTrans (s : State) (tag : Nat) : State :=
  ({ s with lnk := { s.lnk with trans := s.lnk.trans.filter (fun t => t.tag != tag) } }).refill 1

/-- Every transaction of an owner given up. -/
def State.dropTrans (s : State) (owner : TransFor) : State :=
  let keep := fun (l : List Trans) => l.filter (fun t => t.owner != owner)
  let s1 := { s with lnk := { s.lnk with trans := keep s.lnk.trans, backlog := keep s.lnk.backlog } }
  s1.refill s1.lnk.backlog.length

/-- A slot has remote accesses that are not complete (R339). -/
def State.slotWaits (s : State) (ref : SlotRef) : Bool :=
  (s.lnk.trans ++ s.lnk.backlog).any (fun t => t.owner == .slot ref)

/-- Remote writes of a byte range, at most 512 bytes each. -/
def State.remoteWrite (s : State) (owner : TransFor) (dst off : Nat) (bs : List Byte) : State :=
  ((chunks 512 (bs.length / 512 + 1) bs).zip (List.range (bs.length / 512 + 1))).foldl
    (fun (s : State) c => s.request tyWrite dst (off + 512 * c.2) 0 c.1 owner none) s

/-- Bytes written to a device address: stored here, or sent to the station that the address names. -/
def State.putOut (s : State) (owner : TransFor) (addr : Nat) (bs : List Byte) : State :=
  match s.region addr with
  | .remote st off => s.remoteWrite owner st off bs
  | _ => s.store addr bs

/-- Bytes copied from a device address to another: at once from local memory; by read requests of at most 512 bytes from
another station, whose responses are written on. -/
def State.copyBytes (s : State) (owner : TransFor) (src dst n : Nat) : State :=
  match s.region src with
  | .remote st off =>
    (List.range (cdiv n 512)).foldl (fun (s : State) i =>
      s.request tyReadReq st (off + 512 * i) (Nat.min 512 (n - 512 * i)) [] owner (some (dst + 512 * i))) s
  | _ => s.putOut owner dst (s.load src n)

/-! ### Operands and results on other stations (R330, R339) -/

/-- Stores that follow one another joined, so that a run of them travels together. -/
def joinStores : List (Nat × List Byte) → List (Nat × List Byte)
  | [] => []
  | (a, bs) :: ws =>
    match joinStores ws with
    | (b, cs) :: rest => if a + bs.length = b then (a, bs ++ cs) :: rest else (a, bs) :: (b, cs) :: rest
    | [] => [(a, bs)]

/-- Results of a slot stored: at once in this station's memory; to another station in WRITEs, which the slot's end awaits. -/
def State.putsOut (s : State) (ref : Option SlotRef) (ws : List (Nat × List Byte)) : State :=
  let own := match ref with
    | some r => TransFor.slot r
    | none => TransFor.log
  let far := joinStores (ws.filter (fun w => s.isRemote w.1))
  far.foldl (fun (s : State) w => s.putOut own w.1 w.2) (s.stores (ws.filter (fun w => !s.isRemote w.1)))

/-- A slot's READ_REQs for ranges of other stations' memory. -/
def State.fetch (s : State) (ref : SlotRef) (rs : List (Nat × Nat)) : State :=
  let s1 := s.setRun ref (fun x => { x with fetched := x.fetched ++ rs })
  rs.foldl (fun (s : State) a => (List.range (cdiv a.2 512)).foldl (fun (s : State) i =>
    s.request tyReadReq (a.1 / 2 ^ 48 % 2 ^ 16) (a.1 % 2 ^ 48 + 512 * i) (Nat.min 512 (a.2 - 512 * i)) [] (.slot ref) none) s) s1

/-- Work of a slot whose operands are at hand. Those on another station are asked for first, and the operation's row does its work
when it comes again after every response (DESIGN CHOICE, log entry 75). -/
def State.atHand (s : State) (ref : SlotRef) (acc : List (Nat × Nat × Bool)) (work : State → State) : State :=
  let far := (acc.filter (fun a => !a.2.2 && a.2.1 != 0 && s.isRemote a.1)).map (fun a => (a.1, a.2.1))
  let got := ((s.run ref).map (fun r => r.fetched)).getD []
  let new := far.filter (fun a => !got.contains a)
  if far.isEmpty then work s else if !new.isEmpty then s.fetch ref new else if s.slotWaits ref then s else work s

/-- Work of a slot behind its access rules, once its operands are at hand. -/
def State.reach (s : State) (u : UnitId) (ref : SlotRef) (acc : List (Nat × Nat × Bool)) (work : State → State) : State :=
  s.guarded u (some ref) acc (fun s => s.atHand ref acc work)

/-- After an operation's row: where nothing more was asked for and nothing outstanding, its operands are done with. -/
def State.dropFetched (t s : State) (ref : SlotRef) : State :=
  let got := fun (x : State) => ((x.run ref).map (fun r => r.fetched)).getD []
  if (got s).isEmpty || got t != got s || s.slotWaits ref then t else t.setRun ref (fun x => { x with fetched := [] })

/-- An operation of a slot behind its access rules, whose tensor descriptors are those of the slot's start (R96). -/
def State.slotWork (s : State) (u : UnitId) (ref : SlotRef) (acc : List (Nat × Nat × Bool)) (work : State → State) : State :=
  (s.reach u ref acc (fun s => s.inSlot (some ref) work)).dropFetched s ref

/-! ### Serving remote requests (Table 12.7) -/

/-- A response to a request. -/
def State.reply (s : State) (p : Packet) (type flags : Nat) (payload : List Byte) : State :=
  s.sendPacket (s.mkPacket type flags p.src.toNat 0 p.tag.toNat p.addr.toNat p.aux.toNat payload)

/-- An error completion. -/
def State.replyErr (s : State) (p : Packet) (x : Status) : State := s.reply p tyComplErr 0 (toLe 2 x.code)

/-- The local offsets that a request touches lie in local HBM or one core store (R330). -/
def remoteOk (off n : Nat) : Bool :=
  match localRegion off, localRegion (off + (n - 1)) with
  | .hbm _, .hbm _ => true
  | .core c _, .core d _ => c == d
  | _, _ => false

/-- The open windows that a write would enter. -/
def State.windowsHit (s : State) (off n : Nat) : List (Nat × FarWindow) :=
  s.sts.windows.filter (fun w => decide (0 < w.2.size) && overlaps (off, n) (w.2.base, w.2.size))

/-- A write would enter the open Mirror window, which is open to the partner alone (R515). -/
def State.mirrorHit (s : State) (off n : Nat) : Bool :=
  let m := s.ras.mirror
  m.windowOpen && decide (off < m.windowBase % 2 ^ 48 + m.windowSize) && decide (m.windowBase % 2 ^ 48 < off + n)

/-- A local offset as this device's own address. -/
def ownAddr (off : Nat) : Nat := 0xFFFF * 2 ^ 48 + off

/-- A refused request counted and flagged. -/
def State.denied (s : State) : State := s.stick Reg.LNK_STATUS 5

/-- Rows 2 to 4 of Table 12.7: the status of the error completion, if any. Row 1 has been applied on reception. -/
def State.requestCheck (s : State) (p : Packet) (n : Nat) (write mem : Bool) : Option Status :=
  if !s.lnk.peers.getLsbD p.src.toNat then some .accessDenied
  else if mem && !remoteOk p.addr.toNat n then some .addrInvalid
  else if write && s.mirrorHit p.addr.toNat n && s.ras.mirror.partner != p.src.toNat then some .accessDenied
  else if write && (s.windowsHit p.addr.toNat n).any (fun w => w.2.owner != p.src.toNat) then some .accessDenied
  else none

/-- A request checked; `work` serves it. An address refused is recorded as the endpoint's access (R331). -/
def State.serveRequest (s : State) (p : Packet) (n : Nat) (write mem : Bool) (work : State → State) : State :=
  match s.requestCheck p n write mem with
  | some x =>
    let s1 := if !s.lnk.peers.getLsbD p.src.toNat then s.bump Reg.LNK_CNT_DENIED 1 else s
    let s2 := if x = .addrInvalid then s1.noteFault ⟨11, 0⟩ (ownAddr p.addr.toNat) else s1
    s2.denied.replyErr p x
  | none => work s

/-- A write into open windows by their owner marks each as holding data of the attempt. -/
def State.touchWindow (s : State) (off n : Nat) : State :=
  { s with sts := { s.sts with windows :=
      (s.windowsHit off n).foldl (fun t w => tset t w.1 { w.2 with used := true }) s.sts.windows } }

/-- A remote write served. -/
def State.serveWrite (s : State) (p : Packet) : State :=
  s.serveRequest p p.payload.length true true (fun s =>
    ((s.store (ownAddr p.addr.toNat) p.payload).touchWindow p.addr.toNat p.payload.length).reply p tyWriteAck 0 [])

/-- A remote read served; POISON is set where a word is poisoned. -/
def State.serveRead (s : State) (p : Packet) : State :=
  let n := p.aux.toNat % 1024
  s.serveRequest p n false true (fun s =>
    let a := ownAddr p.addr.toNat
    (s.deliverPoison (s.poisonWords a n).length).reply p tyReadResp (2 * b2n (s.poisoned a n)) (s.load a n))

/-- An event counter incremented (R49). It holds 16 bits; the spec does not say what it does past 65,535, and the model
lets it stay there (DESIGN CHOICE, log entry 81). -/
def State.signalCtr (s : State) (i : Nat) : State :=
  { s with frm := { s.frm with events := tset s.frm.events i (Nat.min 0xFFFF (tget 0 s.frm.events i + 1)) } }

/-- A SIGNAL counted at most once per source and queue in a frame; with the filter full it is counted without the check
(R322). -/
def State.countSignal (s : State) (src qid ctr : Nat) : State :=
  if s.frm.signalsSeen.contains (src, qid) then s
  else if 65536 ≤ s.frm.signalsSeen.length then (s.stick Reg.DSP_STATUS 8).signalCtr ctr
  else ({ s with frm := { s.frm with signalsSeen := (src, qid) :: s.frm.signalsSeen } }).signalCtr ctr

/-- A remote signal served. -/
def State.serveSignal (s : State) (p : Packet) : State :=
  s.serveRequest p 0 false false (fun s =>
    (s.countSignal p.src.toNat (bits p.addr.toNat 8 27) (p.addr.toNat % 256)).reply p tyWriteAck 0 [])

/-- WRITE (R376). -/
def execWrite (port : Fin 24) (p : Packet) (s : State) : Out :=
  .next (s.receive port.val tyWrite p (fun q s => s.serveWrite q))

/-- READ_REQ (R376). -/
def execReadReq (port : Fin 24) (p : Packet) (s : State) : Out :=
  .next (s.receive port.val tyReadReq p (fun q s => s.serveRead q))

/-- SIGNAL (R322, R376). -/
def execSignal (port : Fin 24) (p : Packet) (s : State) : Out :=
  .next (s.receive port.val tySignal p (fun q s => s.serveSignal q))

/-! ### Completions (R339, R378, R379) -/

/-- The timeouts counted against a destination and plane end with a completion. -/
def State.clearTimeouts (s : State) (dst plane : Nat) : State :=
  { s with lnk := { s.lnk with timeouts := s.lnk.timeouts.filter (fun t => !(t.1 == dst && t.2.1 == plane)) } }

/-- What this device last saw of another station's memory. -/
def State.see (s : State) (st off : Nat) (bs : List Byte) : State :=
  { s with mem := mwrites s.mem ((st + 1) * 2 ^ 48 + off) bs }

/-- The transaction that a response completes: its number, and the station that it was sent to. -/
def State.completed (s : State) (p : Packet) : Option Trans :=
  match s.transOf p.tag.toNat with
  | some t => if t.packet.dst = p.src then some t else none
  | none => none

/-- A transaction that has failed (R281, R378, R536): its slot's attempt fails; an off-load target is lost; a fill or
Mirror copy ends; the copy of a log entry or an export is not resumed. -/
def State.transFails (s : State) (t : Trans) : State :=
  match t.owner with
  | .slot ref => s.faultRun (some ref)
  | .offload _ => { s with sts := { s.sts with lossSeen := true } }
  | .mirror =>
    let s1 := s.abortFill
    { s1 with ras := { s1.ras with mirror := { s1.ras.mirror with copying := none } } }
  | .log => s

/-- READ_RESP: the data is noted as read and, for a copy, written to where the request wanted it; poison fails the slot (R379). -/
def State.serveReadResp (s : State) (p : Packet) : State :=
  match s.completed p with
  | none => s
  | some t =>
    if t.packet.type.toNat ≠ tyReadReq then s
    else
      let s1 := (s.clearTimeouts t.packet.dst.toNat t.plane).closeTrans t.tag
      if packetPoison p then s1.transFails t
      else
        let s2 := s1.see t.packet.dst.toNat t.packet.addr.toNat p.payload
        match t.dest with
        | some a => s2.putOut t.owner a p.payload
        | none => s2

/-- Local offset, on the partner, of a half of this device's Mirror (Table 16.7). -/
def MirrorState.halfAt (m : MirrorState) (half : Nat) : Nat :=
  m.partnerWindow % 2 ^ 48 + 0x10000 + half * roundUp m.imageBytes 65536

/-- Once every other write of an image is acknowledged, STATE 2 is written (R518). -/
def State.mirrorAcked (s : State) (owner : TransFor) : State :=
  let m := s.ras.mirror
  if owner = .mirror ∧ m.copying = some 0 ∧ !(s.lnk.trans ++ s.lnk.backlog).any (fun t => t.owner == .mirror) then
    let s1 := { s with ras := { s.ras with mirror := { m with copying := some 1 } } }
    s1.remoteWrite .mirror m.partner (m.halfAt (1 - m.ownHalf) + 24) (toLe 4 2)
  else s

/-- WRITE_ACK: a remote write (or signal) is complete (R339). -/
def State.serveWriteAck (s : State) (p : Packet) : State :=
  match s.completed p with
  | none => s
  | some t =>
    let s1 := (s.clearTimeouts t.packet.dst.toNat t.plane).closeTrans t.tag
    if t.packet.type.toNat = tyWrite then
      (s1.see t.packet.dst.toNat t.packet.addr.toNat t.packet.payload).mirrorAcked t.owner
    else if t.packet.type.toNat = tySignal then s1
    else s

/-- A write refused by the peer that holds the off-load target: its window there is closed, and the target is lost (R279, R281). -/
def State.windowClosed (s : State) (t : Trans) (x : Nat) : State :=
  let d := s.sts.desc.getD []
  let base := u64At d 40 % 2 ^ 48
  if t.packet.type.toNat = tyWrite ∧ x = Status.accessDenied.code ∧ u8At d 68 = 1 ∧ u64At d 40 / 2 ^ 48 = t.packet.dst.toNat
      ∧ base ≤ t.packet.addr.toNat ∧ t.packet.addr.toNat < base + u64At d 48 then
    { s with sts := { s.sts with lossSeen := true } }
  else s

/-- COMPLETION_ERR (R379): ADDR_INVALID and ACCESS_DENIED fail the issuing slot without replay and mark the step
uncommittable; any other status, and an access that no slot issued, fails the transaction. -/
def State.serveComplErr (s : State) (p : Packet) : State :=
  match s.completed p with
  | none => s
  | some t =>
    let x := u16At p.payload 0
    let s1 := ((s.clearTimeouts t.packet.dst.toNat t.plane).closeTrans t.tag).windowClosed t x
    if x = Status.addrInvalid.code ∨ x = Status.accessDenied.code then
      match t.owner with
      | .slot ref => (s1.raise .refused (((s.run ref).map (fun r => r.unit)).getD ⟨11, 0⟩) x).failRun (some ref)
      | _ => s1.transFails t
    else s1.transFails t

/-- READ_RESP row. -/
def execReadResp (port : Fin 24) (p : Packet) (s : State) : Out :=
  .next (s.receive port.val tyReadResp p (fun q s => s.serveReadResp q))

/-- WRITE_ACK row. -/
def execWriteAck (port : Fin 24) (p : Packet) (s : State) : Out :=
  .next (s.receive port.val tyWriteAck p (fun q s => s.serveWriteAck q))

/-- COMPLETION_ERR row. -/
def execCompletionErr (port : Fin 24) (p : Packet) (s : State) : Out :=
  .next (s.receive port.val tyComplErr p (fun q s => s.serveComplErr q))

/-! ### Resends and unreachable stations (R373, R378) -/

/-- A destination marked unreachable on a plane from now; with no plane left the station is lost (R373). -/
def State.markUnreach (s : State) (dst plane : Nat) : State :=
  let s1 := { s with lnk := { s.lnk with
    unreach := s.lnk.unreach.filter (fun u => !(u.1 == dst && u.2.1 == plane)) ++ [(dst, plane, s.rc)] } }
  if (s1.spraySet dst).isEmpty && !(s.spraySet dst).isEmpty then s1.peerLost dst else s1

/-- A transaction's packet sent again on the next plane. -/
def State.resendTrans (s : State) (t : Trans) (tries : Nat) : State :=
  let s1 := { s with lnk := { s.lnk with trans := s.lnk.trans.filter (fun x => x.tag != t.tag) } }
  s1.sendTrans { t with tries := tries }

/-- The packet that an UNREACH returns, by its first 32 bytes: TYPE, DST, TAG, ADDR, AUX. -/
def returned (b : List Byte) : Nat × Nat × Nat × Nat × Nat :=
  (u8At b 4, u16At b 8, u32At b 16, leNat (slice b 20 6), u16At b 26)

/-- The packet is the one that an UNREACH returns. -/
def isReturned (r : Nat × Nat × Nat × Nat × Nat) (p : Packet) : Bool :=
  p.type.toNat == r.1 && p.dst.toNat == r.2.1 && p.tag.toNat == r.2.2.1 && p.addr.toNat == r.2.2.2.1
    && p.aux.toNat == r.2.2.2.2

/-- The undelivered packet sent again: a request as its outstanding transaction, collective data, a response, a credit or a
management message as it was sent. -/
def State.resendReturned (s : State) (b : List Byte) : State :=
  let r := returned b
  let req := fun (t : Trans) => t.packet.dst.toNat == r.2.1 && t.packet.type.toNat == r.1
  match (s.transOf r.2.2.1).filter req with
  | some t => s.resendTrans t t.tries
  | none => match (s.col.sent ++ s.lnk.kept.map (fun k => k.2)).find? (isReturned r) with
    | some p => s.sendPacket p
    | none => s

/-- UNREACH (R373): accepted whatever its epoch (R371), once a station number is assigned (R374). -/
def execUnreach (port : Fin 24) (p : Packet) (s : State) : Out :=
  let n := port.val
  .next (if !s.rowTakes n tyUnreach p then s
    else s.linkReceive n p (fun s =>
      if s.lnk.station.isNone then s
      else s.decrypt n p (fun p s =>
        ((s.bump Reg.LNK_CNT_UNREACH 1).markUnreach (returned p.payload).2.1 n).resendReturned p.payload)))

/-- UNREACHABLE_EXPIRY (R373): the mark ends after 2^16 rc. -/
def execUnreachableExpiry (station : BitVec 16) (plane : Fin 24) (s : State) : Out :=
  .next { s with lnk := { s.lnk with unreach := s.lnk.unreach.filter (fun u =>
    !(u.1 == station.toNat && u.2.1 == plane.val && decide (u.2.2 + 2 ^ 16 ≤ s.rc))) } }

/-- One more end-to-end timeout in a row for a destination on a plane; the fourth marks it unreachable there. -/
def State.countTimeout (s : State) (dst plane : Nat) : State :=
  let old := match s.lnk.timeouts.find? (fun t => t.1 == dst && t.2.1 == plane) with
    | some t => t.2.2
    | none => 0
  let rest := s.lnk.timeouts.filter (fun t => !(t.1 == dst && t.2.1 == plane))
  if 4 ≤ old + 1 then ({ s with lnk := { s.lnk with timeouts := rest } }).markUnreach dst plane
  else { s with lnk := { s.lnk with timeouts := rest ++ [(dst, plane, old + 1)] } }

/-- E2E_TIMEOUT (R378): resent on the next plane up to E2E_RETX times, then failed. -/
def execE2eTimeout (tag : BitVec 32) (s : State) : Out :=
  .next (match s.transOf tag.toNat with
    | none => s
    | some t =>
      if s.rc < t.sentRc + 100 * s.regField Reg.LNK_CFG 8 15 then s
      else
        let s1 := s.countTimeout t.packet.dst.toNat t.plane
        if t.tries < s.regField Reg.LNK_CFG 4 7 then (s1.bump Reg.LNK_CNT_E2E_RETX 1).resendTrans t (t.tries + 1)
        else (s1.closeTrans t.tag).transFails t)

/-! ### Enumeration (R374) -/

/-- ENUM_PROBE: the device answers on the plane that asked with its identity, the plane and its aperture. -/
def execEnumProbe (port : Fin 24) (h : Packet) (s : State) : Out :=
  let n := port.val
  .next (s.mgmtReceive n 0x0001 (carrying h []) (fun s => s.sayOn n h.src.toNat (.enumReply n s.identity s.boot.running)))

/-- A station number taken from the fabric manager, which is acknowledged. -/
def State.takeStation (s : State) (station manager : Nat) : State :=
  ({ s with lnk := { s.lnk with station := some station, assignEpoch := s.frm.epoch, manager := some manager } }).say
    (.assignAck station .success)

/-- A STATION_ASSIGN: taken while no number is assigned, or in epoch 0 where it does not disagree with a number assigned in that
epoch; one that disagrees in the epoch of the assignment is refused with STATION_CONFLICT, any other outside epoch 0 with
RUN_LOCK (log entry 66). -/
def State.assignStation (s : State) (station manager : Nat) : State :=
  match s.lnk.station with
  | none => s.takeStation station manager
  | some old =>
    if old ≠ station ∧ s.lnk.assignEpoch = s.frm.epoch then
      (s.stick Reg.LNK_STATUS 7).say (.assignAck station .stationConflict)
    else if s.frm.epoch = 0 then s.takeStation station manager
    else s.say (.assignAck station .runLock)

/-- STATION_ASSIGN's packet (Table 12.6). -/
def assignPacket (h : Packet) (station manager : BitVec 16) : Packet :=
  carrying h (toLe 2 station.toNat ++ toLe 2 manager.toNat)

/-- STATION_ASSIGN (R374), from the fabric manager. -/
def execStationAssign (port : Fin 24) (h : Packet) (station manager : BitVec 16) (s : State) : Out :=
  .next (s.mgmtReceive port.val 0x0003 (assignPacket h station manager) (fun s =>
    s.fromManager h.src.toNat (fun s => s.assignStation station.toNat manager.toNat)))

/-! ### The power guard's samples and release (R488, R489, R491) -/

/-- The guard releases the device: the traffic that it held goes on. -/
def State.guardRelease (s : State) : State :=
  ({ s with phys := { s.phys with idling := false } }).refill s.lnk.backlog.length

/-- POWER_SAMPLE (R488, R489, R491): both inputs (10 mV and 10 mA units, so products of 0.1 mW), the rolling average, the
guard's release and the fast hold. -/
def execPowerSample (v0 i0 v1 i1 : BitVec 16) (s : State) : Out :=
  let w := v0.toNat * i0.toNat + v1.toNat * i1.toNat
  let p := s.phys
  let p1 := { p with
    in0 := (v0.toNat, i0.toNat), in1 := (v1.toNat, i1.toNat), power := w / 10000,
    samples := (w :: p.samples).take 1000, energy := p.energy + w }
  let lim := s.guardLimit
  let ten := sumNat (p1.samples.take 10)
  let start := !p.fastHold && decide (lim * 125 * 100000 < ten * 100)
  let stop := p.fastHold && decide (ten * 100 < lim * 110 * 100000)
  let hyst := s.regField Reg.PWR_CFG 8 11
  let p2 := { p1 with
    overFor := if lim * 10000000 < p1.sum then p.overFor + 1 else 0,
    fastHold := (p.fastHold || start) && !stop }
  let s1 := { s with phys := p2 }
  let s2 := if start then (s1.stick Reg.PWR_STATUS 2).bump Reg.PWR_CNT_FAST_HOLD 1 else s1
  .next (if p.idling && decide (p1.sum * 100 ≤ lim * (100 - hyst) * 10000000) then s2.guardRelease else s2)

end Sys2Proof.Machine
end

