-- ==== Sys2Proof/Machine/Array.lean ====
section
/-! DEFINITION. The facet array's arithmetic (R148 to R167, R175 to R189): what enters the array from each operand, the
terms of one output element with their events, the passes of an operation, and the array's times. -/

namespace Sys2Proof.Machine

/-! ### One operand's block at the array edge (R161, R165) -/

/-- A block of 32 reduction indices as the array meets it: how many indices lie inside the tensor, whether its scale is
0xFF, its scale, the code values (zero in padding, under a zero scale and at outliers), its outliers, and whether its
codes are floating-point codes that R178 rounds. -/
structure OpBlock where
  len : Nat
  nan : Bool
  scale : Dy
  codes : Array Val
  outs : List (Nat × Val)
  fp : Bool
  fallback : Bool

/-- The block of line `o` from blocked index `i` of a tensor. -/
def State.opBlock (s : State) (d : TDesc) (i o : Nat) : OpBlock :=
  let b := s.block d (d.tile i o) (2 * (o % 64) + i % 64 / 32)
  let len := if d.do' ≤ o then 0 else Nat.min 32 (d.db - i)
  let nan := d.fmt.blocked && b.scale == 0xFF
  let f := if b.fb.isSome then Format.e4m3 else d.fmt
  let src := b.fb.getD b.codes
  let outs := if nan then [] else (b.outs.filter (fun x => decide (x.1 < len))).map (fun x => (x.1, bf16 x.2))
  { len := len, nan := nan, scale := ue5m3 b.scale, outs := outs, fallback := b.fb.isSome,
    fp := b.fb.isSome || f == .e4m3 || f == .e5m2 || f == .bf16,
    codes := ((src.zip (List.range 32)).map (fun x =>
      if len ≤ x.2 || nan || b.scale == 0 || outs.any (fun y => y.1 == x.2) then Val.zero else f.value x.1)).toArray }

def OpBlock.outAt (b : OpBlock) (q : Nat) : Option Val := (b.outs.find? (fun x => x.1 == q)).map (·.2)

def OpBlock.code (b : OpBlock) (q : Nat) : Val := b.codes.getD q .zero

/-- Value of a position under R93, without the tensor exponent. -/
def OpBlock.val (b : OpBlock) (q : Nat) : Val :=
  if b.len ≤ q then .zero
  else if b.nan then .nan
  else match b.outAt q with
    | some v => v
    | none => (b.code q).mul (.fin b.scale)

/-! ### Events (R187 to R189) -/

/-- A term that Table 6.4 classifies as non-finite, from its operands' values. -/
def specialTerm (a b : Val) : Option AccCell :=
  match a, b with
  | .nan, _ => some (.special 3 causeNanIn)
  | _, .nan => some (.special 3 causeNanIn)
  | .fin x, .fin y =>
    let p := x.mul y
    if (Dy.mk (2 ^ 63) 0).le p.abs then some (.special (if p.isNeg then 2 else 1) causeOvf) else none
  | x, y =>
    if x.isZero || y.isZero then some (.special 3 causeInv)
    else some (.special (if x.isNeg != y.isNeg then 2 else 1) causeInfIn)

/-- An output element as it accumulates: its accumulator, the place and cause of its first event, the status bits of
its events, the correction products rounded, and whether its preloaded record carried another shift. -/
structure Elem where
  acc : AccCell
  first : Option (Nat × Nat)
  bits : Nat
  rounded : Nat
  mismatch : Bool
  deriving DecidableEq, Repr

def Elem.start : Elem := ⟨AccCell.zero, none, 0, 0, false⟩

/-- Bit of the tile status word that a cause sets (Table 6.9). -/
def causeMask (c : Nat) : Nat :=
  if c = causeNanIn then 1 else if c = causeInfIn then 2 else if c = causeInv then 4 else if c = causeOvf then 8 else 0

/-- An event at a place: its bit is set, and its cause is the element's where no earlier place has one. -/
def Elem.event (e : Elem) (place cause : Nat) : Elem :=
  { e with
      bits := e.bits ||| causeMask cause,
      first := match e.first with
        | some f => if place < f.1 then some (place, cause) else some f
        | none => some (place, cause) }

/-- Places: a preloaded record first, then for each reduction index its product, its correction product and an
accumulator overflow. -/
def productPlace (r : Nat) : Nat := 4 * (r + 1)
def correctionPlace (r : Nat) : Nat := 4 * (r + 1) + 1
def overflowPlace (r : Nat) : Nat := 4 * (r + 1) + 2

/-- A term added at a place: Table 6.5 with its events; `past` is the place of an overflow. -/
def Elem.add (e : Elem) (t : AccCell) (place past : Nat) : Elem :=
  let r := e.acc.combine t
  let e1 := { e with acc := r }
  if e.acc.inv t then e1.event place causeInv
  else if e.acc.tag = 0 ∧ t.tag = 0 ∧ r.tag ≠ 0 then e1.event past causeOvf else e1

/-- A record preloaded into an accumulator (R196). -/
def Elem.preload (rec' : List Byte) (k : Int) : Elem :=
  if recordShift rec' ≠ k then { (Elem.start.event 0 causeInv) with acc := .special 3 causeInv, mismatch := true }
  else
    let c := recordCell rec'
    if c.tag = 0 then { Elem.start with acc := c } else { (Elem.start.event 0 c.cause) with acc := c }

/-! ### One block group (R176 to R179, R185) -/

/-- A number rounded to nearest-even to a multiple of 2^k, in units of it. -/
def unitRound (x : Dy) (k : Int) : Int := toGrid (x.scale (-48 - k))

/-- The partial of a group's finite products: exact, or rounded to units of 2^(E - 13) under R178. -/
def groupSum (fp : Bool) (ps : List Dy) : Dy :=
  let nz := ps.filter (fun p => !p.isZero)
  match nz with
  | [] => Dy.zero
  | p :: rest =>
    if fp then
      let u := rest.foldl (fun m x => max m x.log2) p.log2 - 13
      ⟨nz.foldl (fun t x => t + unitRound x u) 0, u⟩
    else nz.foldl (fun t x => t.add x) Dy.zero

/-- The positions of a group that the cells multiply: those without an outlier. -/
def cellPositions (a b : OpBlock) : List Nat :=
  (List.range (Nat.max a.len b.len)).filter (fun q => (a.outAt q).isNone && (b.outAt q).isNone)

/-- The non-finite element products of a group combined among themselves, with their events. -/
def groupSpecials (e : Elem) (a b : OpBlock) (r : Nat) (qs : List Nat) : Elem × AccCell :=
  qs.foldl (fun (x : Elem × AccCell) q =>
    match specialTerm (a.val q) (b.val q) with
    | none => x
    | some t =>
      let e1 := x.1.event (productPlace (r + q)) t.cause
      let e2 := if x.2.inv t then e1.event (productPlace (r + q)) causeInv else e1
      (e2, x.2.combine t)) (e, AccCell.zero)

/-- The correction product of a position, where one exists: the streamed operand's outlier is taken first (R161). -/
def correctionTerm (a b : OpBlock) (q : Nat) : Option (Val × Val) :=
  match a.outAt q with
  | some v => some (v, b.val q)
  | none => match b.outAt q with
    | some w => some (w, a.val q)
    | none => none

/-- A correction product added. -/
def Elem.correct (e : Elem) (x : Val × Val) (r q last : Nat) : Elem :=
  match specialTerm x.1 x.2 with
  | some t => (e.event (correctionPlace (r + q)) t.cause).add t (correctionPlace (r + q)) (overflowPlace last)
  | none =>
    let p := (x.1.dy).mul x.2.dy
    let e1 := if onGrid p then e else { e with rounded := e.rounded + 1 }
    e1.add ⟨toGrid p, 0, 0⟩ (correctionPlace (r + q)) (overflowPlace last)

/-- One block group from reduction index `r`: the promoted partial, then its correction products by position. -/
def Elem.group (e : Elem) (a b : OpBlock) (r : Nat) : Elem :=
  let last := r + 31
  let qs := cellPositions a b
  let sp := groupSpecials e a b r qs
  let e1 :=
    if sp.2.tag ≠ 0 then sp.1.add sp.2 (productPlace last) (overflowPlace last)
    else
      let p := groupSum (a.fp || b.fp) (qs.map (fun q => (a.code q).dy.mul (b.code q).dy))
      e.add ⟨toGrid (p.mul (a.scale.mul b.scale)), 0, 0⟩ (productPlace last) (overflowPlace last)
  (List.range 32).foldl (fun (e : Elem) q =>
    match correctionTerm a b q with
    | some x => e.correct x r q last
    | none => e) e1

/-! ### Operand pairs (Table 5.1) -/

/-- Cell interval and tile load time of stationary × streamed; none for a refused pair (R149). -/
def pairTimes (f g : Format) : Option (Nat × Nat) :=
  let eight := fun (x : Format) => x == .e4m3 || x == .e5m2
  if (f == .fp4 && g == .fp4) || (f == .int4 && g == .int4) then some (1, 64)
  else if eight f && (eight g || g == .fp4) then some (2, 128)
  else if f == .fp4 && eight g then some (2, 64)
  else if f == .int8 && (g == .int8 || g == .int4) then some (2, 128)
  else if f == .int4 && g == .int8 then some (2, 64)
  else if f == .bf16 && g == .bf16 then some (8, 256)
  else none

/-! ### Operations and their passes (R151 to R154, R166, R301 to R305) -/

/-- A mask descriptor (Table 10.2). -/
structure Mask where
  raw : List Byte
  deriving DecidableEq, Repr

def Mask.axis (m : Mask) : Nat := u8At m.raw 4
def Mask.fillNegInf (m : Mask) : Bool := bit (u8At m.raw 5) 0
def Mask.qTiles (m : Mask) : Nat := u32At m.raw 8
def Mask.kTiles (m : Mask) : Nat := u32At m.raw 12
def Mask.qBase (m : Mask) : Nat := u32At m.raw 16
def Mask.kBase (m : Mask) : Nat := u32At m.raw 20
def Mask.bitmap (m : Mask) : Nat := u64At m.raw 24

/-- Bytes of one row of the bitmap. -/
def Mask.rowBytes (m : Mask) : Nat := 8 * cdiv m.kTiles 64

/-- Whether the mask computes (query index, key index). -/
def State.maskBit (s : State) (m : Mask) (q k : Nat) : Bool :=
  let qt := (q - m.qBase) / 128
  let kt := (k - m.kBase) / 128
  bit (s.loadByte (m.bitmap + m.rowBytes * qt + kt / 8)).toNat (kt % 8)

/-- One product on the array: the operands, the ranges of Table 5.2, split mode, and its mask. -/
structure Product where
  stat : TDesc
  strm : TDesc
  m0 : Nat
  mlen : Nat
  q0 : Nat
  qlen : Nat
  r0 : Nat
  rlen : Nat
  split : Bool
  mask : Option Mask

namespace Product

/-- Stationary free indices of a group, reduction indices of a pass. -/
def width (p : Product) : Nat := if p.split then 128 else 256
def depth (p : Product) : Nat := if p.stat.sparse then 128 else 64

def groups (p : Product) : Nat := cdiv p.qlen p.width
def tiles (p : Product) : Nat := p.mlen / 64
def passes (p : Product) : Nat := p.rlen / p.depth

/-- Facets that group `g` uses: the first stationary free index of each. -/
def facets (p : Product) (g : Nat) : List Nat :=
  (List.range (Nat.min p.width (p.qlen - p.width * g) / 64)).map (fun f => p.q0 + p.width * g + 64 * f)

/-- Reduction tiles of pass `n`: their first index. -/
def reds (p : Product) (n : Nat) : List Nat :=
  (List.range (p.depth / 64)).map (fun x => p.r0 + p.depth * n + 64 * x)

/-- The accumulation shift k (R175): the tensor exponents less the Prism correction of R133. -/
def shift (p : Product) : Int :=
  p.stat.te + p.strm.te - (if p.stat.rot = 0 then 0 else (prismC p.stat.prism : Int))

/-- Cell interval and load time. -/
def interval (p : Product) : Nat := ((pairTimes p.stat.fmt p.strm.fmt).map (·.1)).getD 1
def loadTime (p : Product) : Nat := ((pairTimes p.stat.fmt p.strm.fmt).map (·.2)).getD 64

end Product

/-- A directory bitmap of a tile is empty. -/
def State.noRecords (s : State) (dir t : Nat) : Bool := (s.load (dir + 32 * t) 16).all (· == 0)

/-- The 128 scale codes of a tile. -/
def State.tileScales (s : State) (d : TDesc) (t : Nat) : List Byte := s.load (d.scaleAddr + 128 * t) 128

/-- A zero tile (R166): every scale 0x00 and no outlier or fallback record. -/
def State.zeroTile (s : State) (d : TDesc) (t : Nat) : Bool :=
  d.fmt.blocked && (s.tileScales d t).all (· == 0) && (!d.outliers || s.noRecords d.outAddr t)
    && (!d.fallback || s.noRecords d.fbAddr t)

/-- A pass is a zero pass: its stationary tiles are zero tiles, and its streamed tiles are four-bit with no NaN block. -/
def State.zeroPass (s : State) (p : Product) (g m n : Nat) : Bool :=
  (p.reds n).all (fun r => (p.facets g).all (fun q => s.zeroTile p.stat (p.stat.tile r q)))
    && p.strm.fmt.four
    && (p.reds n).all (fun r => (s.tileScales p.strm (p.strm.tile r (p.m0 + 64 * m))).all (· != 0xFF))

/-- The mask leaves nothing of a pass. -/
def State.maskedPass (s : State) (p : Product) (g m n : Nat) : Bool :=
  match p.mask with
  | none => false
  | some k =>
    if k.axis = 0 then (p.facets g).all (fun q => !s.maskBit k (p.m0 + 64 * m) q)
    else (p.reds n).all (fun r => !s.maskBit k (p.m0 + 64 * m) r)

/-- Zero-tile skipping is enabled. -/
def State.skipEn (s : State) : Bool := s.regBit Reg.FAC_CFG 0

/-- A pass is skipped (R166, R305). -/
def State.skipped (s : State) (p : Product) (g m n : Nat) : Bool :=
  s.skipEn && (s.maskedPass p g m n || s.zeroPass p g m n)

/-- The reduction blocks of a tile's element that take part: those of passes not skipped and not masked. -/
def State.liveBlocks (s : State) (p : Product) (g m : Nat) : List Nat :=
  (List.range p.passes).flatMap (fun n =>
    if s.skipped p g m n then []
    else (List.range (p.depth / 32)).filterMap (fun b =>
      let r := p.r0 + p.depth * n + 32 * b
      match p.mask with
      | none => some r
      | some k => if k.axis = 1 ∧ !s.maskBit k (p.m0 + 64 * m) r then none else some r))

/-- An output element is masked by AXIS 0 (R303). -/
def State.maskedEl (s : State) (p : Product) (i j : Nat) : Bool :=
  match p.mask with
  | none => false
  | some k => k.axis == 0 && !s.maskBit k i j

/-- The blocks of one line of an operand at the given reduction indices. -/
def State.lineBlocks (s : State) (d : TDesc) (rs : List Nat) (o : Nat) : List (Nat × OpBlock) :=
  rs.map (fun r => (r, s.opBlock d r o))

/-- An element's terms over its live blocks. -/
def Elem.dot (e : Elem) (as bs : List (Nat × OpBlock)) : Elem :=
  (as.zip bs).foldl (fun (e : Elem) x => e.group x.1.2 x.2.2 x.1.1) e

/-- The elements of one output tile, row by row: streamed tile `m` by stationary group `g`. A masked element is not
computed. `start` gives what each accumulator starts from. -/
def State.tileElems (s : State) (p : Product) (g m : Nat) (start : Nat → Nat → Elem) : List (Nat × Nat × Option Elem) :=
  let live := s.liveBlocks p g m
  let cols := (p.facets g).flatMap (fun q => (List.range 64).map (fun c => (q + c, s.lineBlocks p.stat live (q + c))))
  (List.range 64).flatMap (fun a =>
    let i := p.m0 + 64 * m + a
    let row := s.lineBlocks p.strm live i
    cols.map (fun c =>
      (i, c.1, if s.maskedEl p i c.1 then none else some ((start i c.1).dot row c.2))))

/-! ### Times (R160 to R163, R182) -/

/-- A stationary tile of a pass holds a fallback block: the whole pass takes the mixed path (R163). -/
def State.mixedStat (s : State) (p : Product) (g n : Nat) : Bool :=
  p.stat.fallback && (p.reds n).any (fun r => (p.facets g).any (fun q => !s.noRecords p.stat.fbAddr (p.stat.tile r q)))

/-- Streamed vector `a` of a pass holds a fallback block. -/
def State.mixedVec (s : State) (p : Product) (m n a : Nat) : Bool :=
  p.strm.fallback && (p.reds n).any (fun r => ([0, 32] : List Nat).any (fun h =>
    (s.opBlock p.strm (r + h) (p.m0 + 64 * m + a)).fallback))

/-- Cell interval of streamed vector `a` of a pass (R160, R163). -/
def State.vecInterval (s : State) (p : Product) (g m n a : Nat) : Nat :=
  if p.interval = 1 ∧ (s.mixedStat p g n ∨ s.mixedVec p m n a) then 2 else p.interval

/-- ac that fallback blocks add to a pass (R163). -/
def State.mixedAc (s : State) (p : Product) (g m n : Nat) : Nat :=
  if p.interval ≠ 1 then 0
  else if s.mixedStat p g n then 64
  else ((List.range 64).filter (fun a => s.mixedVec p m n a)).length

/-- Valid outlier slots of 64 lines of a tile. -/
def State.outlierCount (s : State) (d : TDesc) (r o : Nat) : Nat :=
  if d.outliers then
    sumNat ((List.range 64).flatMap (fun a => ([0, 32] : List Nat).map (fun h => (s.opBlock d (r + h) (o + a)).outs.length)))
  else 0

/-- ac of correction work beyond a pass's streaming time (R162). -/
def State.corrAc (s : State) (p : Product) (g m n stream : Nat) : Nat :=
  let a := sumNat ((p.reds n).map (fun r => s.outlierCount p.strm r (p.m0 + 64 * m)))
  let b := sumNat ((p.reds n).flatMap (fun r => (p.facets g).map (fun q => s.outlierCount p.stat r q)))
  cdiv (a * 64 * (p.facets g).length + b * 64) p.width - stream

/-- What a tile's passes take: passes run and skipped, ac added by fallback and by corrections, ac in all, and the cell
intervals of the first and of the last vector streamed. -/
structure PassTimes where
  run : Nat
  skip : Nat
  mixed : Nat
  corr : Nat
  ac : Nat
  firstInt : Nat
  lastInt : Nat
  deriving DecidableEq, Repr

def State.tileTimes (s : State) (p : Product) (g m : Nat) : PassTimes :=
  (List.range p.passes).foldl (fun (t : PassTimes) n =>
    if s.skipped p g m n then { t with skip := t.skip + 1 }
    else
      let x := s.mixedAc p g m n
      let st := 64 * p.interval + x
      let c := s.corrAc p g m n st
      { run := t.run + 1, skip := t.skip, mixed := t.mixed + x, corr := t.corr + c, ac := t.ac + st + c,
        firstInt := if t.run = 0 then s.vecInterval p g m n 0 else t.firstInt, lastInt := s.vecInterval p g m n 63 })
    ⟨0, 0, 0, 0, 0, 1, 1⟩

/-- A tile on its way through the banks: the ac of its passes, after how many of them its first partial is promoted and how
many follow the last until it is complete, its drain time, and whether it uses a bank (R303). -/
structure BankTile where
  ac : Nat
  first : Nat
  depth : Nat
  drain : Nat
  uses : Bool
  deriving DecidableEq, Repr

/-- When the first promoted partial of a pass reaches its bank: after 32 rows, or 16 in a sparse pass (Table 5.4), at cell
interval `i`. -/
def firstPromoted (p : Product) (i : Nat) : Nat := (if p.stat.sparse then 20 else 36) + (i - 1)

/-- A product's tile on a core of a depth, with its drain time (R160, R182). -/
def bankTile (p : Product) (coreDepth drain : Nat) (uses : Bool) (t : PassTimes) : BankTile :=
  { ac := t.ac, first := firstPromoted p t.firstInt, depth := coreDepth + t.lastInt - 1, drain := drain, uses := uses }

/-- The ac for which the array waits for a bank (R182): `now` is the array's time, `free` when the bank of this tile and
when the other one are emptied, `busy` when the drain is free. -/
def bankStall : Nat → Nat → Nat → Nat → List BankTile → Nat
  | _, _, _, _, [] => 0
  | now, free, other, busy, t :: ts =>
    if !t.uses || t.ac == 0 then
      let d := Nat.max busy now + t.drain
      if t.uses then bankStall now other d d ts else bankStall now free other d ts
    else
      let wait := free - (now + t.first)
      let fin := now + wait + t.ac
      let d := Nat.max busy (fin + t.depth) + t.drain
      wait + bankStall fin other d d ts

end Sys2Proof.Machine
end

