-- ==== Sys2Proof/Machine/Drain.lean ====
section
/-! DEFINITION. The drain (R190 to R206): the epilogue descriptor and its checks, the output path of one element, the
stores of an operation, tile status words, and reductions. -/

namespace Sys2Proof.Machine

/-! ### The epilogue descriptor (Table 6.8) -/

/-- An epilogue descriptor as read. -/
structure Epi where
  addr : Nat
  raw : List Byte
  deriving DecidableEq, Repr

namespace Epi

def outFmt (e : Epi) : Nat := u8At e.raw 0
def flags (e : Epi) : Nat := u8At e.raw 1
def fuse (e : Epi) : Bool := bit e.flags 0
def fuseMul (e : Epi) : Bool := bit e.flags 1
def accIn (e : Epi) : Bool := bit e.flags 2
def noStore (e : Epi) : Bool := bit e.flags 3
def red (e : Epi) : Nat := u8At e.raw 2
def redOp (e : Epi) : Nat := e.red % 4
def redIdx (e : Epi) : Bool := bit e.red 2
def redAxis (e : Epi) : Nat := bits e.red 3 3
def numPref (e : Epi) : Bool := bit e.red 4
def redRaw (e : Epi) : Bool := bit e.red 5
def redShift (e : Epi) : Int := sext 8 (u8At e.raw 3)
def statTag (e : Epi) : Nat := u32At e.raw 4
def outAddr (e : Epi) : Nat := u64At e.raw 8
def fuseAddr (e : Epi) : Nat := u64At e.raw 16
def qjob (e : Epi) : Nat := u64At e.raw 24
def statusAddr (e : Epi) : Nat := u64At e.raw 32
def redAddr (e : Epi) : Nat := u64At e.raw 40
def accInAddr (e : Epi) : Nat := u64At e.raw 48

/-- Raw accumulator records (R196). -/
def isRaw (e : Epi) : Bool := e.outFmt == 0x0F

/-- The epilogue names an output tensor descriptor. -/
def named (e : Epi) : Bool := !e.isRaw && e.outAddr != 0

/-- Format of the stored values (FP32 where records are stored). -/
def fmt (e : Epi) : Format := (Format.ofCode e.outFmt).getD .fp32

end Epi

def State.epi (s : State) (addr : Nat) : Epi := ⟨addr, s.descLoad addr 64⟩

/-- TE_out (R190). -/
def State.teOut (s : State) (e : Epi) : Int := if e.named then (s.tdesc e.outAddr).te else 0

/-- Whether bytes lie in a core's own store. -/
def State.ownStore (s : State) (core addr n : Nat) : Bool :=
  match s.region addr with
  | .core c _ => c == core && s.accessOk addr n false
  | _ => false

/-- Length of a product's reduction area (R204). -/
def redBytes (p : Product) (e : Epi) : Nat := 16 * (if e.redAxis = 0 then p.mlen else p.qlen)

/-- The region of a quantize job equals the product's output region. -/
def State.jobRegion (s : State) (j : QJob) (p : Product) : Bool :=
  j.start 0 == p.m0 && j.start 1 == p.q0 && s.jobExtent j 0 == p.mlen && s.jobExtent j 1 == p.qlen

/-- The quantize job that an epilogue names. -/
def State.qjob (s : State) (addr : Nat) : QJob := ⟨s.descLoad addr 64⟩

/-- The checks of R195. -/
def State.epiOk (s : State) (core : Nat) (p : Product) (e : Epi) : Bool :=
  let D := s.tdesc e.outAddr
  let F := s.tdesc e.fuseAddr
  let j := s.qjob e.qjob
  e.addr % 64 == 0 && zeroBytes e.raw 56 8 && ([3, 4, 6, 7, 0x0F] : List Nat).contains e.outFmt
    && decide (e.flags < 16) && decide (e.red < 64)
    && (e.noStore || e.outAddr != 0) && (!e.fuse || e.fuseAddr != 0) && (!e.accIn || e.accInAddr != 0)
    && (e.qjob == 0 || e.outFmt == 7) && !(e.isRaw && (e.fuse || e.qjob != 0 || e.noStore))
    && (!e.named || (s.tdescOk e.outAddr && D.fmtCode == e.outFmt && !(D.outliers || D.fallback || D.sparse)
      && decide (p.m0 + p.mlen ≤ D.padded 0) && decide (p.q0 + p.qlen ≤ D.padded 1)))
    && (!e.fuse || (s.tdescOk e.fuseAddr && !F.fmt.blocked
      && (!e.named || (F.dim0 == D.dim0 && F.dim1 == D.dim1 && F.axis == D.axis))
      && F.planes.all (fun x => s.ownStore core x.1 x.2)))
    && (e.redOp == 0 || (e.redAddr != 0 && s.ownStore core e.redAddr (redBytes p e)))
    && (e.qjob == 0 || (e.qjob % 64 == 0 && (j.op == 1 || j.op == 2) && j.src == 0
      && (s.jobCheck j true).isNone && s.jobRegion j p))

/-! ### One element (R190 to R193) -/

/-- A conversion: the value written, whether it overflowed, and whether it was clamped. -/
structure Conv where
  val : Val
  exceeds : Bool
  clamp : Bool

/-- Rounding to an FP8 format without a scale (Table 6.7). -/
def convert8 (f : Format) (sat : Bool) (v : Val) : Conv :=
  match v with
  | .nan => ⟨.nan, false, false⟩
  | .inf s => ⟨if f = .e4m3 then .nan else .inf s, false, false⟩
  | .fin x =>
    let y := x.abs
    let above := if f = .e4m3 then (Dy.ofNat 464).lt y else (Dy.ofNat 61440).le y
    if above then
      if sat then ⟨.fin (if x.isNeg then f.emax.neg else f.emax), true, true⟩
      else ⟨if f = .e4m3 then .nan else .inf x.isNeg, true, false⟩
    else ⟨f.value (f.code x.isNeg (magNearest f ⟨1, 0⟩ y)), false, false⟩

/-- One rounding to an output format with Table 6.7. -/
def convert (f : Format) (sat : Bool) (v : Val) : Conv :=
  match f with
  | .e4m3 | .e5m2 => convert8 f sat v
  | .bf16 => let r := round16 v; ⟨r, v.isFin && !r.isFin, false⟩
  | _ => let r := round32 v; ⟨r, v.isFin && !r.isFin, false⟩

/-- Bytes of a value in an output format. -/
def outBytes (f : Format) (v : Val) : List Byte :=
  match f with
  | .e4m3 | .e5m2 =>
    toLe 1 (match v with
      | .nan => 0x7F
      | .inf s => if s then 0xFC else 0x7C
      | .fin x => f.code x.isNeg (magNearest f ⟨1, 0⟩ x.abs))
  | .bf16 => toLe 2 (encodeBin 7 v)
  | _ => toLe 4 (encodeBin 23 v)

/-- The place of the output path's events: after every index. -/
def outPlace : Nat := 2 ^ 40

/-- An event of the output path. -/
def Elem.outEvent (e : Elem) (yes : Bool) (cause : Nat) : Elem := if yes then e.event outPlace cause else e

/-- The fused operation (R190 step 3): its result before rounding, with its events. -/
def Elem.fused (e : Elem) (mul : Bool) (v f : Val) : Elem × Val :=
  let e1 := match f with
    | .nan => e.outEvent true causeNanIn
    | .inf _ => e.outEvent true causeInfIn
    | .fin _ => e
  let r := if mul then v.mul f else v.add f
  let inv := match v, f, r with
    | .nan, _, _ => false
    | _, .nan, _ => false
    | _, _, .nan => true
    | _, _, _ => false
  (e1.outEvent inv causeInv, r)

/-- An element after step 3: its value, its events, and whether it was clamped. -/
structure OutEl where
  val : Val
  elem : Elem
  clamp : Bool

/-- Steps 1 to 3 for an element of shift `k`; `f` is the fused operand's value times 2^-TE_out. -/
def Epi.element (e : Epi) (sat : Bool) (k te : Int) (f : Option Val) (x : Elem) : OutEl :=
  let v := x.acc.val (k - te)
  if e.isRaw then
    let r := convert .fp32 false v
    ⟨r.val, x.outEvent r.exceeds causeOvf, false⟩
  else match f with
    | none =>
      let r := convert e.fmt sat v
      ⟨r.val, x.outEvent r.exceeds causeOvf, r.clamp⟩
    | some f =>
      let r1 := convert .fp32 false v
      let y := (x.outEvent r1.exceeds causeOvf).fused e.fuseMul r1.val f
      let r2 := convert e.fmt sat y.2
      ⟨r2.val, y.1.outEvent r2.exceeds causeOvf, r2.clamp⟩

/-! ### Tile status words (Table 6.9) -/

/-- The status word of a tile of `w` columns from its elements in row-major order; an element left out is masked or
padding. -/
def tileWord (w : Nat) (es : List (Option OutEl)) : Nat :=
  let bits := es.foldl (fun b x => match x with
    | some x => b ||| x.elem.bits
    | none => b) 0
  let first := (es.zip (List.range es.length)).find? (fun x => match x.1 with
    | some x => !x.val.isFin
    | none => false)
  match first with
  | some (some x, n) =>
    let cause := (x.elem.first.map (·.2)).getD 0
    bits + 256 * cause + 2 ^ 16 * (n / w) + 2 ^ 22 * (n % w) + 2 ^ 31
  | _ => bits

/-! ### Reductions (R202 to R204) -/

/-- A maximum or minimum over (index, value) pairs in ascending index. -/
def extreme (mx pref : Bool) (xs : List (Nat × Val)) : Val × Nat :=
  let nan := xs.find? (fun x => match x.2 with
    | .nan => true
    | _ => false)
  let nums := xs.filter (fun x => match x.2 with
    | .nan => false
    | _ => true)
  let below := fun (a b : Val) => match a.add b.neg with
    | .fin d => d.isNeg
    | .inf s => s
    | .nan => false
  let pick := fun (l : List (Nat × Val)) => match l with
    | [] => (Val.inf mx, 0xFFFFFFFF)
    | x :: rest =>
      let b := rest.foldl (fun (b : Nat × Val) y => if (if mx then below b.2 y.2 else below y.2 b.2) then y else b) x
      (b.2, b.1)
  match nan with
  | some x => if pref && !nums.isEmpty then pick nums else (.nan, x.1)
  | none => pick nums

/-- A sum of values into a long accumulator. -/
def sumCell (shift : Int) (vs : List Val) : AccCell := vs.foldl (fun a v => a.combine (termOf (v.scale shift))) AccCell.zero

/-- The 16-byte record of one result. -/
def Epi.redRecord (e : Epi) (xs : List (Nat × Val)) : List Byte :=
  if e.redOp = 1 then
    let a := sumCell e.redShift (xs.map (·.2))
    if e.redRaw then a.record (-e.redShift)
    else toLe 4 (code32 (a.val (-e.redShift))) ++ toLe 4 0xFFFFFFFF ++ List.replicate 8 0
  else
    let r := extreme (e.redOp == 2) e.numPref xs
    toLe 4 (code32 r.1) ++ toLe 4 (if e.redIdx then r.2 else 0xFFFFFFFF) ++ List.replicate 8 0

/-- The reduction records of an operation, from its elements that take part: (i, j, value). -/
def Epi.reductions (e : Epi) (p : Product) (vs : List (Nat × Nat × Val)) : List (Nat × List Byte) :=
  if e.redOp = 0 then []
  else
    let n := if e.redAxis = 0 then p.mlen else p.qlen
    (List.range n).map (fun k =>
      let xs := vs.filterMap (fun (x : Nat × Nat × Val) =>
        if e.redAxis = 0 then (if x.1 = p.m0 + k then some (x.2.1, x.2.2) else none)
        else (if x.2.1 = p.q0 + k then some (x.1, x.2.2) else none))
      (e.redAddr + 16 * k, e.redRecord xs))

/-! ### A whole operation -/

/-- An element of the output region: its indices; whether it is masked; its accumulator where it is computed; whether
it lies inside the output's logical dimensions; and its value after step 3. -/
structure Cell where
  i : Nat
  j : Nat
  elem : Option Elem
  inside : Bool
  out : Option OutEl

/-- Fused operand's value for an element. -/
def State.fuseVal (s : State) (e : Epi) (te : Int) (i j : Nat) : Option Val :=
  if e.fuse then some ((s.wideAt (s.tdesc e.fuseAddr) i j).scale (-te)) else none

/-- An element through the drain. -/
def State.drainEl (s : State) (p : Product) (e : Epi) (x : Nat × Nat × Option Elem) : Cell :=
  let D := s.tdesc e.outAddr
  let te := s.teOut e
  { i := x.1, j := x.2.1, elem := x.2.2,
    inside := !e.named || (decide (x.1 < D.dim0) && decide (x.2.1 < D.dim1)),
    out := x.2.2.map (fun a => e.element (e.named && D.saturate) p.shift te (s.fuseVal e te x.1 x.2.1) a) }

/-- The element counts where it takes part: computed and inside. -/
def Cell.counted (c : Cell) : Option OutEl := if c.inside then c.out else none

/-- Value that is stored: a masked element's fill, +0 in padding, else the value. -/
def Cell.stored (c : Cell) (p : Product) : Val :=
  if !c.inside then .zero
  else match c.out with
    | some x => x.val
    | none => match p.mask with
      | some m => if m.fillNegInf then .inf true else .zero
      | none => .zero

/-- Raw record of an element (R196). -/
def Cell.record (c : Cell) (p : Product) : List Byte :=
  match c.elem with
  | some a => ({ a.acc with cause := if a.acc.tag = 0 then 0 else (a.first.map (fun (f : Nat × Nat) => f.2)).getD 0 }).record p.shift
  | none => AccCell.zero.record p.shift

/-- Place of an element's record in a record area (R196). -/
def Product.recAt (p : Product) (i j : Nat) : Nat := 16 * ((i - p.m0) * p.qlen + (j - p.q0))

/-- Stores of one element of a named output tensor. -/
def TDesc.outStore (d : TDesc) (f : Format) (c : Cell) (v : Val) : List (Nat × List Byte) :=
  let x := d.placed c.i c.j
  let t := d.tile x.1 x.2
  let b := 2 * (x.2 % 64) + x.1 % 64 / 32
  let n := f.nibbles / 2
  (d.blockAddr t b + n * (x.1 % 32), outBytes f v)
    :: (if f.blocked ∧ x.1 % 32 = 0 then
          [(d.scaleAddr + 128 * t + b, [if d.db ≤ x.1 ∨ d.do' ≤ x.2 then 0x00 else 0x78])] else [])

/-- Output stores of an operation (step 6). -/
def State.outStores (s : State) (p : Product) (e : Epi) (cs : List Cell) : List (Nat × List Byte) :=
  if e.isRaw then cs.map (fun c => (e.outAddr + p.recAt c.i c.j, c.record p))
  else if e.noStore then []
  else cs.flatMap (fun c => (s.tdesc e.outAddr).outStore e.fmt c (c.stored p))

/-- The tiles of an operation in the order of R154: (group, streamed tile). -/
def Product.order (p : Product) : List (Nat × Nat) :=
  (List.range p.groups).flatMap (fun g => (List.range p.tiles).map (fun m => (g, m)))

/-- Value of the quantizer's input: the drain's FP32 value itself (R190 step 5). -/
def cellValue (cs : List Cell) (p : Product) : Nat → Nat → Val :=
  let a := cs.foldl (fun (a : Array Val) c =>
    a.setIfInBounds ((c.i - p.m0) * p.qlen + (c.j - p.q0)) (c.stored p)) (Array.replicate (p.mlen * p.qlen) Val.zero)
  fun i j => a.getD ((i - p.m0) * p.qlen + (j - p.q0)) .zero

/-- What a tile gives: its status word, its place in the status plane, and its cells. -/
structure TileResult where
  index : Nat
  word : Nat
  cells : List Cell

/-- Counts of an operation's elements: with an OVF event, with an INV event, clamped, of another shift, correction
products rounded. -/
def cellCounts (cs : List Cell) : List (Nat × Nat) :=
  let os := cs.filterMap (fun (c : Cell) => c.counted)
  let n := fun (f : OutEl → Bool) => (os.filter f).length
  [(Reg.ACC_CNT_OVF, n (fun x => bit x.elem.bits 3)), (Reg.ACC_CNT_INV, n (fun x => bit x.elem.bits 2)),
   (Reg.ACC_CNT_SAT_OUT, n (fun x => x.clamp)), (Reg.ACC_CNT_SHIFT_MISMATCH, n (fun x => x.elem.mismatch)),
   (Reg.ACC_CNT_CORR_RND, sumNat (cs.filterMap (fun (c : Cell) => c.elem.map (fun a => a.rounded))))]

/-- Sticky bits of ACC_STATUS for counts (NONFIN is set with the tile words). -/
def cellBits (ns : List (Nat × Nat)) : List (Nat × Nat) :=
  let has := fun (r : Nat) => ns.any (fun x => x.1 == r && x.2 != 0)
  (if has Reg.ACC_CNT_OVF then [(Reg.ACC_STATUS, 1)] else []) ++ (if has Reg.ACC_CNT_INV then [(Reg.ACC_STATUS, 2)] else [])
    ++ (if has Reg.ACC_CNT_SHIFT_MISMATCH then [(Reg.ACC_STATUS, 3)] else [])
    ++ (if has Reg.ACC_CNT_SAT_OUT then [(Reg.ACC_STATUS, 5)] else [])

/-- What an operation's drain does: stores, quantizer effects and what is reported when its slot ends. -/
structure DrainOut where
  writes : List (Nat × List Byte)
  eff : Effects

/-- The report of an operation's statistics under STAT_TAG (R190 step 4, R201). -/
def statReport (tag : Nat) (te : Int) (vs : List Val) (word : Nat) : List Report :=
  if tag = 0 then []
  else
    let st := statOf vs
    [{ tensor := tag, byStat := true, stat := some (te, st.1, st.2), counts := List.replicate 7 0, tile := word }]

/-- The quantize job of an epilogue over the drain's values. -/
def State.epiJob (s : State) (p : Product) (e : Epi) (cs : List Cell) : JobOut :=
  if e.qjob = 0 then ⟨[], [], 0, 0⟩ else s.quantJob (s.qjob e.qjob) (cellValue cs p)

/-- Code of ACC_FIRST_LOC of a tile. -/
def firstLoc (core : Nat) (half : Option Bool) (index : Nat) : Nat :=
  core + 2 ^ 9 * b2n (half == some true) + 2 ^ 16 * index

/-- Everything that the drain makes of an operation's elements, tile by tile in the order of R154. -/
def State.drainAll (s : State) (core : Nat) (half : Option Bool) (p : Product) (e : Epi)
    (elems : List (Nat × Nat × List (Nat × Nat × Option Elem))) : DrainOut :=
  let ts := elems.map (fun (x : Nat × Nat × List (Nat × Nat × Option Elem)) =>
    let cs := x.2.2.map (fun (y : Nat × Nat × Option Elem) => s.drainEl p e y)
    ({ index := x.1 * p.tiles + x.2.1, word := tileWord (64 * (p.facets x.1).length) (cs.map (fun (c : Cell) => c.counted)),
       cells := cs } : TileResult))
  let cs := ts.flatMap (fun (t : TileResult) => t.cells)
  let used : List (Nat × Nat × Val) := cs.filterMap (fun (c : Cell) => c.counted.map (fun o => (c.i, c.j, o.val)))
  let ns := cellCounts cs
  let nonfin := (ts.filter (fun t => decide (2 ^ 31 ≤ t.word))).length
  let q := s.epiJob p e cs
  let qe := q.counts.foldl (fun (x : Effects) c => x.add (quantEffects c.1 c.2)) Effects.empty
  let own : Effects :=
    { bumps := (Reg.ACC_CNT_TILES, ts.length) :: (Reg.ACC_CNT_NONFIN, nonfin) :: ns, bits := cellBits ns,
      reports := statReport e.statTag (s.teOut e) (used.map (fun (x : Nat × Nat × Val) => x.2.2)) (ts.foldl (fun (w : Nat) t => w ||| t.word) 0),
      tiles := ts.map (fun t => (firstLoc core half t.index, t.word)),
      writes := (if e.statusAddr = 0 then [] else ts.map (fun t => (e.statusAddr + 4 * t.index, toLe 4 t.word)))
        ++ e.reductions p used }
  { writes := s.outStores p e cs ++ q.writes, eff := own.add qe }

/-- Memory that an epilogue reads and writes. -/
def State.epiAccess (s : State) (p : Product) (e : Epi) : List (Nat × Nat × Bool) :=
  let recs := 16 * p.mlen * p.qlen
  (if e.isRaw then [(e.outAddr, recs, true)]
   else if e.noStore then [] else (s.tdesc e.outAddr).planes.map (fun x => (x.1, x.2, true)))
    ++ (if e.fuse then (s.tdesc e.fuseAddr).planes.map (fun x => (x.1, x.2, false)) else [])
    ++ (if e.accIn then [(e.accInAddr, recs, false)] else [])
    ++ (if e.statusAddr = 0 then [] else [(e.statusAddr, 4 * p.groups * p.tiles, true)])
    ++ (if e.qjob = 0 then [] else s.jobAccess (s.qjob e.qjob))

/-- Drain time of a tile (R198): 128 ac, or what the quantizer takes. -/
def State.drainAc (s : State) (e : Epi) : Nat :=
  if e.qjob = 0 then 128
  else
    let j := s.qjob e.qjob
    let fit := bit j.mode 0 || (j.op == 2 && bit j.mode 2)
    Nat.max 128 (16384 / (if j.op = 2 then (if fit then 16 else 64) else if fit then 32 else 128))

/-- Where an element's accumulator starts (R196). -/
def State.startElem (s : State) (p : Product) (e : Epi) (i j : Nat) : Elem :=
  if e.accIn then Elem.preload (s.load (e.accInAddr + p.recAt i j) 16) p.shift else Elem.start

end Sys2Proof.Machine
end

