-- ==== Sys2Proof/Machine/UpdArith.lean ====
section
/-! DEFINITION. The arithmetic of the update engine on FP32 codes (R227): every result is the exact one rounded once to
nearest-even, with the signs of zero of IEEE 754 and the canonical NaN. -/

namespace Sys2Proof.Machine

/-- Sign of an FP32 code. -/
def neg32 (c : Nat) : Bool := bit c 31

/-- A zero of a sign. -/
def zero32 (neg : Bool) : Nat := b2n neg * 2 ^ 31

/-- The canonical NaN (R87). -/
def nan32 : Nat := 0x7FC00000

def isNan32 (c : Nat) : Bool := decide (0x7F800000 < c % 2 ^ 31)
def isInf32 (c : Nat) : Bool := c % 2 ^ 31 == 0x7F800000
def isZero32 (c : Nat) : Bool := c % 2 ^ 31 == 0

/-- A code with every NaN made canonical. -/
def canon32 (c : Nat) : Nat := if isNan32 c then nan32 else c % 2 ^ 32

/-- A value rounded once; a zero result takes the sign given. -/
def pack32 (v : Val) (zneg : Bool) : Nat :=
  match round32 v with
  | .fin x => if x.isZero then zero32 zneg else encodeBin 23 (.fin x)
  | w => encodeBin 23 w

/-- The sign of a zero sum of two signed terms: theirs where they agree, else plus; the exact sum's sign on underflow. -/
def sumZero (a b : Bool) (v : Val) : Bool := if v.isZero then a && b else v.isNeg

def addF (a b : Nat) : Nat :=
  let v := (f32 a).add (f32 b)
  pack32 v (sumZero (neg32 a) (neg32 b) v)

def negF (a : Nat) : Nat := if isNan32 a then nan32 else a ^^^ 2 ^ 31
def subF (a b : Nat) : Nat := addF a (negF b)
def mulF (a b : Nat) : Nat := pack32 ((f32 a).mul (f32 b)) (neg32 a != neg32 b)

/-- Division: by a zero of either sign, an infinity of the exclusive-or of the signs. -/
def divF (a b : Nat) : Nat :=
  let s := neg32 a != neg32 b
  if isNan32 a || isNan32 b then nan32
  else if isZero32 b then (if isZero32 a then nan32 else zero32 s + 0x7F800000)
  else if isInf32 a && isInf32 b then nan32
  else if isInf32 a then zero32 s + 0x7F800000
  else if isInf32 b then zero32 s
  else pack32 (fdiv (f32 a) (f32 b)) s

/-- a × b + c, rounded once. -/
def fmaF (a b c : Nat) : Nat :=
  let v := ((f32 a).mul (f32 b)).add (f32 c)
  pack32 v (sumZero (neg32 a != neg32 b) (neg32 c) v)

def sqrtF (a : Nat) : Nat := if isZero32 a then zero32 (neg32 a) else pack32 (fsqrt (f32 a)) false

/-- Larger of two; NaN wins; +0 above -0. -/
def maxF (a b : Nat) : Nat :=
  if isNan32 a || isNan32 b then nan32
  else if isZero32 a && isZero32 b then (if neg32 a then b else a)
  else match f32 a, f32 b with
    | .inf s, _ => if s then b else a
    | _, .inf s => if s then a else b
    | x, y => if x.dy.lt y.dy then b else a

/-- Smaller of two; NaN wins; -0 below +0. -/
def minF (a b : Nat) : Nat := negF (maxF (negF a) (negF b))

def absF (a : Nat) : Nat := if isNan32 a then nan32 else a % 2 ^ 31

/-- -1, 0 or +1; NaN stays NaN. -/
def signF (a : Nat) : Nat :=
  if isNan32 a then nan32 else if isZero32 a then 0 else zero32 (neg32 a) + 0x3F800000

/-- Va clamped to the magnitude of Sb: NaN if either is, Va unchanged when Sb is infinite. -/
def clipF (a b : Nat) : Nat :=
  if isNan32 a || isNan32 b then nan32
  else if isInf32 b then a
  else if a % 2 ^ 31 ≤ b % 2 ^ 31 then a else zero32 (neg32 a) + b % 2 ^ 31

/-- The bits of `n` below the most significant, high to low: `k` of them. -/
def lowBits : Nat → Nat → List Bool
  | 0, _ => []
  | k + 1, n => n.testBit k :: lowBits k n

/-- Sa to the power n by squaring and multiplying from the most significant bit down; n = 0 gives 1.0. -/
def pownF (a n : Nat) : Nat :=
  if n = 0 then 0x3F800000
  else (lowBits (Nat.log2 n) n).foldl (fun r b => let q := mulF r r; if b then mulF q a else q) (canon32 a)

/-- A signed integer as FP32, exact for eight bits. -/
def intF (x : Int) : Nat := pack32 (.fin ⟨x, 0⟩) false

/-! ### Wide stores and loads (R229, R230) -/

/-- LD of one value: FP32, every zero +0. -/
def ldF (v : Val) : Nat := code32 v

/-- The code stored for FP32 code `c` under tensor exponent `te`: its quotient by 2^te to nearest-even. -/
def st32 (te : Int) (c : Nat) : Nat :=
  if isZero32 c then zero32 (neg32 c) else pack32 ((f32 c).scale (-te)) (neg32 c)

/-- A stored BF16 code widened to the bits of FP32. -/
def widen16 (c : Nat) : Nat := c * 2 ^ 16

/-- A finite nonzero magnitude of a BF16 store rounded stochastically between its two finite neighbours (R125). -/
def stoch16 (y : Dy) (u : Nat) : Val :=
  let top := y.log2
  let ulp := max (top - 7) (-133)
  if ulp ≤ y.e then .fin y
  else
    let sh := (ulp - y.e).toNat
    let lo := y.m.natAbs / 2 ^ sh
    let t := 256 * (y.m.natAbs % 2 ^ sh) / 2 ^ sh
    .fin ⟨((if u < t then lo + 1 else lo : Nat) : Int), ulp⟩

/-- The BF16 code stored for FP32 code `c`: a magnitude above the largest finite value is always rounded to
nearest-even. -/
def st16 (te : Int) (c : Nat) (stoch : Bool) (u : Nat) : Nat :=
  let sgn := b2n (neg32 c) * 2 ^ 15
  match (f32 c).scale (-te) with
  | .fin x =>
    if x.isZero then sgn
    else if stoch && !(maxFinite 7).lt x.abs then sgn + encodeBin 7 (stoch16 x.abs u) % 2 ^ 15
    else sgn + encodeBin 7 (round16 (.fin x.abs)) % 2 ^ 15
  | w => encodeBin 7 w

/-- The value that a stored code reads back as: the code times 2^te, a zero keeping its sign. -/
def backF (te : Int) (c : Nat) : Nat := if isZero32 c then c else pack32 ((f32 c).scale te) (neg32 c)

end Sys2Proof.Machine
end

