-- ==== Sys2Proof/Machine/Update.lean ====
section
/-! DEFINITION. The update engines (R221 to R234): UPDATE_JOB and its checks, the instructions of Table 7.8, the blocked
stores of a slab, and the commit lists. -/

namespace Sys2Proof.Machine

/-! ### Engines -/

/-- The update engine of a stack. -/
def State.engine (s : State) (k : Nat) : UpdEngine := tget UpdEngine.reset s.upd.engines k

def State.putEngine (s : State) (k : Nat) (e : UpdEngine) : State :=
  { s with upd := { s.upd with engines := tset s.upd.engines k e } }

/-- The unit of the update engine of stack `k` (Table 2.5). -/
def updUnit (k : Nat) : UnitId := ⟨4, k⟩

/-! ### The job (R222 to R224) -/

namespace UpdJob

def insN (j : UpdJob) : Nat := u8At j.raw 1
def outsN (j : UpdJob) : Nat := u8At j.raw 2

/-- Stream entry of input `i`, of output `i`. -/
def inEntry (j : UpdJob) (i : Nat) : List Byte := j.entries.getD i []
def outEntry (j : UpdJob) (i : Nat) : List Byte := j.entries.getD (j.insN + i) []

/-- Descriptor of input `i`; shadow and live descriptor of output `i`. -/
def inDesc (j : UpdJob) (i : Nat) : TDesc := ⟨u64At (j.inEntry i) 0, j.descs.getD i []⟩
def outDesc (j : UpdJob) (i : Nat) : TDesc := ⟨u64At (j.outEntry i) 0, j.descs.getD (j.insN + i) []⟩
def liveDesc (j : UpdJob) (i : Nat) : TDesc := ⟨u64At (j.outEntry i) 8, j.lives.getD i []⟩

/-- Descriptors of the inputs, of the shadows, of the live outputs. -/
def ins (j : UpdJob) : List TDesc := (List.range j.insN).map (fun i => j.inDesc i)
def outs (j : UpdJob) : List TDesc := (List.range j.outsN).map (fun i => j.outDesc i)
def liveOuts (j : UpdJob) : List TDesc := (List.range j.outsN).map (fun i => j.liveDesc i)

/-- MODE bits of an entry. -/
def mode (e : List Byte) (b : Nat) : Bool := bit (u8At e 16) b

/-- Common dimensions in tiles. -/
def dims (j : UpdJob) : Nat × Nat :=
  match j.ins with
  | d :: _ => (d.dim0, d.dim1)
  | [] => (1, 1)

def tk (j : UpdJob) : Nat := cdiv j.dims.1 64
def tn (j : UpdJob) : Nat := cdiv j.dims.2 64

/-- Slab size along K (`axis` 0) or N in tiles: the largest rotation of the copies blocked on that axis. -/
def slab (j : UpdJob) (axis : Nat) : Nat :=
  (j.outs.foldl (fun m d => if d.axis = axis then Nat.max m d.rot else m) 64) / 64

/-- The tiles of the slab at tile (a, b), clipped to the grid. -/
def slabTiles (j : UpdJob) (a b : Nat) : List Nat :=
  (List.range (Nat.min (j.slab 1) (j.tn - b))).flatMap (fun y =>
    (List.range (Nat.min (j.slab 0) (j.tk - a))).map (fun x => (b + y) * j.tk + (a + x)))

/-- Every slab of the grid: its first K and N index and its tiles. -/
def allSlabs (j : UpdJob) : List (Nat × Nat × List Nat) :=
  (List.range (cdiv j.tn (j.slab 1))).flatMap (fun y => (List.range (cdiv j.tk (j.slab 0))).map (fun x =>
    (64 * (x * j.slab 0), 64 * (y * j.slab 1), j.slabTiles (x * j.slab 0) (y * j.slab 1))))

def tileFirst (j : UpdJob) : Nat := u32At j.raw 4
def tileCount (j : UpdJob) : Nat := u32At j.raw 8

def inRegion (j : UpdJob) (t : Nat) : Bool := decide (j.tileFirst ≤ t) && decide (t < j.tileFirst + j.tileCount)

/-- The slabs of the region. -/
def region (j : UpdJob) : List (Nat × Nat × List Nat) := j.allSlabs.filter (fun x => x.2.2.any j.inRegion)

end UpdJob

/-- A job as its engine reads it at slot start, with its stream entries and their descriptors, its parameters and schedule word,
and the words of its program (R96, R222). -/
def State.readJob (s : State) (addr : Nat) : UpdJob :=
  let raw := s.descLoad addr 64
  let n := u8At raw 1 + u8At raw 2
  let es := (List.range n).map (fun i => s.descLoad (u64At raw 16 + 32 * i) 32)
  let len := u32At raw 12
  let w := progWords (s.progImage (u8At raw 0))
  let j : UpdJob :=
    { addr := addr, raw := raw, entries := es, descs := es.map (fun e => s.descLoad (u64At e 0) 64),
      lives := (es.drop (u8At raw 1)).map (fun e => s.descLoad (u64At e 8) 64),
      params := (List.range 16).map (fun i => u32At (s.descLoad (u64At raw 24 + 4 * i) 4) 0),
      sched := u32At (s.descLoad (u64At raw 32 + 4 * Nat.min s.upd.t.toNat (len - 1)) 4) 0,
      prologue := w.1, body := w.2, slabs := [] }
  { j with slabs := j.region }

/-- The reads that the job's own tables need: job, entries, parameters, schedule. DESIGN CHOICE, log entry 72: these tables, and the
descriptors that the entries name, may lie in any memory that the engine may read; R30's own stack binds the planes (R223, R334). -/
def jobTables (j : UpdJob) : List (Nat × Nat × Bool) :=
  [(j.addr, 64, false), (u64At j.raw 16, 32 * (j.insN + j.outsN), false), (u64At j.raw 24, 64, false),
   (u64At j.raw 32, 4 * u32At j.raw 12, false)]

/-- The job's own fields (Table 7.6) against its program's header. -/
def State.jobFieldsOk (s : State) (j : UpdJob) : Bool :=
  let slot := u8At j.raw 0
  let im := s.progImage slot
  j.addr % 64 == 0 && decide (slot ≤ 15) && s.progLoaded slot && u8At j.raw 3 == 0 && zeroBytes j.raw 40 24
    && inRange j.insN 1 8 && inRange j.outsN 1 8 && j.insN == imageIns im && j.outsN == imageOuts im
    && inRange (u32At j.raw 12) 1 (2 ^ 20)

/-- A stream entry's fields (Table 7.7). -/
def entryFieldsOk (input : Bool) (e : List Byte) : Bool :=
  decide (u8At e 16 < 32) && decide (u8At e 17 ≤ 8) && zeroBytes e 18 2 && zeroBytes e 24 8
    && (!input || u64At e 8 == 0)

/-- An output stream against its live descriptor and its mode (R117, R119, R223, R292). -/
def UpdJob.outOk (j : UpdJob) (i : Nat) : Bool :=
  let d := j.outDesc i
  let l := j.liveDesc i
  let e := j.outEntry i
  let same := fun (a n : Nat) => slice d.raw a n == slice l.raw a n
  same 0 6 && same 7 1 && same 48 12 && same 61 3
    && (d.axis == 0 || UpdJob.mode e 4)
    && (!d.fmt.blocked || d.fmt.four || !(d.outliers || d.fallback))
    && (!UpdJob.mode e 1 || decide (d.dim0 * d.dim1 ≤ 2 ^ 44))

/-- PRUNE_TOP4 on SPARSE48 streams only, and PRUNE_LINK only beside one, whichever stream sets it (R223). -/
def UpdJob.pruneOk (j : UpdJob) : Bool :=
  let ds := j.ins ++ j.outs
  (j.entries.zip ds).all (fun x => !UpdJob.mode x.1 2 || x.2.sparse)
    && (j.entries.all (fun e => !UpdJob.mode e 3) || ds.any (fun d => d.sparse))

/-- The planes of a list of tensors. -/
def allPlanes (ds : List TDesc) : List (Nat × Nat) := ds.flatMap (fun d => d.planes)

/-- Pairs that a job would add to its stack's commit list (R232). -/
def State.newPairs (s : State) (k : Nat) (j : UpdJob) : List UpdPair :=
  ((List.range j.outsN).map (fun i => ({ shadow := (j.outDesc i).addr, live := (j.liveDesc i).addr, tiles := [] } : UpdPair))
    ).filter (fun p => !(s.commitList k).any (fun q => q.shadow == p.shadow && q.live == p.live))

/-- A shadow of a pair already in a commit list of the step. -/
def State.isShadow (s : State) (addr : Nat) : Bool :=
  s.upd.lists.any (fun l => l.2.any (fun p => p.shadow == addr))

/-- The stack's commit list would exceed 4,096 pairs. -/
def State.listFull (s : State) (k : Nat) (j : UpdJob) : Bool :=
  decide (4096 < (s.commitList k).length + (s.newPairs k j).length)

/-- Every check of R223 and R334. -/
def State.updJobOk (s : State) (k : Nat) (j : UpdJob) : Bool :=
  let ds := j.ins ++ j.outs ++ j.liveOuts
  s.jobFieldsOk j
    && (List.range j.insN).all (fun i => entryFieldsOk true (j.inEntry i)
      && ((j.inDesc i).axis == 0 || UpdJob.mode (j.inEntry i) 4) && !s.isShadow (j.inDesc i).addr)
    && (List.range j.outsN).all (fun i => entryFieldsOk false (j.outEntry i) && j.outOk i)
    && ds.all (fun d => d.addr % 64 == 0 && d.ok && d.dim0 == j.dims.1 && d.dim1 == j.dims.2)
    && (allPlanes ds).all (fun p => s.inStack k p.1 p.2)
    && (allPlanes j.outs).all (fun p => (allPlanes (j.ins ++ j.liveOuts)).all (fun q => !overlaps p q))
    && decide (j.tileFirst + j.tileCount ≤ j.tk * j.tn) && j.slabs.all (fun x => x.2.2.all j.inRegion)
    && j.pruneOk
    && !s.listFull k j

/-- A refused job (R223): flagged, counted, nothing written, the step uncommittable. -/
def State.refuseJob (s : State) (k : Nat) (ref : SlotRef) (full : Bool) : State :=
  let s1 := (s.stick Reg.UPD_STATUS 3).bump Reg.UPD_CNT_REFUSED 1
  (if full then s1.stick Reg.UPD_STATUS 4 else s1).refuseRun (updUnit k) (some ref) .descInvalid

/-- The job's pairs join the commit list of its stack. -/
def State.addPairs (s : State) (k : Nat) (j : UpdJob) : State :=
  { s with upd := { s.upd with lists := tset s.upd.lists k (s.commitList k ++ s.newPairs k j) } }

/-- An accepted job starts at the first word of its prologue; a slot runs one job. -/
def State.startJob (s : State) (k : Nat) (ref : SlotRef) (j : UpdJob) : State :=
  ((s.addPairs k j).putEngine k { UpdEngine.reset with job := some j }).setRun ref (fun r => { r with steps := 1 })

/-- UPDATE_JOB (R222): the engine of a running update slot reads its job and starts it, or refuses it. -/
def execUpdateJob (stack : BitVec 3) (desc : BitVec 64) (s : State) : Out :=
  let k := stack.toNat
  .next (match s.runAt (updUnit k) desc.toNat, (s.engine k).job with
    | some r, none =>
      let j := (s.slotView r).readJob desc.toNat
      if r.steps ≠ 0 then s
      else if !s.jobFieldsOk j then s.refuseJob k r.ref false
      else s.guarded (updUnit k) (some r.ref) (jobTables j) (fun s =>
        if s.updJobOk k j then s.startJob k r.ref j else s.refuseJob k r.ref (s.listFull k j))
    | _, _ => s)

/-! ### Instructions (Table 7.8) -/

/-- The word that the engine of a stack executes next. -/
def UpdEngine.word (e : UpdEngine) : Option Nat :=
  match e.job with
  | some j => (if e.inBody then j.body else j.prologue)[e.pc]?
  | none => none

/-- One instruction of stack `k`: `f` does its work where word `w` is the engine's next word and its slot runs;
otherwise nothing happens (log entry 6). -/
def State.updStep (s : State) (k w : Nat) (f : SlotRun → UpdJob → UpdEngine → State → State) : State :=
  let e := s.engine k
  match e.job, s.runOf (updUnit k) with
  | some j, some r => if e.word = some w then f r j e s else s
  | _, _ => s

/-- Scalar register `i`, and a scalar written with the next word to follow. -/
def UpdEngine.sc (e : UpdEngine) (i : BitVec 4) : Nat := tget 0 e.scalars i.toNat
def UpdEngine.setSc (e : UpdEngine) (d : BitVec 4) (v : Nat) : UpdEngine :=
  { e with scalars := tset e.scalars d.toNat (canon32 v), pc := e.pc + 1 }

/-- Vector register `i`, and a vector written with the next word to follow. -/
def UpdEngine.vec (e : UpdEngine) (i : BitVec 4) : List Nat := tget (List.replicate 4096 0) e.vectors i.toNat
def UpdEngine.setVec (e : UpdEngine) (d : BitVec 4) (v : List Nat) : UpdEngine :=
  { e with vectors := tset e.vectors d.toNat (v.map canon32), pc := e.pc + 1 }

/-- A scalar instruction: its result into Sd. -/
def State.scalarOp (s : State) (k w : Nat) (d : BitVec 4) (v : UpdJob → UpdEngine → Nat) : State :=
  s.updStep k w (fun _ j e s => s.putEngine k (e.setSc d (v j e)))

/-- A vector instruction: its result into Vd. -/
def State.vectorOp (s : State) (k w : Nat) (d : BitVec 4) (v : UpdEngine → List Nat) : State :=
  s.updStep k w (fun _ _ e s => s.putEngine k (e.setVec d (v e)))

/-- Operand fields as a word. -/
def regWord (op : Nat) (d a b c : BitVec 4) (imm : Nat) : Nat := updWord op d.toNat a.toNat b.toNat c.toNat imm

/-- SLDP: Sd = parameter word imm. -/
def execSldp (stack : BitVec 3) (d : BitVec 4) (imm : BitVec 16) (s : State) : Out :=
  .next (s.scalarOp stack.toNat (regWord 0x01 d 0 0 0 imm.toNat) d (fun j _ => j.params.getD imm.toNat 0))

/-- SLDI: Sd = imm as s8, converted exactly; the operand is the signed number. -/
def execSldi (stack : BitVec 3) (d : BitVec 4) (imm : BitVec 32) (s : State) : Out :=
  .next (if -128 ≤ imm.toInt ∧ imm.toInt ≤ 127 then
      s.scalarOp stack.toNat (regWord 0x02 d 0 0 0 (imm.toNat % 256)) d (fun _ _ => intF imm.toInt)
    else s)

/-- SLDT: Sd = schedule word min(t, SCHED_LEN - 1). The instruction uses no immediate. -/
def execSldt (stack : BitVec 3) (d : BitVec 4) (imm : BitVec 16) (s : State) : Out :=
  .next (s.scalarOp stack.toNat (regWord 0x03 d 0 0 0 imm.toNat) d (fun j _ => j.sched))

/-- SADD. -/
def execSadd (stack : BitVec 3) (d a b : BitVec 4) (s : State) : Out :=
  .next (s.scalarOp stack.toNat (regWord 0x04 d a b 0 0) d (fun _ e => addF (e.sc a) (e.sc b)))

/-- SSUB. -/
def execSsub (stack : BitVec 3) (d a b : BitVec 4) (s : State) : Out :=
  .next (s.scalarOp stack.toNat (regWord 0x05 d a b 0 0) d (fun _ e => subF (e.sc a) (e.sc b)))

/-- SMUL. -/
def execSmul (stack : BitVec 3) (d a b : BitVec 4) (s : State) : Out :=
  .next (s.scalarOp stack.toNat (regWord 0x06 d a b 0 0) d (fun _ e => mulF (e.sc a) (e.sc b)))

/-- SDIV. -/
def execSdiv (stack : BitVec 3) (d a b : BitVec 4) (s : State) : Out :=
  .next (s.scalarOp stack.toNat (regWord 0x07 d a b 0 0) d (fun _ e => divF (e.sc a) (e.sc b)))

/-- SSQRT. -/
def execSsqrt (stack : BitVec 3) (d a : BitVec 4) (s : State) : Out :=
  .next (s.scalarOp stack.toNat (regWord 0x08 d a 0 0 0) d (fun _ e => sqrtF (e.sc a)))

/-- SPOWN: Sd = Sa^(t + imm). -/
def execSpown (stack : BitVec 3) (d a : BitVec 4) (imm : BitVec 16) (s : State) : Out :=
  .next (s.scalarOp stack.toNat (regWord 0x09 d a 0 0 imm.toNat) d
    (fun _ e => pownF (e.sc a) (s.upd.t.toNat + imm.toNat)))

/-- Element by element over one, two and three vectors. -/
def vec2 (f : Nat → Nat → Nat) (a b : List Nat) : List Nat := List.zipWith f a b
def vec3 (f : Nat → Nat → Nat → Nat) (a b c : List Nat) : List Nat := List.zipWith (fun (x : Nat × Nat) z => f x.1 x.2 z) (a.zip b) c

/-- VADD. -/
def execVadd (stack : BitVec 3) (d a b : BitVec 4) (s : State) : Out :=
  .next (s.vectorOp stack.toNat (regWord 0x30 d a b 0 0) d (fun e => vec2 addF (e.vec a) (e.vec b)))

/-- VSUB. -/
def execVsub (stack : BitVec 3) (d a b : BitVec 4) (s : State) : Out :=
  .next (s.vectorOp stack.toNat (regWord 0x31 d a b 0 0) d (fun e => vec2 subF (e.vec a) (e.vec b)))

/-- VMUL. -/
def execVmul (stack : BitVec 3) (d a b : BitVec 4) (s : State) : Out :=
  .next (s.vectorOp stack.toNat (regWord 0x32 d a b 0 0) d (fun e => vec2 mulF (e.vec a) (e.vec b)))

/-- VDIV. -/
def execVdiv (stack : BitVec 3) (d a b : BitVec 4) (s : State) : Out :=
  .next (s.vectorOp stack.toNat (regWord 0x33 d a b 0 0) d (fun e => vec2 divF (e.vec a) (e.vec b)))

/-- VFMA. -/
def execVfma (stack : BitVec 3) (d a b c : BitVec 4) (s : State) : Out :=
  .next (s.vectorOp stack.toNat (regWord 0x34 d a b c 0) d (fun e => vec3 fmaF (e.vec a) (e.vec b) (e.vec c)))

/-- VADDS. -/
def execVadds (stack : BitVec 3) (d a b : BitVec 4) (s : State) : Out :=
  .next (s.vectorOp stack.toNat (regWord 0x35 d a b 0 0) d (fun e => (e.vec a).map (fun x => addF x (e.sc b))))

/-- VMULS. -/
def execVmuls (stack : BitVec 3) (d a b : BitVec 4) (s : State) : Out :=
  .next (s.vectorOp stack.toNat (regWord 0x36 d a b 0 0) d (fun e => (e.vec a).map (fun x => mulF x (e.sc b))))

/-- VFMAS. -/
def execVfmas (stack : BitVec 3) (d a b c : BitVec 4) (s : State) : Out :=
  .next (s.vectorOp stack.toNat (regWord 0x37 d a b c 0) d
    (fun e => vec2 (fun x z => fmaF x (e.sc b) z) (e.vec a) (e.vec c)))

/-- VSQRT. -/
def execVsqrt (stack : BitVec 3) (d a : BitVec 4) (s : State) : Out :=
  .next (s.vectorOp stack.toNat (regWord 0x38 d a 0 0 0) d (fun e => (e.vec a).map sqrtF))

/-- VMAX. -/
def execVmax (stack : BitVec 3) (d a b : BitVec 4) (s : State) : Out :=
  .next (s.vectorOp stack.toNat (regWord 0x39 d a b 0 0) d (fun e => vec2 maxF (e.vec a) (e.vec b)))

/-- VMIN. -/
def execVmin (stack : BitVec 3) (d a b : BitVec 4) (s : State) : Out :=
  .next (s.vectorOp stack.toNat (regWord 0x3A d a b 0 0) d (fun e => vec2 minF (e.vec a) (e.vec b)))

/-- VABS. -/
def execVabs (stack : BitVec 3) (d a : BitVec 4) (s : State) : Out :=
  .next (s.vectorOp stack.toNat (regWord 0x3B d a 0 0 0) d (fun e => (e.vec a).map absF))

/-- VNEG. -/
def execVneg (stack : BitVec 3) (d a : BitVec 4) (s : State) : Out :=
  .next (s.vectorOp stack.toNat (regWord 0x3C d a 0 0 0) d (fun e => (e.vec a).map negF))

/-- VSIGN. -/
def execVsign (stack : BitVec 3) (d a : BitVec 4) (s : State) : Out :=
  .next (s.vectorOp stack.toNat (regWord 0x3D d a 0 0 0) d (fun e => (e.vec a).map signF))

/-- VCLIPS. -/
def execVclips (stack : BitVec 3) (d a b : BitVec 4) (s : State) : Out :=
  .next (s.vectorOp stack.toNat (regWord 0x3E d a b 0 0) d (fun e => (e.vec a).map (fun x => clipF x (e.sc b))))

/-- VMOV. -/
def execVmov (stack : BitVec 3) (d a : BitVec 4) (s : State) : Out :=
  .next (s.vectorOp stack.toNat (regWord 0x3F d a 0 0 0) d (fun e => e.vec a))

/-! ### LD and ST (R229 to R231) -/

/-- The tile that the engine works on: its K and N tile indices. -/
def UpdJob.cur (j : UpdJob) : Nat × Nat :=
  match j.slabs with
  | (_, _, t :: _) :: _ => (t % j.tk, t / j.tk)
  | _ => (0, 0)

/-- The 4,096 values of a tile in row-major order, K by N. -/
def State.tileVals (s : State) (d : TDesc) (a b : Nat) : List Val :=
  if d.axis = 0 then
    let cols := ((List.range 64).map (fun n => (s.lineVals d (64 * a) (64 * b + n) 64).toArray)).toArray
    (List.range 4096).map (fun i => (cols.getD (i % 64) #[]).getD (i / 64) Val.zero)
  else (List.range 64).flatMap (fun k => s.lineVals d (64 * b) (64 * a + k) 64)

/-- Blocked and other index of the first element of tile (a, b). -/
def tileAt (d : TDesc) (a b : Nat) : Nat × Nat := d.placed (64 * a) (64 * b)

/-- The bytes of a tile's element and scale planes, as an access. -/
def tileAccess (d : TDesc) (a b : Nat) (w : Bool) : List (Nat × Nat × Bool) :=
  let x := tileAt d a b
  let t := d.tile x.1 x.2
  (d.blockAddr t 0, d.tileBytes, w) :: (if d.fmt.blocked then [(d.scaleAddr + 128 * t, 128, w)] else [])

/-- LD (R229). -/
def execLd (stack : BitVec 3) (d stream : BitVec 4) (s : State) : Out :=
  let k := stack.toNat
  .next (s.updStep k (regWord 0x20 d stream 0 0 0) (fun r j e s =>
    let t := j.inDesc stream.toNat
    let c := j.cur
    let x := tileAt t c.1 c.2
    s.guarded (updUnit k) (some r.ref) (tileAccess t c.1 c.2 false) (fun s =>
      (s.countRead (some r.ref) t (regionBlocks t x.1 64 x.2 64)).putEngine k (e.setVec d ((s.tileVals t c.1 c.2).map ldF)))))

/-- Whether element `i` of tile (a, b) lies in the tensor. -/
def inTensor (d : TDesc) (a b i : Nat) : Bool := decide (64 * a + i / 64 < d.dim0) && decide (64 * b + i % 64 < d.dim1)

/-- Magnitudes compared: an infinite value is the largest; NaN counts as zero (DESIGN CHOICE, log entry 73). -/
def magLt (x y : Val) : Bool :=
  match x, y with
  | .inf _, _ => false
  | _, .inf _ => true
  | a, b => a.dy.abs.lt b.dy.abs

/-- The four positions of a group of eight with the largest magnitudes, lower positions first on a tie, as a pattern
index (R231, R299). -/
def top4 (g : List Val) : Nat :=
  let v := fun (q : Nat) => g.getD q Val.zero
  let beats := fun (p q : Nat) => magLt (v q) (v p) || (decide (p < q) && !magLt (v p) (v q))
  patternIndex ((List.range 8).filter (fun q =>
    decide (((List.range 8).filter (fun p => beats p q)).length < 4)))

/-- The four pattern indices of a block from its values. -/
def prunePatterns (vs : List Val) : List Nat := (List.range 4).map (fun g => top4 ((vs.drop (8 * g)).take 8))

/-- The four metadata bytes that a descriptor's plane holds for a block. -/
def State.metaPatterns (s : State) (d : TDesc) (i o : Nat) : List Nat :=
  let t := d.tile i o
  (s.load (d.metaAddr + 4 * (128 * t + (2 * (o % 64) + i % 64 / 32))) 4).map (·.toNat)

/-- Values of a blocked output held for its slab, by logical index. -/
def heldVals (j : UpdJob) (h : Tab (List Nat)) : Nat → Nat → Val :=
  let arrs := h.map (fun e => (e.1, e.2.toArray))
  fun i0 i1 =>
    if j.tk ≤ i0 / 64 ∨ j.tn ≤ i1 / 64 then Val.zero
    else f32 ((tget #[] arrs (i1 / 64 * j.tk + i0 / 64)).getD (i0 % 64 * 64 + i1 % 64) 0)

/-- Patterns of SPARSE48 output `i`: the pruned values' own, or the live descriptor's (R231). -/
def State.outPatterns (s : State) (j : UpdJob) (i : Nat) (ib o : Nat) (vs : List Val) : List Nat :=
  if UpdJob.mode (j.outEntry i) 2 then prunePatterns vs else s.metaPatterns (j.liveDesc i) ib o

/-- The output stream whose pattern a PRUNE_LINK store follows: one with PRUNE_TOP4 before another SPARSE48 one. -/
def UpdJob.pruner (j : UpdJob) : Option Nat :=
  let top := (List.range j.outsN).find? (fun i => UpdJob.mode (j.outEntry i) 2)
  match top with
  | some i => some i
  | none => (List.range j.outsN).find? (fun i => (j.outDesc i).sparse)

/-- Whether the job's SPARSE48 stream pruned the element at (K, N): by the values it holds for the slab, zero in padding as that
stream's own store takes them (R299), by the live metadata, or by an input's metadata where no output is SPARSE48. A group
whose kept index is invalid prunes nothing in the other streams (DESIGN CHOICE, log entry 73). -/
def State.pruned (s : State) (j : UpdJob) (e : UpdEngine) (kk nn : Nat) : Bool :=
  let g := kk % 8
  let has := fun (ps : List Nat) =>
    let m := ps.getD (kk % 32 / 8) 0
    !badPattern m && !(patternDecode m).contains g
  match j.pruner with
  | some i =>
    let h := tget [] e.held i
    let vals := heldVals j h
    let d := j.outDesc i
    let block := (List.range 32).map (fun q =>
      if d.dim0 ≤ kk / 32 * 32 + q ∨ d.dim1 ≤ nn then Val.zero else vals (kk / 32 * 32 + q) nn)
    has (if h.isEmpty then s.metaPatterns (j.liveDesc i) (kk / 32 * 32) nn
      else s.outPatterns j i (kk / 32 * 32) nn block)
  | none =>
    match j.ins.find? (fun d => d.sparse) with
    | some d => has (s.metaPatterns d (kk / 32 * 32) nn)
    | none => false

/-- Codes of a wide store: each element converted, zero in padding and where PRUNE_LINK prunes it. -/
def State.wideCodes (s : State) (j : UpdJob) (e : UpdEngine) (i : Nat) (v : List Nat) : List Nat :=
  let d := j.outDesc i
  let en := j.outEntry i
  let c := j.cur
  (v.zip (List.range 4096)).map (fun x =>
    let kk := 64 * c.1 + x.2 / 64
    let nn := 64 * c.2 + x.2 % 64
    if !inTensor d c.1 c.2 x.2 || (UpdJob.mode en 3 && s.pruned j e kk nn) then 0
    else if d.fmt = .fp32 then st32 d.te x.1
    else st16 d.te x.1 (UpdJob.mode en 1)
      (if UpdJob.mode en 1 then srByte s.seed (u32At en 20) s.upd.t.toNat (kk * d.dim1 + nn) else 0))

/-- The writes of a wide tile: each element at its place. -/
def wideWrites (d : TDesc) (a b : Nat) (codes : List Nat) : List (Nat × List Byte) :=
  (codes.zip (List.range 4096)).map (fun x =>
    (d.wideAddr (64 * a + x.2 / 64) (64 * b + x.2 % 64), toLe (d.fmt.nibbles / 2) x.1))

/-- FP32 bits of a stored wide code. -/
def wide32 (f : Format) (c : Nat) : Nat := if f = .bf16 then widen16 c else c

/-- Tiles written to a shadow, in its pair of the commit list (R234). -/
def State.markTiles (s : State) (k shadow : Nat) (ts : List Nat) : State :=
  let l := (s.commitList k).map (fun p =>
    if p.shadow = shadow then { p with tiles := p.tiles ++ ts.filter (fun t => !p.tiles.contains t) } else p)
  { s with upd := { s.upd with lists := tset s.upd.lists k l } }

/-- The effects of non-finite values stored. -/
def nonfinEffects (n : Nat) : Effects :=
  if n = 0 then Effects.empty
  else { Effects.empty with bumps := [(Reg.UPD_CNT_NONFIN, n)], bits := [(Reg.UPD_STATUS, 0)] }

/-- A wide store: the tile written, Vb replaced by what it reads back as, non-finite values reported. -/
def State.stWide (s : State) (k : Nat) (r : SlotRun) (j : UpdJob) (e : UpdEngine) (a : BitVec 4) (i : Nat) : State :=
  let d := j.outDesc i
  let c := j.cur
  let codes := s.wideCodes j e i (e.vec a)
  let back := codes.map (fun x => backF d.te (wide32 d.fmt x))
  let nf := (codes.filter (fun x => isNan32 (wide32 d.fmt x) || isInf32 (wide32 d.fmt x))).length
  let x := tileAt d c.1 c.2
  let rep : Report := { tensor := d.id, byStat := false, stat := none, counts := [0, 0, 0, 0, 0, 0, nf], tile := 0 }
  (((s.stores (wideWrites d c.1 c.2 codes)).markTiles k d.addr [d.tile x.1 x.2]).putEngine k (e.setVec a back)).charge
    (some r.ref) ((nonfinEffects nf).add { Effects.empty with reports := [rep] })

/-- ST (R230): a wide tile is written at once; a blocked one is held until its slab is whole. -/
def execSt (stack : BitVec 3) (a stream : BitVec 4) (s : State) : Out :=
  let k := stack.toNat
  .next (s.updStep k (regWord 0x21 0 stream a 0 0) (fun r j e s =>
    let i := stream.toNat
    let c := j.cur
    if (j.outDesc i).fmt.blocked then
      s.putEngine k { e with
        held := tset e.held i (tset (tget [] e.held i) (c.2 * j.tk + c.1) (e.vec a)), pc := e.pc + 1 }
    else s.guarded (updUnit k) (some r.ref) (tileAccess (j.outDesc i) c.1 c.2 true) (fun s => s.stWide k r j e a i)))

/-! ### END -/

/-- The layout of a blocked output over the slab at (k0, n0). -/
def State.slabLayout (s : State) (j : UpdJob) (e : UpdEngine) (i : Nat) : Layout :=
  let d := j.outDesc i
  let en := j.outEntry i
  { d := d, r := ⟨UpdJob.mode en 0, UpdJob.mode en 1, d.saturate⟩, stream := u32At en 20, seed := s.seed,
    step := s.upd.t.toNat,
    x := if u8At en 17 = 0 then s.regField Reg.QNT_CFG 0 2 + 1 else u8At en 17,
    values := heldVals j (tget [] e.held i),
    patterns := fun ib o vs => s.outPatterns j i ib o vs,
    zeroAt := fun ib o => UpdJob.mode en 3 && (let x := d.logical ib o; s.pruned j e x.1 x.2) }

/-- Extents of the slab at (k0, n0) in a copy: blocked start and extent, other start and extent. Along its blocked axis
a copy runs to its padded length; along the other to the grid. -/
def slabExtent (j : UpdJob) (d : TDesc) (k0 n0 : Nat) : Nat × Nat × Nat × Nat :=
  let x := d.placed k0 n0
  let oth := if d.axis = 0 then (64 * j.slab 1, 64 * j.tn) else (64 * j.slab 0, 64 * j.tk)
  (x.1, Nat.min (64 * j.slab d.axis) (d.pb - x.1), x.2, Nat.min oth.1 (oth.2 - x.2))

/-- Tiles of a copy that a slab's extents cover. -/
def slabCover (d : TDesc) (x : Nat × Nat × Nat × Nat) : List Nat :=
  (List.range (x.2.2.2 / 64)).flatMap (fun o => (List.range (x.2.1 / 64)).map (fun i =>
    d.tile (x.1 + 64 * i) (x.2.2.1 + 64 * o)))

/-- Invalid live patterns that a SPARSE48 store without PRUNE_TOP4 reads over a slab, each once (R298). -/
def State.liveBad (s : State) (j : UpdJob) (i : Nat) (x : Nat × Nat × Nat × Nat) : Nat :=
  let d := j.outDesc i
  if d.sparse && !UpdJob.mode (j.outEntry i) 2 then
    sumNat ((List.range x.2.2.2).flatMap (fun o => (List.range (x.2.1 / 32)).map (fun b =>
      let ib := x.1 + 32 * b
      if d.db ≤ ib ∨ d.do' ≤ x.2.2.1 + o then 0
      else ((s.metaPatterns (j.liveDesc i) ib (x.2.2.1 + o)).filter badPattern).length)))
  else 0

/-- A finished slab of blocked output `i` converted and written (R115 to R143). -/
def State.stBlocked (s : State) (k : Nat) (r : SlotRun) (j : UpdJob) (e : UpdEngine) (k0 n0 i : Nat) : State :=
  let d := j.outDesc i
  let x := slabExtent j d k0 n0
  let q := (s.slabLayout j e i).region x.1 x.2.1 x.2.2.1 x.2.2.2
  (((s.countMeta (s.liveBad j i x)).stores q.1).markTiles k d.addr (slabCover d x)).charge (some r.ref)
    ((quantEffects d.id q.2).add (nonfinEffects (32 * q.2.nonfin)))

/-- Every blocked output of a finished slab. -/
def State.endSlab (s : State) (k : Nat) (r : SlotRun) (j : UpdJob) (e : UpdEngine) (k0 n0 : Nat) : State :=
  ((List.range j.outsN).filter (fun i => (j.outDesc i).fmt.blocked)).foldl
    (fun (s : State) i => s.stBlocked k r j e k0 n0 i) s

/-- The engine at the first word of the body for the tiles left, or idle where none is left. -/
def UpdEngine.nextTile (e : UpdEngine) (j : UpdJob) (slabs : List (Nat × Nat × List Nat)) : UpdEngine :=
  if slabs.isEmpty then UpdEngine.reset
  else { e with job := some { j with slabs := slabs }, inBody := true, pc := 0, vectors := [] }

/-- The end of a body: the tile is done and counted; the last tile of a slab writes its blocked outputs. -/
def State.endTile (s : State) (k : Nat) (r : SlotRun) (j : UpdJob) (e : UpdEngine) : State :=
  let s1 := s.charge (some r.ref) { Effects.empty with bumps := [(Reg.UPD_CNT_TILES, 1)] }
  match j.slabs with
  | (k0, n0, _ :: t :: ts) :: rest => s1.putEngine k (e.nextTile j ((k0, n0, t :: ts) :: rest))
  | (k0, n0, _) :: rest =>
    (s1.endSlab k r j e k0 n0).putEngine k (({ e with held := [] } : UpdEngine).nextTile j rest)
  | [] => s1.putEngine k UpdEngine.reset

/-- END: of the prologue, the body begins; of the body, the next tile. -/
def execEndProg (stack : BitVec 3) (s : State) : Out :=
  let k := stack.toNat
  .next (s.updStep k (updWord 0 0 0 0 0 0) (fun r j e s =>
    if e.inBody then s.endTile k r j e else s.putEngine k (e.nextTile j j.slabs)))

/-! ### Coverage and the exchange (R232, R234, R235) -/

/-- Every tile of a pair's shadow has been written in the step. -/
def State.covered (s : State) (p : UpdPair) : Bool := decide ((s.tdesc p.shadow).tiles ≤ p.tiles.length)

/-- COVER: a shortfall in any stack's list (R234). -/
def State.coverFails (s : State) : Bool := s.upd.lists.any (fun l => l.2.any (fun p => !s.covered p))

/-- The contents of the live and shadow descriptors of every pair exchanged (R235). -/
def State.exchange (s : State) : State :=
  s.upd.lists.foldl (fun (s : State) l => l.2.foldl (fun (s : State) p => s.swapDesc p.shadow p.live) s) s

/-! ### Commands (Table 7.11) -/

/-- The failure index word of R578. -/
def failWord (kind i : Nat) : Nat := kind * 2 ^ 30 + i

/-- The descriptor as a whole (R208). -/
def stepWholeOk (b : List Byte) (len f : Nat) : Bool :=
  let n := stepRounds b
  len == 192 && u32At b 0 == 0x50455453 && u16At b 4 == 1 && inRange n 1 16 && u8At b 7 == 0 && zeroBytes b 16 48
    && zeroBytes b (64 + 8 * n) (128 - 8 * n) && decide (5 ≤ f) && decide (bwdFirst b (n - 1) ≤ u32At b 12)
    && decide (u32At b 12 + 2 ≤ f)

/-- The first round that fails. -/
def stepRoundFail (b : List Byte) (f : Nat) : Option Nat :=
  let n := stepRounds b
  (List.range n).find? (fun r =>
    !((r != 0 || fwdFirst b 0 == 0) && decide (fwdFirst b r < bwdFirst b r)
      && decide (bwdFirst b r < if r + 1 = n then f - 1 else fwdFirst b (r + 1))))

/-- The first frame or slot that fails, as a failure index word. -/
def stepFrameFail (b : List Byte) (p : Program) (wc : Nat) : Option Nat :=
  let f := p.frames.length
  firstSome (fun (x : Nat × FrameEntry) =>
    if x.2.stepEnd != (x.1 + 1 == f) then some (failWord 0 x.1)
    else firstSome (fun i =>
      match p.slots[x.2.slotOffset + i]? with
      | some d =>
        if (d.kind == 4 && (decide (x.1 < u32At b 12) || x.1 + 1 == f))
            || (x.1 + 1 == f && decide (2 ^ p.lenExp < d.endThr + wc))
        then some (failWord 1 (x.2.slotOffset + i)) else none
      | none => none) (List.range x.2.slotCount)) ((List.range f).zip p.frames)

/-- The bank that holds a program: 0 current, 1 standby. -/
def State.progBank (s : State) (id : Nat) : Option Nat :=
  if s.frm.curProg.any (fun p => p.progId == id) then some 0
  else if s.frm.standbyProg.any (fun p => p.progId == id) then some 1 else none

def State.bankProg (s : State) (b : Nat) : Option Program := if b = 0 then s.frm.curProg else s.frm.standbyProg

/-- The failure of a step descriptor against the program of a bank. -/
def State.stepFail (s : State) (b : List Byte) (len : Nat) : Option Nat :=
  match (s.progBank (u32At b 8)).bind (fun k => s.bankProg k) with
  | none => some 0xFFFFFFFF
  | some p =>
    if !stepWholeOk b len p.frames.length then some 0xFFFFFFFF
    else match stepRoundFail b p.frames.length with
      | some r => some (failWord 2 r)
      | none => stepFrameFail b p s.commitWin

/-- A step descriptor attached to the program it names. -/
def State.attachStep (s : State) (b : List Byte) : State :=
  let put := fun (p : Program) => { p with step := some ⟨u32At b 8, b⟩ }
  if s.progBank (u32At b 8) = some 0 then { s with frm := { s.frm with curProg := s.frm.curProg.map put } }
  else { s with frm := { s.frm with standbyProg := s.frm.standbyProg.map put } }

/-- TRAIN_STEP_CONFIG (R208). -/
def execTrainStepConfig (m : BitVec 6) (s : State) : Out :=
  .next (s.welfy 0x0640 m fun ps s =>
    let src := u64At ps 0
    if !s.paramOk src 192 false then s.no .addrInvalid
    else
      let b := s.load src 192
      match s.stepFail b (u32At ps 8) with
      | some w => ⟨.planInvalid, 0, toLe 4 (u32At b 8) ++ toLe 4 w, s⟩
      | none => (s.attachStep b).ok (toLe 4 (u32At b 8) ++ toLe 4 0xFFFFFFFF))

/-- STEP_SET (R240). -/
def execStepSet (m : BitVec 6) (s : State) : Out :=
  .next (s.welfy 0x0641 m fun ps s =>
    if s.upd.commit ≠ .idle then s.no .runLock
    else ({ s with upd := { s.upd with stepNext := some (BitVec.ofNat 64 (u64At ps 0)) } }).ok [])

/-- An update engine has a slot in the current frame. -/
def State.unitInFrame (s : State) (ty : Nat) : Bool :=
  s.frm.epoch != 0 && !s.frm.noSlots && s.frameSlots.any (fun d => d.2.unit.ty == ty)

/-- UPD_PROGRAM_LOAD (R226, R241): in force at the next tick. -/
def execUpdProgramLoad (m : BitVec 6) (s : State) : Out :=
  .next (s.welfy 0x0642 m fun ps s =>
    let src := u64At ps 0
    let slot := u8At ps 8
    let size := fun (im : List Byte) => 16 + 4 * (imagePrologue im + imageBody im)
    if s.unitInFrame 4 then s.no .runLock
    else if 15 < slot then s.bad 8
    else if slot < 4 then ⟨.progInvalid, 0, toLe 2 0 ++ toLe 2 0xFFFF, s⟩
    else if !s.paramOk src 16 false then s.no .addrInvalid
    else
      let h := s.load src 16
      if progHeaderOk h && !s.paramOk src (size h) false then s.no .addrInvalid
      else
        let im := if progHeaderOk h then s.load src (size h) else h
        match progFail im with
        | some w => ⟨.progInvalid, 0, toLe 2 0 ++ toLe 2 w, s⟩
        | none =>
          ({ s with upd := { s.upd with progNext := s.upd.progNext ++ [(slot, im)] } }).ok
            (toLe 2 (imagePrologue im + imageBody im) ++ toLe 2 0xFFFF))

def updCounters : List Nat :=
  [Reg.UPD_CNT_TILES, Reg.UPD_CNT_NONFIN, Reg.UPD_CNT_COMMITS, Reg.UPD_CNT_DISCARDS, Reg.UPD_CNT_LATE_VERDICT,
   Reg.UPD_CNT_BWD_WAIT, Reg.UPD_CNT_REFUSED]

/-- UPD_COUNTERS (Table 7.11). -/
def execUpdCounters (m : BitVec 6) (s : State) : Out :=
  .next (s.welfy 0x0643 m fun ps s => s.countersReply updCounters (bit (u8At ps 0) 0))

/-- COMMIT_QUERY (Table 7.11). -/
def execCommitQuery (m : BitVec 6) (s : State) : Out :=
  .next (s.welfy 0x0644 m fun _ s =>
    s.ok (toLe 8 s.upd.t.toNat ++ s.regBytes [Reg.UPD_COMMIT_STATE, Reg.UPD_LIST_MAX, Reg.UPD_STATUS]))

end Sys2Proof.Machine
end

