-- ==== Sys2Proof/Machine/ArrayOps.lean ====
section
/-! DEFINITION. The array operations of a core (R152 to R170, R214 to R220): their descriptors, the order of their
checks (R583), and the rows ROW_MODE, COLUMN_MODE, BACKWARD_PAIR and GRADIENT_SUM; the commands of chapters 5 and 6. -/

namespace Sys2Proof.Machine

/-! ### The slot that a core's operation runs in -/

/-- The unit of a core (Table 2.5). -/
def coreUnit (c : BitVec 9) : UnitId := ⟨1, c.toNat⟩

/-- Running slots of a core. -/
def State.coreRuns (s : State) (c : BitVec 9) : List SlotRun :=
  s.frm.slots.filter (fun r => r.unit == coreUnit c && decide (r.phase = .running))

/-- The slot of a core in which an operation of a half runs (R168): in full mode the one slot; for a half, the slot of
that half, or one that no half has claimed. -/
def State.coreRun (s : State) (c : BitVec 9) (half : Option Bool) : Option SlotRun :=
  let rs := s.coreRuns c
  match half with
  | none => rs.find? (fun r => r.half.isNone && rs.length == 1)
  | some h =>
    match rs.find? (fun r => r.half == some (b2n h)) with
    | some r => some r
    | none => rs.find? (fun r => r.half.isNone)

/-- A slot taken by a half. -/
def State.claimHalf (s : State) (ref : SlotRef) (half : Option Bool) : State :=
  match half with
  | some h => s.setRun ref (fun r => { r with half := some (b2n h) })
  | none => s

/-! ### Refusals (R583) -/

/-- A failed check: its status and the sticky bit that it sets. -/
structure OpFail where
  status : Status
  reg : Nat
  bit : Nat

def opFail : OpFail := ⟨.descInvalid, Reg.FAC_STATUS, 4⟩
def tensorFail : OpFail := ⟨.descInvalid, Reg.QNT_STATUS, 7⟩
def epiFail : OpFail := ⟨.descInvalid, Reg.ACC_STATUS, 4⟩
def formatFail : OpFail := ⟨.formatUnsupported, Reg.FAC_STATUS, 3⟩
def layoutFail : OpFail := ⟨.layoutMismatch, Reg.QNT_STATUS, 6⟩
def pairFail : OpFail := ⟨.descInvalid, Reg.UPD_STATUS, 5⟩
def prismFail : OpFail := ⟨.prismMismatch, Reg.QNT_STATUS, 5⟩

/-- The first check of a list that fails. -/
def firstFail (cs : List (Bool × OpFail)) : Option OpFail := (cs.find? (fun x => !x.1)).map (·.2)

/-- The first refused product since clear (R136): its TENSOR_IDs kept, the refusal counted. -/
def State.prismRefused (s : State) (a b : Nat) : State :=
  let s1 := if s.reg Reg.PRS_MISMATCH_CNT == 0 then
      (s.putReg Reg.PRS_MISMATCH_A (BitVec.ofNat 32 a)).putReg Reg.PRS_MISMATCH_B (BitVec.ofNat 32 b)
    else s
  s1.bump Reg.PRS_MISMATCH_CNT 1

/-- The check that failed is flagged and the slot ends with nothing written. Only a PRISM_MISMATCH is step-fatal: class
REFUSED is raised under R136 and not under R583's other checks (Table 16.3). -/
def State.endRefused (s : State) (c : BitVec 9) (half : Option Bool) (ref : SlotRef) (x : OpFail) : State :=
  let s1 := s.stick x.reg x.bit
  (if x.status = .prismMismatch then s1.raiseFull .refused (coreUnit c) x.status.code (half == some true) else s1).failRun
    (some ref)

/-- An array operation refused (R583). -/
def State.refuseOp (s : State) (c : BitVec 9) (half : Option Bool) (ref : SlotRef) (x : OpFail) : State :=
  (s.bump Reg.FAC_CNT_REFUSED 1).endRefused c half ref x

/-- A backward-pair or gradient-sum descriptor refused (R215, R220): flagged and counted in the UPD_ block. -/
def State.refusePair (s : State) (c : BitVec 9) (half : Option Bool) (ref : SlotRef) (x : OpFail) : State :=
  ((s.bump Reg.UPD_CNT_REFUSED 1).stick Reg.UPD_STATUS 5).endRefused c half ref x

/-! ### The array operation descriptor (Table 5.2) -/

/-- An array operation descriptor as read. -/
structure AOp where
  addr : Nat
  raw : List Byte
  deriving DecidableEq, Repr

namespace AOp

def op (a : AOp) : Nat := u8At a.raw 0
def flags (a : AOp) : Nat := u8At a.raw 1
def split (a : AOp) : Bool := bit a.flags 0
def half (a : AOp) : Bool := bit a.flags 1
def maskAddr (a : AOp) : Nat := u64At a.raw 56

/-- The half that the descriptor names agrees with the one that runs it. -/
def forHalf (a : AOp) (h : Option Bool) : Bool :=
  match h with
  | none => !a.split
  | some b => a.split && a.half == b

end AOp

def State.aop (s : State) (addr : Nat) : AOp := ⟨addr, s.descLoad addr 64⟩

/-- The product that an operation forms. -/
def State.opProduct (s : State) (a : AOp) : Product :=
  { stat := s.tdesc (u64At a.raw 8), strm := s.tdesc (u64At a.raw 16), m0 := u32At a.raw 32, mlen := u32At a.raw 36,
    q0 := u32At a.raw 40, qlen := u32At a.raw 44, r0 := u32At a.raw 48, rlen := u32At a.raw 52, split := a.split,
    mask := if a.maskAddr = 0 then none else some ⟨s.descLoad a.maskAddr 32⟩ }

/-- The descriptor's own fields (R153, R580). -/
def AOp.fieldsOk (a : AOp) (p : Product) : Bool :=
  a.addr % 64 == 0 && (a.op == 1 || a.op == 2) && decide (a.flags < 4) && zeroBytes a.raw 2 6 && (a.split || !a.half)
    && p.m0 % 64 == 0 && p.mlen % 64 == 0 && p.q0 % 64 == 0 && p.qlen % 64 == 0 && p.mlen != 0 && p.qlen != 0
    && p.r0 % 64 == 0 && p.rlen % 64 == 0 && p.rlen != 0 && (!a.split || decide (p.qlen ≤ 128))

/-- The checks of R153 against the operands. -/
def AOp.rangesOk (a : AOp) (p : Product) : Bool :=
  (!p.stat.sparse || (p.r0 % 128 == 0 && p.rlen % 128 == 0 && a.op == 1))
    && decide (p.m0 + p.mlen ≤ p.strm.po) && decide (p.q0 + p.qlen ≤ p.stat.po)
    && decide (p.r0 + p.rlen ≤ p.stat.pb) && decide (p.r0 + p.rlen ≤ p.strm.pb)

/-- An index range maps inside the tiles of a mask axis. -/
def maskRange (base tiles first len : Nat) : Bool := decide (base ≤ first) && decide ((first + len - 1 - base) / 128 < tiles)

/-- The mask descriptor's checks (R302, R580). -/
def maskOk (p : Product) (e : Epi) (addr : Nat) (m : Mask) : Bool :=
  addr % 32 == 0 && u32At m.raw 0 == 0x4B53414D && decide (m.axis ≤ 1) && decide (u8At m.raw 5 < 2) && zeroBytes m.raw 6 2
    && maskRange m.qBase m.qTiles p.m0 p.mlen
    && (if m.axis = 0 then maskRange m.kBase m.kTiles p.q0 p.qlen else maskRange m.kBase m.kTiles p.r0 p.rlen)
    && (!m.fillNegInf || ((e.outFmt == 7 || e.outFmt == 6) && e.qjob == 0))

/-- A pair of operands that the array multiplies (R149, Tables 5.1 and 10.1): a 4:8 sparse tensor is stationary only. -/
def pairOk (p : Product) : Bool :=
  (pairTimes p.stat.fmt p.strm.fmt).isSome && !p.strm.sparse && (!p.stat.sparse || p.strm.fmt == p.stat.fmt)

/-- Equal Prism fields (R136). -/
def prismOk (a b : TDesc) : Bool := a.prism == b.prism && (a.prism == 0 || a.stream == b.stream)

/-- A descriptor that can be read. -/
def State.descReadable (s : State) (addr : Nat) : Bool := addr % 64 == 0 && s.accessOk addr 64 false

/-- The checks of an array operation in the order of R583; R153's bounds need both operands' descriptors, so that they are
not failed by one that cannot be read. -/
def State.opCheck (s : State) (core : Nat) (a : AOp) (p : Product) (e : Epi) : Option OpFail :=
  firstFail [(a.fieldsOk p && (a.rangesOk p || !(s.descReadable p.stat.addr && s.descReadable p.strm.addr)), opFail),
    (s.tdescOk p.stat.addr && s.tdescOk p.strm.addr, tensorFail),
    ((match p.mask with
      | some m => maskOk p e a.maskAddr m
      | none => true), opFail), (s.epiOk core p e, epiFail), (pairOk p, formatFail),
    (p.stat.axis == a.op - 1, layoutFail), (prismOk p.stat p.strm, prismFail)]

/-- Memory that a product's operands and mask name. -/
def Product.access (p : Product) : List (Nat × Nat × Bool) :=
  (p.stat.planes ++ p.strm.planes).map (fun x => (x.1, x.2, false))
    ++ (match p.mask with
      | some m => [(m.bitmap, m.rowBytes * m.qTiles, false)]
      | none => [])

/-! ### Running a product -/

/-- The passes of an operation that run: group, streamed tile, reduction pass (R154, R166, R305). -/
def State.runPasses (s : State) (p : Product) : List (Nat × Nat × Nat) :=
  p.order.flatMap (fun x => ((List.range p.passes).filter (fun n => !s.skipped p x.1 x.2 n)).map (fun n => (x.1, x.2, n)))

/-- Blocks of the stationary and of the streamed operand that the passes read: a skipped pass reads none. -/
def State.statReads (s : State) (p : Product) : List (Nat × Nat) :=
  (s.runPasses p).flatMap (fun x => (p.facets x.1).flatMap (fun q => (p.reds x.2.2).flatMap (fun r => regionBlocks p.stat r 64 q 64)))
def State.strmReads (s : State) (p : Product) : List (Nat × Nat) :=
  (s.runPasses p).flatMap (fun x => (p.reds x.2.2).flatMap (fun r => regionBlocks p.strm r 64 (p.m0 + 64 * x.2.1) 64))

/-- Plane conflicts and invalid patterns met by the reads of both operands (R145, R298). -/
def State.countOperands (s : State) (ref : SlotRef) (p : Product) : State :=
  (s.countRead (some ref) p.stat (s.statReads p)).countRead (some ref) p.strm (s.strmReads p)

/-- Passes and added ac counted. -/
def State.countTimes (s : State) (ts : List PassTimes) : State :=
  s.bumps [(Reg.FAC_CNT_PASSES, sumNat (ts.map (fun t => t.run))), (Reg.FAC_CNT_SKIPPED, sumNat (ts.map (fun t => t.skip))),
    (Reg.FAC_CNT_MIXED_AC, sumNat (ts.map (fun t => t.mixed))), (Reg.FAC_CNT_CORR_AC, sumNat (ts.map (fun t => t.corr)))]

/-- Depth of a core in ac (R158). -/
def State.depthOf (s : State) (core : Nat) : Nat := coreDepth (s.loadedRows ((s.physOf core).getD 0))

/-- A product's tiles on their way through the banks. -/
def State.bankTiles (s : State) (core : Nat) (p : Product) (drain : Nat) (ts : List PassTimes) : List BankTile :=
  (p.order.zip ts).map (fun x =>
    let gone := (p.mask.isSome && (p.facets x.1.1).all (fun q => s.maskedEl p (p.m0 + 64 * x.1.2) q))
    bankTile p (s.depthOf core) (if gone then 32 else drain) (!gone) x.2)

/-- The elements of a product, tile by tile. -/
def State.productElems (s : State) (p : Product) (start : Nat → Nat → Elem) :
    List (Nat × Nat × List (Nat × Nat × Option Elem)) :=
  p.order.map (fun x => (x.1, x.2, s.tileElems p x.1 x.2 start))

/-- What a slot's drain has done: stores at once, and with them the result words for another station, whose acknowledgement the
slot's end awaits; the rest with the slot's end; ac held for the drain counted. -/
def State.drained (s : State) (ref : SlotRef) (d : DrainOut) (stall : Nat) : State :=
  let far := d.eff.writes.filter (fun w => s.isRemote w.1)
  let e : Effects := { d.eff with writes := d.eff.writes.filter (fun w => !s.isRemote w.1) }
  (s.putsOut (some ref) (d.writes ++ far)).charge (some ref)
    (e.add { Effects.empty with bumps := [(Reg.ACC_CNT_DRAIN_AC, stall)] })

/-- An accepted array operation. -/
def State.runProduct (s : State) (core : Nat) (half : Option Bool) (ref : SlotRef) (p : Product) (e : Epi) : State :=
  let d := s.drainAll core half p e (s.productElems p (s.startElem p e))
  let ts := p.order.map (fun x => s.tileTimes p x.1 x.2)
  let stall := bankStall p.loadTime 0 0 0 (s.bankTiles core p (s.drainAc e) ts)
  ((s.countOperands ref p).countTimes ts).drained ref d stall

/-- An array operation of a core: it runs in a slot of the core that its half may use, where the descriptor names this
mode and half; otherwise nothing happens (log entry 6). -/
def State.arrayOp (s : State) (c : BitVec 9) (half : Option Bool) (desc mode : Nat) : State :=
  match s.coreRun c half with
  | none => s
  | some r =>
    let a := (s.slotView r).aop desc
    if a.op = 3 - mode || !a.forHalf half then s
    else
      let u := coreUnit c
      (s.claimHalf r.ref half).slotWork u r.ref [(desc, 64, false)] (fun s =>
        let p := s.opProduct a
        let e := s.epi (u64At a.raw 24)
        match s.opCheck c.toNat a p e with
        | some x =>
          let s1 := if x.status = .prismMismatch then s.prismRefused p.stat.id p.strm.id else s
          s1.refuseOp c half r.ref x
        | none => s.reach u r.ref (p.access ++ s.epiAccess p e) (fun s => s.runProduct c.toNat half r.ref p e))

/-- ROW_MODE (R155). -/
def execRowMode (core : BitVec 9) (half : Option Bool) (desc : BitVec 64) (s : State) : Out :=
  .next (s.arrayOp core half desc.toNat 1)

/-- COLUMN_MODE (R156). -/
def execColumnMode (core : BitVec 9) (half : Option Bool) (desc : BitVec 64) (s : State) : Out :=
  .next (s.arrayOp core half desc.toNat 2)

/-! ### The backward pair (R214 to R218) -/

/-- A backward pair as read: its descriptor and its two products. -/
structure Pair where
  raw : List Byte
  dx : Product
  dw : Product

namespace Pair

def mlen (b : Pair) : Nat := b.dx.mlen
def scratch (b : Pair) : Nat := u64At b.raw 56

end Pair

def State.backPair (s : State) (addr : Nat) : Pair :=
  let raw := s.descLoad addr 128
  let m0 := u32At raw 64
  let ml := u32At raw 68
  let k0 := u32At raw 72
  let n0 := u32At raw 76
  { raw := raw,
    dx := { stat := s.tdesc (u64At raw 8), strm := s.tdesc (u64At raw 16), m0 := m0, mlen := ml, q0 := k0, qlen := 256,
            r0 := n0, rlen := 256, split := false, mask := none },
    dw := { stat := s.tdesc (u64At raw 24), strm := s.tdesc (u64At raw 32), m0 := k0, mlen := 256, q0 := n0, qlen := 256,
            r0 := m0, rlen := ml, split := false, mask := none } }

/-- Byte ranges of an epilogue's output, the planes that its quantize job writes included, and ACC_IN areas. -/
def State.epiAreas (s : State) (p : Product) (e : Epi) : List (Nat × Nat) :=
  let recs := 16 * p.mlen * p.qlen
  (if e.isRaw then [(e.outAddr, recs)] else if e.named && !e.noStore then (s.tdesc e.outAddr).planes else [])
    ++ (if e.qjob = 0 then [] else ((s.jobAccess (s.qjob e.qjob)).filter (fun x => x.2.2)).map (fun x => (x.1, x.2.1)))
    ++ (if e.accIn then [(e.accInAddr, recs)] else [])

/-- The checks of R215 on the descriptor's own fields. -/
def State.pairFields (s : State) (core addr : Nat) (b : Pair) (ex ew : Epi) : Bool :=
  addr % 64 == 0 && u8At b.raw 0 == 0x11 && zeroBytes b.raw 1 7 && zeroBytes b.raw 80 48
    && b.dx.m0 % 128 == 0 && b.mlen % 128 == 0 && b.mlen != 0 && b.dx.q0 % 64 == 0 && b.dx.r0 % 64 == 0
    && (ew.outFmt == 7 || ew.outFmt == 0x0F) && !ew.fuse && ew.qjob == 0
    && b.scratch % 256 == 0 && s.ownStore core b.scratch (2 ^ 20)
    && (s.epiAreas b.dx ex ++ s.epiAreas b.dw ew).all (fun x => !overlaps (b.scratch, 2 ^ 20) x)

/-- The checks of a backward pair in the order of R583. -/
def State.pairCheck (s : State) (core addr : Nat) (b : Pair) (ex ew : Epi) : Option OpFail :=
  let ds := [b.dx.stat, b.dx.strm, b.dw.stat, b.dw.strm]
  firstFail [(s.pairFields core addr b ex ew, pairFail), (ds.all (fun d => s.tdescOk d.addr), tensorFail),
    (s.epiOk core b.dx ex && s.epiOk core b.dw ew, epiFail), (pairOk b.dx && pairOk b.dw, formatFail),
    (b.dx.stat.axis == 1 && b.dw.stat.axis == 0, layoutFail),
    (prismOk b.dx.stat b.dx.strm && prismOk b.dw.stat b.dw.strm, prismFail)]

/-- The dW product over the tokens of m-pairs `n` on, `k` of them. -/
def Pair.part (b : Pair) (n k : Nat) : Product := { b.dw with r0 := b.dw.r0 + 128 * n, rlen := 128 * k }

/-- The scratch area after the operation: the running records of the last m-pair but one (R217). -/
def State.scratchStores (s : State) (b : Pair) (ew : Epi) : List (Nat × List Byte) :=
  let n := b.mlen / 128
  if n ≤ 1 then []
  else
    let p := b.part 0 (n - 1)
    (s.productElems p (s.startElem p ew)).flatMap (fun t => t.2.2.map (fun (y : Nat × Nat × Option Elem) =>
      (b.scratch + p.recAt y.1 y.2.1, (s.drainEl p ew y).record p)))

/-- Tiles of the pair in the order of Table 7.4, with their times. -/
def State.pairTiles (s : State) (core : Nat) (b : Pair) (ex : Epi) : List (PassTimes × BankTile) :=
  let one := fun (p : Product) (m d : Nat) =>
    let t := s.tileTimes p 0 m
    (t, bankTile p (s.depthOf core) d true t)
  (List.range (b.mlen / 128)).flatMap (fun n =>
    [one b.dx (2 * n) (s.drainAc ex), one b.dx (2 * n + 1) (s.drainAc ex)]
      ++ (List.range 4).map (fun c => one (b.part n 1) c 128))

/-- An accepted backward pair. -/
def State.runPair (s : State) (core : Nat) (ref : SlotRef) (b : Pair) (ex ew : Epi) : State :=
  let x := s.drainAll core none b.dx ex (s.productElems b.dx (s.startElem b.dx ex))
  let w := s.drainAll core none b.dw ew (s.productElems b.dw (s.startElem b.dw ew))
  let ts := s.pairTiles core b ex
  let stall := bankStall b.dx.loadTime 0 0 0 (ts.map (·.2))
  let s1 := ((s.countOperands ref b.dx).countOperands ref b.dw).countTimes (ts.map (·.1))
  (s1.putsOut (some ref) (s.scratchStores b ew)).drained ref ⟨x.writes ++ w.writes, x.eff.add w.eff⟩ stall

/-- Operand names of the product whose Prism fields differ. -/
def Pair.mismatched (b : Pair) : Product := if prismOk b.dx.stat b.dx.strm then b.dw else b.dx

/-- BACKWARD_PAIR (R216): in a full-mode slot of a core. -/
def execBackwardPair (core : BitVec 9) (half : Option Bool) (desc : BitVec 64) (s : State) : Out :=
  .next (match half, s.coreRun core half with
    | none, some r =>
      s.slotWork (coreUnit core) r.ref [(desc.toNat, 128, false)] (fun s =>
        let b := s.backPair desc.toNat
        let ex := s.epi (u64At b.raw 40)
        let ew := s.epi (u64At b.raw 48)
        match s.pairCheck core.toNat desc.toNat b ex ew with
        | some x =>
          let p := b.mismatched
          let s1 := if x.status = .prismMismatch then s.prismRefused p.stat.id p.strm.id else s
          s1.refusePair core none r.ref x
        | none =>
          s.reach (coreUnit core) r.ref
            (b.dx.access ++ b.dw.access ++ s.epiAccess b.dx ex ++ s.epiAccess b.dw ew ++ [(b.scratch, 2 ^ 20, true)])
            (fun s => s.runPair core.toNat r.ref b ex ew))
    | _, _ => s)

/-! ### The gradient sum (R220) -/

/-- A gradient-sum descriptor as read. -/
structure GSum where
  addr : Nat
  raw : List Byte
  deriving DecidableEq, Repr

namespace GSum

def inCount (g : GSum) : Nat := u8At g.raw 1
def raw' (g : GSum) : Bool := u8At g.raw 2 == 0x0F
def statTag (g : GSum) : Nat := u32At g.raw 4
def records (g : GSum) : Nat := u32At g.raw 8
def outAddr (g : GSum) : Nat := u64At g.raw 16
def inAddr (g : GSum) (i : Nat) : Nat := u64At g.raw (64 + 8 * i)
def ins (g : GSum) : List Nat := (List.range g.inCount).map g.inAddr

end GSum

/-- Output areas of a gradient sum. -/
def State.gsumOut (s : State) (g : GSum) : List (Nat × Nat) :=
  if g.raw' then [(g.outAddr, 16 * g.records)] else (s.tdesc g.outAddr).planes

/-- The checks of R220. -/
def State.gsumOk (s : State) (g : GSum) : Bool :=
  g.addr % 64 == 0 && u8At g.raw 0 == 0x12 && decide (2 ≤ g.inCount) && decide (g.inCount ≤ 8)
    && (u8At g.raw 2 == 7 || u8At g.raw 2 == 0x0F) && u8At g.raw 3 == 0 && zeroBytes g.raw 12 4 && zeroBytes g.raw 24 40
    && zeroBytes g.raw (64 + 8 * g.inCount) (64 - 8 * g.inCount) && g.records % 16384 == 0
    && (g.raw' || (s.tdescOk g.outAddr && (s.tdesc g.outAddr).fmt == .fp32))
    && (s.gsumOut g).all (fun o => g.ins.all (fun a => !overlaps o (a, 16 * g.records)))

/-- The sum of record `n`: the shift is the first input's (R220, R196). -/
def State.gsumElem (s : State) (g : GSum) (n : Nat) : Int × Elem :=
  let rs := g.ins.map (fun a => s.load (a + 16 * n) 16)
  let k := match rs with
    | r :: _ => recordShift r
    | [] => 0
  (k, (rs.zip (List.range rs.length)).foldl (fun (e : Elem) x =>
    let p := Elem.preload x.1 k
    let e1 := match p.first with
      | some f => e.event (4 * x.2) f.2
      | none => e
    let e2 := { e1 with mismatch := e1.mismatch || p.mismatch }
    e2.add p.acc (4 * x.2) (4 * x.2 + 2)) Elem.start)

/-- The place of record `n` in an FP32 output: row-major over its logical indices (DESIGN CHOICE, log entry 21). -/
def gsumPlace (d : TDesc) (n : Nat) : Nat × Nat := (n / d.dim1, n % d.dim1)

/-- One record written, its value as reported, and its element. -/
def State.gsumOne (s : State) (g : GSum) (n : Nat) : List (Nat × List Byte) × Val × Elem :=
  let x := s.gsumElem g n
  let e := x.2
  if g.raw' then
    let c := { e.acc with cause := if e.acc.tag = 0 then 0 else (e.first.map (fun (f : Nat × Nat) => f.2)).getD 0 }
    let r := convert .fp32 false (e.acc.val x.1)
    ([(g.outAddr + 16 * n, c.record x.1)], r.val, e.outEvent r.exceeds causeOvf)
  else
    let d := s.tdesc g.outAddr
    let r := convert .fp32 false (e.acc.val (x.1 - d.te))
    let i := gsumPlace d n
    (if d.dim0 ≤ i.1 then [] else [(d.wideAddr i.1 i.2, outBytes .fp32 r.val)], r.val, e.outEvent r.exceeds causeOvf)

/-- An accepted gradient sum. -/
def State.runGsum (s : State) (ref : SlotRef) (g : GSum) : State :=
  let xs := (List.range g.records).map (fun n => s.gsumOne g n)
  let n := fun (f : Elem → Bool) => (xs.filter (fun x => f x.2.2)).length
  let ns := [(Reg.ACC_CNT_OVF, n (fun e => bit e.bits 3)), (Reg.ACC_CNT_INV, n (fun e => bit e.bits 2)),
    (Reg.ACC_CNT_SHIFT_MISMATCH, n (fun e => e.mismatch))]
  let te := if g.raw' then 0 else (s.tdesc g.outAddr).te
  let eff : Effects :=
    { Effects.empty with bumps := ns, bits := cellBits ns, reports := statReport g.statTag te (xs.map (fun x => x.2.1)) 0 }
  let pad := if g.raw' then [] else (s.tdesc g.outAddr).padStores
  (s.putsOut (some ref) (xs.flatMap (fun x => x.1) ++ pad)).charge (some ref) eff

/-- GRADIENT_SUM (R220). -/
def execGradientSum (core : BitVec 9) (half : Option Bool) (desc : BitVec 64) (s : State) : Out :=
  .next (match s.coreRun core half with
    | none => s
    | some r =>
      (s.claimHalf r.ref half).slotWork (coreUnit core) r.ref [(desc.toNat, 128, false)] (fun s =>
        let g : GSum := ⟨desc.toNat, s.descLoad desc.toNat 128⟩
        if !s.gsumOk g then s.refusePair core half r.ref pairFail
        else s.reach (coreUnit core) r.ref
          (g.ins.map (fun a => (a, 16 * g.records, false)) ++ (s.gsumOut g).map (fun o => (o.1, o.2, true)))
          (fun s => s.runGsum r.ref g)))

/-! ### Commands of chapters 5 and 6 (Tables 5.10 and 6.11) -/

def facCounters : List Nat :=
  [Reg.FAC_CNT_PASSES, Reg.FAC_CNT_SKIPPED, Reg.FAC_CNT_MIXED_AC, Reg.FAC_CNT_CORR_AC, Reg.FAC_CNT_PARITY,
   Reg.FAC_CNT_REFUSED]

def accCounters : List Nat :=
  [Reg.ACC_CNT_TILES, Reg.ACC_CNT_NONFIN, Reg.ACC_CNT_OVF, Reg.ACC_CNT_INV, Reg.ACC_CNT_SAT_OUT,
   Reg.ACC_CNT_SHIFT_MISMATCH, Reg.ACC_CNT_CORR_RND, Reg.ACC_CNT_DRAIN_AC]

/-- FACET_MAP_QUERY (R174): the state in force at the last tick. -/
def execFacetMapQuery (m : BitVec 6) (s : State) : Out :=
  .next (s.welfy 0x0628 m fun ps s =>
    let p := u16At ps 0
    if 544 ≤ p then s.bad 0
    else
      let spare := !s.boot.fuses.coreMap.getLsbD p
      let st := match s.logicalOf p with
        | some _ => if spare then 2 else 0
        | none => if s.outOfUse p then 3 else 1
      let rows := s.loadedRows p
      s.ok (toLe 2 ((s.logicalOf p).getD 0xFFFF) ++ toLe 2 st ++ toLe 4 (s.facDepth p).toNat
        ++ (List.range 4).flatMap (fun f => slice rows (2 * f) 2 ++ [0, 0])))

/-- FACET_COUNTERS (R166). -/
def execFacetCounters (m : BitVec 6) (s : State) : Out :=
  .next (s.welfy 0x0629 m fun ps s => s.countersReply facCounters (bit (u8At ps 0) 0))

/-- ACC_COUNTERS (R189). -/
def execAccCounters (m : BitVec 6) (s : State) : Out :=
  .next (s.welfy 0x0630 m fun ps s => s.countersReply accCounters (bit (u8At ps 0) 0))

/-- ACC_FIRST_NONFIN (R206). -/
def execAccFirstNonfin (m : BitVec 6) (s : State) : Out :=
  .next (s.welfy 0x0631 m fun ps s =>
    let r := toLe 4 (s.reg Reg.ACC_FIRST_TILE).toNat ++ toLe 4 (s.reg Reg.ACC_FIRST_LOC).toNat
      ++ toLe 8 (s.pair Reg.ACC_FIRST_TICK_LO Reg.ACC_FIRST_TICK_HI) ++ toLe 4 (s.reg Reg.ACC_STATUS).toNat
    let s1 := if bit (u8At ps 0) 0 then
        (s.clearRegs [Reg.ACC_FIRST_TILE]).putReg Reg.ACC_STATUS (s.reg Reg.ACC_STATUS &&& 0xFFFFFFFE)
      else s
    s1.ok r)

end Sys2Proof.Machine
end

