-- ==== Sys2Proof/Machine/Quant.lean ====
section
/-! DEFINITION. The quantizer's rows (R113 to R147): a quantize job that a drain or the collective engine runs in a slot
(QUANTIZE, QUANTIZE_DUAL, EXPAND, MX_IMPORT, MX_EXPORT), the same job through TENSOR_CONVERT, and the commands of
Table 4.7. -/

namespace Sys2Proof.Machine

/-- A unit from its UNIT code (Table 2.5). -/
def unitOf (code : BitVec 16) : UnitId := ⟨code.toNat / 4096, code.toNat % 4096⟩

/-- A unit that holds a quantizer: a core's drain or the collective engine (R113). -/
def UnitId.quantizes (u : UnitId) : Bool := (u.ty == 1 && decide (u.idx < 512)) || (u.ty == 3 && u.idx == 0)

/-- The effects that a job's counts have under each layout's TENSOR_ID (R144). -/
def JobOut.effects (o : JobOut) : Effects :=
  o.counts.foldl (fun (x : Effects) c => x.add (quantEffects c.1 c.2)) Effects.empty

/-- Plane conflicts and invalid patterns that a job's reads meet. -/
def State.jobReads (s : State) (ref : Option SlotRef) (j : QJob) : State := s.countRead ref (s.tdesc j.src) (s.jobBlocks j)

/-- A job that has passed its checks: its reads counted, its stores done, its counts charged. -/
def State.runJob (s : State) (ref : Option SlotRef) (j : QJob) : State × Nat :=
  let o := s.jobOut j (s.sourceVals j)
  let s1 := ((s.jobReads ref j).putsOut ref o.writes).charge ref o.effects
  ({ s1 with freeCtr := s1.freeCtr + o.frees }, o.blocks)

/-- A refused job: flagged, its slot ends with nothing written. Table 16.3 gives such a refusal no record. -/
def State.refuseQuant (s : State) (ref : SlotRef) : State := (s.stick Reg.QNT_STATUS 7).failRun (some ref)

/-- A job of a slot: the unit runs it where its descriptor has the row's OP. One with the OP of another row does nothing here
(log entry 6); an OP outside Table 4.1 is refused (R117). -/
def State.quantRow (s : State) (code : BitVec 16) (desc op : Nat) : State :=
  let u := unitOf code
  match s.runOf u with
  | none => s
  | some r =>
    if !u.quantizes then s
    else s.slotWork u r.ref [(desc, 64, false)] (fun s =>
      let j := s.qjob desc
      if j.op != op && inRange j.op 1 5 then s
      else if desc % 64 ≠ 0 then s.refuseQuant r.ref
      else match s.jobCheck j false with
        | some _ => s.refuseQuant r.ref
        | none => s.reach u r.ref (s.jobAccess j) (fun s => (s.runJob (some r.ref) j).1))

/-- QUANTIZE (R115). -/
def execQuantize (unit : BitVec 16) (desc : BitVec 64) (s : State) : Out := .next (s.quantRow unit desc.toNat 1)

/-- QUANTIZE_DUAL (R128). -/
def execQuantizeDual (unit : BitVec 16) (desc : BitVec 64) (s : State) : Out := .next (s.quantRow unit desc.toNat 2)

/-- EXPAND (R130). -/
def execExpand (unit : BitVec 16) (desc : BitVec 64) (s : State) : Out := .next (s.quantRow unit desc.toNat 3)

/-- MX_IMPORT (R111). -/
def execMxImport (unit : BitVec 16) (desc : BitVec 64) (s : State) : Out := .next (s.quantRow unit desc.toNat 4)

/-- MX_EXPORT (R112). -/
def execMxExport (unit : BitVec 16) (desc : BitVec 64) (s : State) : Out := .next (s.quantRow unit desc.toNat 5)

/-! ### Commands (Table 4.7) -/

/-- The unit that TENSOR_CONVERT names: a logical core's drain, or the collective engine. -/
def convertUnit (n : Nat) : Option UnitId := if n < 512 then some ⟨1, n⟩ else if n = 0xFFFF then some ⟨3, 0⟩ else none

/-- The unit has a slot in the frame now running (R146). -/
def State.slotInFrame (s : State) (u : UnitId) : Bool :=
  s.frameSlots.any (fun d => d.2.unit == u) || (s.runOf u).isSome || (u.ty == 1 && s.sts.reruns.any (fun x => x.1 == u.idx))

/-- The response of TENSOR_CONVERT: blocks processed and the first refused field. -/
def convertReply (blocks off : Nat) : List Byte := toLe 4 blocks ++ toLe 4 off

/-- A refusal that no field of the job carries (R581). -/
def State.convertNo (s : State) (x : Status) (detail : Nat) : Reply := ⟨x, detail, convertReply 0 0xFFFFFFFF, s⟩

/-- TENSOR_CONVERT (R146, R580 to R582). A job that names memory which admits no such access is refused with ADDR_INVALID;
poison in what it reads ends it with INTERNAL_ERROR (log entry 22). -/
def execTensorConvert (m : BitVec 6) (s : State) : Out :=
  .next (s.welfy 0x0620 m fun ps s =>
    let a := u64At ps 0
    match convertUnit (u16At ps 8) with
    | none => s.convertNo .badParam 8
    | some u =>
      if s.slotInFrame u then s.convertNo .runLock 0
      else if a % 64 ≠ 0 then (s.stick Reg.QNT_STATUS 7).convertNo .descInvalid 0
      else if !s.paramOk a 64 false then s.convertNo .addrInvalid 0
      else
        let j := s.qjob a
        match s.jobCheck j false with
        | some x => ⟨x.1, 0, convertReply 0 x.2, s.stick Reg.QNT_STATUS 7⟩
        | none =>
          if (s.firstBad (s.jobAccess j)).isSome then s.convertNo .addrInvalid 0
          else if s.accessFault (s.jobAccess j) then s.convertNo .internalError 0
          else
            let r := s.runJob none j
            r.1.ok (convertReply r.2 0xFFFFFFFF))

def qntCounters : List Nat :=
  [Reg.QNT_CNT_BLOCKS, Reg.QNT_CNT_ZERO, Reg.QNT_CNT_UNDERFLOW, Reg.QNT_CNT_SAT, Reg.QNT_CNT_FIT_CLIP,
   Reg.QNT_CNT_NONFIN, Reg.QNT_CNT_PLANE_CONFLICT, Reg.PRS_MISMATCH_CNT, Reg.SPL_OUT_BLOCKS, Reg.SPL_FB_BLOCKS,
   Reg.SPL_QUOTA_MISS, Reg.SPL_FB_EXHAUST]

/-- The counters of Table 4.6 that the response does not show and the clear also clears, and the first refusal's IDs. -/
def qntHidden : List Nat := [Reg.QNT_CNT_MX_REQUANT, Reg.QNT_CNT_MX_CLAMP, Reg.PRS_MISMATCH_A, Reg.PRS_MISMATCH_B]

/-- QUANT_COUNTERS (R144). -/
def execQuantCounters (m : BitVec 6) (s : State) : Out :=
  .next (s.welfy 0x0621 m fun ps s =>
    let d := s.regBytes qntCounters
    (if bit (u8At ps 0) 0 then s.clearRegs (qntCounters ++ qntHidden) else s).ok d)

/-- PRISM_SIGNS (R147): under the seed in force. -/
def execPrismSigns (m : BitVec 6) (s : State) : Out :=
  .next (s.welfy 0x0622 m fun ps s =>
    let i := u64At ps 8
    if i % 128 ≠ 0 then s.bad 8 else s.ok (philoxFixed s.seed (u32At ps 0) (i / 128)))

end Sys2Proof.Machine
end

