-- ==== Sys2Proof/Machine/VectorOps.lean ====
section
/-! DEFINITION. The drain's vector operations: the router (R306 to R310) with its EXP, and dropout (R290). -/

namespace Sys2Proof.Machine

/-! ### EXP (R308): within 1 ulp of the exact value -/

/-- Terms of the exponential series of y / 2^256, in units of 2^-256: sum and current term. -/
def expSeries : Nat → Nat → Int → Int → Int → Int
  | 0, _, _, _, sum => sum
  | fuel + 1, n, y, term, sum =>
    let t := term * y / (2 ^ 256 : Nat) / ((n + 1 : Nat) : Int)
    expSeries fuel (n + 1) y t (sum + t)

/-- A number squared in units of 2^-256. -/
def squareFix (v : Int) : Int := v * v / (2 ^ 256 : Nat)

/-- e^x in units of 2^-256 for an x from -110 to 0, within 2^16 units. -/
def expFix (x : Dy) : Int :=
  let y := x.m * (2 ^ (x.e + 248).toNat : Nat)
  (List.range 8).foldl (fun (v : Int) _ => squareFix v) (expSeries 50 0 y (2 ^ 256) (2 ^ 256))

/-- The FP32 code of the largest number at most v · 2^-256, for 0 ≤ v ≤ 2^256. -/
def floorCode (v : Int) : Nat :=
  let n := v.toNat
  if n = 0 then 0
  else
    let e := Nat.log2 n
    let c := if e < 130 then n / 2 ^ 107 else (e - 129) * 2 ^ 23 + (n / 2 ^ (e - 23) - 2 ^ 23)
    c

/-- The FP32 codes that EXP may return for a nonpositive finite number. -/
def expCodes (x : Dy) : List Nat :=
  if x.isZero then [0x3F800000, 0x3F7FFFFF, 0x3F800001]
  else if x.lt ⟨-110, 0⟩ then [0, 1]
  else
    let v := expFix x
    let lo := floorCode (v - 2 ^ 16)
    let hi := floorCode (v + 2 ^ 16) + 1
    (List.range (hi + 1 - lo)).map (· + lo)

/-- EXP of a nonpositive FP32 code: the same result for the same input on every drain. -/
def expCode (c : Nat) : Nat :=
  match f32 c with
  | .nan => nan32
  | .inf _ => 0
  | .fin x => let cs := expCodes x; cs.getD (Config.expChoice c % cs.length) 0

/-! ### The router (R306 to R309) -/

/-- A router descriptor as read. -/
structure RDesc where
  addr : Nat
  raw : List Byte
  deriving DecidableEq, Repr

namespace RDesc

def k (d : RDesc) : Nat := u8At d.raw 1
def spare (d : RDesc) : Nat := u8At d.raw 2
def mode (d : RDesc) : Nat := u8At d.raw 3
def all (d : RDesc) : Bool := bit d.mode 0
def renorm (d : RDesc) : Bool := bit d.mode 1
def noise (d : RDesc) : Bool := bit d.mode 2
def experts (d : RDesc) : Nat := u16At d.raw 4
def stream (d : RDesc) : Nat := u32At d.raw 8
def noiseScale (d : RDesc) : Val := f32 (u32At d.raw 12)
def logits (d : RDesc) : Nat := u64At d.raw 16
def routeAddr (d : RDesc) : Nat := u64At d.raw 24
def token0 (d : RDesc) : Nat := u32At d.raw 32
def statTag (d : RDesc) : Nat := u32At d.raw 36
def histAddr (d : RDesc) : Nat := u64At d.raw 40

end RDesc

/-- The checks of R306. -/
def State.routerOk (s : State) (core : Nat) (d : RDesc) : Bool :=
  let L := s.tdesc d.logits
  d.addr % 64 == 0 && u8At d.raw 0 == 0x20 && decide (1 ≤ d.k) && decide (d.k + d.spare ≤ 8) && decide (d.mode < 8)
    && decide (1 ≤ d.experts) && decide (d.experts ≤ 256) && zeroBytes d.raw 6 2 && zeroBytes d.raw 48 16
    && s.tdescOk d.logits && L.fmt == .fp32 && L.dim1 == d.experts && L.planes.all (fun p => s.ownStore core p.1 p.2)

/-- Noise of a token and expert (R291). -/
def State.noiseVal (s : State) (d : RDesc) (j x : Nat) : Val :=
  .fin ⟨(noiseWord s.seed d.stream s.upd.t.toNat (j * d.experts + x) / 256 : Nat), -24⟩

/-- The scores of a row, and whether a logit or score is not finite. -/
def State.scores (s : State) (d : RDesc) (row : Nat) : List Val × Bool :=
  let L := s.tdesc d.logits
  let ls := (List.range d.experts).map (fun x => s.wideAt L row x)
  let ss := if d.noise then
      (ls.zip (List.range d.experts)).map (fun y => fadd y.1 (fmul d.noiseScale (s.noiseVal d (d.token0 + row) y.2)))
    else ls
  (ss, ls.any (fun v => !v.isFin) || ss.any (fun v => !v.isFin))

/-- Ranks chosen in turn: the largest finite score not yet taken, the lower expert on a tie. -/
def selectRanks : Nat → List (Nat × Val) → List Nat
  | 0, _ => []
  | n + 1, xs =>
    match xs with
    | [] => 0xFFFF :: selectRanks n []
    | _ => let b := (extreme true true xs).2; b :: selectRanks n (xs.filter (fun x => x.1 != b))

/-- The gates of the K selected ranks. -/
def RDesc.gates (d : RDesc) (ss : List Val) (ranks : List Nat) : List Nat :=
  let s0 := ss.getD (ranks.getD 0 0xFFFF) .zero
  let ex := fun (x : Nat) => expCode (code32 (fsub (ss.getD x .zero) s0))
  let sel := (ranks.take d.k).filter (fun x => x != 0xFFFF)
  let terms := if d.all && !d.renorm then (List.range ss.length).filter (fun x => (ss.getD x .zero).isFin) else sel
  let den := round32 ((sumCell 0 (terms.map (fun x => f32 (ex x)))).val 0)
  (ranks.take d.k).map (fun x => if x = 0xFFFF then 0 else code32 (fdiv (f32 (ex x)) den))

/-- A token's router record (R309), its first K experts, and whether it is a NONFIN token. -/
def State.routeRow (s : State) (d : RDesc) (row : Nat) : List Byte × List Nat × Bool :=
  let sc := s.scores d row
  let fins := (sc.1.zip (List.range d.experts)).filterMap (fun x => if x.1.isFin then some (x.2, x.1) else none)
  let ranks := selectRanks (d.k + d.spare) fins
  let gates := d.gates sc.1 ranks
  ((List.range 8).flatMap (fun r =>
    if r < d.k + d.spare then
      toLe 2 (ranks.getD r 0xFFFF) ++ [BitVec.ofNat 8 r, BitVec.ofNat 8 (b2n sc.2)] ++ toLe 4 (gates.getD r 0)
    else toLe 2 0xFFFF ++ List.replicate 6 0), ranks.take d.k, sc.2)

/-- Selection counts added to those at HIST_ADDR. -/
def State.histStores (s : State) (d : RDesc) (picked : List Nat) : List (Nat × List Byte) :=
  if d.histAddr = 0 then []
  else (List.range d.experts).map (fun e =>
    let a := d.histAddr + 4 * e
    (a, toLe 4 (u32At (s.load a 4) 0 + (picked.filter (fun x => x == e)).length)))

/-- Numbers kept by key, the newest first. -/
def remember (k v : Nat) (l : List (Nat × Nat)) : List (Nat × Nat) := (k, v) :: l.filter (fun x => x.1 != k)

/-- An accepted router operation. -/
def State.runRouter (s : State) (ref : SlotRef) (d : RDesc) : State :=
  let n := (s.tdesc d.logits).dim0
  let rows := (List.range n).map (fun r => (r, s.routeRow d r))
  let nf := (rows.filter (fun x => x.2.2.2)).length
  let ws := rows.map (fun x => (d.routeAddr + 64 * x.1, x.2.1)) ++ s.histStores d (rows.flatMap (fun x => x.2.2.1))
  let rep : Report := { tensor := d.statTag, byStat := true, stat := none, counts := [0, 0, 0, 0, 0, 0, nf], tile := 0 }
  let eff : Effects :=
    { Effects.empty with bumps := [(Reg.DSP_CNT_ROUTER_NONFIN, nf)], bits := if nf = 0 then [] else [(Reg.DSP_STATUS, 5)],
                         reports := if d.statTag = 0 || nf == 0 then [] else [rep] }
  let s1 := (s.putsOut (some ref) ws).charge (some ref) eff
  { s1 with dsp := { s1.dsp with routes := remember d.routeAddr d.token0 s1.dsp.routes } }

/-- A refused dispatch job or router operation: counted and flagged; its slot ends. -/
def State.refuseDsp (s : State) (u : UnitId) (ref : SlotRef) (x : Status) : State :=
  ((s.bump Reg.DSP_CNT_REFUSED 1).stick Reg.DSP_STATUS (if x = .queueBusy then 2 else 3)).refuseRun u (some ref) x

/-- ROUTER (R307). -/
def execRouter (core : BitVec 9) (half : Option Bool) (desc : BitVec 64) (s : State) : Out :=
  .next (match s.coreRun core half with
    | none => s
    | some r =>
      let u := coreUnit core
      (s.claimHalf r.ref half).slotWork u r.ref [(desc.toNat, 64, false)] (fun s =>
        let d : RDesc := ⟨desc.toNat, s.descLoad desc.toNat 64⟩
        if !s.routerOk core.toNat d then s.refuseDsp u r.ref .descInvalid
        else
          let L := s.tdesc d.logits
          s.reach u r.ref
            (L.planes.map (fun p => (p.1, p.2, false)) ++ [(d.routeAddr, 64 * L.dim0, true)]
              ++ (if d.histAddr = 0 then [] else [(d.histAddr, 4 * d.experts, true)]))
            (fun s => s.runRouter r.ref d)))

/-! ### Dropout (R290) -/

/-- One element after dropout: +0 where its half-word is below the threshold, else its value times the keep scale. -/
def State.dropVal (s : State) (S : TDesc) (stream p16 keep i0 i1 : Nat) : Val :=
  if S.dim0 ≤ i0 ∨ S.dim1 ≤ i1 ∨ dropHalf s.seed stream s.upd.t.toNat (i0 * S.dim1 + i1) < p16 then .zero
  else (s.wideAt S i0 i1).mul (f32 keep)

/-- An accepted dropout. -/
def State.runDropout (s : State) (ref : SlotRef) (S D : TDesc) (stream p16 keep : Nat) : State :=
  s.putsOut (some ref) ((List.range (D.padded 0)).flatMap (fun i0 => (List.range (D.padded 1)).map (fun i1 =>
    (D.wideAddr i0 i1, D.wideBytes (s.dropVal S stream p16 keep i0 i1)))))

/-- DROPOUT (R290, R292): from one wide tensor to another of the same dimensions and format (log entry 23). -/
def execDropout (core : BitVec 9) (half : Option Bool) (src dst : BitVec 64) (stream : BitVec 32) (p16 : BitVec 16)
    (keep : BitVec 32) (s : State) : Out :=
  .next (match s.coreRun core half with
    | none => s
    | some r =>
      let u := coreUnit core
      (s.claimHalf r.ref half).slotWork u r.ref [(src.toNat, 64, false), (dst.toNat, 64, false)] (fun s =>
        let S := s.tdesc src.toNat
        let D := s.tdesc dst.toNat
        if !(s.tdescOk src.toNat && s.tdescOk dst.toNat && !S.fmt.blocked && S.fmt == D.fmt && S.dim0 == D.dim0
            && S.dim1 == D.dim1 && decide (S.dim0 * S.dim1 ≤ 2 ^ 43)) then s.refuseQuant r.ref
        else s.reach u r.ref
          (S.planes.map (fun p => (p.1, p.2, false)) ++ D.planes.map (fun p => (p.1, p.2, true)))
          (fun s => s.runDropout r.ref S D stream.toNat p16.toNat keep.toNat)))

end Sys2Proof.Machine
end

