-- ==== Sys2Proof/Machine/ColWire.lean ====
section
/-! DEFINITION. The collective engine's descriptor, its checks, and what it puts on the wire (R384 to R395): shards,
payloads of Table 12.10, and the byte streams of the copying collectives. -/

namespace Sys2Proof.Machine

/-! ### The collective descriptor (Table 12.9) -/

/-- A collective descriptor as read: its address and its 128 bytes. -/
structure Coll where
  addr : Nat
  raw : List Byte
  deriving DecidableEq, Repr

namespace Coll

def op (k : Coll) : Nat := u8At k.raw 0
def flags (k : Coll) : Nat := u8At k.raw 1
def gather (k : Coll) : Bool := bit k.flags 0
def refocus (k : Coll) : Bool := bit k.flags 1
def axis (k : Coll) : Nat := bits k.flags 2 2
def fit (k : Coll) : Bool := bit k.flags 3
def stoch (k : Coll) : Bool := bit k.flags 4
def rawOut (k : Coll) : Bool := bit k.flags 5
def wire (k : Coll) : Nat := u8At k.raw 2
def red (k : Coll) : Nat := u8At k.raw 3
def redOp (k : Coll) : Nat := k.red % 4
def redIdx (k : Coll) : Bool := bit k.red 2
def numPref (k : Coll) : Bool := bit k.red 3
def id (k : Coll) : Nat := u32At k.raw 4
def n (k : Coll) : Nat := u16At k.raw 8 + 1
def contribs (k : Coll) : Nat := u8At k.raw 10
def wireTe (k : Coll) : Int := sext 8 (u8At k.raw 11)
def redShift (k : Coll) : Int := sext 8 (u8At k.raw 12)
def listAddr (k : Coll) : Nat := u64At k.raw 16
def srcAddr (k : Coll) : Nat := u64At k.raw 24
def dstAddr (k : Coll) : Nat := u64At k.raw 32
def shardAddr (k : Coll) : Nat := u64At k.raw 40
def qjob (k : Coll) : Nat := u64At k.raw 48
def srStream (k : Coll) : Nat := u32At k.raw 56
def wireTid (k : Coll) : Nat := u32At k.raw 60
def statTag (k : Coll) : Nat := u32At k.raw 64
def planId (k : Coll) : Nat := u32At k.raw 68
def fromPhase (k : Coll) : Nat := u8At k.raw 72
def toPhase (k : Coll) : Nat := u8At k.raw 73

/-- A reduction. -/
def reduces (k : Coll) : Bool := k.op == 1

/-- The wire carries 16-byte records. -/
def records (k : Coll) : Bool := k.wire == 0x0F

/-- The wire carries blocks. -/
def blocked (k : Coll) : Bool := k.wire == 1 || k.wire == 3 || k.wire == 4

/-- Element format of the wire. -/
def fmt (k : Coll) : Format := (Format.ofCode k.wire).getD .fp32

/-- The results are records: RAW_OUT, or a maximum or minimum. -/
def recordsOut (k : Coll) : Bool := k.rawOut || k.redOp != 1

/-- Items of one reduction packet, and packet slots of a reduction window (Table 12.10). -/
def items (k : Coll) : Nat :=
  match k.wire with
  | 1 => 896
  | 3 => 480
  | 4 => 480
  | 6 => 256
  | 0x0F => 32
  | _ => 128

def slots (k : Coll) : Nat := cdiv 65536 k.items

/-- W of R388 for `p` remote sources and `sl` slots. -/
def windowsFor (p sl : Nat) : Nat := if p = 0 then 16 else Nat.min 16 (2 ^ 25 / (p * sl))

/-- A copy whose wire carries values, not the bytes of planes, results or records. -/
def copiesValues (k : Coll) : Bool := !k.reduces && k.op != 4 && k.wire != 0

/-- Wire bytes of one item of a copy: a value, or a destination byte (Table 12.10). -/
def copyUnit (k : Coll) : Nat := if !k.copiesValues then 1 else if k.wire = 6 then 2 else 4

/-- Items of one copy packet. -/
def copyItems (k : Coll) : Nat := 512 / k.copyUnit

/-- Items of a copy window of 64 KiB of destination bytes, for destination elements of `eb` bytes (R387). -/
def copyWindow (k : Coll) (eb : Nat) : Nat := if k.copiesValues then 65536 / eb else 65536

/-- P of R388: the remote sources. -/
def sources (k : Coll) : Nat := (k.n - 1) * k.contribs

/-- W of the reduction, and of the copies into elements of `eb` bytes. -/
def redWindows (k : Coll) : Nat := windowsFor k.sources k.slots
def copyWindows (k : Coll) (eb : Nat) : Nat := windowsFor k.sources (cdiv (k.copyWindow eb) k.copyItems)

/-- W as COL_STATE shows it. -/
def windows (k : Coll) (eb : Nat) : Nat := if k.reduces then k.redWindows else k.copyWindows eb

/-- Zero reserved fields and defined codes (R385). -/
def formed (k : Coll) : Bool :=
  k.addr % 64 == 0 && decide (1 ≤ k.op) && decide (k.op ≤ 4) && decide (k.flags < 64) && decide (k.red < 16)
    && ([0, 1, 3, 4, 6, 7, 0x0F] : List Nat).contains k.wire && k.id != 0 && zeroBytes k.raw 13 3 && zeroBytes k.raw 74 54
    && decide (1 ≤ k.contribs) && decide (k.contribs ≤ 8)
    && (!k.refocus || (k.op == 3 && k.wire == 0 && k.dstAddr == 0 && k.shardAddr == 0))
    && (k.wire != 0 || k.op == 2 || k.op == 3)
    && (k.op != 4 || (k.srcAddr == 0 && k.dstAddr == 0 && k.shardAddr == 0))
    && (!k.reduces || (k.redOp != 0 && (k.redOp == 1 || k.records)))
    && ((k.op != 2 && k.op != 3) || k.wire == 0 || k.wire == 6 || k.wire == 7)
    && (!k.reduces || decide (1 ≤ k.redWindows)) && ((k.reduces && !k.gather) || decide (1 ≤ k.copyWindows 2))

end Coll

def State.coll (s : State) (addr : Nat) : Coll := ⟨addr, s.descLoad addr 128⟩

/-- The collective that runs, from the descriptor bytes read at its start. -/
def State.curColl (s : State) : Coll := ⟨s.col.descAddr, s.col.desc⟩

/-! ### Tables that the descriptor names -/

/-- The station list in rank order. -/
def State.collStations (s : State) (k : Coll) : List Nat := (List.range k.n).map (fun i => leNat (s.descLoad (k.listAddr + 2 * i) 2))

/-- A shard table: START and COUNT of each rank. -/
def State.shardTable (s : State) (addr n : Nat) : List (Nat × Nat) :=
  (List.range n).map (fun i => (leNat (s.descLoad (addr + 16 * i) 8), leNat (s.descLoad (addr + 16 * i + 8) 8)))

/-- The contribution descriptors' addresses. -/
def State.collSources (s : State) (k : Coll) : List Nat := (List.range k.contribs).map (fun i => leNat (s.descLoad (k.srcAddr + 8 * i) 8))

/-- The tensors that a Refocus lists. -/
def State.refocusIds (s : State) (k : Coll) : List Nat :=
  (List.range (leNat (s.descLoad k.srcAddr 4))).map (fun i => leNat (s.descLoad (k.srcAddr + 4 + 4 * i) 4))

/-- The layout plan of a Refocus. -/
def State.planById (s : State) (id : Nat) : Option Plan :=
  match s.frm.curPlan with
  | some p => if p.planId = id then some p else s.frm.standbyPlan.filter (fun p => p.planId == id)
  | none => s.frm.standbyPlan.filter (fun p => p.planId == id)

/-- Follow the shards from position `pos` on: each next one starts where the last ended. -/
def coverFrom (l : List (Nat × Nat)) : Nat → Nat → Nat
  | 0, pos => pos
  | fuel + 1, pos =>
    match l.find? (fun x => x.1 == pos && x.2 != 0) with
    | some x => coverFrom l fuel (pos + x.2)
    | none => pos

/-- A shard table covers `len` exactly once, with inner boundaries at multiples of 64 (R385). -/
def coverOk (l : List (Nat × Nat)) (len : Nat) : Bool :=
  coverFrom l l.length 0 == len && sumNat (l.map (·.2)) == len
    && l.all (fun x => x.2 == 0 || (x.1 % 64 == 0 && ((x.1 + x.2) % 64 == 0 || x.1 + x.2 == len)))

/-- Length along logical axis `a`. -/
def TDesc.dim (d : TDesc) (a : Nat) : Nat := if a = 0 then d.dim0 else d.dim1

/-- A descriptor names a shard alone, so that its indices begin at the shard's start; else those of the whole tensor
(DEDUCED, log entry 29). -/
def TDesc.origin (d : TDesc) (a : Nat) (sh : Nat × Nat) : Nat := if d.dim a = sh.2 then sh.1 else 0

/-! ### Shards of a reduction -/

/-- Items of a shard of a tensor of DIM0 `d0` and DIM1 `d1`. -/
def shardItems (axis d0 d1 : Nat) (sh : Nat × Nat) : Nat := if axis = 0 then sh.2 * d1 else d0 * sh.2

/-- Logical indices of item `i` of a shard, in row-major order within the shard (R387). -/
def shardPlace (axis d1 : Nat) (sh : Nat × Nat) (i : Nat) : Nat × Nat :=
  if axis = 0 then (sh.1 + i / d1, i % d1) else (i / sh.2, sh.1 + i % sh.2)

/-! ### Reduction payloads (Table 12.10, R390) -/

/-- The layout that a blocked wire quantizes to: blocks along axis 1, tensor exponent WIRE_TE, no Prism and no planes. -/
def Coll.wireDesc (k : Coll) (d : TDesc) : TDesc :=
  ⟨0, toLe 4 k.wireTid ++ [BitVec.ofNat 8 k.wire, 1, BitVec.ofNat 8 (ofInt 8 k.wireTe), 0] ++ List.replicate 40 0
    ++ toLe 4 d.dim0 ++ toLe 4 d.dim1 ++ List.replicate 8 0⟩

/-- Rank r's contribution c as the wire quantizer sees it. -/
def State.wireLayout (s : State) (k : Coll) (d : TDesc) (rank c : Nat) : Layout :=
  { d := k.wireDesc d, r := ⟨k.fit, k.stoch, false⟩, stream := (k.srStream + 8 * rank + c) % 2 ^ 32, seed := s.seed,
    step := s.upd.t.toNat, x := 1, values := fun i0 i1 => s.wideAt d i0 i1, patterns := fun _ _ _ => [],
    zeroAt := fun _ _ => false }

/-- Payload of items `i` up to `i + n` of a shard of a contribution, with the wire job's counts. -/
def State.wirePayload (s : State) (k : Coll) (d : TDesc) (rank c : Nat) (sh : Nat × Nat) (i n : Nat) : List Byte × QCnt :=
  let place := shardPlace k.axis d.dim1 sh
  if k.records then
    ((List.range n).flatMap (fun q => let x := place (i + q); s.load (d.elemAddr + 16 * (x.1 * d.dim1 + x.2)) 16), QCnt.none)
  else if k.blocked then
    let l := s.wireLayout k d rank c
    let bs := (List.range (n / 32)).map (fun b =>
      let x := place (i + 32 * b)
      l.blockOut x.2 x.1 (l.line x.2 32 x.1) 0 0)
    (bs.flatMap (fun (b : BlockOut) => packCodes k.fmt b.codes) ++ bs.map (fun (b : BlockOut) => BitVec.ofNat 8 b.scale),
      bs.foldl (fun (t : QCnt) b => t.add b.cnt) QCnt.none)
  else
    ((List.range n).flatMap (fun q =>
      let x := place (i + q)
      let v := s.wideAt d x.1 x.2
      if k.wire = 6 then toLe 2 (code16 v) else toLe 4 (code32 v)), QCnt.none)

/-- Bytes of a payload of `n` items. -/
def Coll.payloadBytes (k : Coll) (n : Nat) : Nat :=
  match k.wire with
  | 1 => n / 2 + n / 32
  | 3 => n + n / 32
  | 4 => n + n / 32
  | 6 => 2 * n
  | 0x0F => 16 * n
  | _ => 4 * n

/-- The value of item `q` of a payload of `n` items. -/
def Coll.payloadVal (k : Coll) (b : List Byte) (n q : Nat) : Val :=
  if k.blocked then
    let sc := u8At b ((if k.wire = 1 then n / 2 else n) + q / 32)
    let c := if k.wire = 1 then (let x := u8At b (q / 2); if q % 2 = 0 then x % 16 else x / 16) else u8At b q
    if sc = 0xFF then .nan else if sc = 0 then .zero
    else ((k.fmt.value c).mul (.fin (ue5m3 sc))).scale k.wireTe
  else if k.wire = 6 then bf16 (u16At b (2 * q))
  else f32 (u32At b (4 * q))

/-! ### Copies (R393, R394) -/

/-- A rectangle of a tensor by first index and length along axes 0 and 1. -/
structure Rect where
  i0 : Nat
  n0 : Nat
  i1 : Nat
  n1 : Nat
  deriving DecidableEq, Repr

/-- The rectangle with range `a` along `axis` and range `b` along the other. -/
def rectOf (axis : Nat) (a b : Nat × Nat) : Rect :=
  if axis = 0 then ⟨a.1, a.2, b.1, b.2⟩ else ⟨b.1, b.2, a.1, a.2⟩

/-- The common part of two ranges. -/
def meetRange (a b : Nat × Nat) : Nat × Nat :=
  let lo := Nat.max a.1 b.1
  (lo, Nat.min (a.1 + a.2) (b.1 + b.2) - lo)

/-- A rectangle of a tensor as a descriptor holds it: the descriptor with the origin of its indices. -/
structure Piece where
  d : TDesc
  o0 : Nat
  o1 : Nat
  r : Rect
  deriving DecidableEq, Repr

/-- An address that no memory has: bytes sent from it are zero, and bytes that land there are dropped. -/
def nowhere : Nat := 2 ^ 64

/-- Directory entry and record share of a tile in an outlier or fallback plane, with room for `max` records of `n` bytes. The
index of the first record is that of the tile's own share (R139), which differs from plane to plane, and is not moved
(log entry 29). -/
def dirSegs (dir base n max : Nat) (t : Nat) (share : Nat × Nat) : List (Nat × Nat) :=
  [(dir + 32 * t, 16), (nowhere, 4), (dir + 32 * t + 20, 12), (base + n * share.1, n * share.2), (nowhere, n * (max - share.2))]

/-- What a copy moves of one tile, bit for bit, in this order: element, scale and metadata planes, outlier directory entry
and share, fallback directory entry and share (DESIGN CHOICE: the order; log entry 29). -/
def TDesc.tileSegs (d : TDesc) (t : Nat) : List (Nat × Nat) :=
  ([(d.blockAddr t 0, d.tileBytes)]
    ++ (if d.fmt.blocked then [(d.scaleAddr + 128 * t, 128)] else [])
    ++ (if d.sparse then [(d.metaAddr + 512 * t, 512)] else [])
    ++ (if d.outliers then dirSegs d.outAddr d.outBase 8 (2 ^ (7 - d.outExp)) t (d.outShare t) else [])
    ++ (if d.fallback then dirSegs d.fbAddr d.fbBase 32 (cdiv 128 (2 ^ d.fbExp)) t (d.fbShare t) else [])).filter
      (fun x => x.2 != 0)

/-- The first-record indices of a tile's directory entries, as its own shares give them (R101, R103, R139). -/
def TDesc.dirFirsts (d : TDesc) (t : Nat) : List (Nat × List Byte) :=
  (if d.outliers then [(d.outAddr + 32 * t + 16, toLe 4 (d.outShare t).1)] else [])
    ++ (if d.fallback then [(d.fbAddr + 32 * t + 16, toLe 4 (d.fbShare t).1)] else [])

/-- The tiles of a rectangle in ascending logical order, by their first indices in the descriptor. -/
def Piece.tiles (p : Piece) : List Nat :=
  (List.range (cdiv p.r.n0 64)).flatMap (fun a => (List.range (cdiv p.r.n1 64)).map (fun b =>
    let x := p.d.placed (p.r.i0 - p.o0 + 64 * a) (p.r.i1 - p.o1 + 64 * b)
    p.d.tile x.1 x.2))

/-- Byte ranges of a piece copied bit for bit, in the order of its stream. -/
def Piece.segs (p : Piece) : List (Nat × Nat) :=
  if p.r.n0 = 0 ∨ p.r.n1 = 0 then [] else p.tiles.flatMap (fun t => p.d.tileSegs t)

/-- Addresses of the elements of a wide piece, row by row, each with its bytes. -/
def Piece.elems (p : Piece) : List (Nat × Nat) :=
  (List.range p.r.n0).flatMap (fun a => (List.range p.r.n1).map (fun b =>
    (p.d.wideAddr (p.r.i0 - p.o0 + a) (p.r.i1 - p.o1 + b), p.d.fmt.nibbles / 2)))

/-- What this station writes of a piece by itself when it takes the piece: the indices of its own record shares, and zero
codes in the padding of a wide tensor (R99). -/
def Piece.frame (k : Coll) (p : Piece) : List (Nat × List Byte) :=
  if p.r.n0 = 0 ∨ p.r.n1 = 0 then [] else if k.wire = 0 then p.tiles.flatMap p.d.dirFirsts else p.d.padStores

/-- The byte stream of pieces sent: bit for bit, or as wire values. -/
def State.pieceStream (s : State) (k : Coll) (ps : List Piece) : List Byte :=
  if k.wire = 0 then ps.flatMap (fun p => p.segs.flatMap (fun x =>
    if x.1 = nowhere then List.replicate x.2 0 else s.load x.1 x.2))
  else ps.flatMap (fun p => (List.range p.r.n0).flatMap (fun a => (List.range p.r.n1).flatMap (fun b =>
    let v := s.wideAt p.d (p.r.i0 - p.o0 + a) (p.r.i1 - p.o1 + b)
    if k.wire = 6 then toLe 2 (code16 v) else toLe 4 (code32 v))))

/-- Where a stream of pieces lands: byte ranges, or elements. -/
def Coll.landing (k : Coll) (ps : List Piece) : List (Nat × Nat) :=
  if k.wire = 0 then ps.flatMap (fun p => p.segs) else ps.flatMap (fun p => p.elems)

/-! ### Which pieces go where -/

/-- The piece of a rectangle in a descriptor whose ranges along `axis` and the other axis begin as given. -/
def pieceOf (d : TDesc) (axis oa ob : Nat) (r : Rect) : Piece :=
  if axis = 0 then ⟨d, oa, ob, r⟩ else ⟨d, ob, oa, r⟩

/-- Source and destination pieces that rank `a` sends to rank `b`, both on this station's own descriptors. -/
def State.copyPieces (s : State) (k : Coll) (a b : Nat) : List (Piece × Piece) :=
  let srcs := s.collSources k
  let S := s.tdesc (srcs.getD 0 0)
  let sh := (s.shardTable k.shardAddr k.n).getD a (0, 0)
  if k.op = 2 then
    let D := s.tdesc k.dstAddr
    let r := rectOf k.axis sh (0, D.dim (1 - k.axis))
    [(pieceOf S k.axis (S.origin k.axis sh) 0 r, pieceOf D k.axis 0 0 r)]
  else
    let D := s.tdesc (srcs.getLast?.getD 0)
    let th := (s.shardTable k.dstAddr k.n).getD b (0, 0)
    let r := rectOf k.axis sh th
    [(pieceOf S k.axis (S.origin k.axis sh) 0 r, pieceOf D k.axis 0 (D.origin (1 - k.axis) th) r)]

/-- Entries of a plan for a tensor, phase and owner. -/
def Plan.shards (p : Plan) (tensor phase owner : Nat) : List ShardEntry :=
  p.entries.filter (fun e => e.tensorId == tensor && e.phase == phase && e.owner == owner)

/-- The rectangle common to two shards of a tensor; `x` gives the length of an axis that neither cuts. -/
def meetShards (e f : ShardEntry) (x : Nat) : Rect :=
  if e.axis = f.axis then rectOf e.axis (meetRange (e.start, e.count) (f.start, f.count)) (0, x)
  else rectOf e.axis (e.start, e.count) (f.start, f.count)

/-- A plan entry's descriptor with the origin of its indices, for a rectangle. -/
def State.shardPiece (s : State) (e : ShardEntry) (r : Rect) : Piece :=
  let d := s.tdesc e.localAddr
  pieceOf d e.axis (d.origin e.axis (e.start, e.count)) 0 r

/-- Pieces of a Refocus that this station sends to station `st`. -/
def State.refocusSends (s : State) (k : Coll) (p : Plan) (own st : Nat) : List Piece :=
  (s.refocusIds k).flatMap (fun t => (p.shards t k.fromPhase own).flatMap (fun e => (p.shards t k.toPhase st).map (fun f =>
    s.shardPiece e (meetShards e f ((s.tdesc e.localAddr).dim (1 - e.axis))))))

/-- Pieces of a Refocus that this station receives from station `st`. -/
def State.refocusTakes (s : State) (k : Coll) (p : Plan) (own st : Nat) : List Piece :=
  (s.refocusIds k).flatMap (fun t => (p.shards t k.fromPhase st).flatMap (fun e => (p.shards t k.toPhase own).map (fun f =>
    s.shardPiece f (meetShards e f ((s.tdesc f.localAddr).dim (1 - f.axis))))))

/-- What this station, of rank `me`, sends to rank `r` of a copying collective. -/
def State.copySends (s : State) (k : Coll) (me r : Nat) : List Piece :=
  if k.refocus then
    match s.planById k.planId with
    | some p => s.refocusSends k p ((s.collStations k).getD me 0) ((s.collStations k).getD r 0)
    | none => []
  else (s.copyPieces k me r).map (·.1)

/-- What it takes from rank `r`. -/
def State.copyTakes (s : State) (k : Coll) (me r : Nat) : List Piece :=
  if k.refocus then
    match s.planById k.planId with
    | some p => s.refocusTakes k p ((s.collStations k).getD me 0) ((s.collStations k).getD r 0)
    | none => []
  else (s.copyPieces k r me).map (·.2)

/-! ### Checks (R385) -/

/-- Two descriptors between which tiles can be copied bit for bit, or wide values converted. -/
def copyFits (wire : Nat) (S D : TDesc) : Bool :=
  if wire = 0 then S.fmt == D.fmt && S.flags % 16 == D.flags % 16 && u8At S.raw 60 == u8At D.raw 60
  else !S.fmt.blocked && !D.fmt.blocked

/-- The checks of a reduction. -/
def State.reduceOk (s : State) (k : Coll) (me : Nat) : Bool :=
  let srcs := s.collSources k
  let S := s.tdesc (srcs.getD 0 0)
  let tab := s.shardTable k.shardAddr k.n
  let sh := tab.getD me (0, 0)
  let D := s.tdesc k.dstAddr
  let j := s.qjob k.qjob
  srcs.all (fun a => s.tdescOk a && (s.tdesc a).dim0 == S.dim0 && (s.tdesc a).dim1 == S.dim1
      && (k.records || !(s.tdesc a).fmt.blocked))
    && coverOk tab (S.dim k.axis)
    && (!k.blocked || S.dim1 % 32 == 0)
    && (if k.recordsOut then k.dstAddr != 0
        else s.tdescOk k.dstAddr && !D.fmt.blocked && D.dim (1 - k.axis) == S.dim (1 - k.axis)
          && (D.dim k.axis == S.dim k.axis || (!k.gather && D.dim k.axis == sh.2)))
    && (k.qjob == 0 || (k.qjob % 64 == 0 && s.accessOk k.qjob 64 false && (j.op == 1 || j.op == 2) && j.src == 0
      && (s.jobCheck j true).isNone))

/-- The checks of ALL_GATHER and TRANSPOSE. -/
def State.moveOk (s : State) (k : Coll) : Bool :=
  let srcs := s.collSources k
  let S := s.tdesc (srcs.getD 0 0)
  let a := if k.op = 2 then k.dstAddr else srcs.getLast?.getD 0
  let D := s.tdesc a
  srcs.all (fun x => s.tdescOk x) && s.tdescOk a && copyFits k.wire S D
    && srcs.all (fun x => (s.tdesc x).dim0 == S.dim0 && (s.tdesc x).dim1 == S.dim1)
    && decide (1 ≤ k.copyWindows (D.fmt.nibbles / 2))
    && coverOk (s.shardTable k.shardAddr k.n) (D.dim k.axis)
    && (k.op == 2 || coverOk (s.shardTable k.dstAddr k.n) (S.dim (1 - k.axis)))

/-- The shards of a tensor's phase cover 0 to their largest end exactly once per replica, along one axis: as many begin as end
at every boundary between (R77). An entry with COUNT zero, which fails by itself, has no part in it. Shards along different
axes in one phase do not cover (DESIGN CHOICE, log entry 67). -/
def coverEven (shards : List ShardEntry) : Bool :=
  let es := shards.filter (fun e => e.count != 0)
  let top := es.foldl (fun m e => Nat.max m (e.start + e.count)) 0
  let starts := fun (x : Nat) => (es.filter (fun e => e.start == x)).length
  let ends := fun (x : Nat) => (es.filter (fun e => e.start + e.count == x)).length
  let axis := (es.head?.map (fun e => e.axis)).getD 0
  es.all (fun e => e.axis == axis) && (es.isEmpty || decide (1 ≤ starts 0))
    && es.all (fun e => (e.start == 0 || starts e.start == ends e.start)
      && (e.start + e.count == top || starts (e.start + e.count) == ends (e.start + e.count)))

/-- A phase of a plan has shards of a tensor, and they cover it. -/
def Plan.covers (p : Plan) (tensor phase : Nat) : Bool :=
  let es := p.entries.filter (fun e => e.tensorId == tensor && e.phase == phase)
  !es.isEmpty && coverEven es

/-- Planes of this station's shards of a tensor in a phase. -/
def State.shardPlanes (s : State) (p : Plan) (tensor phase own : Nat) : List (Nat × Nat) :=
  (p.shards tensor phase own).flatMap (fun e => (s.tdesc e.localAddr).planes)

/-- The checks of a Refocus. Destination buffers that are not separate from the source buffers break R78, which R394 asks the
station to meet: refused (log entry 67). -/
def State.refocusOk (s : State) (k : Coll) (own : Nat) : Bool :=
  match s.planById k.planId with
  | none => false
  | some p =>
    let ids := s.refocusIds k
    let from' := ids.flatMap (fun t => s.shardPlanes p t k.fromPhase own)
    let to' := ids.flatMap (fun t => s.shardPlanes p t k.toPhase own)
    s.accessOk k.srcAddr 4 false && s.accessOk k.srcAddr (4 + 4 * leNat (s.descLoad k.srcAddr 4)) false
      && ids.all (fun t => p.covers t k.fromPhase && p.covers t k.toPhase
        && (p.shards t k.fromPhase own).all (fun e => s.tdescOk e.localAddr)
        && (p.shards t k.toPhase own).all (fun e => s.tdescOk e.localAddr))
      && to'.all (fun x => from'.all (fun y => !overlaps x y))

/-- R385 on a descriptor and the tables it names; `me` is this station's rank. -/
def State.collOk (s : State) (k : Coll) (me : Nat) : Bool :=
  if k.op = 1 then s.reduceOk k me
  else if k.op = 4 then true
  else if k.refocus then s.refocusOk k ((s.collStations k).getD me 0)
  else s.moveOk k

/-- Tables that the engine reads at slot start (R384). -/
def Coll.tables (k : Coll) : List (Nat × Nat × Bool) :=
  (k.listAddr, 2 * k.n, false)
    :: (if k.op = 4 ∨ k.refocus then [] else
          [(k.srcAddr, 8 * k.contribs, false), (k.shardAddr, 16 * k.n, false)]
            ++ (if k.op = 3 then [(k.dstAddr, 16 * k.n, false)] else []))

/-- Planes of a descriptor as accesses. -/
def TDesc.accesses (d : TDesc) (write : Bool) : List (Nat × Nat × Bool) := d.planes.map (fun p => (p.1, p.2, write))

/-- Memory that a collective reads and writes. -/
def State.collAccess (s : State) (k : Coll) (me : Nat) : List (Nat × Nat × Bool) :=
  let srcs := (s.collSources k).map (fun a => s.tdesc a)
  let S := srcs.getD 0 (s.tdesc 0)
  let sh := (s.shardTable k.shardAddr k.n).getD me (0, 0)
  if k.op = 1 then
    srcs.flatMap (fun (d : TDesc) => if k.records then [(d.elemAddr, 16 * d.dim0 * d.dim1, false)] else d.accesses false)
      ++ (if k.recordsOut then
            [(k.dstAddr, 16 * (if k.gather then S.dim0 * S.dim1 else shardItems k.axis S.dim0 S.dim1 sh), true)]
          else (s.tdesc k.dstAddr).accesses true)
      ++ (if k.qjob = 0 then [] else s.jobAccess (s.qjob k.qjob))
  else if k.op = 4 then []
  else if k.refocus then
    match s.planById k.planId with
    | none => []
    | some p =>
      let own := (s.collStations k).getD me 0
      (s.refocusIds k).flatMap (fun t =>
        (p.shards t k.fromPhase own).flatMap (fun e => (s.tdesc e.localAddr).accesses false)
          ++ (p.shards t k.toPhase own).flatMap (fun e => (s.tdesc e.localAddr).accesses true))
  else S.accesses false ++ (if k.op = 2 then (s.tdesc k.dstAddr).accesses true
    else ((srcs.getLast?.map (fun (d : TDesc) => d.accesses true)).getD []))

end Sys2Proof.Machine
end

