-- ==== Sys2Proof/Machine/Collective.lean ====
section
/-! DEFINITION. The collective engine at work (R383 to R397): a collective's start, its credits, the packets that it sends
and takes, its results, the Loupe exchange, and a lost peer. -/

namespace Sys2Proof.Machine

/-! ### Names -/

/-- This station's rank in the running collective. -/
def State.colMe (s : State) : Nat := s.col.ranks.findIdx (fun x => s.lnk.station == some x)

/-- The rank of a station in the running collective. -/
def State.rankOf (s : State) (st : Nat) : Option Nat := s.col.ranks.findIdx? (fun x => x == st)

/-- Result descriptor and first contribution descriptor as read at the start. -/
def State.colDst (s : State) : TDesc := ⟨s.curColl.dstAddr, slice s.col.dstRaw 0 64⟩
def State.colSrc (s : State) : TDesc := ⟨0, slice s.col.dstRaw 64 64⟩

/-- Shard of a rank, and its items. -/
def State.colShard (s : State) (r : Nat) : Nat × Nat := s.col.shards.getD r (0, 0)
def State.colItems (s : State) (r : Nat) : Nat := shardItems s.curColl.axis s.colSrc.dim0 s.colSrc.dim1 (s.colShard r)

/-- Bytes of a destination element of a copy of values. -/
def State.copyElem (s : State) : Nat := s.colDst.fmt.nibbles / 2

/-- Items of a copy window, and W of the copies. -/
def State.copyWin (s : State) : Nat := s.curColl.copyWindow s.copyElem
def State.copyW (s : State) : Nat := s.curColl.copyWindows s.copyElem

/-- Number of a copy window of rank `r`, beside the reduction windows; key of a rank's copy credit. -/
def copyKey (r w : Nat) : Nat := 2 ^ 40 + r * 2 ^ 30 + w
def copyRank (r : Nat) : Nat := r + 2 ^ 20

/-- Whether a packet belongs to the copies of a collective: those of a gather after a reduction carry LAST (DESIGN CHOICE,
log entry 29). -/
def State.copyPacket (s : State) (p : Packet) : Bool := !s.curColl.reduces || p.flags.getLsbD 2

/-! ### Counting traffic and faults -/

def State.colTx (s : State) (n : Nat) : State :=
  let t := s.col.txBytes + n
  (s.setCol (fun c => { c with txBytes := t % 2 ^ 20 })).bump Reg.COL_CNT_TX_MIB (t / 2 ^ 20)

def State.colRx (s : State) (n : Nat) : State :=
  let t := s.col.rxBytes + n
  (s.setCol (fun c => { c with rxBytes := t % 2 ^ 20 })).bump Reg.COL_CNT_RX_MIB (t / 2 ^ 20)

/-- A transient datapath error (R396): the attempt fails, and the engine goes on sending. -/
def State.colTransient (s : State) : State := s.faultRun s.col.ref

/-! ### Sending (R387) -/

/-- A packet of the running collective. -/
def State.colPacket (s : State) (type flags dst addr aux : Nat) (payload : List Byte) : Packet :=
  s.mkPacket type flags dst (s.col.attemptTick.toNat % 2 ^ 16) s.col.curId addr aux payload

/-- Windows that a packet's destination has granted. -/
def State.colCredit (s : State) (p : Packet) : Nat :=
  match s.rankOf p.dst.toNat with
  | some r => tget 0 s.col.credit (if s.copyPacket p then copyRank r else r)
  | none => 0

/-- Packets that wait are sent where their window is granted. -/
def State.colSend (s : State) : State :=
  let go := s.col.toSend.filter (fun x => decide (x.1 < s.colCredit x.2))
  let stay := s.col.toSend.filter (fun x => !decide (x.1 < s.colCredit x.2))
  let s1 := s.setCol (fun c => { c with toSend := stay, sent := c.sent ++ go.map (·.2) })
  (s1.sendPackets (go.map (·.2))).colTx (sumNat (go.map (fun x => x.2.payload.length)))

/-- Chunks of a run of `total` items in windows of `win` and packets of `per`: window, first item, items. -/
def windowChunks (win per total : Nat) : List (Nat × Nat × Nat) :=
  (List.range (cdiv total win)).flatMap (fun w =>
    let n := Nat.min win (total - w * win)
    (List.range (cdiv n per)).map (fun p => (w, w * win + p * per, Nat.min per (n - p * per))))

/-- Packets of window `w` in such a run. -/
def windowPackets (win per total w : Nat) : Nat := cdiv (Nat.min win (total - w * win)) per

/-- A stream queued for a rank as copy packets; ADDR counts its items (Table 12.10). -/
def State.queueStream (s : State) (r flags : Nat) (bs : List Byte) : State :=
  let dst := s.col.ranks.getD r 0
  let k := s.curColl
  let u := k.copyUnit
  let ps := (windowChunks s.copyWin k.copyItems (bs.length / u)).map (fun x =>
    (x.1, s.colPacket tyColData flags dst x.2.1 0 (slice bs (u * x.2.1) (u * x.2.2))))
  s.setCol (fun c => { c with toSend := c.toSend ++ ps })

/-! ### Credits granted -/

/-- The windows granted to a rank raised to `upTo`, where that is more: a COL_CREDIT packet. -/
def State.grantTo (s : State) (r : Nat) (copy : Bool) (upTo : Nat) : State :=
  let key := if copy then copyRank r else r
  let old := tget 0 s.col.granted key
  if upTo ≤ old then s
  else
    let p := s.colPacket tyColCredit (4 * b2n (copy && s.curColl.reduces)) (s.col.ranks.getD r 0) old ((upTo - old) * 8) []
    (s.setCol (fun c => { c with granted := tset c.granted key upTo })).sendPacket p

/-- Windows with keys from `base` up to `base + n` that are complete. -/
def State.windowsDone (s : State) (base n : Nat) : Nat :=
  ((List.range n).filter (fun w => decide (tget 0 s.col.need (base + w) ≤ tget 0 s.col.got (base + w)))).length

/-- Copy windows that a rank sends here. -/
def State.copyWins (s : State) (r : Nat) : Nat :=
  ((s.col.need.map (·.1)).filter (fun x => decide (copyKey r 0 ≤ x) && decide (x < copyKey (r + 1) 0))).length

/-- Every rank but this one. -/
def State.colPeers (s : State) : List Nat := (List.range s.col.ranks.length).filter (fun r => r != s.colMe)

/-- Credit brought up to date: at most W windows in flight from each source (R388). -/
def State.grantAll (s : State) : State :=
  let k := s.curColl
  let n := if k.reduces then cdiv (s.colItems s.colMe) 65536 else 0
  s.colPeers.foldl (fun (s : State) r =>
    let s1 := if n = 0 then s else s.grantTo r false (Nat.min n (s.windowsDone 0 n + k.redWindows))
    let m := s.copyWins r
    if m = 0 then s1 else s1.grantTo r true (Nat.min m (s.windowsDone (copyKey r 0) m + s.copyW))) s

/-! ### Accumulating (R389, R391) -/

/-- A raw record added to item `i`; one of another shift makes it NaN with cause INV for good, counted once (R196, R389). An
item without records holds shift 1024, a mismatched one 2048. -/
def State.addRecord (s : State) (i : Nat) (r : List Byte) : State :=
  let sh := ofInt 10 (recordShift r)
  let old := tget 1024 s.col.shifts i
  if old = 2048 then s
  else if old = 1024 ∨ old = sh then
    s.setCol (fun c => { c with shifts := tset c.shifts i sh, acc := tmod AccCell.zero c.acc i (fun a => a.combine (recordCell r)) })
  else ((s.stick Reg.COL_STATUS 3).bump Reg.ACC_CNT_SHIFT_MISMATCH 1).setCol (fun c =>
    { c with shifts := tset c.shifts i 2048, acc := tset c.acc i (.special 3 causeInv) })

/-- One item of a payload taken into the owner's accumulators, or kept for a maximum or minimum. -/
def State.addItem (s : State) (k : Coll) (b : List Byte) (n i q : Nat) : State :=
  if k.redOp ≠ 1 then
    s.setCol (fun c => { c with recs := tmod [] c.recs i (fun l => l ++ slice b (16 * q) 16) })
  else if k.records then s.addRecord i (slice b (16 * q) 16)
  else
    let t := termOf ((k.payloadVal b n q).scale k.redShift)
    s.setCol (fun c => { c with acc := tmod AccCell.zero c.acc i (fun a => a.combine t) })

/-- A payload of `n` items from item `i` on. -/
def State.addPayload (s : State) (k : Coll) (b : List Byte) (i n : Nat) : State :=
  (List.range n).foldl (fun (s : State) q => s.addItem k b n (i + q) q) s

/-! ### Results (R389, R391, R392) -/

/-- Records in ascending index, an earlier one first on a tie. -/
def insertByIndex (x : Nat × Val) : List (Nat × Val) → List (Nat × Val)
  | [] => [x]
  | y :: ys => if x.1 < y.1 then x :: y :: ys else y :: insertByIndex x ys

/-- The reduction record that combines an item's records. -/
def Coll.extremeRecord (k : Coll) (b : List Byte) : List Byte :=
  let xs := (chunks 16 (b.length / 16 + 1) b).foldl (fun (l : List (Nat × Val)) r => insertByIndex (u32At r 4, f32 (u32At r 0)) l) []
  let e := extreme (k.redOp == 2) k.numPref xs
  toLe 4 (code32 e.1) ++ toLe 4 (if k.redIdx then e.2 else 0xFFFFFFFF) ++ List.replicate 8 0

def State.colCell (s : State) (i : Nat) : AccCell := tget AccCell.zero s.col.acc i

/-- Shift of a sum: its value is the accumulator's times 2^-RED_SHIFT, and k = -RED_SHIFT of a raw record says so (R389). -/
def State.colShift (s : State) : Int := -s.curColl.redShift

/-- Item `i`'s sum over 2^TE, rounded once to `f`. -/
def State.colVal (s : State) (f : Format) (te : Int) (i : Nat) : Val :=
  let v := ((s.colCell i).val s.colShift).scale (-te)
  if f = .bf16 then round16 v else round32 v

/-- Bytes of item `i`'s result. -/
def State.resultBytes (s : State) (i : Nat) : List Byte :=
  let k := s.curColl
  if k.redOp ≠ 1 then k.extremeRecord (tget [] s.col.recs i)
  else if k.rawOut then (s.colCell i).record s.colShift
  else outBytes s.colDst.fmt (s.colVal s.colDst.fmt s.colDst.te i)

/-- Tensor exponent of the results: records have none. -/
def State.colTe (s : State) : Int := if s.curColl.recordsOut then 0 else s.colDst.te

/-- Item `i`'s FP32 result over 2^TE: of a maximum or minimum, the record's value. -/
def State.resultVal (s : State) (f : Format) (i : Nat) : Val :=
  if s.curColl.redOp ≠ 1 then f32 (u32At (s.resultBytes i) 0) else s.colVal f s.colTe i

/-- Where the result of item `i` of rank `r`'s shard lies, and its length. -/
def State.resultAt (s : State) (r i : Nat) : Nat × Nat :=
  let k := s.curColl
  let d := s.colDst
  let sh := s.colShard r
  let x := shardPlace k.axis s.colSrc.dim1 sh i
  if k.recordsOut then (k.dstAddr + 16 * (if k.gather then x.1 * s.colSrc.dim1 + x.2 else i), 16)
  else
    let o := if s.colSrc.dim k.axis = d.dim k.axis then 0 else sh.1
    (if k.axis = 0 then d.wideAddr (x.1 - o) x.2 else d.wideAddr x.1 (x.2 - o), d.fmt.nibbles / 2)

/-- FP32 results by indices within the owner's shard, as a quantize job reads them. -/
def State.resultVals (s : State) : Nat → Nat → Val := fun i0 i1 =>
  let k := s.curColl
  let n1 := if k.axis = 0 then s.colSrc.dim1 else (s.colShard s.colMe).2
  let n0 := if k.axis = 0 then (s.colShard s.colMe).2 else s.colSrc.dim0
  if i0 < n0 ∧ i1 < n1 then (s.resultVal .fp32 (i0 * n1 + i1)).scale s.colTe else .zero

/-- The statistics that the results report under STAT_TAG. -/
def State.resultReport (s : State) (n : Nat) : List Report :=
  let f := if s.curColl.recordsOut then .fp32 else s.colDst.fmt
  statReport s.curColl.statTag s.colTe ((List.range n).map (fun i => s.resultVal f i)) 0

/-- The results written, with zero codes in the padding of a wide result (R99), quantized and reported, and queued for every
station where GATHER asks for it. -/
def State.colResults (s : State) : State :=
  let k := s.curColl
  let me := s.colMe
  let n := s.colItems me
  let ws := (List.range n).map (fun i => ((s.resultAt me i).1, s.resultBytes i))
  let pad := if k.recordsOut then [] else s.colDst.padStores
  let o := if k.qjob = 0 then (⟨[], [], 0, 0⟩ : JobOut) else s.quantJob (s.qjob k.qjob) s.resultVals
  let eff : Effects := { Effects.empty with reports := s.resultReport n }
  let s1 := ((s.putsOut s.col.ref (ws ++ pad ++ o.writes)).charge s.col.ref (eff.add o.effects)).setCol (fun c => { c with resulted := true })
  if k.gather then
    let bs := ws.flatMap (fun w => w.2)
    s.colPeers.foldl (fun (s : State) r => s.queueStream r 4 bs) s1
  else s1

/-! ### The Loupe exchange (R395) -/

/-- The bytes that rank `r` has sent here, packet by packet. -/
def State.colBytes (s : State) (r : Nat) : List Byte :=
  (s.col.recs.filter (fun e => decide (copyKey r 0 ≤ e.1) && decide (e.1 < copyKey (r + 1) 0))).flatMap (fun e => e.2)

/-- A station's records from its bytes: the verdict record and the statistics records. -/
def splitRecords (b : List Byte) : List Byte × List (List Byte) :=
  (slice b 0 160, chunks 48 (b.length / 48 + 1) (b.drop 160))

/-- Records of two stations combined by Table 8.3. -/
def joinRecords (a b : List Byte × List (List Byte)) : List Byte × List (List Byte) :=
  (combineVerdict a.1 b.1, (a.2.zip b.2).map (fun x => combineStats x.1 x.2))

/-- Rank 0 combines every station's records in rank order, returns them to its combiner, and queues them for every station. -/
def State.verdictRoot (s : State) : State :=
  let own := splitRecords s.exchangeRecords.flatten
  let all := s.colPeers.foldl (fun a r => joinRecords a (splitRecords (s.colBytes r))) own
  let bs := (all.1 :: all.2).flatten
  s.colPeers.foldl (fun (s : State) r => s.queueStream r 0 bs)
    ((s.takeVerdict all.1 all.2).setCol (fun c => { c with resulted := true }))

/-- Any other rank returns the combined records to its combiner. -/
def State.verdictLeaf (s : State) : State :=
  let all := splitRecords (s.colBytes 0)
  (s.takeVerdict all.1 all.2).setCol (fun c => { c with resulted := true })

/-! ### Progress -/

/-- Every window whose key `p` selects is complete. -/
def State.needMet (s : State) (p : Nat → Bool) : Bool :=
  s.col.need.all (fun e => !p e.1 || decide (e.2 ≤ tget 0 s.col.got e.1))

/-- What the windows complete so far allow: results, or the verdict. -/
def State.colResolve (s : State) : State :=
  if s.col.resulted then s
  else if s.curColl.reduces then (if s.needMet (fun w => decide (w < 2 ^ 40)) then s.inSlot s.col.ref State.colResults else s)
  else if s.curColl.op = 4 then
    (if s.needMet (fun _ => true) then (if s.colMe = 0 then s.verdictRoot else s.verdictLeaf) else s)
  else s.setCol (fun c => { c with resulted := true })

/-- The collective ends when its results are written, its windows complete and its packets sent. -/
def State.colFinish (s : State) : State :=
  if s.col.resulted && s.needMet (fun _ => true) && s.col.toSend.isEmpty then
    let s1 := (s.bump Reg.COL_CNT_OPS 1).setCol (fun c => { c with phase := .idle })
    match s.col.ref with
    | some r => s1.setRun r (fun x => { x with last := true })
    | none => s1
  else s

/-- Results, credits, packets and the end, as far as the state allows. -/
def State.colAdvance (s : State) : State := (((s.colResolve).grantAll).colSend).colFinish

/-! ### Start -/

/-- Packets that every rank must deliver in the windows of this station's shard. -/
def State.redNeed (s : State) : Tab Nat :=
  let k := s.curColl
  let n := s.colItems s.colMe
  (List.range (cdiv n 65536)).map (fun w => (w, (k.n - 1) * k.contribs * windowPackets 65536 k.items n w))

/-- Copy windows that a rank delivers, for a stream of `len` items in windows of `win` and packets of `per`. -/
def copyNeed (win per r len : Nat) : Tab Nat :=
  (List.range (cdiv len win)).map (fun w => (copyKey r w, windowPackets win per len w))

/-- Places of the results that rank `r` gathers here. -/
def State.gatherSegs (s : State) (r : Nat) : List (Nat × Nat) := (List.range (s.colItems r)).map (fun i => s.resultAt r i)

/-- Items of the stream that lands in `segs`: a value for each element, or the bytes. -/
def State.streamLen (s : State) (segs : List (Nat × Nat)) : Nat :=
  if s.curColl.copiesValues then segs.length else sumNat (segs.map (·.2))

/-- The landing places of every rank, and the windows that they need. -/
def State.colPlaces (s : State) : State :=
  let k := s.curColl
  let me := s.colMe
  let segs := s.colPeers.map (fun r => (r, if k.op = 4 then [] else if k.op = 1 then (if k.gather then s.gatherSegs r else [])
    else k.landing (s.copyTakes k me r)))
  let rec' := s.exchangeRecords.flatten.length
  let need := segs.flatMap (fun e => copyNeed s.copyWin k.copyItems e.1
    (if k.op = 4 then (if me = 0 ∨ e.1 = 0 then rec' else 0) else s.streamLen e.2))
  s.setCol (fun c => { c with segs := segs, need := (if k.op = 1 then s.redNeed else []) ++ need })

/-- A contribution of this station to one rank: packets queued for it, or added here where it owns the shard; the wire
job's counts go with the slot. -/
def State.contribute (s : State) (d : TDesc) (me c r : Nat) : State :=
  let k := s.curColl
  let poison := 2 * b2n s.col.transient
  let outs := (windowChunks 65536 k.items (s.colItems r)).map (fun x => (x, s.wirePayload k d me c (s.colShard r) x.2.1 x.2.2))
  let cnt := outs.foldl (fun (q : QCnt) o => q.add o.2.2) QCnt.none
  let s1 := if k.blocked then s.charge s.col.ref (quantEffects k.wireTid cnt) else s
  if r = me then outs.foldl (fun (s : State) o => s.addPayload k o.2.1 o.1.2.1 o.1.2.2) s1
  else
    let ps := outs.map (fun o => (o.1.1, s.colPacket tyColData poison (s.col.ranks.getD r 0) o.1.2.1 c o.2.1))
    s1.setCol (fun x => { x with toSend := x.toSend ++ ps })

/-- Everything that this station contributes to a reduction. -/
def State.contributeAll (s : State) : State :=
  let me := s.colMe
  let ds := (s.collSources s.curColl).map (fun a => s.tdesc a)
  (ds.zip (List.range ds.length)).foldl (fun (s : State) d =>
    (List.range s.col.ranks.length).foldl (fun (s : State) r => s.contribute d.1 me d.2 r) s) s

/-- Bytes of a copying collective put where they land: a run of the stream from byte `off` on. -/
def landBits : List (Nat × Nat) → Nat → List Byte → List (Nat × List Byte)
  | [], _, _ => []
  | (a, n) :: segs, off, bs =>
    if bs.isEmpty then []
    else if n ≤ off then landBits segs (off - n) bs
    else (if a = nowhere then [] else [(a + off, bs.take (n - off))]) ++ landBits segs 0 (bs.drop (n - off))

/-- Wire values from item `i` on converted once into the destination's format. -/
def landValues (k : Coll) (d : TDesc) (segs : List (Nat × Nat)) (i : Nat) (bs : List Byte) : List (Nat × List Byte) :=
  ((segs.drop i).zip (List.range (bs.length / k.copyUnit))).map (fun x =>
    (x.1.1, d.wideBytes (if k.wire = 6 then bf16 (u16At bs (2 * x.2)) else f32 (u32At bs (4 * x.2)))))

/-- Where a part of rank `r`'s stream from item `i` on goes. -/
def State.land (s : State) (segs : List (Nat × Nat)) (i : Nat) (bs : List Byte) : State :=
  let k := s.curColl
  s.putsOut s.col.ref (if k.copiesValues then landValues k s.colDst segs i bs else landBits segs i bs)

/-- Everything that this station sends in a copying collective; its own part is copied at once, and what belongs to no rank's
stream is written. -/
def State.copyAll (s : State) : State :=
  let k := s.curColl
  let me := s.colMe
  let own' := (List.range s.col.ranks.length).flatMap (fun r => (s.copyTakes k me r).flatMap (Piece.frame k))
  let streams := (List.range s.col.ranks.length).map (fun r => (r, s.pieceStream k (s.copySends k me r)))
  let own := k.landing (s.copyTakes k me me)
  streams.foldl (fun (s : State) x =>
    if x.1 = me then s.land own 0 x.2 else s.queueStream x.1 (2 * b2n s.col.transient) x.2) (s.putsOut s.col.ref own')

/-- What the collective sends first. -/
def State.colBegin (s : State) : State :=
  let k := s.curColl
  if k.reduces then s.contributeAll
  else if k.op = 4 then (if s.colMe = 0 then s else s.queueStream 0 0 s.exchangeRecords.flatten)
  else s.copyAll

/-- The engine takes up a collective. -/
def State.colLoad (s : State) (k : Coll) (ref : SlotRef) : State :=
  let D := if k.reduces ∨ k.op = 2 then k.dstAddr else (s.collSources k).getLast?.getD 0
  let raw := if k.op = 4 ∨ k.refocus then [] else s.descLoad D 64 ++ s.descLoad ((s.collSources k).getD 0 0) 64
  let ranks := s.collStations k
  let shards := if k.op = 4 ∨ k.refocus then [] else s.shardTable k.shardAddr k.n
  let c : ColState :=
    { ColState.reset with
        phase := .running, op := k.op, curId := k.id, windows := k.windows ((TDesc.fmt ⟨0, raw⟩).nibbles / 2), descAddr := k.addr, desc := k.raw,
        ref := some ref, ranks := ranks, shards := shards, dstRaw := raw,
        lost := s.col.lost, attemptTick := s.col.attemptTick, txBytes := s.col.txBytes, rxBytes := s.col.rxBytes }
  { s with col := c }

/-- A collective that has passed its checks starts. Poison in what it reads, or a host access while the link is down, is a
transient error (R396). -/
def State.colStart (s : State) (k : Coll) (ref : SlotRef) (me : Nat) : State :=
  let bad := s.accessFault (s.collAccess k me)
  let s1 := (s.colLoad k ref).setRun ref (fun x => { x with steps := 1 })
  let s2 := if bad then s1.colTransient else s1
  (s2.colPlaces.colBegin).colAdvance

/-- A refused collective (R385). -/
def State.refuseCol (s : State) (ref : SlotRef) : State :=
  (s.stick Reg.COL_STATUS 0).refuseRun colUnit (some ref) .descInvalid

/-- The slot's KIND admits the descriptor: 5 for a Refocus, 3 for any other (R384). -/
def State.colKind (s : State) (ref : SlotRef) (k : Coll) : Bool :=
  match ref with
  | .prog n => ((s.progSlot n).map (fun d => d.kind)).getD 3 == (if k.refocus then 5 else 3)
  | .rerun _ => false

/-- The collective checked against the tables it names, and started. -/
def State.colTry (s : State) (k : Coll) (ref : SlotRef) : State :=
  if !k.formed || !s.colKind ref k then s.refuseCol ref
  else match s.firstBad k.tables with
    | some a => (s.addrFault colUnit a).failRun (some ref)
    | none =>
      let ranks := s.collStations k
      let me := ranks.findIdx (fun x => s.lnk.station == some x)
      if ranks.eraseDups.length != ranks.length || decide (ranks.length ≤ me) || !s.collOk k me then s.refuseCol ref
      else match s.firstBad (s.collAccess k me) with
        | some a => (s.addrFault colUnit a).failRun (some ref)
        | none => s.colStart k ref me

/-- A collective's row: the slot of the engine names the descriptor, no collective runs, and the descriptor's OP is the
row's, or one that is refused, as is REFOCUS with an OP other than TRANSPOSE; otherwise nothing happens (log entry 6). The
descriptor and its tables are those of the slot's start (R384). -/
def State.colRow (s : State) (desc op : Nat) (refocus : Bool) : State :=
  match s.runAt colUnit desc with
  | none => s
  | some r =>
    if s.col.phase != .idle || r.steps != 0 then s
    else if !s.accessOk desc 128 false then (s.addrFault colUnit desc).failRun (some r.ref)
    else
      s.inSlot (some r.ref) (fun s =>
        let k := s.coll desc
        let row := k.op == op && k.refocus == refocus
        if row || k.op == 0 || decide (4 < k.op) || (k.refocus && k.op != 3) then s.colTry k r.ref else s)

/-- REDUCE_SCATTER (R389). -/
def execReduceScatter (desc : BitVec 64) (s : State) : Out := .next (s.colRow desc.toNat 1 false)

/-- ALL_GATHER (R393). -/
def execAllGather (desc : BitVec 64) (s : State) : Out := .next (s.colRow desc.toNat 2 false)

/-- TRANSPOSE (R393). -/
def execTranspose (desc : BitVec 64) (s : State) : Out := .next (s.colRow desc.toNat 3 false)

/-- REFOCUS (R394). -/
def execRefocus (desc : BitVec 64) (s : State) : Out := .next (s.colRow desc.toNat 3 true)

/-- VERDICT (R395). -/
def execVerdict (desc : BitVec 64) (s : State) : Out := .next (s.colRow desc.toNat 4 false)

/-! ### Packets taken (R386 to R388) -/

/-- The source rank of a packet of the running collective and attempt, if it is one (R386). -/
def State.colFrom (s : State) (p : Packet) : Option Nat :=
  if s.col.phase == .idle || p.inst.toNat != s.col.attemptTick.toNat % 2 ^ 16 || p.tag.toNat != s.col.curId then none
  else match s.rankOf p.src.toNat with
    | some r => if r = s.colMe then none else some r
    | none => none

/-- A rank has been heard from. -/
def State.colHeard (s : State) (r : Nat) : State := s.setCol (fun c => { c with idle := tset c.idle r 0 })

/-- A packet slot taken once: `work` uses it; a second one, or one of a complete window, is counted (R388). -/
def State.takeOnce (s : State) (src win slot : Nat) (work : State → State) : State :=
  if decide (tget 0 s.col.need win ≤ tget 0 s.col.got win) || s.col.filter.contains (src, win, slot) then
    s.bump Reg.COL_CNT_DUP 1
  else
    let s1 := work (s.setCol (fun c => { c with filter := (src, win, slot) :: c.filter, got := tmod 0 c.got win (· + 1) }))
    let full := decide (tget 0 s1.col.need win ≤ tget 0 s1.col.got win)
    (if full then s1.setCol (fun c => { c with filter := c.filter.filter (fun e => e.2.1 != win) }) else s1).colAdvance

/-- Reduction data: added at its items. A payload that Table 12.10 does not give is not taken. -/
def State.takeReduce (s : State) (r : Nat) (p : Packet) : State :=
  let k := s.curColl
  let i := p.addr.toNat
  let total := s.colItems s.colMe
  let w := i / 65536
  let n := Nat.min k.items (Nat.min (65536 - i % 65536) (total - i))
  if total ≤ i ∨ i % 65536 % k.items ≠ 0 ∨ k.contribs ≤ p.aux.toNat % 8 ∨ p.payload.length ≠ k.payloadBytes n then s
  else s.takeOnce (r * 8 + p.aux.toNat % 8) w (i % 65536 / k.items) (fun s => s.addPayload k p.payload i n)

/-- Copied data: put where it lands, or kept for the Loupe exchange. -/
def State.takeCopy (s : State) (r : Nat) (p : Packet) : State :=
  let i := p.addr.toNat
  let per := s.curColl.copyItems
  if i % per ≠ 0 then s
  else s.takeOnce r (copyKey r (i / s.copyWin)) (i % s.copyWin / per) (fun s =>
    if s.curColl.op = 4 then s.setCol (fun c => { c with recs := tset c.recs (copyKey r (i / per)) p.payload })
    else s.land (tget [] s.col.segs r) i p.payload)

/-- COL_DATA served. -/
def State.serveColData (s : State) (p : Packet) : State :=
  match s.colFrom p with
  | none => s.bump Reg.COL_CNT_INSTANCE_DROP 1
  | some r =>
    let s1 := (s.colHeard r).colRx p.payload.length
    let s2 := if packetPoison p then s1.colTransient else s1
    if s2.copyPacket p then s2.takeCopy r p else s2.takeReduce r p

/-- COL_CREDIT served: windows granted from the first one named. -/
def State.serveColCredit (s : State) (p : Packet) : State :=
  match s.colFrom p with
  | none => s.bump Reg.COL_CNT_INSTANCE_DROP 1
  | some r =>
    let key := if s.copyPacket p then copyRank r else r
    let upTo := p.addr.toNat + p.aux.toNat / 8
    ((s.colHeard r).setCol (fun c => { c with credit := tmod 0 c.credit key (fun x => Nat.max x upTo) })).colAdvance

/-- COL_DATA row. -/
def execColData (port : Fin 24) (p : Packet) (s : State) : Out :=
  .next (s.receive port.val tyColData p (fun q s => s.serveColData q))

/-- COL_CREDIT row. -/
def execColCredit (port : Fin 24) (p : Packet) (s : State) : Out :=
  .next (s.receive port.val tyColCredit p (fun q s => s.serveColCredit q))

/-- A packet of any TYPE that the endpoint serves, once held and released (R70). -/
def State.servePacket (s : State) (p : Packet) : State :=
  let t := p.type.toNat
  if t = tyWrite then s.serveWrite p
  else if t = tyReadReq then s.serveRead p
  else if t = tyReadResp then s.serveReadResp p
  else if t = tyWriteAck then s.serveWriteAck p
  else if t = tyComplErr then s.serveComplErr p
  else if t = tySignal then s.serveSignal p
  else if t = tyColData then s.serveColData p
  else if t = tyColCredit then s.serveColCredit p
  else s

/-! ### Lost peers (R397) -/

/-- The engine waits on a rank: for its data, or for its credit. -/
def State.waitsOn (s : State) (r : Nat) : Bool :=
  let k := s.curColl
  let st := s.col.ranks.getD r 0
  s.col.phase != .idle && r != s.colMe && (s.col.toSend.any (fun x => x.2.dst.toNat == st)
    || s.col.need.any (fun e => decide (tget 0 s.col.got e.1 < e.2) && (
      if e.1 < 2 ^ 40 then
        decide ((s.col.filter.filter (fun f => f.2.1 == e.1 && f.1 / 8 == r)).length
          < k.contribs * windowPackets 65536 k.items (s.colItems s.colMe) e.1)
      else decide (copyKey r 0 ≤ e.1) && decide (e.1 < copyKey (r + 1) 0))))

/-- PEER_TIMEOUT (R397): the collective ends, and the step fails. -/
def execPeerTimeout (rank : BitVec 16) (s : State) : Out :=
  let r := rank.toNat
  .next (if !s.waitsOn r || decide (tget 0 s.col.idle r < s.regField Reg.COL_CFG 0 3) then s
    else
      let st := s.col.ranks.getD r 0
      let s1 := ((s.stick Reg.COL_STATUS 1).bump Reg.COL_CNT_PEER_LOST 1).setCol (fun c => { c with phase := .idle, lost := some st })
      ((s1.putReg Reg.COL_LOST_STATION (BitVec.ofNat 32 st)).raise .peerLost colUnit st).failRun s.col.ref)

end Sys2Proof.Machine
end

