-- ==== Sys2Proof/Machine/Queues.lean ====
section
/-! DEFINITION. Dispatch queues (R311, R312, R322 to R327): queue descriptors, the descriptor cache, signals, the
doorbell and the commands of Table 10.8. -/

namespace Sys2Proof.Machine

/-! ### Queue descriptors (Table 10.4) -/

def queueValid (d : List Byte) : Bool := bit (u8At d 0) 0
def queueNext (d : List Byte) : Bool := bit (u8At d 0) 1
def queueHost (d : List Byte) : Bool := bit (u8At d 0) 2
def queueSignals (d : List Byte) : Bool := bit (u8At d 0) 3
def queueIrq (d : List Byte) : Bool := bit (u8At d 0) 4
def queueUnits (d : List Byte) : Nat := u16At d 2
def queueCapacity (d : List Byte) : Nat := u32At d 4
def queueRing (d : List Byte) : Nat := u64At d 8
def queueEntries (d : List Byte) : Nat := u32At d 16
def queueRet (d : List Byte) : Nat := u64At d 32
def queueRetUnits (d : List Byte) : Nat := u16At d 42

/-- Address of entry `i` of a queue's ring (R311). -/
def queueEntry (d : List Byte) (i : Nat) : Nat := queueRing d + 64 + i * (queueUnits d * 64)

/-- The field checks of Table 10.4; the ranges hold for a VALID descriptor. -/
def State.queueOk (s : State) (d : List Byte) : Bool :=
  decide (u8At d 0 < 64) && u8At d 1 == 0 && zeroBytes d 46 2 && zeroBytes d 52 12
    && (!queueValid d ||
      (decide (1 ≤ queueUnits d) && decide (queueUnits d ≤ 1024) && decide (1 ≤ queueCapacity d)
        && decide (queueCapacity d ≤ queueEntries d) && decide (queueEntries d ≤ 2 ^ 24)
        && queueRing d % 256 == 0 && decide (u8At d 45 ≤ 63) && (!queueHost d || s.isHbm (queueRing d))))

/-- A descriptor's COUNT, DROPS and REROUTED set. -/
def queueCounts (d : List Byte) (count drops rerouted : Nat) : List Byte :=
  slice d 0 20 ++ toLe 4 count ++ toLe 4 drops ++ toLe 4 rerouted ++ slice d 32 32

/-! ### The descriptor cache (R325, R326) -/

/-- A queue of a running job. -/
def State.queueRuns (s : State) (qid : Nat) : Bool := s.dsp.jobs.any (fun j => j.queues.any (fun q => q.qid == qid))

/-- Address of a table entry. -/
def State.queueAddr (s : State) (qid : Nat) : Nat := s.queueTable + 64 * qid

/-- A cached descriptor replaced. -/
def State.cacheSet (s : State) (qid : Nat) (d : List Byte) : State :=
  { s with dsp := { s.dsp with cache := s.dsp.cache.map (fun e => if e.1 == qid then (qid, d) else e) } }

/-- The least recently used descriptor that is neither pinned nor busy, written back and dropped. -/
def State.evictQueue (s : State) (keep : List Nat) : State :=
  match s.dsp.cache.find? (fun e => !queuePinned e.2 && !s.queueRuns e.1 && !keep.contains e.1) with
  | some e =>
    let s1 := { s with dsp := { s.dsp with cache := s.dsp.cache.filter (fun x => x.1 != e.1) } }
    s1.store (s.queueAddr e.1) e.2
  | none => s

/-- A descriptor put into the cache as the most recently used; a full cache evicts first. -/
def State.cachePut (s : State) (keep : List Nat) (qid : Nat) (d : List Byte) : State :=
  let s1 := { s with dsp := { s.dsp with cache := s.dsp.cache.filter (fun e => e.1 != qid) } }
  let s2 := if 16384 ≤ s1.dsp.cache.length then s1.evictQueue keep else s1
  { s2 with dsp := { s2.dsp with cache := s2.dsp.cache ++ [(qid, d)] } }

/-- The queues of a job loaded at its start; a queue not cached counts a miss. -/
def State.loadQueues (s : State) (keep : List Nat) : List Nat → State
  | [] => s
  | q :: qs =>
    let s1 := if s.dsp.cache.any (fun e => e.1 == q) then s else s.bump Reg.DSP_CNT_CACHE_MISS 1
    (s1.cachePut keep q (s.queueDesc q)).loadQueues keep qs

/-! ### Signals and interrupts (R322, R324) -/

/-- The signal of a queue whose ring header has landed: a packet to its destination, or the counter here. -/
def State.queueSignal (s : State) (owner : TransFor) (qid : Nat) (d : List Byte) : State :=
  if !queueSignals d then s
  else match s.region (queueRing d) with
    | .remote st _ => s.request tySignal st (u8At d 44 + qid * 256) 0 [] owner none
    | _ => s.countSignal (s.lnk.station.getD 0) qid (u8At d 44)

/-- The interrupt of a queue whose COUNT has reached IRQ_THRESH. -/
def State.queueInterrupt (s : State) (d : List Byte) (count : Nat) : State :=
  if queueIrq d && decide (u32At d 48 ≤ count) then s.sendVec (u8At d 45) else s

/-- Bytes 8 to 63 of a ring header (Table 10.5). -/
def State.ringHeader (s : State) (d : List Byte) : List Byte :=
  toLe 8 (queueRet d) ++ toLe 8 s.upd.t.toNat ++ toLe 2 (s.lnk.station.getD 0) ++ slice d 40 2 ++ slice d 2 2
    ++ slice d 42 2 ++ List.replicate 32 0

/-! ### The doorbell (R323, R421) -/

/-- An accepted doorbell of a HOST queue. -/
def State.hostDoorbell (s : State) (qid count : Nat) (d : List Byte) : State :=
  let s1 := s.store (queueRing d) (toLe 4 count)
  let s2 := if queueSignals d then s1.signalCtr (u8At d 44) else s1
  (s2.bump Reg.DSP_CNT_DOORBELL 1).queueInterrupt (s.queueDesc qid) count

/-- DISPATCH_DB (R323): a 64-bit store of QID and COUNT; a malformed one is a bad doorbell (R421). -/
def execDispatchDb (width : Width) (value : BitVec 64) (s : State) : Out :=
  let v := value.toNat
  let qid := v % 2 ^ 20
  let d := s.queueDesc qid
  .next (if width != .w64 || bits v 20 31 != 0 then s.badDoorbell
    else if queueValid d && queueHost d then s.hostDoorbell qid (v / 2 ^ 32) d
    else s.stick Reg.DSP_STATUS 7)

/-! ### Commands (Table 10.8, R327) -/

/-- DSP_QUEUE_TABLE: the table's base; the cache is emptied without write-back. -/
def execDspQueueTable (m : BitVec 6) (s : State) : Out :=
  .next (s.welfy 0x0670 m fun ps s =>
    let base := u64At ps 0
    if s.dspBusy then s.no .runLock
    else if base % 256 ≠ 0 then s.bad 0
    else if !(s.isHbm base && s.paramOk base (2 ^ 26) true) then s.no .addrInvalid
    else
      let s1 := { s with dsp := { s.dsp with cache := [] } }
      (s1.putPair Reg.DSP_QTABLE_ADDR_LO Reg.DSP_QTABLE_ADDR_HI base).ok [])

/-- Pinned descriptors other than one. -/
def State.pinnedOthers (s : State) (qid : Nat) : Nat :=
  (s.dsp.cache.filter (fun e => e.1 != qid && queuePinned e.2)).length

/-- DSP_QUEUE_CONFIG: the descriptor, but for COUNT, DROPS and REROUTED, written to cache and table. -/
def execDspQueueConfig (m : BitVec 6) (s : State) : Out :=
  .next (s.welfy 0x0671 m fun ps s =>
    let qid := u32At ps 0
    let src := u64At ps 8
    if 2 ^ 20 ≤ qid then s.bad 0
    else if !s.paramOk src 64 false then s.no .addrInvalid
    else if s.queueRuns qid then (s.stick Reg.DSP_STATUS 2).no .queueBusy
    else
      let new := s.load src 64
      let old := s.queueDesc qid
      if !s.queueOk new || (queuePinned new && decide (8192 ≤ s.pinnedOthers qid)) then
        (s.stick Reg.DSP_STATUS 3).no .descInvalid
      else
        let d := queueCounts new (u32At old 20) (u32At old 24) (u32At old 28)
        ((s.cachePut [qid] qid d).store (s.queueAddr qid) d).ok [])

/-- DSP_QUEUE_QUERY. -/
def execDspQueueQuery (m : BitVec 6) (s : State) : Out :=
  .next (s.welfy 0x0672 m fun ps s =>
    let qid := u32At ps 0
    if 2 ^ 20 ≤ qid then s.bad 0 else s.ok (s.queueDesc qid))

def dspCounters : List Nat :=
  [Reg.DSP_CNT_PLACED, Reg.DSP_CNT_DROPPED, Reg.DSP_CNT_REROUTED, Reg.DSP_CNT_CACHE_MISS, Reg.DSP_CNT_ROUTER_NONFIN,
   Reg.DSP_CNT_META_INVALID, Reg.DSP_CNT_DOORBELL, Reg.DSP_CNT_REFUSED]

/-- DSP_COUNTERS. -/
def execDspCounters (m : BitVec 6) (s : State) : Out :=
  .next (s.welfy 0x0673 m fun ps s => s.countersReply dspCounters (bit (u8At ps 0) 0))

end Sys2Proof.Machine
end

