-- ==== Sys2Proof/Machine/Jobs.lean ====
section
/-! DEFINITION. Dispatch jobs (R313 to R321): DISPATCH with its decisions, RETURN, COMBINE, and the end of a job. -/

namespace Sys2Proof.Machine

/-! ### The job descriptor (Table 10.6) -/

/-- A dispatch job descriptor as read. -/
structure Job where
  addr : Nat
  raw : List Byte
  deriving DecidableEq, Repr

namespace Job

def kind (j : Job) : Nat := u8At j.raw 0
def reuse (j : Job) : Bool := bit (u8At j.raw 1) 0
def k (j : Job) : Nat := u8At j.raw 2
def spare (j : Job) : Nat := u8At j.raw 3
def count (j : Job) : Nat := u32At j.raw 4
def routeAddr (j : Job) : Nat := u64At j.raw 8
def src (j : Job) : Nat := u64At j.raw 16
def listAddr (j : Job) : Nat := u64At j.raw 24
def mapAddr (j : Job) : Nat := u64At j.raw 32
def dropAddr (j : Job) : Nat := u64At j.raw 40
def dropCap (j : Job) : Nat := u32At j.raw 48
def experts (j : Job) : Nat := u16At j.raw 52
def out (j : Job) : Nat := u64At j.raw 56

/-- The ranges, and the fields that Table 10.6 asks to be zero. -/
def fieldsOk (j : Job) : Bool :=
  j.addr % 64 == 0 && zeroBytes j.raw 54 2 && match j.kind with
  | 0x21 => decide (u8At j.raw 1 < 2) && decide (1 ≤ j.k) && decide (j.k + j.spare ≤ 8) && decide (1 ≤ j.experts)
      && decide (j.experts ≤ 256) && zeroBytes j.raw 56 8
  | 0x22 => zeroBytes j.raw 1 3 && zeroBytes j.raw 8 8 && zeroBytes j.raw 32 32
  | 0x23 => u8At j.raw 1 == 0 && decide (1 ≤ j.k) && decide (j.k ≤ 8) && u8At j.raw 3 == 0 && zeroBytes j.raw 8 24
      && zeroBytes j.raw 40 16
  | _ => false

/-- Address of the route-map word of rank `r` of a row (R315). -/
def mapWord (j : Job) (row r : Nat) : Nat := j.mapAddr + 8 * (j.k * row + r)

end Job

/-! ### Rows (R312) -/

/-- A tensor whose rows an entry can carry: no fallback or sparsity, and blocks along the row. -/
def rowTensor (d : TDesc) : Bool := !d.fallback && !d.sparse && (!d.fmt.blocked || d.axis == 1)

/-- Packed bytes of a row. -/
def rowBytes (d : TDesc) : Nat :=
  if d.fmt.blocked then cdiv d.dim1 32 * (d.blockBytes + 1 + 8 * b2n d.outliers)
  else d.dim1 * (d.fmt.nibbles / 2)

/-- Tile and place of block `k` of row `r`. -/
def rowBlock (d : TDesc) (r k : Nat) : Nat × Nat := (d.tile (32 * k) r, 2 * (r % 64) + 32 * k % 64 / 32)

/-- The outlier record of a block, zeros for a block without one. -/
def State.rowOutlier (s : State) (d : TDesc) (x : Nat × Nat) : List Byte :=
  match s.dirRecord d.outAddr d.outBase 8 x.1 x.2 with
  | some a => s.load a 8
  | none => List.replicate 8 0

/-- A row packed (R312): elements; for blocked formats element codes, scales and outlier records. -/
def State.packRow (s : State) (d : TDesc) (r : Nat) : List Byte :=
  if d.fmt.blocked then
    let bs := (List.range (cdiv d.dim1 32)).map (rowBlock d r)
    bs.flatMap (fun x => s.load (d.blockAddr x.1 x.2) d.blockBytes)
      ++ bs.map (fun x => s.loadByte (d.scaleAddr + 128 * x.1 + x.2))
      ++ (if d.outliers then bs.flatMap (s.rowOutlier d) else [])
  else (List.range d.dim1).flatMap (fun c => s.load (d.wideAddr r c) (d.fmt.nibbles / 2))

/-! ### Decisions (R314) -/

/-- One choice settled: row, rank, expert and, where it is placed, the place in the list of queues, the entry index and
whether it was rerouted; else the cause of the drop. -/
structure Choice where
  row : Nat
  rank : Nat
  expert : Nat
  queue : Option (Nat × Nat × Bool)
  cause : Nat
  deriving DecidableEq, Repr

/-- What the decisions so far have led to: the queues' counts, in list order, the experts placed or tried for each row,
and the choices, last first. -/
structure Decided where
  queues : List JobQueue
  tried : Tab (List Nat)
  choices : List Choice

/-- Expert at a rank of a token's router record, and its gate. -/
def State.routeExpert (s : State) (j : Job) (row rank : Nat) : Nat := u16At (s.load (j.routeAddr + 64 * row + 8 * rank) 2) 0
def State.routeGate (s : State) (route row rank : Nat) : List Byte := s.load (route + 64 * row + 8 * rank + 4) 4

/-- A queue of the list changed. -/
def Decided.mod (x : Decided) (e : Nat) (f : JobQueue → JobQueue) : Decided :=
  { x with queues := (x.queues.zip (List.range x.queues.length)).map (fun (q : JobQueue × Nat) =>
      if q.2 = e then f q.1 else q.1) }

/-- Entries already in the queue of expert `e`. -/
def Decided.fill (x : Decided) (e : Nat) : Nat := ((x.queues[e]?).map (fun (q : JobQueue) => q.count)).getD 0

/-- A choice placed at expert `e`. -/
def Decided.place (x : Decided) (row rank e : Nat) (again : Bool) : Decided :=
  let c : Choice := { row := row, rank := rank, expert := e, queue := some (e, x.fill e, again), cause := 0 }
  let y := x.mod e (fun (q : JobQueue) => { q with count := q.count + 1, rerouted := q.rerouted + b2n again })
  { y with tried := tset y.tried row (e :: tget [] y.tried row), choices := c :: y.choices }

/-- A choice dropped; a full queue counts the drop. -/
def Decided.drop (x : Decided) (row rank e cause : Nat) : Decided :=
  let c : Choice := { row := row, rank := rank, expert := e, queue := none, cause := cause }
  let y := if cause = 1 then x.mod e (fun (q : JobQueue) => { q with drops := q.drops + 1 }) else x
  { y with choices := c :: y.choices }

/-- The spare ranks of a token tried in order: the first expert with room, and the experts tried on the way. -/
def tryExperts (fits : Nat → Bool) (n : Nat) : List Nat → List Nat → Option Nat × List Nat
  | tried, [] => (none, tried)
  | tried, e :: es =>
    if n ≤ e ∨ tried.contains e then tryExperts fits n tried es
    else if fits e then (some e, tried) else tryExperts fits n (e :: tried) es

/-- One choice settled (R314). -/
def State.decide' (s : State) (j : Job) (descs : List (List Byte)) (x : Decided) (row rank : Nat) : Decided :=
  let e := s.routeExpert j row rank
  let fits := fun (i : Nat) => decide (x.fill i < queueCapacity (descs.getD i []))
  if descs.length ≤ e then x.drop row rank e 2
  else if fits e then x.place row rank e false
  else if queueNext (descs.getD e []) then
    let spares := (List.range j.spare).map (fun i => s.routeExpert j row (j.k + i))
    let r := tryExperts fits descs.length (tget [] x.tried row) spares
    let y := { x with tried := tset x.tried row r.2 }
    match r.1 with
    | some i => y.place row rank i true
    | none => y.drop row rank e 1
  else x.drop row rank e 1

/-- Every choice in rank-major order. -/
def State.decideAll (s : State) (j : Job) (descs : List (List Byte)) (qs : List JobQueue) : Decided :=
  let order := (List.range j.k).flatMap (fun r => (List.range j.count).map (fun row => (row, r)))
  order.foldl (fun (x : Decided) (c : Nat × Nat) => s.decide' j descs x c.1 c.2) ⟨qs, [], []⟩

/-! ### Writing entries, map and drops (R312, R315) -/

/-- Header of a queue entry. -/
def State.entryHeader (s : State) (token : Nat) (c : Choice) (again : Bool) (gate : List Byte) : List Byte :=
  toLe 6 token ++ [BitVec.ofNat 8 c.rank, BitVec.ofNat 8 (b2n again)] ++ gate ++ toLe 2 (s.lnk.station.getD 0) ++ [0, 0]

/-- The route-map word of a choice. -/
def choiceWord (qs : List JobQueue) (c : Choice) : Nat :=
  match c.queue with
  | some (e, i, _) => ((qs[e]?).map (fun (q : JobQueue) => q.qid)).getD 0 + i * 2 ^ 20 + 2 ^ 63
  | none => 0

/-- The drop record of a choice. -/
def dropRecord (token : Nat) (c : Choice) : List Byte :=
  toLe 6 token ++ [BitVec.ofNat 8 c.rank, BitVec.ofNat 8 c.cause] ++ toLe 2 c.expert ++ List.replicate 6 0

/-- An open value of a job of a slot: the same in a replay of the slot (R320). -/
def State.jobValue (s : State) (ref : SlotRef) (j : Job) (i : Nat) : Nat :=
  let at' := ((s.run ref).map (fun r => [r.attempt, r.frame])).getD []
  let slot := match ref with
    | .prog n => 2 * n
    | .rerun c => 2 * c + 1
  (Config.dispatchValue (at' ++ [slot, j.addr, i])).toNat

/-- Token index of row 0: TOKEN0 of the router operation that wrote the records, else a free value (log entry 24). -/
def State.tokenBase (s : State) (ref : SlotRef) (j : Job) : Nat :=
  match s.dsp.routes.find? (fun x => x.1 == j.routeAddr) with
  | some x => x.2
  | none => s.jobValue ref j 0 % 2 ^ 48

/-- One choice written: its entry, if placed, and its map word. -/
def State.writeChoice (s : State) (own : TransFor) (j : Job) (descs : List (List Byte)) (qs : List JobQueue)
    (base : Nat) (c : Choice) : State :=
  let s1 := match c.queue with
    | some (e, i, again) =>
      let bs := s.entryHeader (base + c.row) c again (s.routeGate j.routeAddr c.row c.rank)
        ++ s.packRow (s.tdesc j.src) c.row
      s.putOut own (queueEntry (descs.getD e []) i) bs
    | none => s
  s1.putOut own (j.mapWord c.row c.rank) (toLe 8 (choiceWord qs c))

/-- Drop records within DROP_CAP, in decision order. -/
def State.writeDrops (s : State) (own : TransFor) (j : Job) (base : Nat) (ds : List Choice) : State :=
  ((ds.zip (List.range ds.length)).filter (fun x => decide (x.2 < j.dropCap))).foldl
    (fun (s : State) (x : Choice × Nat) => s.putOut own (j.dropAddr + 16 * x.2) (dropRecord (base + x.1.row) x.1)) s

/-- The flags and counters of a job's decisions (Table 10.7). -/
def State.countChoices (s : State) (j : Job) (cs : List Choice) : State :=
  let drops := (cs.filter (fun c => c.queue.isNone)).length
  let again := (cs.filter (fun c => match c.queue with
    | some (_, _, a) => a
    | none => false)).length
  let s1 := s.bumps [(Reg.DSP_CNT_PLACED, cs.length - drops), (Reg.DSP_CNT_DROPPED, drops), (Reg.DSP_CNT_REROUTED, again)]
  let s2 := if drops != 0 && s1.regBit Reg.DSP_CFG 0 && !s1.regBit Reg.DSP_STATUS 0 then s1.notifyRas else s1
  let s3 := if drops = 0 then s2 else s2.stick Reg.DSP_STATUS 0
  let s4 := if again = 0 then s3 else s3.stick Reg.DSP_STATUS 1
  if j.dropCap < drops then s4.stick Reg.DSP_STATUS 6 else s4

/-! ### Starting a job -/

/-- The QIDs on the list of a DISPATCH job. -/
def State.jobQids (s : State) (j : Job) : List Nat := (List.range j.experts).map (fun i => u32At (s.load (j.listAddr + 4 * i) 4) 0)

/-- Rings on the list of a RETURN job. -/
def State.jobRings (s : State) (j : Job) : List Nat := (List.range j.count).map (fun i => u64At (s.load (j.listAddr + 8 * i) 8) 0)

/-- The checks of a DISPATCH job against its queues and source (R319). -/
def State.dispatchOk (s : State) (j : Job) (qids : List Nat) : Bool :=
  let d := s.tdesc j.src
  s.tdescOk j.src && rowTensor d && decide (j.count ≤ d.dim0) && qids.eraseDups.length == qids.length
    && qids.all (fun q => decide (q < 2 ^ 20) && queueValid (s.queueDesc q) && s.queueOk (s.queueDesc q)
      && decide (16 + rowBytes d ≤ 64 * queueUnits (s.queueDesc q)))

/-- The job noted as running, with the queues it names. -/
def State.addJob (s : State) (j : Job) (ref : SlotRef) (qs : List JobQueue) : State :=
  { s with dsp := { s.dsp with
      jobs := s.dsp.jobs ++ [{ desc := j.addr, raw := j.raw, ref := ref, queues := qs, headers := false }] } }

/-- A deciding DISPATCH job. -/
def State.runDispatch (s : State) (ref : SlotRef) (j : Job) (qids : List Nat) : State :=
  let descs := qids.map s.queueDesc
  let x := s.decideAll j descs (qids.map (fun q => ⟨q, 0, 0, 0⟩))
  let cs := x.choices.reverse
  let s1 := (s.loadQueues qids qids)
  let s2 := (qids.zip descs).foldl (fun (s : State) e => s.cacheSet e.1 (queueCounts e.2 0 0 0)) s1
  let b := s2.tokenBase ref j
  let s3 := cs.foldl (fun (s : State) c => s.writeChoice (.slot ref) j descs x.queues b c) s2
  let s4 := (s3.writeDrops (.slot ref) j b (cs.filter (fun c => c.queue.isNone))).countChoices j cs
  ({ s4 with dsp := { s4.dsp with maps := remember j.mapAddr j.routeAddr s4.dsp.maps } }).addJob j ref x.queues

/-- A job with ROUTE_REUSE: each row written to the places of its route map (R316). -/
def State.runReuse (s : State) (ref : SlotRef) (j : Job) (qids : List Nat) : State :=
  let words := (List.range j.count).flatMap (fun row => (List.range j.k).map (fun r =>
    (row, u64At (s.load (j.mapWord row r) 8) 0)))
  let qs : List JobQueue := qids.map (fun q =>
    let d := s.queueDesc q
    ⟨q, u32At d 20, u32At d 24, u32At d 28⟩)
  let s1 := (words.filter (fun w => bit w.2 63)).foldl (fun (t : State) (w : Nat × Nat) =>
    t.putOut (.slot ref) (queueEntry (s.queueDesc (w.2 % 2 ^ 20)) (bits w.2 20 43) + 16) (s.packRow (s.tdesc j.src) w.1))
    (s.loadQueues qids qids)
  s1.addJob j ref qs

/-- Memory that a DISPATCH job names. -/
def State.dispatchAccess (s : State) (j : Job) (qids : List Nat) : List (Nat × Nat × Bool) :=
  (s.tdesc j.src).planes.map (fun p => (p.1, p.2, false))
    ++ [(j.mapAddr, 8 * j.k * j.count, !j.reuse)]
    ++ (if j.reuse then [] else [(j.routeAddr, 64 * j.count, false), (j.dropAddr, 16 * j.dropCap, true)])
    ++ qids.map (fun q =>
      let d := s.queueDesc q
      (queueRing d, 64 + queueCapacity d * (queueUnits d * 64), true))

/-- A DISPATCH job at its start. -/
def State.startDispatch (s : State) (u : UnitId) (ref : SlotRef) (j : Job) : State :=
  s.guarded u (some ref) [(j.listAddr, 4 * j.experts, false), (j.src, 64, false)] (fun s =>
    let qids := s.jobQids j
    if !s.dispatchOk j qids then s.refuseDsp u ref .descInvalid
    else if qids.any s.queueRuns then s.refuseDsp u ref .queueBusy
    else s.guarded u (some ref) (s.dispatchAccess j qids) (fun s =>
      if j.reuse then s.runReuse ref j qids else s.runDispatch ref j qids))

/-- The rows of a RETURN job: for each entry of each ring its row and its place on the source station (R317). -/
def State.returnRows (s : State) : Nat → List Nat → List (Nat × Nat)
  | _, [] => []
  | b, ring :: rings =>
    let h := s.load ring 64
    let n := u32At h 0
    let base := u16At h 24 * 2 ^ 48 + u64At h 8 % 2 ^ 48
    (List.range n).map (fun i => (b + i, base + i * (u16At h 30 * 64))) ++ s.returnRows (b + n) rings

/-- A RETURN job at its start. -/
def State.startReturn (s : State) (u : UnitId) (ref : SlotRef) (j : Job) : State :=
  s.guarded u (some ref) [(j.listAddr, 8 * j.count, false), (j.src, 64, false)] (fun s =>
    let rings := s.jobRings j
    let d := s.tdesc j.src
    if !(s.tdescOk j.src && rowTensor d) then s.refuseDsp u ref .descInvalid
    else s.guarded u (some ref) (rings.map (fun r => (r, 64, false)) ++ d.planes.map (fun p => (p.1, p.2, false))) (fun s =>
      let total := sumNat (rings.map (fun r => u32At (s.load r 4) 0))
      if decide (d.dim0 < total) || rings.any (fun r => decide (64 * u16At (s.load (r + 30) 2) 0 < rowBytes d)) then
        s.refuseDsp u ref .descInvalid
      else
        let rows := s.returnRows 0 rings
        s.guarded u (some ref) (rows.map (fun x => (x.2, rowBytes d, true))) (fun s =>
          (rows.foldl (fun (t : State) (x : Nat × Nat) => t.putOut (.slot ref) x.2 (s.packRow d x.1)) s).addJob j ref [])))

/-- A gate as COMBINE finds it: in the router record of the map's DISPATCH job, else a free value (log entry 25). -/
def State.combineGate (s : State) (ref : SlotRef) (j : Job) (row r : Nat) : Val :=
  match s.dsp.maps.find? (fun x => x.1 == j.mapAddr) with
  | some x => f32 (u32At (s.routeGate x.2 row r) 0)
  | none => f32 (s.jobValue ref j (j.k * row + r + 1) % 2 ^ 32)

/-- Address of the return row that a route-map word names, on this station. -/
def State.returnAddr (s : State) (w : Nat) : Nat :=
  let d := s.queueDesc (w % 2 ^ 20)
  0xFFFF * 2 ^ 48 + (queueRet d + bits w 20 43 * (queueRetUnits d * 64)) % 2 ^ 48

/-- Element `c` of token `row` (R318), before rounding. -/
def State.combineCell (s : State) (ref : SlotRef) (j : Job) (d : TDesc) (row c : Nat) : AccCell :=
  let n := d.fmt.nibbles / 2
  (List.range j.k).foldl (fun (a : AccCell) r =>
    let w := u64At (s.load (j.mapWord row r) 8) 0
    if !bit w 63 then a
    else
      let v := d.fmt.value (leNat (s.load (s.returnAddr w + n * c) n))
      a.combine (termOf ((s.combineGate ref j row r).mul v))) AccCell.zero

/-- Return rows that a COMBINE job reads. -/
def State.combineReads (s : State) (j : Job) (d : TDesc) : List (Nat × Nat × Bool) :=
  (List.range j.count).flatMap (fun row => (List.range j.k).filterMap (fun r =>
    let w := u64At (s.load (j.mapWord row r) 8) 0
    if bit w 63 then some (s.returnAddr w, rowBytes d, false) else none))

/-- A COMBINE job at its start: the rows of the output; padding is written as zero codes (R99). -/
def State.startCombine (s : State) (u : UnitId) (ref : SlotRef) (j : Job) : State :=
  s.guarded u (some ref) [(j.out, 64, false)] (fun s =>
    let d := s.tdesc j.out
    if !(s.tdescOk j.out && !d.fmt.blocked && decide (j.count ≤ d.dim0)) then s.refuseDsp u ref .descInvalid
    else s.guarded u (some ref) ((j.mapAddr, 8 * j.k * j.count, false) :: d.planes.map (fun p => (p.1, p.2, true))) (fun s =>
      s.guarded u (some ref) (s.combineReads j d) (fun s =>
        let ws := (List.range j.count).flatMap (fun row => (List.range d.dim1).map (fun c =>
          (d.wideAddr row c, d.wideBytes ((s.combineCell ref j d row c).val 0))))
        (s.putsOut (some ref) (ws ++ d.padStores)).addJob j ref [])))

/-- A job read and started, or refused (R313, R319). -/
def State.startDspJob (s : State) (ref : SlotRef) (addr : Nat) : State :=
  match s.run ref with
  | none => s
  | some run =>
    if run.phase ≠ .running then s
    else s.guarded run.unit (some ref) [(addr, 64, false)] (fun s =>
      let j : Job := ⟨addr, s.load addr 64⟩
      if !j.fieldsOk then s.refuseDsp run.unit ref .descInvalid
      else if j.kind = 0x21 then s.startDispatch run.unit ref j
      else if j.kind = 0x22 then s.startReturn run.unit ref j
      else s.startCombine run.unit ref j)

/-- Waiting jobs started in the order of issue while a place is free. -/
def State.startWaiting : Nat → State → State
  | 0, s => s
  | n + 1, s =>
    match s.dsp.waiting with
    | [] => s
    | w :: ws =>
      if s.regField Reg.DSP_CFG 4 7 ≤ s.dsp.jobs.length then s
      else State.startWaiting n (({ s with dsp := { s.dsp with waiting := ws } }).startDspJob w.1 w.2)

/-- A job issued by the slot that runs on a core: it starts at once, or waits for a place. The job's own row is the one
that its KIND names (log entry 6). -/
def State.issueJob (s : State) (core : BitVec 9) (desc kind : Nat) : State :=
  match (s.coreRuns core).head? with
  | none => s
  | some r =>
    let k := (s.loadByte desc).toNat
    if k != kind && (k == 0x21 || k == 0x22 || k == 0x23) then s
    else
      let n := s.dsp.waiting.length + 1
      State.startWaiting n { s with dsp := { s.dsp with waiting := s.dsp.waiting ++ [(r.ref, desc)] } }

/-- DISPATCH (R314). -/
def execDispatch (core : BitVec 9) (desc : BitVec 64) (s : State) : Out := .next (s.issueJob core desc.toNat 0x21)

/-- RETURN (R317). -/
def execReturn (core : BitVec 9) (desc : BitVec 64) (s : State) : Out := .next (s.issueJob core desc.toNat 0x22)

/-- COMBINE (R318). -/
def execCombine (core : BitVec 9) (desc : BitVec 64) (s : State) : Out := .next (s.issueJob core desc.toNat 0x23)

/-! ### The end of a job (R316, R322, R324) -/

/-- The ring header of a queue; TAIL belongs to the consumer of a HOST queue. -/
def State.sendHeader (s : State) (own : TransFor) (q : JobQueue) : State :=
  let d := s.queueDesc q.qid
  (s.putOut own (queueRing d) (toLe 4 q.count)).putOut own (queueRing d + 8) (s.ringHeader d)

/-- What follows a landed header: the descriptor's counts, the signal and the interrupt. -/
def State.closeQueue (s : State) (own : TransFor) (q : JobQueue) : State :=
  let d := queueCounts (s.queueDesc q.qid) q.count q.drops q.rerouted
  ((s.cacheSet q.qid d).queueSignal own q.qid d).queueInterrupt d q.count

/-- A job removed, and those that wait started. -/
def State.retireJob (s : State) (desc : Nat) (ref : SlotRef) : State :=
  let s1 := { s with dsp := { s.dsp with jobs := s.dsp.jobs.filter (fun j => !(j.desc == desc && j.ref == ref)) } }
  State.startWaiting s1.dsp.waiting.length s1

/-- A job changed. -/
def State.setJob (s : State) (desc : Nat) (ref : SlotRef) (f : DspJob → DspJob) : State :=
  { s with dsp := { s.dsp with jobs := s.dsp.jobs.map (fun j => if j.desc == desc && j.ref == ref then f j else j) } }

/-- The headers of a job sent once its entries are acknowledged; the job ends once the headers are. -/
def State.endJob (s : State) (j : DspJob) : State :=
  let own := TransFor.slot j.ref
  if s.slotWaits j.ref then s
  else
    let s1 := if j.headers then s
      else (j.queues.foldl (fun (s : State) q => s.sendHeader own q) s).setJob j.desc j.ref (fun x => { x with headers := true })
    if s1.slotWaits j.ref then s1
    else (j.queues.foldl (fun (s : State) q => s.closeQueue own q) s1).retireJob j.desc j.ref

/-- JOB_END (R316): the oldest running job with this descriptor. -/
def execJobEnd (desc : BitVec 64) (s : State) : Out :=
  .next (match s.dsp.jobs.find? (fun j => j.desc == desc.toNat) with
    | some j => s.endJob j
    | none => s)

/-- The jobs of a slot, running or waiting. -/
def State.hasJobs (s : State) (ref : SlotRef) : Bool :=
  s.dsp.jobs.any (fun j => j.ref == ref) || s.dsp.waiting.any (fun w => w.1 == ref)

/-- The jobs of a failed slot attempt dropped. -/
def State.dropJobs (s : State) (ref : SlotRef) : State :=
  let s1 := { s with dsp := { s.dsp with
    jobs := s.dsp.jobs.filter (fun j => j.ref != ref), waiting := s.dsp.waiting.filter (fun w => w.1 != ref) } }
  State.startWaiting s1.dsp.waiting.length s1

end Sys2Proof.Machine
end

