-- ==== Sys2Proof/Machine/Ras.lean ====
section
/-! DEFINITION. Failure paths (chapter 16), first part: RAS records and their handling, hard core failure and live map-in,
power feeds and the counters. -/

namespace Sys2Proof.Machine

/-! ### Records (Table 16.2, R503) -/

/-- The class of a code of Table 16.3. -/
def RasClass.ofCode (c : Nat) : Option RasClass :=
  ([.csUe, .nocUe, .facetFault, .hbmPoison, .remoteFail, .hostAccess, .frameFault, .replaySkipped, .refused, .tickLost,
    .peerLost, .verdictLate, .coreHard, .mirrorLate, .hbmDegraded, .sensorFail, .portEvent, .unreachable, .cxlDown, .feedLow,
    .overBudget, .muxHangIdle, .sparesLow, .hostLogLag, .stackCritical, .dieCritical, .clockFail, .railFault, .powerLoss,
    .noSpareCore, .shellFault, .doubleFatal] : List RasClass).find? (fun x => x.code == c)

/-- A unit from its encoding. -/
def UnitId.ofCode (c : Nat) : UnitId := ⟨c / 4096 % 16, c % 4096⟩

/-- A record's 32 bytes (Table 16.2). -/
def RasRecord.bytes (r : RasRecord) : List Byte :=
  toLe 1 r.severity ++ toLe 1 r.cls ++ toLe 2 r.unit.code ++ toLe 2 r.seq
    ++ toLe 1 (b2n r.preempted + 2 * b2n r.half + 4 * b2n r.lastLoss) ++ [0] ++ toLe 8 r.tick.toNat ++ toLe 8 r.detail
    ++ toLe 8 r.step.toNat

/-- RAS_RECORDS (R543): the active record and the queue, or the last-loss area, which bit 0 of byte 1 clears; that bit is
defined for the last-loss area only. -/
def execRasRecords (m : BitVec 6) (s : State) : Out :=
  .next (s.welfy 0x0701 m fun ps s =>
    let k := u8At ps 0
    let rs := (if k = 0 then s.ras.active.toList ++ s.ras.queue else s.ras.lastLoss).take 64
    let d := slice (toLe 1 rs.length) 0 4 ++ toLe 4 (s.reg Reg.RAS_CNT_OVERFLOW).toNat ++ List.replicate 8 0
      ++ rs.flatMap RasRecord.bytes
    if 1 < k then s.bad 0
    else if k = 0 ∧ bit (u8At ps 1) 0 then s.bad 1
    else if bit (u8At ps 1) 0 then ({ s with ras := { s.ras with lastLoss := [] } }).ok d else s.ok d)

def rasCounters : List Nat :=
  [Reg.RAS_CNT_DEFERRED, Reg.RAS_CNT_FRAME_FATAL, Reg.RAS_CNT_STEP_FATAL, Reg.RAS_CNT_DEVICE_FATAL, Reg.RAS_CNT_OVERFLOW,
   Reg.RAS_CNT_MAPIN, Reg.RAS_CNT_MIRROR, Reg.RAS_CNT_MIRROR_LATE, Reg.RAS_CNT_FILL]

def avCounters : List Nat :=
  [Reg.RAS_AV_SCHED_LO, Reg.RAS_AV_SCHED_HI, Reg.RAS_AV_LOST_LO, Reg.RAS_AV_LOST_HI, Reg.RAS_AV_REPLAYED_LO,
   Reg.RAS_AV_REPLAYED_HI]

/-- RAS_COUNTERS (Table 16.12): bit 0 clears the counters, bit 1 the frame counts. -/
def execRasCounters (m : BitVec 6) (s : State) : Out :=
  .next (s.welfy 0x070A m fun ps s =>
    let d := s.regBytes (rasCounters ++ avCounters)
    let s1 := if bit (u8At ps 0) 0 then s.clearRegs rasCounters else s
    (if bit (u8At ps 0) 1 then { s1 with ras := { s1.ras with avSched := 0, avLost := 0, avReplayed := 0 } } else s1).ok d)

/-- POWER_FEED_SET (R514). -/
def execPowerFeedSet (m : BitVec 6) (s : State) : Out :=
  .next (s.welfy 0x0702 m fun ps s =>
    if s.ras.mirror.phase = .pending ∨ s.ras.mirror.phase = .paired then s.no .runLock
    else ({ s with ras := { s.ras with feedId := u8At ps 0, fromStraps := false } }).ok [])

/-- RECORD_HANDLING_END (R503): the active record's handling ends, and the head of the queue becomes active. A
device-fatal record's handling ends with its reset (R504). -/
def execRecordHandlingEnd (s : State) : Out :=
  .next (match s.ras.active with
    | none => s
    | some r =>
      if r.severity = 4 then s
      else { s with ras := { s.ras with active := s.ras.queue.head?, queue := s.ras.queue.drop 1 } })

/-! ### Hard core failure and live map-in (R510 to R513) -/

/-- The unit of a logical core, by number. -/
def coreId (l : Nat) : UnitId := ⟨1, l⟩

/-- Spares that a map-in may take: free, and named by no other map-in in progress. -/
def State.mapInSpares (s : State) : List Nat :=
  s.freeSpares.filter (fun q => !s.boot.pendingMapIn.any (fun e => e.2.1 == q))

/-- The work of a slot attempt dropped: its jobs, its remote transactions, and the state of its update engine. -/
def State.dropWork (s : State) (r : SlotRun) : State :=
  let s1 := (s.dropJobs r.ref).dropTrans (.slot r.ref)
  if r.unit.ty = 4 then s1.putEngine r.unit.idx UpdEngine.reset else s1

/-- The running slots of a unit stopped, their work dropped. -/
def State.stopUnit (s : State) (u : UnitId) : State :=
  (s.frm.slots.filter (fun r => r.unit == u && decide (r.phase = .running))).foldl
    (fun (s : State) r => (s.dropWork r).failRun (some r.ref)) s

/-- From the decision the failed core runs no slots, and the step is uncommittable (R511, step 1). -/
def State.idleCore (s : State) (l : Nat) : State :=
  let s1 := s.stopUnit (coreId l)
  { s1 with frm := { s1.frm with
      uncommittable := true,
      idleUnits := if s1.frm.idleUnits.contains (coreId l) then s1.frm.idleUnits else s1.frm.idleUnits ++ [coreId l] } }

/-- The map-in of spare `q` for logical core `l` written to the journal and the persistent block (R511, step 3). -/
def State.writeMapIn (s : State) (l q : Nat) : State :=
  let p := (s.physOf l).getD 0
  let s1 := (s.journal 0x04 0 (toLe 2 l ++ toLe 2 p ++ toLe 2 q ++ toLe 1 3)).persist (fun b => { b with
    replacements := b.replacements ++ [(l, p, q)],
    mappedOut := b.mappedOut.filter (fun x => x != q && some x != s.physOf l) ++ (s.physOf l).toList })
  { s1 with boot := { s1.boot with
      pendingMapIn := s1.boot.pendingMapIn.filter (fun e => e.1 != l) ++ [(l, q, false)],
      returning := if s.boot.persist.mappedOut.contains q then s1.boot.returning ++ [q] else s1.boot.returning } }

/-- The failed core of a logical number marked mapped out: the next start has no core for the number (R513, log entry
63). -/
def State.markFailed (s : State) (l : Nat) : State :=
  match s.physOf l with
  | none => s
  | some p => s.persist (fun b => { b with mappedOut := b.mappedOut.filter (fun x => x != p) ++ [p] })

/-- A spare chosen for an automatic map-in written, or NO_SPARE_CORE where none is free (R513). -/
def State.mapInWith (s : State) (l : Nat) : Option Nat → State
  | some q => s.writeMapIn l q
  | none => (s.markFailed l).raise .noSpareCore (coreId l) 0

/-- The nearest free spare taken for an automatic map-in. -/
def State.takeSpare (s : State) (l : Nat) : State := s.mapInWith l (nearest ((s.physOf l).getD 0) s.mapInSpares)

/-- An automatic map-in decided: begun, or made to wait while four recovery actions run (R535). -/
def State.autoMapIn (s : State) (l : Nat) : State :=
  if s.boot.pendingMapIn.any (fun e => e.1 == l) then s
  else if 4 ≤ s.recoveryActions then
    { s with boot := { s.boot with pendingMapIn := s.boot.pendingMapIn ++ [(l, 544, false)] } }
  else s.takeSpare l

/-- The map-ins that wait for a free place, in order of decision, taken while there is one (R535). -/
def State.resumeMapIns (s : State) : State :=
  (s.boot.pendingMapIn.filter (fun e => e.2.1 == 544)).foldl (fun (s : State) e =>
    if 4 ≤ s.recoveryActions then s
    else ({ s with boot := { s.boot with pendingMapIn := s.boot.pendingMapIn.filter (fun x => x.1 != e.1) } }).takeSpare e.1) s

/-- A core has failed hard (R510): CORE_HARD, the core idle until a spare takes its number (R25), and with AUTO_MAPIN the
map-in of a spare. -/
def State.hardCore (s : State) (l : Nat) : State :=
  let s1 := (s.raise .coreHard (coreId l) 0).idleCore l
  if s1.regBit Reg.RAS_CFG 2 then s1.autoMapIn l else s1

/-- A frame-fatal record of a core noted; the fourth within 2^24 rc is a hard failure (R510). -/
def State.noteFatal (s : State) (l : Nat) : State :=
  let old := s.ras.frameFatals.filter (fun e => decide (s.rc < e.2 + 2 ^ 24))
  let s1 := { s with ras := { s.ras with frameFatals := old ++ [(l, s.rc)] } }
  if (old.filter (fun e => e.1 == l)).length + 1 < 4 then s1
  else ({ s1 with ras := { s1.ras with frameFatals := old.filter (fun e => e.1 != l) } }).hardCore l

/-- A record raised, with R510's count where it is a frame-fatal one of a core. -/
def State.raiseNoted (s : State) (c : RasClass) (u : UnitId) (detail : Nat) (half : Bool) : State :=
  let s1 := s.raiseFull c u detail half
  if c.severity = 2 ∧ u.ty = 1 then s1.noteFatal u.idx else s1

/-- RAS_RECORD (R503): an error record of a class of Table 16.3 that a unit raises. -/
def execRasRecord (cls : BitVec 8) (unit : BitVec 16) (detail : BitVec 64) (half : Bool) (s : State) : Out :=
  .next (match RasClass.ofCode cls.toNat with
    | some c => s.raiseNoted c (UnitId.ofCode unit.toNat) detail.toNat half
    | none => s)

/-- Whether a named physical core may be mapped in: it holds no logical number and passed the last start's tests; a
mapped-out one may return (R542). -/
def State.namedSpare (s : State) (q : Nat) : Bool :=
  decide (q < 544) && (s.logicalOf q).isNone && !s.boot.stage7Failed.contains q && !s.boot.selfTest.cores.getLsbD q

/-- CORE_MAP_IN (R511, R513, R535, R542). -/
def execCoreMapIn (m : BitVec 6) (s : State) : Out :=
  .next (s.welfy 0x0705 m fun ps s =>
    let l := u16At ps 0
    let q := u16At ps 2
    if 511 < l then s.bad 0
    else if !s.boot.pendingMapIn.isEmpty ∨ 4 ≤ s.recoveryActions then s.no .runLock
    else if q = 0xFFFF then
      match nearest ((s.physOf l).getD 0) s.mapInSpares with
      | some x => ((s.idleCore l).writeMapIn l x).ok (toLe 2 x)
      | none => s.no .noSpareCore
    else if !s.namedSpare q then s.bad 2
    else ((s.idleCore l).writeMapIn l q).ok (toLe 2 q))

/-- The gates after spare `q` took the number of core `p` (R484): the spare and its column are enabled, the replaced core is
disabled, and a spare column without a mapped-in core too. -/
def State.mapInGates (s : State) (p q : Nat) : State :=
  let on := [0, 1 + q % 34, 64 + q]
  let off := s.phys.gatesOff.filter (fun n => !on.contains n) ++ [64 + p]
  let cols := [9, 26].filter (fun n => !s.gateHolds n && !off.contains n)
  { s with phys := { s.phys with gatesOff := off ++ cols } }

/-- A map-in that leaves fewer than 4 free spares (Table 16.3). -/
def State.warnSpares (s : State) (l : Nat) : State :=
  let few := decide (s.freeSpares.length < 4)
  if few then s.raise .sparesLow (coreId l) 0 else s

/-- The logical number `l` resolves to spare `q` (R511, step 4), whose core store is empty (R512). -/
def State.takeMapIn (s : State) (l q : Nat) : State :=
  let p := (s.physOf l).getD 0
  let b := { s.boot with
    logical := tset s.boot.logical l q, pendingMapIn := s.boot.pendingMapIn.filter (fun x => x.1 != l),
    returning := s.boot.returning.filter (fun x => x != q) }
  let f := { s.frm with idleUnits := s.frm.idleUnits.filter (fun u => u != coreId l) }
  let r := { s.ras with frameFatals := s.ras.frameFatals.filter (fun x => x.1 != l) }
  let store := 0x008000000000 + l * 0x400000
  let m := mzero s.mem store (store + 0x400000)
  let s1 := ((({ s with boot := b, frm := f, ras := r, mem := m }).mapInGates p q).bump Reg.RAS_CNT_MAPIN 1).stick Reg.RAS_STATUS 4
  s1.warnSpares l

/-- The map-ins whose journal entry was written before this tick may now take effect. -/
def State.mapInsDue (s : State) : State :=
  { s with boot := { s.boot with pendingMapIn := s.boot.pendingMapIn.map (fun e =>
      if e.2.1 < 544 then (e.1, e.2.1, true) else e) } }

end Sys2Proof.Machine
end

