-- ==== Sys2Proof/Machine/Mirror.lean ====
section
/-! DEFINITION. Failure paths, second part: the Mirror (R515 to R525, R541) and the shared-store checkpoint (R533, R534): the
manifest, images, pairing, the copy of a Mirror step, fills, exports and imports. -/

namespace Sys2Proof.Machine

/-! ### The manifest (Tables 16.5 and 16.6) -/

/-- The manifest header of this device. -/
def State.manifest (s : State) : List Byte := s.load s.ras.mirror.manifest 64

def manEntries (b : List Byte) : Nat := u16At b 6
def logAddr (b : List Byte) : Nat := u64At b 8
def logEntries (b : List Byte) : Nat := u32At b 16
def batchSlots (b : List Byte) : Nat := u32At b 20
def batchAddr (b : List Byte) : Nat := u64At b 24
def hostLogAddr (b : List Byte) : Nat := u64At b 32

/-- The manifest's bytes, header and entries: what its digest covers. -/
def State.manifestBytes (s : State) : List Byte := s.load s.ras.mirror.manifest (64 + 16 * manEntries s.manifest)

/-- The entries of the manifest at an address, 16 bytes each. -/
def State.manEntriesAt (s : State) (addr : Nat) : List (List Byte) :=
  (List.range (manEntries (s.load addr 64))).map (fun i => s.load (addr + 64 + 16 * i) 16)

/-- Table 16.6. -/
def State.manEntryOk (s : State) (e : List Byte) : Bool :=
  let a := u64At e 8
  zeroBytes e 1 3 && s.isHbm a
    && ((u8At e 0 == 1 && u32At e 4 == 0 && s.tdescOk a) || (u8At e 0 == 2 && u32At e 4 % 256 == 0 && s.accessOk a (u32At e 4) true))

/-- Table 16.5: the log ring and the batch records. -/
def State.manRingsOk (s : State) (b : List Byte) : Bool :=
  let n := logEntries b
  s.isHbm (logAddr b) && s.accessOk (logAddr b) (128 * n) true && n == 2 ^ Nat.log2 n && inRange n 256 (2 ^ 20)
    && inRange (batchSlots b) 1 65536 && s.isHbm (batchAddr b) && s.accessOk (batchAddr b) (32 * batchSlots b) false
    && (hostLogAddr b == 0 || s.isHost (hostLogAddr b))

/-- Tables 16.5 and 16.6 for a manifest at an address. -/
def State.manifestOk (s : State) (addr : Nat) : Bool :=
  let b := s.load addr 64
  addr % 256 == 0 && s.isHbm addr && s.accessOk addr (64 + 16 * manEntries b) false && u32At b 0 == 0x5252494D
    && u16At b 4 == 1 && inRange (manEntries b) 1 1024 && zeroBytes b 40 24 && s.manRingsOk b
    && (s.manEntriesAt addr).all s.manEntryOk

/-! ### Images (Table 16.7) -/

/-- A piece of an image, filled up to a multiple of 256 bytes. -/
def pad256 (b : List Byte) : List Byte := b ++ List.replicate (roundUp b.length 256 - b.length) 0

/-- Size of an entry's data: descriptor and planes, or the region. -/
def State.entrySize (s : State) (e : List Byte) : Nat :=
  if u8At e 0 = 1 then 64 + sumNat (s.tdesc (u64At e 8)).planeSizes else u32At e 4

/-- An entry's data. -/
def State.entryData (s : State) (e : List Byte) : List Byte :=
  let a := u64At e 8
  if u8At e 0 = 1 then (s.tdesc a).raw ++ (s.tdesc a).planes.flatMap (fun p => s.load p.1 p.2) else s.load a (u32At e 4)

/-- The size of an image made now: IMAGE_BYTES. -/
def State.imageSize (s : State) (addr : Nat) : Nat :=
  256 + roundUp s.lup.snap.length 256 + sumNat ((s.manEntriesAt addr).map (fun e => roundUp (s.entrySize e) 256))

/-- This device's station number as a record shows it, 0 while none is assigned. -/
def State.stationNo (s : State) : Nat := s.lnk.station.getD 0

/-- An image header. -/
def State.imageHeader (s : State) (ssb : List Byte) (st bytes : Nat) : List Byte :=
  slice (toLe 4 0x474D494D ++ toLe 2 1 ++ toLe 2 s.stationNo ++ toLe 8 s.upd.t.toNat
    ++ toLe 8 (s.pair Reg.RNG_SEED_LO Reg.RNG_SEED_HI) ++ toLe 4 st ++ toLe 4 0 ++ sha256 ssb ++ sha256 s.manifestBytes
    ++ toLe 8 bytes ++ toLe 2 s.frm.epoch.toNat) 0 256

/-- What follows the header: the scale state block and the entries' data. -/
def State.imageBody (s : State) (ssb : List Byte) : List Byte :=
  pad256 ssb ++ (s.manEntriesAt s.ras.mirror.manifest).flatMap (fun e => pad256 (s.entryData e))

/-- Whether a header is that of a complete image. -/
def completeHeader (h : List Byte) : Bool := u32At h 0 == 0x474D494D && u32At h 24 == 2

/-- Whether a header is that of this device's own complete image. -/
def State.ownHeader (s : State) (h : List Byte) : Bool := completeHeader h && u16At h 6 == s.stationNo

/-! ### Pairing (R514 to R517, R541) -/

def State.setMirror (s : State) (f : MirrorState → MirrorState) : State := { s with ras := { s.ras with mirror := f s.ras.mirror } }

/-- A place in the partner's memory as a device address. -/
def State.onPartner (s : State) (off : Nat) : Nat := s.ras.mirror.partner * 2 ^ 48 + off

/-- The partner's pairing record as last read. -/
def State.partnerRecord (s : State) : List Byte := s.load (s.onPartner (s.ras.mirror.partnerWindow % 2 ^ 48)) 256

/-- Header of half `h` of this device's Mirror as last read. -/
def State.ownHalfHeader (s : State) (h : Nat) : List Byte := s.load (s.onPartner (s.ras.mirror.halfAt h)) 256

/-- The place of the log copy in the partner's window. -/
def MirrorState.logCopyAt (m : MirrorState) : Nat := m.halfAt 0 + 2 * roundUp m.imageBytes 65536

/-- The pairing record that this device writes into its own window. -/
def State.pairingRecord (s : State) : List Byte :=
  let m := s.ras.mirror
  slice (toLe 4 0x5241504D ++ toLe 2 s.stationNo ++ toLe 2 m.partner ++ toLe 1 s.ras.feedId ++ List.replicate 7 0
    ++ s.identity ++ toLe 8 m.windowSize) 0 256

/-- t of this device's complete image in a half of the partner's window. -/
def State.ownHalfT (s : State) (h : Nat) : Option Nat :=
  let b := s.ownHalfHeader h
  if s.ownHeader b then some (u64At b 8) else none

/-- Of the images of two halves the newer one: half and t. -/
def newerHalf : Option Nat → Option Nat → Option (Nat × Nat)
  | some a, some b => if a < b then some (1, b) else some (0, a)
  | some a, none => some (0, a)
  | none, some b => some (1, b)
  | none, none => none

/-- The half with the newest complete image of this device, and its t, as last read. -/
def State.newestOwn (s : State) : Option (Nat × Nat) := newerHalf (s.ownHalfT 0) (s.ownHalfT 1)

/-- The active half and RAS_OWN_T of an image. -/
def State.takeOwn (s : State) : Option (Nat × Nat) → State
  | some (h, t) =>
    let s1 := s.setMirror (fun m => { m with ownHalf := h })
    { s1 with ras := { s1.ras with ownT := BitVec.ofNat 64 t } }
  | none => s

/-- The active half and RAS_OWN_T taken from what was last read. -/
def State.refreshOwn (s : State) : State := s.takeOwn s.newestOwn

/-- The feed IDs do not show two separate feeds (R515). -/
def State.feedsShared (s : State) (f : Nat) : Bool := f == s.ras.feedId || f == 0xFF || s.ras.feedId == 0xFF

/-- What this device needs of its partner's window (Table 16.7). -/
def State.windowNeed (s : State) : Nat :=
  0x10000 + 2 * roundUp s.ras.mirror.imageBytes 65536 + 128 * logEntries s.manifest

/-- Step 3 of R515 on the partner's record as last read. -/
def State.pairStep (s : State) : State :=
  let r := s.partnerRecord
  let f := u8At r 8
  if !(u32At r 0 == 0x5241504D && u16At r 6 == s.stationNo) then
    s.setMirror (fun m => { m with phase := .pending })
  else if u64At r 24 < s.windowNeed then (s.setMirror (fun m => { m with phase := .unpaired })).stick Reg.RAS_STATUS 7
  else if s.feedsShared f && !s.ras.mirror.override then
    (s.setMirror (fun m => { m with phase := .feedRefused })).stick Reg.RAS_STATUS 6
  else
    (s.setMirror (fun m => { m with
      phase := .paired, partnerFeed := f, override := m.override && s.feedsShared f })).refreshOwn

/-- The Mirror's own traffic is outstanding. -/
def State.mirrorBusy (s : State) : Bool := (s.lnk.trans ++ s.lnk.backlog).any (fun t => t.owner == .mirror)

/-- `n` bytes of the partner's memory asked for; what comes back is noted as last read. -/
def State.readPartner (s : State) (off n : Nat) : State :=
  (List.range (cdiv n 512)).foldl (fun (s : State) i =>
    s.request tyReadReq s.ras.mirror.partner (off + 512 * i) (Nat.min 512 (n - 512 * i)) [] .mirror none) s

/-- The partner's record and the headers of both halves asked for. -/
def State.readRecord (s : State) : State :=
  let m := s.ras.mirror
  ((s.readPartner (m.partnerWindow % 2 ^ 48) 256).readPartner (m.halfAt 0) 256).readPartner (m.halfAt 1) 256

/-- A pending pairing at a tick (R515, 4): the record as it stands is tried, and read again. -/
def State.pairTick (s : State) : State :=
  match s.ras.mirror.phase with
  | .pending =>
    let s1 := s.pairStep
    if s1.ras.mirror.phase = .pending ∧ !s1.mirrorBusy then s1.readRecord else s1
  | _ => s

/-- Local HBM range of the HDM window. -/
def State.hdmRange (s : State) : Nat × Nat := (s.host.hdmBase, s.host.hdmUnits * 2 ^ 28)

/-- The parameter that R516 refuses a pairing for. -/
def State.pairFail (s : State) (ps : List Byte) : Option Nat :=
  let man := u64At ps 8
  let base := u64At ps 16
  let size := u64At ps 24
  if s.isOwn (u16At ps 0) then some 0
  else if u16At ps 4 = 0 then some 4
  else if !s.manifestOk man || decide (logEntries (s.load man 64) < u16At ps 4 + 64) then some 8
  else if base % 65536 ≠ 0 || !s.isHbm base || overlaps (base % 2 ^ 48, size) s.hdmRange then some 16
  else if !s.accessOk base size true then some 24
  else none

/-- A pairing begun (R515, 1 and 2): the record written, the window open, the partner's record read. -/
def State.beginPair (s : State) (ps : List Byte) : State :=
  let new : MirrorState :=
    { MirrorState.reset with
        override := bit (u8At ps 2) 0, partner := u16At ps 0, m := u16At ps 4, manifest := u64At ps 8,
        windowBase := u64At ps 16, windowSize := u64At ps 24, partnerWindow := u64At ps 32,
        imageBytes := s.imageSize (u64At ps 8), windowOpen := true }
  let s1 := s.setMirror (fun _ => new)
  (s1.store new.windowBase s1.pairingRecord).readRecord.pairStep

/-- Place of a half held for the partner (Table 16.7). -/
def State.heldAt (s : State) (half : Nat) : Nat :=
  let w := s.ras.mirror.windowBase % 2 ^ 48 + 0x10000
  w + half * roundUp (u64At (mreads s.mem w 256) 96) 65536

/-- The STATE of both held halves and the held log copy cleared (R541). -/
def State.clearHeld (s : State) : State :=
  let m := s.ras.mirror
  let h := s.heldAt 1 - s.heldAt 0
  let s1 := (s.store (s.heldAt 0 + 24) (toLe 4 0)).store (s.heldAt 1 + 24) (toLe 4 0)
  { s1 with mem := mzero s1.mem (s.heldAt 1 + h) (m.windowBase % 2 ^ 48 + m.windowSize) }

/-- UNPAIR (R541). -/
def State.unpair (s : State) : State :=
  let s1 := if s.ras.mirror.windowOpen then s.clearHeld else s
  (s1.setMirror (fun m => { m with phase := .unpaired, override := false, windowOpen := false, copying := none })).dropTrans .mirror

/-- MIRROR_PAIR's response. -/
def State.pairReply (s : State) : Reply :=
  if s.ras.mirror.phase = .feedRefused then s.no .feedShared
  else s.ok (toLe 8 s.ras.mirror.imageBytes ++ toLe 1 s.ras.mirror.phase.code)

/-- MIRROR_PAIR (R515 to R517, R541); a fill in progress keeps its pairing (log entry 31). -/
def execMirrorPair (m : BitVec 6) (s : State) : Out :=
  .next (s.welfy 0x0703 m fun ps s =>
    if s.ras.mirror.phase = .filling then s.no .runLock
    else if bit (u8At ps 2) 1 then s.unpair.pairReply
    else if s.boot.persist.exclStacks ≠ 0 ∧ (s.isHbm (u64At ps 8) ∨ s.isHbm (u64At ps 16)) then s.no .addrInvalid
    else match s.pairFail ps with
      | some off => s.bad off
      | none => (s.beginPair ps).pairReply)

/-! ### The copy of a Mirror step (R518 to R520) -/

/-- An image of the state now, with a scale state block, written into the partner's inactive half: STATE 1 first, then the
data; STATE 2 follows once all is acknowledged. -/
def State.startCopy (s : State) (ssb : List Byte) : State :=
  let s1 := s.refreshOwn.setMirror (fun m => { m with copying := some 0 })
  let m := s1.ras.mirror
  let a := m.halfAt (1 - m.ownHalf)
  (s1.remoteWrite .mirror m.partner a (s1.imageHeader ssb 1 m.imageBytes)).remoteWrite .mirror m.partner (a + 256)
    (s1.imageBody ssb)

/-- Step t is a Mirror step of a paired device. -/
def State.mirrorStep (s : State) : Bool :=
  decide (s.ras.mirror.phase = .paired) && s.ras.mirror.m != 0 && s.upd.t.toNat % s.ras.mirror.m == 0

/-- The copy of an attempt's first tick, from the beginning unless an earlier attempt of the step completed it. -/
def State.mirrorAttempt (s : State) : State :=
  if s.mirrorStep && !s.ras.mirror.copyDone then s.startCopy s.ras.stepSsb else s

/-- Outstanding Mirror traffic given up. -/
def State.dropMirror (s : State) : State :=
  (s.setMirror (fun m => { m with copying := none })).dropTrans .mirror

/-- A copy not complete when the commit window begins (R519). -/
def State.mirrorLateCheck (s : State) : State :=
  if s.mirrorStep && !s.ras.mirror.copyDone then
    ((s.dropMirror.bump Reg.RAS_CNT_MIRROR_LATE 1).stick Reg.RAS_STATUS 5).raise .mirrorLate ⟨11, 0⟩ 0
  else s

/-- MIRROR_COMPLETE (R518): the acknowledgement of STATE 2. -/
def execMirrorComplete (s : State) : Out :=
  .next (if s.ras.mirror.copying = some 1 ∧ !s.mirrorBusy then
      let s1 := s.setMirror (fun m => { m with copying := none, copyDone := true, ownHalf := 1 - m.ownHalf })
      ({ s1 with ras := { s1.ras with ownT := s1.upd.t } }).bump Reg.RAS_CNT_MIRROR 1
    else s)

/-! ### Fills, exports and imports (R522 to R524, R533 to R535) -/

/-- The states that allow a fill, a live export or an import (R524). -/
def State.fillAdmitted (s : State) : Bool :=
  s.upd.commit == .idle || s.lup.phase == .hold || s.lup.phase == .stopped

/-- The half of this device's Mirror that may restore step t: complete, of this t and of the local manifest (R522). -/
def State.fillHalf (s : State) (t : Nat) : Option Nat :=
  [0, 1].find? (fun h => s.ownHalfT h == some t && slice (s.ownHalfHeader h) 64 32 == sha256 s.manifestBytes)

/-- A fill of mode 0 begun: the image of a half and the log copy read. -/
def State.readImage (s : State) (half : Nat) : State :=
  let m := s.ras.mirror
  (s.readPartner (m.halfAt half) (u64At (s.ownHalfHeader half) 96)).readPartner m.logCopyAt (128 * logEntries s.manifest)

def State.setFilling (s : State) : State := s.setMirror (fun m => { m with phase := .filling })

/-- MIRROR_FILL (R522 to R524, R535). -/
def execMirrorFill (m : BitVec 6) (s : State) : Out :=
  .next (s.welfy 0x0704 m fun ps s =>
    let mode := u8At ps 0
    let t := u64At ps 8
    if 1 < mode then s.bad 0
    else if !s.fillAdmitted ∨ s.ras.mirror.phase = .filling ∨ 4 ≤ s.recoveryActions then s.no .runLock
    else if mode = 0 then
      match (if s.ras.mirror.phase = .paired then s.fillHalf t else none) with
      | none => s.bad 8
      | some h => (s.startLong 0x0704 m.toNat (u64At (s.ownHalfHeader h) 96) (.mirrorFill 0 t)).thenDo
          (fun s => (s.readImage h).setFilling)
    else if s.ras.mirror.phase ≠ .paired then s.no .runLock
    else (s.startLong 0x0704 m.toNat s.ras.mirror.imageBytes (.mirrorFill 1 s.upd.t.toNat)).thenDo
      (fun s => (s.startCopy s.lup.snap).setFilling))

/-- The half with the newest complete image held for the partner. -/
def State.heldHalf (s : State) : Option Nat := (newerHalf (s.heldT 0) (s.heldT 1)).map (fun x => x.1)

/-- An export of `n` bytes begun. -/
def State.beginExport (s : State) (mb source dst n t : Nat) (bytes : State → List Byte) : Reply :=
  if !s.paramOk dst n true then s.no .addrInvalid
  else (s.startLong 0x0707 mb n (.ckptExport source dst t)).thenDo (fun s => s.putOut .log dst (bytes s))

/-- A complete image of the live state (R533, source 0). -/
def State.liveImage (s : State) : List Byte :=
  s.imageHeader s.lup.snap 2 (s.imageSize s.ras.mirror.manifest) ++ s.imageBody s.lup.snap

/-- The bytes of a held half. -/
def State.heldImage (s : State) (half : Nat) : List Byte := mreads s.mem (s.heldAt half) (u64At (s.heldHeader half) 96)

/-- CHECKPOINT_EXPORT (R524, R533, R535). -/
def execCheckpointExport (m : BitVec 6) (s : State) : Out :=
  .next (s.welfy 0x0707 m fun ps s =>
    let src := u8At ps 0
    let dst := u64At ps 8
    if 1 < src then s.bad 0
    else if (src = 0 ∧ !s.fillAdmitted) ∨ 4 ≤ s.recoveryActions then s.no .runLock
    else if src = 0 then
      if !s.manifestOk s.ras.mirror.manifest then s.bad 0
      else s.beginExport m.toNat 0 dst (s.imageSize s.ras.mirror.manifest) s.upd.t.toNat State.liveImage
    else match s.heldHalf with
      | none => s.bad 0
      | some h => s.beginExport m.toNat 1 dst (u64At (s.heldHeader h) 96) ((s.heldT h).getD 0) (fun s => s.heldImage h))

/-- An image's header admits an import (R534). -/
def State.importOk (s : State) (h : List Byte) : Bool :=
  s.ownHeader h && s.manifestOk s.ras.mirror.manifest && slice h 64 32 == sha256 s.manifestBytes

/-- What an import from another station reads. -/
def State.readSource (s : State) (src n : Nat) : State :=
  match s.region src with
  | .remote st off => (List.range (cdiv n 512)).foldl (fun (s : State) i =>
      s.request tyReadReq st (off + 512 * i) (Nat.min 512 (n - 512 * i)) [] .mirror none) s
  | _ => s

/-- CHECKPOINT_IMPORT (R524, R534, R535). -/
def execCheckpointImport (m : BitVec 6) (s : State) : Out :=
  .next (s.welfy 0x0708 m fun ps s =>
    let src := u64At ps 0
    let h := s.load src 256
    let n := u64At h 96
    if !s.fillAdmitted ∨ 4 ≤ s.recoveryActions then s.no .runLock
    else if !s.paramOk src 256 false then s.no .addrInvalid
    else if !s.importOk h then s.bad 0
    else if !s.paramOk src n false then s.no .addrInvalid
    else (s.startLong 0x0708 m.toNat n (.ckptImport src)).thenDo (fun s => s.readSource src n))

/-! ### Restoring from an image (R522) -/

/-- Length of the scale state block in the image at a device address. -/
def State.imageSsbLen (s : State) (a : Nat) : Nat :=
  if slice (s.load a 256) 32 32 = sha256 [] then 0 else ssbSize (u16At (s.load (a + 256) 8) 6)

/-- A tensor entry restored: the planes to the places that the local descriptor names, and the descriptor but for them. -/
def State.restoreTensor (s : State) (d src : Nat) : State :=
  let img : TDesc := ⟨src, s.load src 64⟩
  let here := s.tdesc d
  let places := [here.elemAddr, here.scaleAddr, here.metaAddr, here.outAddr, here.fbAddr]
  let r := (places.zip img.planeSizes).foldl (fun (x : State × Nat) p =>
    (if p.2 = 0 ∨ p.1 = 0 then x.1 else x.1.store p.1 (s.load x.2 p.2), x.2 + p.2)) (s, src + 64)
  (r.1.store d (slice img.raw 0 8)).store (d + 48) (slice img.raw 48 16)

/-- Entries restored from successive pieces of an image. -/
def State.restoreEntries (s : State) (src : Nat) : List (List Byte) → State
  | [] => s
  | e :: es =>
    let a := u64At e 8
    let n := if u8At e 0 = 1 then 64 + sumNat (TDesc.mk src (s.load src 64)).planeSizes else u32At e 4
    (if u8At e 0 = 1 then s.restoreTensor a src else s.store a (s.load src n)).restoreEntries (src + roundUp n 256) es

/-- The scale state block of an image passes the checks of R267, or there is none. -/
def State.imageSsbOk (s : State) (b : List Byte) : Bool := b.isEmpty || (imageOk b && (s.firstBadEntry b).isNone)

/-- The state restored from the image at a device address: planes and regions, the scale state block (in force from the
next tick, R268), t and the seed. -/
def State.restoreImage (s : State) (a : Nat) : State :=
  let h := s.load a 256
  let n := s.imageSsbLen a
  let ssb := s.load (a + 256) n
  let s1 := s.restoreEntries (a + 256 + roundUp n 256) (s.manEntriesAt s.ras.mirror.manifest)
  let s2 := if ssb.isEmpty || s.lup.addr == 0 then s1 else s1.setLup (fun l => { l with load := some (l.addr, ssb) })
  let s3 := { s2 with upd := { s2.upd with t := BitVec.ofNat 64 (u64At h 8), stepBegun := none, attempt := 0 } }
  s3.putPair Reg.RNG_SEED_LO Reg.RNG_SEED_HI (u64At h 16)

/-- A restore ended at a record: refused with SSB_INVALID where the scale state block fails its checks. -/
def State.endRestore (s : State) (rec a : Nat) (more : State → State) : State :=
  if !s.imageSsbOk (s.load (a + 256) (s.imageSsbLen a)) then (s.stick Reg.LUP_STATUS 4).finishRecord rec .ssbInvalid
  else ((more (s.restoreImage a)).bump Reg.RAS_CNT_FILL 1).finishRecord rec .success

end Sys2Proof.Machine
end

