-- ==== Sys2Proof/Machine/Flerra.lean ====
section
/-! DEFINITION. The Flerra log (R526 to R529, R543): the entry of a commit, its copies, replay and reading. -/

namespace Sys2Proof.Machine

/-! ### Rings -/

/-- The local ring: base and entries. -/
def State.flerraRing (s : State) : Nat × Nat := (logAddr s.manifest, logEntries s.manifest)

/-- The entry for step `t` in a ring, if it is valid. -/
def State.ringEntry (s : State) (ring : Nat × Nat) (t : Nat) : Option (List Byte) :=
  let e := s.load (ring.1 + 128 * (t % ring.2)) 128
  if 0 < ring.2 ∧ u64At e 0 = t ∧ slice e 120 8 = (sha256 (slice e 0 120)).take 8 then some e else none

/-! ### The entry of a commit (Table 16.8) -/

/-- The step's batch record (R527). -/
def State.batchRecord (s : State) : List Byte :=
  s.load (batchAddr s.manifest + 32 * (s.upd.t.toNat % batchSlots s.manifest)) 32

/-- Bytes 12 to 95 of an entry, of which a replay compares all but PLAN_ID: PROGRAM_ID, PLAN_ID, SEED, BATCH, SSB_DIGEST. -/
def State.flerraBody (s : State) : List Byte :=
  toLe 4 ((s.frm.curProg.map (fun p => p.progId)).getD 0) ++ toLe 4 ((s.frm.curPlan.map (fun p => p.planId)).getD 0) ++ toLe 4 0
    ++ toLe 8 (s.pair Reg.RNG_SEED_LO Reg.RNG_SEED_HI) ++ s.batchRecord ++ sha256 s.ras.stepSsb

/-- The bytes that R529 compares. -/
def comparedBytes (e : List Byte) : List Byte := slice e 12 4 ++ slice e 24 72

/-- The entry with its FLAGS, for a commit at the given tick. -/
def State.flerraEntry (s : State) (flags tick : Nat) : List Byte :=
  let b := slice (toLe 8 s.upd.t.toNat ++ toLe 2 s.frm.epoch.toNat ++ toLe 1 (Nat.min 255 s.upd.attempt) ++ toLe 1 flags
    ++ s.flerraBody ++ toLe 8 tick ++ toLe 8 s.ras.ownT.toNat) 0 120
  b ++ (sha256 b).take 8

/-- MIRROR_STEP: t is a multiple of M. -/
def State.mirrorFlag (s : State) : Bool := s.ras.mirror.m != 0 && s.upd.t.toNat % s.ras.mirror.m == 0

/-- The logged entry that a replay compares this commit with. -/
def State.replayed (s : State) : Option (List Byte) :=
  match s.ras.replayTo with
  | some (_, base, n) => s.ringEntry (base, n) s.upd.t.toNat
  | none => none

/-- A replayed commit differs from the logged one. -/
def State.diverges (s : State) : Bool :=
  match s.replayed with
  | some e => comparedBytes e != comparedBytes (s.flerraEntry 0 0)
  | none => false

/-! ### Copies (R526, R528) -/

/-- The host's copy of the ring. -/
def State.hostRing (s : State) : Nat := hostLogAddr s.manifest

/-- An entry of the host ring can be written now. -/
def State.hostLogOk (s : State) (t : Nat) : Bool :=
  s.host.linkActive && s.accessOk (s.hostRing + 128 * (t % s.flerraRing.2)) 128 true

/-- The entry of step `t`, while the ring still holds it, copied to the host ring. -/
def State.hostCopy (s : State) (t : Nat) : State :=
  match s.ringEntry s.flerraRing t with
  | some e => s.store (s.hostRing + 128 * (t % s.flerraRing.2)) e
  | none => s

/-- The missing entries copied in ascending t, once copying is possible. -/
def State.hostCatchup (s : State) : State :=
  match s.ras.hostLagFrom with
  | none => s
  | some f =>
    if !s.hostLogOk f then s
    else
      let last := s.ras.flerraT.toNat
      let lo := Nat.max f (last + 1 - s.flerraRing.2)
      ((List.range (last + 1 - lo)).foldl (fun (s : State) i => s.hostCopy (lo + i))
        { s with ras := { s.ras with hostLagFrom := none } })

/-- HOST_LOG_CATCHUP (R528). -/
def execHostLogCatchup (s : State) : Out := .next s.hostCatchup

/-- An entry that cannot be copied to the host. -/
def State.hostLag (s : State) (t : Nat) : State :=
  let s1 := { s with ras := { s.ras with hostLagFrom := match s.ras.hostLagFrom with
    | some f => some f
    | none => some t } }
  (s1.stick Reg.RAS_STATUS 10).raise .hostLogLag ⟨10, 0⟩ 0

/-- The new entry's copy to the host ring. -/
def State.logToHost (s : State) (t : Nat) : State :=
  if s.hostRing = 0 then s
  else if s.hostLogOk t then s.hostCatchup.hostCopy t else s.hostLag t

/-- The new entry's copy to the partner's window. -/
def State.logToPartner (s : State) (t : Nat) (e : List Byte) : State :=
  let m := s.ras.mirror
  if m.phase = .paired then s.remoteWrite .log m.partner (m.logCopyAt + 128 * (t % s.flerraRing.2)) e else s

/-! ### The commit and the replay (R526, R529) -/

/-- A replay's record advanced by one step, and ended when t reaches t_end. -/
def State.replayStep (s : State) : State :=
  match s.ras.replayTo with
  | none => s
  | some (tEnd, _, _) =>
    match s.host.records.find? (fun e => e.2.running && (match e.2.op with
      | .logReplay _ _ _ => true
      | _ => false)) with
    | none => s
    | some (i, p) =>
      let s1 := s.putRecord i { p with position := p.position + 1 }
      if s.upd.t.toNat + 1 < tEnd then s1
      else ({ s1 with ras := { s1.ras with replayTo := none } }).finishRecord i .success

/-- The log at a commit tick with the given number: the entry written, copied, and compared where a replay runs. -/
def State.flerraCommit (s : State) (tick : Nat) : State :=
  if !s.manifestOk s.ras.mirror.manifest then s.replayStep
  else
    let t := s.upd.t.toNat
    let flags := b2n s.mirrorFlag + 2 * b2n s.ras.replayTo.isSome + 4 * b2n s.diverges
    let e := s.flerraEntry flags tick
    let s1 := if s.diverges then s.stick Reg.RAS_STATUS 9 else s
    let s2 := s1.store (s.flerraRing.1 + 128 * (t % s.flerraRing.2)) e
    let s3 := { s2 with ras := { s2.ras with flerraT := s.upd.t } }
    ((s3.logToPartner t e).logToHost t).replayStep

/-- The ring of a replay: LOG_SRC's, or the local one. -/
def State.replayRing (s : State) (src n : Nat) : Nat × Nat := if src = 0 then s.flerraRing else (src, n)

/-- Every step from t to before `tEnd` has a valid entry. -/
def State.logWhole (s : State) (ring : Nat × Nat) (tEnd : Nat) : Bool :=
  let t := s.upd.t.toNat
  decide (tEnd ≤ t + ring.2) && (List.range (tEnd - t)).all (fun i => (s.ringEntry ring (t + i)).isSome)

/-- LOG_REPLAY (R529); with t already at t_end it ends at once (log entry 32). -/
def execLogReplay (m : BitVec 6) (s : State) : Out :=
  .next (s.welfy 0x0709 m fun ps s =>
    let tEnd := u64At ps 0
    let src := u64At ps 8
    let ring := s.replayRing src (u32At ps 16)
    if s.ras.replayTo.isSome then s.no .runLock
    else if !(if src = 0 then s.accessOk ring.1 (128 * ring.2) false else s.paramOk src (128 * ring.2) false) then s.no .addrInvalid
    else if !s.logWhole ring tEnd then s.no .logGap
    else
      let r := s.startLong 0x0709 m.toNat (tEnd - s.upd.t.toNat) (.logReplay tEnd src ring.2)
      r.thenDo (fun s1 =>
        if tEnd ≤ s1.upd.t.toNat then s1.finishRecord (r.detail % 16) .success
        else { s1 with ras := { s1.ras with replayTo := some (tEnd, ring.1, ring.2) } }))

/-! ### Reading (R543) -/

/-- The entries from step `t` on that the ring holds, `n` at most. -/
def State.logFrom (s : State) (t n : Nat) : List (List Byte) :=
  let last := s.ras.flerraT.toNat
  let lo := Nat.max t (last + 1 - s.flerraRing.2)
  ((List.range (last + 1 - lo)).filterMap (fun i => s.ringEntry s.flerraRing (lo + i))).take n

/-- FLERRA_READ (Table 16.12, R543). -/
def execFlerraRead (m : BitVec 6) (s : State) : Out :=
  .next (s.welfy 0x0706 m fun ps s =>
    let t := u64At ps 0
    let n := u32At ps 8
    let dst := u64At ps 16
    let es := if s.manifestOk s.ras.mirror.manifest then s.logFrom t (if dst = 0 then Nat.min n 30 else n) else []
    let f := match es with
      | e :: _ => u64At e 0
      | [] => t
    let head := slice (toLe 8 f ++ toLe 4 es.length) 0 48
    if dst = 0 then s.ok (head ++ es.flatMap id)
    else if !s.paramOk dst (128 * es.length) true then s.no .addrInvalid
    else (s.putOut .log dst (es.flatMap id)).ok (head.take 12))

/-- t of the newest entry that the local ring holds, after it was restored. -/
def State.refreshFlerra (s : State) : State :=
  let ring := s.flerraRing
  let best := (List.range ring.2).foldl (fun (b : Nat) i =>
    let t := u64At (s.load (ring.1 + 128 * i) 8) 0
    if t % ring.2 = i ∧ (s.ringEntry ring t).isSome then Nat.max b t else b) 0
  { s with ras := { s.ras with flerraT := BitVec.ofNat 64 best } }

/-- The ring restored from the partner's log copy (R522). -/
def State.restoreRing (s : State) : State :=
  (s.store s.flerraRing.1 (s.load (s.onPartner s.ras.mirror.logCopyAt) (128 * s.flerraRing.2))).refreshFlerra

end Sys2Proof.Machine
end

