-- ==== Sys2Proof/Machine/LongOps.lean ====
section
/-! DEFINITION. The end of a long operation (R418 to R420): what each leaves when its work is done. -/

namespace Sys2Proof.Machine

/-- Every status of Table 13.12. -/
def allStatus : List Status :=
  [.success, .opStarted, .inProgress, .unknownOpcode, .notAdmin, .badParam, .notReady, .aborted, .opLimit, .runLock, .busy,
   .accessDenied, .addrInvalid, .internalError, .descInvalid, .planInvalid, .planMismatch, .formatUnsupported, .layoutMismatch,
   .prismMismatch, .progInvalid, .ssbInvalid, .queueBusy, .epochStale, .armBusy, .armLate, .armNotStep, .armMiss, .abortLate,
   .switchFail, .rollbackExpired, .verdictLate, .tickLost, .noSpare, .repairBusy, .stationConflict, .collPeerLost, .feedShared,
   .noSpareCore, .fillAborted, .logGap, .sigInvalid, .challengeStale, .debugLocked, .keyUnknown, .imageInvalid, .bankActive,
   .apertureDenied, .clockStopped]

/-- The status of a code. -/
def Status.ofCode (c : Nat) : Option Status := allStatus.find? (fun x => x.code == c)

/-- MEM_LAYOUT ends: local HBM is zero and the new P is in force (R335). -/
def State.endLayout (s : State) (i p : Nat) : State :=
  let s1 := s.zeroHbm
  ({ s1 with hbm := { s1.hbm with split := p } }).finishRecord i .success

/-- FW_UPDATE ends: the bank holds the image and is valid (R463). -/
def State.endUpdate (s : State) (i : Nat) (isB : Bool) (im : List Byte) : State :=
  let s1 := { s with boot := if isB then { s.boot with bankB := im } else { s.boot with bankA := im } }
  (s1.persist (fun b => if isB then { b with bValid := true } else { b with aValid := true })).finishRecord i .success

/-- A fill of mode 0 ends (R522): the image and the Flerra ring restored, and the pairing as before it. -/
def State.endFillWith (s : State) (i : Nat) : Option Nat → State
  | none => s.abortFill
  | some h =>
    (s.setMirror (fun m => { m with phase := .paired })).endRestore i (s.onPartner (s.ras.mirror.halfAt h)) State.restoreRing

def State.endFill (s : State) (i t : Nat) : State := s.endFillWith i (s.fillHalf t)

/-- A fill of mode 1 ends: the image pushed is complete (R523). -/
def State.endPush (s : State) (i : Nat) : State :=
  ((s.setMirror (fun m => { m with phase := .paired })).bump Reg.RAS_CNT_FILL 1).finishRecord i .success

/-- An export ends; one of a held half that has changed since ends with ABORTED (R533). -/
def State.endExport (s : State) (i source t : Nat) : State :=
  if source = 1 ∧ s.heldT 0 ≠ some t ∧ s.heldT 1 ≠ some t then s.finishRecord i .aborted else s.finishRecord i .success

/-- Log copies and exports are outstanding. -/
def State.logBusy (s : State) : Bool := (s.lnk.trans ++ s.lnk.backlog).any (fun t => t.owner == .log)

/-- A long operation whose work is done. -/
def State.longDone (s : State) (i : Nat) (p : Progress) : State :=
  match p.op with
  | .none => s.finishRecord i .success
  | .layout n => s.endLayout i n
  | .repair _ => if p.position = p.total then s.finishRecord i .success else s
  | .fwUpdate isB im => s.endUpdate i isB im
  | .trainSweep k n => (s.sweepEnd k n true).finishRecord i .success
  | .mirrorFill mode t =>
    if s.mirrorBusy || s.ras.mirror.copying.isSome then s else if mode = 0 then s.endFill i t else s.endPush i
  | .ckptExport source _ t => if s.logBusy then s else s.endExport i source t
  | .ckptImport src => if s.mirrorBusy then s else s.endRestore i src id
  | .logReplay _ _ _ => s

/-- A long operation that has failed. -/
def State.longFailed (s : State) (i : Nat) (p : Progress) (x : Status) : State :=
  match p.op with
  | .repair id => (match s.hbm.current with
      | some r => if r.id = id then { s with hbm := { s.hbm with current := none } } else s
      | none => s).finishRecord i x
  | .trainSweep k n => (s.sweepEnd k n false).finishRecord i x
  | .mirrorFill _ _ =>
    let s1 := (s.dropMirror.setMirror (fun m => { m with phase := .unpaired })).finishRecord i x
    if x = .fillAborted then s1.stick Reg.RAS_STATUS 8 else s1
  | .logReplay _ _ _ => ({ s with ras := { s.ras with replayTo := none } }).finishRecord i x
  | _ => s.finishRecord i x

/-- LONG_OP_END (R420): the operation of a record ends with a final status. -/
def execLongOpEnd (rec : BitVec 4) (status : BitVec 16) (s : State) : Out :=
  let p := s.record rec.toNat
  .next (if !p.running then s
    else match Status.ofCode status.toNat with
      | none => s
      | some x =>
        if x = .success then s.longDone rec.toNat p
        else if x = .opStarted ∨ x = .inProgress then s
        else s.longFailed rec.toNat p x)

end Sys2Proof.Machine
end

