-- ==== Sys2Proof/Machine/Programs.lean ====
section
/-! DEFINITION. Frame programs and layout plans (R47, R50 to R53, R77, R578, R579): their checks in the spec's order, and
the two loads. -/

namespace Sys2Proof.Machine

/-! ### Frame programs (Tables 2.3 to 2.5) -/

/-- A slot descriptor's 32 bytes. -/
def slotOfBytes (b : List Byte) : SlotDesc :=
  { unit := UnitId.ofCode (u16At b 0), kind := u8At b 2, flags := u8At b 3, start := u32At b 4 % 2 ^ 18,
    endNom := u32At b 8 % 2 ^ 18, endThr := u32At b 12 % 2 ^ 18, descAddr := u64At b 16, waitCtr := u8At b 24,
    signalCtr := u8At b 25, waitVal := u16At b 26, wrrNoc := u8At b 28, wrrUpd := u8At b 29, energy := u16At b 30 }

/-- A frame entry's 16 bytes. -/
def frameOfBytes (b : List Byte) : FrameEntry :=
  { slotOffset := u32At b 0, slotCount := u16At b 4, stepEnd := bit (u16At b 6) 0, refocus := bit (u16At b 6) 1,
    phase := bits (u16At b 6) 2 5, energyBudget := u32At b 8 }

/-- FRAME_COUNT and SLOT_COUNT of a program header. -/
def progFrames (b : List Byte) : Nat := u32At b 8
def progSlots (b : List Byte) : Nat := u32At b 12

/-- Bytes of frame entry `f` and of slot descriptor `i` of a program's bytes. -/
def frameBytes (b : List Byte) (f : Nat) : List Byte := slice b (64 + 16 * f) 16
def slotBytes (b : List Byte) (i : Nat) : List Byte := slice b (64 + 16 * progFrames b + 32 * i) 32

/-- The header fields of R50. -/
def progFieldsOk (b : List Byte) : Bool :=
  u32At b 0 == 0x47525046 && u16At b 4 == 1 && inRange (u8At b 6) 10 17 && inRange (u8At b 7) 4 16
    && inRange (progFrames b) 1 (2 ^ 20) && decide (progSlots b ≤ 2 ^ 30 - 1) && u32At b 16 != 0 && zeroBytes b 25 7

/-- LENGTH that a program header calls for. -/
def progLength (b : List Byte) : Nat := 64 + 16 * progFrames b + 32 * progSlots b

/-- The slots of frame `f`. -/
def slotsOfFrame (b : List Byte) (f : Nat) : List SlotDesc :=
  let e := frameOfBytes (frameBytes b f)
  (List.range e.slotCount).map (fun i => slotOfBytes (slotBytes b (e.slotOffset + i)))

/-- A frame entry (R50): reserved bits, its slots within the array, and its energy in units of 8 µJ: a limit in W over L
rc of 10 ns is limit × L / 800 units. -/
def frameEntryOk (b : List Byte) (f aperture : Nat) : Bool :=
  let raw := frameBytes b f
  let e := frameOfBytes raw
  zeroBytes raw 12 4 && decide (u16At raw 6 < 64)
    && (e.slotCount == 0 || decide (e.slotOffset + e.slotCount ≤ progSlots b))
    && decide (sumNat ((slotsOfFrame b f).map (fun d => d.energy)) ≤ e.energyBudget)
    && decide (e.energyBudget * 800 ≤ powerLimit aperture * 2 ^ u8At b 6)

/-- Units of a type, and the kinds that it runs (Table 2.5). -/
def unitCount (ty : Nat) : Nat := if ty = 1 ∨ ty = 2 then 512 else if ty = 3 then 1 else if ty = 4 then 8 else 0
def kindRuns (ty kind : Nat) : Bool :=
  (ty == 1 && kind == 1) || (ty == 2 && kind == 2) || (ty == 3 && (kind == 3 || kind == 5)) || (ty == 4 && kind == 4)

/-- A slot against the slots before it in its frame (R50). -/
def slotOk (n g : Nat) (raw : List Byte) (before : List SlotDesc) : Bool :=
  let d := slotOfBytes raw
  let l := 2 ^ n
  let same := before.filter (fun x => x.unit == d.unit)
  decide (d.unit.idx < unitCount d.unit.ty) && kindRuns d.unit.ty d.kind && decide (d.flags < 8)
    && decide (same.length < 16)
    && decide (u32At raw 4 < 2 ^ 18) && decide (u32At raw 8 < 2 ^ 18) && decide (u32At raw 12 < 2 ^ 18)
    && decide (d.endNom ≤ d.endThr) && decide (d.endNom ≤ l - g * l / 64) && decide (d.endThr ≤ l)
    && (match same.getLast? with
      | some x => decide (x.start ≤ d.start) && decide (x.endNom ≤ d.start)
      | none => true)

/-- The first slot of frame `f` that fails, by its place in the slot-descriptor array. -/
def frameSlotFail (b : List Byte) (f : Nat) : Option Nat :=
  let e := frameOfBytes (frameBytes b f)
  let ds := slotsOfFrame b f
  ((List.range e.slotCount).find? (fun i =>
    !slotOk (u8At b 6) (u8At b 7) (slotBytes b (e.slotOffset + i)) (ds.take i))).map (fun i => e.slotOffset + i)

/-- The first failing frame or slot of a program, as a failure index word (R50, R578). -/
def progFramesFail (b : List Byte) (aperture : Nat) : Option Nat :=
  firstSome (fun f =>
    if !frameEntryOk b f aperture then some (failWord 0 f)
    else (frameSlotFail b f).map (failWord 1)) (List.range (progFrames b))

/-- A program from its bytes. -/
def programOfBytes (b : List Byte) : Program :=
  { lenExp := u8At b 6, guard := u8At b 7, progId := u32At b 16, planId := u32At b 20, aperture := u8At b 24,
    digest := slice b 32 32, frames := (List.range (progFrames b)).map (fun f => frameOfBytes (frameBytes b f)),
    slots := (List.range (progSlots b)).map (fun i => slotOfBytes (slotBytes b i)), step := none }

/-- A load's answer: the identifier read and the failure index word. -/
def State.loadReply (s : State) (x : Status) (id w : Nat) : Reply := ⟨x, 0, toLe 4 id ++ toLe 4 w, s⟩

/-- Loads are refused while a mode is armed and through the retention window (R53). -/
def State.loadsHeld (s : State) : Bool := s.frm.modeState == 1 || s.frm.modeState == 2

/-- FRAME_PROGRAM_LOAD (R47, R50, R53, R578). -/
def execFrameProgramLoad (m : BitVec 6) (s : State) : Out :=
  .next (s.welfy 0x0301 m fun ps s =>
    let src := u64At ps 0
    let len := u32At ps 8
    let h := s.load src 64
    let id := u32At h 16
    if s.loadsHeld then s.no .armBusy
    else if !s.paramOk src 64 false then s.no .addrInvalid
    else if !progFieldsOk h || len != progLength h then s.loadReply .planInvalid id 0xFFFFFFFF
    else if !s.paramOk src len false then s.no .addrInvalid
    else
      let b := s.load src len
      if sha256 (b.drop 64) ≠ slice b 32 32 then s.loadReply .planInvalid id 0xFFFFFFFF
      else if u8At b 24 ≠ s.boot.running then s.loadReply .planMismatch id 0xFFFFFFFF
      else match progFramesFail b (u8At b 24) with
        | some w => s.loadReply .planInvalid id w
        | none => ({ s with frm := { s.frm with standbyProg := some (programOfBytes b) } }).loadReply .success id 0xFFFFFFFF)

/-! ### Layout plans (Tables 2.8 and 2.11) -/

/-- A shard entry's 32 bytes. -/
def shardOfBytes (b : List Byte) : ShardEntry :=
  { tensorId := u32At b 0, phase := u8At b 4, axis := u8At b 5, owner := u16At b 6, start := u64At b 8, count := u64At b 16,
    localAddr := u64At b 24 }

/-- The header of R579 against LENGTH. -/
def planHeaderOk (b : List Byte) (len : Nat) : Bool :=
  u32At b 0 == 0x4E4C504C && u16At b 4 == 1 && zeroBytes b 6 2 && inRange (u32At b 8) 1 (2 ^ 24) && u32At b 12 != 0
    && zeroBytes b 16 16 && len == 64 + 32 * u32At b 8

/-- The entries of a plan's bytes. -/
def planEntries (b : List Byte) : List ShardEntry :=
  (List.range (u32At b 8)).map (fun i => shardOfBytes (slice b (64 + 32 * i) 32))

/-- Entries of one tensor and phase. -/
def sameShards (e : ShardEntry) (es : List ShardEntry) : List ShardEntry :=
  es.filter (fun x => x.tensorId == e.tensorId && x.phase == e.phase)

/-- The descriptor that an entry of this station names, where it can be read. -/
def State.shardDesc (s : State) (e : ShardEntry) : Option TDesc :=
  if s.isOwn e.owner && s.accessOk e.localAddr 64 false then some (s.tdesc e.localAddr) else none

/-- Length of a tensor along an axis, as the plan shows it: the largest end of its shards along that axis in any phase, and the
dimension of this station's shards along the other. -/
def State.planExtent (s : State) (es : List ShardEntry) (tensor axis : Nat) : Nat :=
  (es.filter (fun e => e.tensorId == tensor)).foldl (fun m e =>
    Nat.max m (if e.axis = axis then e.start + e.count
      else match s.shardDesc e with
        | some d => if axis = 0 then d.dim0 else d.dim1
        | none => 0)) 0

/-- Rotation size of a tensor along an axis, by this station's shards of it. -/
def State.planRot (s : State) (es : List ShardEntry) (tensor axis : Nat) : Nat :=
  (es.filter (fun e => e.tensorId == tensor)).foldl (fun m e =>
    match s.shardDesc e with
    | some d => if d.axis = axis then Nat.max m d.rot else m
    | none => m) 0

/-- The boundary rules of R77 for one entry: multiples of 64, and of the rotation of the tensor's blocked axis; the
tensor's own end `top` is no boundary. -/
def State.boundaryOk (s : State) (es : List ShardEntry) (top : Nat) (e : ShardEntry) : Bool :=
  let r := Nat.max 64 (s.planRot es e.tensorId e.axis)
  e.start % r == 0 && (e.start + e.count == top || (e.start + e.count) % r == 0)

/-- The shards of the tensor and phase of an entry cover the tensor (R77). -/
def State.coversAll (s : State) (es : List ShardEntry) (e : ShardEntry) : Bool :=
  let same := (sameShards e es).filter (fun x => x.count != 0)
  coverEven same && (same.isEmpty
    || same.any (fun x => x.start + x.count == s.planExtent es e.tensorId x.axis))

/-- Entry `i` of a plan passes; the first entry of a tensor and phase answers for its cover. -/
def State.shardOk (s : State) (es : List ShardEntry) (i : Nat) (e : ShardEntry) : Bool :=
  e.tensorId != 0 && decide (e.phase ≤ 15) && decide (e.axis ≤ 1) && e.count != 0
    && s.boundaryOk es (s.planExtent es e.tensorId e.axis) e
    && (!(sameShards e (es.take i)).isEmpty || s.coversAll es e)

/-- The first failing entry of a plan. -/
def State.planFail (s : State) (es : List ShardEntry) : Option Nat :=
  ((es.zip (List.range es.length)).find? (fun (x : ShardEntry × Nat) => !s.shardOk es x.2 x.1)).map (fun x => x.2)

/-- LAYOUT_PLAN_LOAD (R53, R77, R578, R579). -/
def execLayoutPlanLoad (m : BitVec 6) (s : State) : Out :=
  .next (s.welfy 0x0302 m fun ps s =>
    let src := u64At ps 0
    let len := u32At ps 8
    let h := s.load src 64
    let id := u32At h 12
    if s.loadsHeld then s.no .armBusy
    else if !s.paramOk src 64 false then s.no .addrInvalid
    else if !planHeaderOk h len then s.loadReply .planInvalid id 0xFFFFFFFF
    else if !s.paramOk src len false then s.no .addrInvalid
    else
      let b := s.load src len
      if sha256 (b.drop 64) ≠ slice b 32 32 then s.loadReply .planInvalid id 0xFFFFFFFF
      else match s.planFail (planEntries b) with
        | some i => s.loadReply .planInvalid id (failWord 2 i)
        | none => ({ s with frm := { s.frm with standbyPlan := some ⟨id, planEntries b⟩ } }).loadReply .success id 0xFFFFFFFF)

end Sys2Proof.Machine
end

