-- ==== Sys2Proof/Machine/Epoch.lean ====
section
/-! DEFINITION. Mode epochs (R63 to R71, R79): the checks of ARM, ABORT and ROLLBACK, their messages and commands, and what a
switch and a rollback change. -/

namespace Sys2Proof.Machine

/-! ### The mode descriptor -/

/-- A mode from its 16 bytes. -/
def modeOfBytes (b : List Byte) : Mode :=
  { progId := u32At b 0, planId := u32At b 4, lenExp := u8At b 8, guard := u8At b 9, stretchAmt := u8At b 10,
    stretchCnt := u8At b 11 }

/-- A mode's 16 bytes. -/
def Mode.bytes (m : Mode) : List Byte :=
  toLe 4 m.progId ++ toLe 4 m.planId ++ toLe 1 m.lenExp ++ toLe 1 m.guard ++ toLe 1 m.stretchAmt ++ toLe 1 m.stretchCnt ++ toLe 4 0

/-- The byte of a mode descriptor that is out of its range (R37, R38, FRM_STRETCH). -/
def modeFail (b : List Byte) : Option Nat :=
  let m := modeOfBytes b
  if !inRange m.lenExp 10 17 then some 8
  else if !inRange m.guard 4 16 then some 9
  else if 8 < m.stretchAmt then some 10
  else if m.stretchAmt ≠ 0 ∧ m.stretchCnt < 8 then some 11
  else if !zeroBytes b 12 4 then some 12
  else none

/-- Identifiers in force, 0 with none loaded. -/
def State.progId (s : State) : Nat := (s.frm.curProg.map (fun p => p.progId)).getD 0
def State.planId (s : State) : Nat := (s.frm.curPlan.map (fun p => p.planId)).getD 0

/-- Whether a mode changes the program, and the plan. -/
def State.changesProg (s : State) (m : Mode) : Bool := m.progId != s.progId
def State.changesPlan (s : State) (m : Mode) : Bool := m.planId != s.planId
def State.changes (s : State) (m : Mode) : Bool := s.changesProg m || s.changesPlan m

/-! ### ARM (R65, R208, R252) -/

/-- Ticks for one frame of the attempt: 2 in a double-frame attempt (R262). -/
def State.frameTicks (s : State) : Nat := if s.frm.double then 2 else 1

/-- Ticks from now to the tick that ends the attempt in progress. -/
def State.ticksLeft (s : State) : Nat :=
  s.frameTicks * (s.progLen - s.frm.frameIndex) - b2n (s.frm.double && s.frm.pairBase != 0)

/-- A tick at which frame index 0 begins; while no attempt runs, every tick may be one (log entry 33). -/
def State.stepTick (s : State) (t : Nat) : Bool :=
  let d := t - s.frm.tick.toNat
  (s.upd.commit == .idle && !s.frm.blocked) || s.progLen == 0 || (decide (s.ticksLeft ≤ d) && (d - s.ticksLeft) % s.progLen == 0)

/-- The program that a mode names: the current one, or the standby bank's. -/
def State.namedProg (s : State) (id : Nat) : Option Program :=
  if id = s.progId then s.frm.curProg else s.frm.standbyProg.filter (fun p => p.progId == id)

/-- A program with update slots needs its step descriptor (R208). -/
def Program.stepped (p : Program) : Bool := p.step.isSome || !p.slots.any (fun d => d.kind == 4)

/-- The last frame's slots. -/
def Program.lastSlots (p : Program) : List SlotDesc :=
  match p.frames.getLast? with
  | some f => (p.slots.drop f.slotOffset).take f.slotCount
  | none => []

/-- A collective slot that runs the Loupe exchange in frame F − 1, from 64 rc to the commit window (R252). -/
def State.exchangeSlot (s : State) (p : Program) (d : SlotDesc) : Bool :=
  d.unit.ty == 3 && d.kind == 3 && u8At (s.load d.descAddr 1) 0 == 4 && decide (64 ≤ d.start)
    && decide (d.endThr + s.commitWin ≤ 2 ^ p.lenExp)

/-- The named program may run: for this aperture, with its step descriptor, and with its exchange unless SOLO. -/
def State.progFits (s : State) (p : Program) : Bool :=
  p.aperture == s.boot.running && p.stepped && (s.regBit Reg.LUP_CFG 1 || p.lastSlots.any (s.exchangeSlot p))

/-- The named program and plan are where R65 wants them. -/
def State.banksFit (s : State) (m : Mode) : Bool :=
  (match s.namedProg m.progId with
    | some p => s.progFits p
    | none => false)
    && (!s.changesPlan m || s.frm.standbyPlan.any (fun p => p.planId == m.planId))

/-- T falls within the retention window of the previous switch, the tick four frames after it included: R68 admits a
rollback at that tick (DEDUCED, log entry 37). -/
def State.inRetention (s : State) (t : Nat) : Bool :=
  !s.frm.halted && s.frm.retained.any (fun r => decide (t ≤ r.switchTick.toNat + 4))

/-- T is less than 2 frames ahead; a double-frame pair counts as one frame from its first tick (R262). -/
def State.armLate (s : State) (t : Nat) : Bool :=
  decide (t + b2n (s.frm.double && s.frm.pairBase != 0) < s.frm.tick.toNat + 2 * s.frameTicks)

/-- The status with which an ARM is refused, in R65's order; none where it is accepted. -/
def State.armFail (s : State) (b : List Byte) (e : BitVec 16) (t : BitVec 64) : Option Status :=
  let m := modeOfBytes b
  if (modeFail b).isSome then some .badParam
  else if !newerEpoch e s.frm.epoch || s.frm.lastAborted.any (fun x => !newerEpoch e x) then some .epochStale
  else if s.frm.armed.isSome || s.inRetention t.toNat then some .armBusy
  else if s.armLate t.toNat then some .armLate
  else if s.changes m && !s.stepTick t.toNat then some .armNotStep
  else if !s.banksFit m then some .planMismatch
  else none

/-- The armed change that an ARM describes. -/
def armOf (b : List Byte) (e : BitVec 16) (t : BitVec 64) : Armed := ⟨modeOfBytes b, e, t⟩

/-- An ARM identical to the one armed. -/
def State.armedAlready (s : State) (b : List Byte) (e : BitVec 16) (t : BitVec 64) : Bool :=
  s.frm.armed == some (armOf b e t) && zeroBytes b 12 4

/-- The mode change armed; a request for a stretch is answered by arming one. -/
def State.armMode (s : State) (b : List Byte) (e : BitVec 16) (t : BitVec 64) : State :=
  let a := armOf b e t
  { s with frm := { s.frm with
      armed := some a, armTick := t, stretchRequested := s.frm.stretchRequested && a.mode.stretchAmt == 0 } }

/-- The last ARM that came, kept so that its retransmission is known (R70). -/
def State.noteArm (s : State) (b : List Byte) (e : BitVec 16) (t : BitVec 64) : State :=
  { s with frm := { s.frm with lastArm := some (armOf b e t) } }

/-- An ARM like the last that came is a retransmission; for an epoch that is not armed it is a miss (R70; log entry 64). -/
def State.armAgain (s : State) (b : List Byte) (e : BitVec 16) (t : BitVec 64) : State :=
  if s.frm.lastArm == some (armOf b e t) then s.armMiss e else s

/-- ARM's effect: the state, and the refusal if any. -/
def State.arm (s : State) (b : List Byte) (e : BitVec 16) (t : BitVec 64) : State × Option Status :=
  if s.armedAlready b e t then (s, none)
  else match s.armFail b e t with
    | some x => ((s.armAgain b e t).noteArm b e t, some x)
    | none => ((s.armMode b e t).noteArm b e t, none)

/-- The protocol's messages are taken by a device that is READY, from the fabric manager (R374). -/
def State.fromFm (s : State) (src : Nat) (k : State → State) : State :=
  if s.boot.dev = .ready then s.fromManager src k else s

/-- An ARM message's effect, and the reply. -/
def State.armMsg (s : State) (b : List Byte) (e : BitVec 16) (t : BitVec 64) : State :=
  match s.arm b e t with
  | (s1, none) => s1.say (.armAck e ((sha256 b).take 8))
  | (s1, some x) => s1.say (.armNak e x)

/-- ARM's packet: mode descriptor, E and T (Table 2.7; log entry 65). -/
def armPacket (h : Packet) (mode : BitVec 128) (e : BitVec 16) (t : BitVec 64) : Packet :=
  carrying h (toLe 16 mode.toNat ++ toLe 2 e.toNat ++ toLe 8 t.toNat)

/-- ARM (R64, R65, Table 2.7). -/
def execArm (port : Fin 24) (h : Packet) (mode : BitVec 128) (epoch : BitVec 16) (tick : BitVec 64) (s : State) : Out :=
  .next (s.mgmtReceive port.val 0x0020 (armPacket h mode epoch tick) (fun s =>
    s.fromFm h.src.toNat (fun s => s.armMsg (toLe 16 mode.toNat) epoch tick)))

/-- MODE_ARM (R79). -/
def execModeArm (m : BitVec 6) (s : State) : Out :=
  .next (s.welfy 0x0303 m fun ps s =>
    let b := slice ps 0 16
    match s.arm b (BitVec.ofNat 16 (u16At ps 16)) (BitVec.ofNat 64 (u64At ps 24)) with
    | (s1, none) => s1.ok (sha256 b)
    | (s1, some x) => match modeFail b with
      | some off => s1.bad off
      | none => s1.no x)

/-! ### ABORT (R66) -/

/-- The epoch has been switched to, or its T has passed (Table 2.7; log entry 34). -/
def State.switchedTo (s : State) (e : BitVec 16) : Bool :=
  s.frm.retained.any (fun r => r.epoch == e) || (!newerEpoch e s.frm.epoch && s.frm.lastAborted != some e)

/-- The epoch recorded as aborted; it is never used again. -/
def State.noteAbort (s : State) (e : BitVec 16) : State :=
  { s with frm := { s.frm with lastAborted := match s.frm.lastAborted with
    | some x => if newerEpoch e x then some e else some x
    | none => some e } }

/-- ABORT's effect: the epoch disarmed and recorded, or ABORT_LATE. -/
def State.abortEpoch (s : State) (e : BitVec 16) : State × Option Status :=
  if s.frm.armed.any (fun a => a.epoch == e) then
    let s1 := s.noteAbort e
    ({ s1 with frm := { s1.frm with armed := none } }, none)
  else if s.switchedTo e then (s, some .abortLate)
  else (s.noteAbort e, none)

/-- An ABORT message's effect and its reply. -/
def State.abortMsg (s : State) (e : BitVec 16) : State :=
  match s.abortEpoch e with
  | (s1, none) => s1.say (.abortDone e)
  | (s1, some _) => s1.say (.abortLate e)

/-- ABORT (Table 2.7). -/
def execAbort (port : Fin 24) (h : Packet) (epoch : BitVec 16) (s : State) : Out :=
  .next (s.mgmtReceive port.val 0x0024 (carrying h (toLe 2 epoch.toNat)) (fun s =>
    s.fromFm h.src.toNat (fun s => s.abortMsg epoch)))

/-- MODE_ABORT (R79). -/
def execModeAbort (m : BitVec 6) (s : State) : Out :=
  .next (s.welfy 0x0304 m fun ps s =>
    match s.abortEpoch (BitVec.ofNat 16 (u16At ps 0)) with
    | (s1, none) => s1.ok []
    | (s1, some x) => s1.no x)

/-! ### ROLLBACK (R68 to R70) -/

/-- T of epoch `e`, where this device has armed it, switched to it or failed to switch to it. -/
def State.tickOf (s : State) (e : BitVec 16) : Option Nat :=
  match s.frm.retained.filter (fun r => r.epoch == e) with
  | some r => some r.switchTick.toNat
  | none => (s.frm.armed.filter (fun a => a.epoch == e)).map (fun a => a.tick.toNat)

/-- ROLLBACK's effect. An epoch that this device never armed is a miss (R70). -/
def State.rollbackTo (s : State) (e : BitVec 16) (t : BitVec 64) : State × Option Status :=
  match s.tickOf e with
  | none =>
    if newerEpoch e s.frm.epoch && s.frm.rolledBack != some e then (s, some .armMiss) else (s, some .rollbackExpired)
  | some t0 =>
    if t.toNat ≤ t0 + 4 ∧ s.frm.tick.toNat + 1 ≤ t.toNat then
      ({ s with frm := { s.frm with rollback := some ⟨e, t⟩ } }, none)
    else (s, some .rollbackExpired)

/-- A ROLLBACK message's effect, E and T′, and its reply. -/
def State.rollbackMsg (s : State) (e : BitVec 16) (t : BitVec 64) : State :=
  match s.rollbackTo e t with
  | (s1, none) => s1.say (.rollbackDone e)
  | (s1, some .armMiss) => s1.armMiss e
  | (s1, some _) => s1.say (.rollbackExpired e)

/-- ROLLBACK's packet: E and T' (Table 2.7). -/
def rollbackPacket (h : Packet) (e : BitVec 16) (t : BitVec 64) : Packet := carrying h (toLe 2 e.toNat ++ toLe 8 t.toNat)

/-- ROLLBACK (Table 2.7). -/
def execRollback (port : Fin 24) (h : Packet) (epoch : BitVec 16) (tick : BitVec 64) (s : State) : Out :=
  .next (s.mgmtReceive port.val 0x0028 (rollbackPacket h epoch tick) (fun s =>
    s.fromFm h.src.toNat (fun s => s.rollbackMsg epoch tick)))

/-- MODE_ROLLBACK (R79). -/
def execModeRollback (m : BitVec 6) (s : State) : Out :=
  .next (s.welfy 0x0305 m fun ps s =>
    let e := BitVec.ofNat 16 (u16At ps 0)
    match s.rollbackTo e (BitVec.ofNat 64 (u64At ps 8)) with
    | (s1, none) => s1.ok []
    | (s1, some .armMiss) => (s1.armMiss e).no .armMiss
    | (s1, some x) => s1.no x)

/-! ### Queries and configuration (Table 2.10) -/

/-- A register with RO fields beside its TA ones, as staged. -/
def State.stagedView (s : State) (off : Nat) : Word := s.stagedReg off ||| (s.readReg off &&& ~~~ s.reg off)

/-- MODE_QUERY (R60). -/
def execModeQuery (m : BitVec 6) (s : State) : Out :=
  .next (s.welfy 0x0306 m fun _ s =>
    s.ok (s.regBytes [Reg.FRM_EPOCH, Reg.FRM_MODE_STATE] ++ toLe 8 s.frm.armTick.toNat
      ++ ((s.frm.armed.map (fun a => a.mode.bytes)).getD (List.replicate 16 0))
      ++ toLe 4 (s.stagedView Reg.FRM_STRETCH).toNat ++ toLe 4 (s.stagedView Reg.FRM_ALIGN_CFG).toNat))

/-- The words that FRAME_COUNTERS returns, in offset order: eight counters and the first-fault record, all of which it clears. -/
def frmCounters : List Nat :=
  [Reg.FRM_GUARD_REPLAY, Reg.FRM_GUARD_THERMAL, Reg.FRM_GUARD_LANE, Reg.FRM_GUARD_POWER, Reg.FRM_GUARD_OTHER, Reg.FRM_FAULT_CNT,
   Reg.FRM_FAULT_TICK_LO, Reg.FRM_FAULT_TICK_HI, Reg.FRM_FAULT_UNIT, Reg.FRM_EPOCH_DROP, Reg.FRM_ALIGN_MISS]

/-- FRAME_COUNTERS. -/
def execFrameCounters (m : BitVec 6) (s : State) : Out :=
  .next (s.welfy 0x0309 m fun ps s => s.countersReply frmCounters (bit (u8At ps 0) 0))

/-! ### The switch and the rollback -/

/-- The mode now in force, as a rollback of epoch `e`, switched to at this tick, returns to it. -/
def State.retain (s : State) (e : BitVec 16) (m : Mode) : Retained :=
  { epoch := e, switchTick := s.frm.tick, lenExp := s.frm.lenExp, guard := s.frm.guard, stretchAmt := s.frm.stretchAmt,
    stretchLeft := s.frm.stretchLeft, prog := s.changesProg m, plan := s.changesPlan m }

/-- The program banks, or the plan banks, exchanged (R53). -/
def State.swapBanks (s : State) (prog plan : Bool) : State :=
  { s with frm := { s.frm with
      curProg := if prog then s.frm.standbyProg else s.frm.curProg,
      standbyProg := if prog then s.frm.curProg else s.frm.standbyProg,
      curPlan := if plan then s.frm.standbyPlan else s.frm.curPlan,
      standbyPlan := if plan then s.frm.curPlan else s.frm.standbyPlan } }

/-- The Loupe leaves HOLD and STOPPED at a mode switch; after STOPPED the step starts with N zero (R255, R263). -/
def State.leaveHold (s : State) : State :=
  match s.lup.phase with
  | .hold => s.setLup (fun l => { l with phase := if l.addr = 0 then .unloaded else .run })
  | .stopped =>
    let s1 := s.setLup (fun l => { l with phase := if l.addr = 0 then .unloaded else .run, n := 0, nonnum := 0, double := false })
    { s1 with upd := { s1.upd with attempt := 0 } }
  | _ => s

/-- The armed mode in force under its epoch (R64, R68, R73). -/
def State.takeMode (s : State) (a : Armed) : State :=
  let s1 := s.swapBanks (s.changesProg a.mode) (s.changesPlan a.mode)
  ({ s1 with frm := { s1.frm with
      lenExp := a.mode.lenExp, guard := a.mode.guard, stretchAmt := a.mode.stretchAmt,
      stretchLeft := if a.mode.stretchAmt = 0 then 0 else a.mode.stretchCnt, epoch := a.epoch, prevEpoch := some s.frm.epoch,
      framesSinceSwitch := 0, armed := none, halted := false, retained := some (s.retain a.epoch a.mode), noSlots := false,
      stopNext := false } }).leaveHold

/-- A standby bank that fails its integrity check (R67): the device stays in its mode and epoch and runs no slots. -/
def State.failSwitch (s : State) (a : Armed) : State :=
  let s1 := (s.frameEvent 3).say (.switchFail a.epoch .switchFail)
  { s1 with frm := { s1.frm with
      armed := none, halted := true, noSlots := true, framesSinceSwitch := 4, retained := some (s.retain a.epoch a.mode) } }

/-- The held packets of an epoch leave the hold buffers, in order of port. -/
def State.takeHeld (s : State) (e : BitVec 16) : List Packet × State :=
  let of := fun (q : List (Nat × Packet)) => q.filter (fun x => x.2.epoch == e)
  let rest := s.frm.hold.map (fun h => (h.1, h.2.filter (fun x => x.2.epoch != e)))
  ((s.frm.hold.flatMap (fun h => of h.2)).map (fun x => x.2), { s with frm := { s.frm with hold := rest } })

/-- Packets held for the epoch now in force are served (R71). -/
def State.releaseHeld (s : State) : State :=
  let r := s.takeHeld s.frm.epoch
  r.1.foldl (fun (s : State) p => s.servePacket p) r.2

/-- Packets held for an epoch that will not be are dropped and counted. -/
def State.dropHeld (s : State) (e : BitVec 16) : State :=
  let r := s.takeHeld e
  r.2.epochDrop r.1.length

/-- The previous mode's configuration, where the switch had been made (R68, R69); its stretch has counted on. -/
def State.restoreMode (s : State) (r : Retained) : State :=
  if s.frm.halted then s
  else
    let left := r.stretchLeft - (s.frm.tick - r.switchTick).toNat
    let s1 := s.swapBanks r.prog r.plan
    { s1 with frm := { s1.frm with lenExp := r.lenExp, guard := r.guard, stretchAmt := r.stretchAmt, stretchLeft := left } }

/-- The rollback of an epoch at T′: epoch E + 1, nothing armed, packets of E dropped and those of E + 1 served. -/
def State.takeRollback (s : State) (rb : Rollback) : State :=
  let s1 := match s.frm.retained.filter (fun r => r.epoch == rb.epoch) with
    | some r => s.restoreMode r
    | none => s
  let s2 := { s1 with frm := { s1.frm with
      epoch := rb.epoch + 1, prevEpoch := none, rolledBack := some rb.epoch, armed := none, rollback := none, retained := none,
      halted := false, noSlots := s1.frm.noSlots && !s1.frm.halted, framesSinceSwitch := 4 } }
  (s2.dropHeld rb.epoch).releaseHeld

end Sys2Proof.Machine
end

