-- ==== Sys2Proof/Machine/Align.lean ====
section
/-! DEFINITION. Tick alignment and numbering (R40 to R46): probes and echoes, the correction of a round, lost ticks, and
TICK_SET. -/

namespace Sys2Proof.Machine

/-- The timing root named in FRM_ALIGN_CFG; 0xFFFF is none. -/
def State.rootStation (s : State) : Nat := s.regField Reg.FRM_ALIGN_CFG 0 15

/-- This device is the timing root. -/
def State.isRoot (s : State) : Bool := s.rootStation != 0xFFFF && s.lnk.station == some s.rootStation

/-- A device that aligns itself to a root. -/
def State.aligns (s : State) : Bool := s.frm.ticking && s.rootStation != 0xFFFF && !s.isRoot

/-- TICK_LOST stands in FRM_STATUS. -/
def State.tickLost (s : State) : Bool := s.regBit Reg.FRM_STATUS 7

/-! ### A round's result (R41, R42, R44, R45) -/

/-- A number put into a rising list. -/
def insertInt (x : Int) : List Int → List Int
  | [] => [x]
  | y :: ys => if x ≤ y then x :: y :: ys else y :: insertInt x ys

/-- The median; the mean of the middle two, rounded down, of an even number. -/
def median (l : List Int) : Int :=
  let q := l.foldr insertInt []
  let n := q.length
  if n % 2 = 1 then q.getD (n / 2) 0 else (q.getD (n / 2 - 1) 0 + q.getD (n / 2) 0) / 2

/-- A lost tick: flagged, a step-fatal error, and no slots from the next tick. -/
def State.loseTick (s : State) : State :=
  let s1 := (s.frameEvent 7).raise .tickLost ⟨7, 0⟩ 0
  { s1 with frm := { s1.frm with stopNext := true } }

/-- The phase in 1/8 rc since the last tick, as it stands `ofs` later (R44). -/
def State.phaseAt (s : State) (ofs : Int) : Int := 8 * s.frm.phase - s.frm.frac + ofs

/-- Whole frames by which a step of the phase leaves the frame in progress, forward or back. -/
def State.stepWraps (s : State) (ofs : Int) : Int := s.phaseAt ofs / (8 * s.modeLen : Nat)

/-- The phase stepped to the root's phase, in 1/8 rc (R44). -/
def State.stepPhase (s : State) (ofs : Int) : State :=
  let x := (s.phaseAt ofs % (8 * s.modeLen : Nat)).toNat
  let p := (x + 7) / 8
  { s with frm := { s.frm with phase := p, frac := 8 * p - x, trim := 0, alignLeft := 0 } }

/-- The measured offset recorded and its correction begun: by trimming guard bands, or in one step after a lost tick. -/
def State.takeOffset (s : State) (ofs : Int) : State :=
  let s1 := { s with frm := { s.frm with alignOfs := ofs } }
  if s.tickLost then s1.stepPhase ofs
  else
    let s2 := { s1 with frm := { s1.frm with alignLeft := ofs } }
    if 800 < ofs.natAbs ∧ s.anySlotRunning then s2.loseTick else s2

/-- The root's numbering against this device's (R45): taken at the next tick in epoch 0 or after a lost tick, and a lost tick
itself otherwise. -/
def State.takeNumber (s : State) (lost : Bool) (diff : BitVec 64) : State :=
  if diff = 0 then s
  else if s.frm.epoch = 0 ∨ lost then { s with frm := { s.frm with tickNext := some (diff, none) } }
  else s.loseTick

/-- A round concluded: with fewer than 3 answers it is counted and corrects nothing. -/
def State.closeRound (s : State) : State :=
  if !s.frm.alignOpen then s
  else match s.frm.alignAnswers with
    | a :: b :: c :: more =>
      let as := a :: b :: c :: more
      let ofs := median (as.map (fun x => x.offset))
      let wraps := if s.tickLost then s.stepWraps ofs else 0
      (s.takeOffset ofs).takeNumber s.tickLost (a.rootTick + BitVec.ofInt 64 wraps)
    | _ => s.bump Reg.FRM_ALIGN_MISS 1

/-- The ports that carry fabric traffic. -/
def State.upPorts (s : State) : List Nat := (List.range 24).filter (fun n => decide ((s.port n).phase = .up))

/-- ALIGN_ROUND (R41): the round before is concluded, and every plane is probed; `now` is the send time in 1/8 rc. -/
def execAlignRound (now : BitVec 64) (s : State) : Out :=
  .next (if !s.aligns then s
    else
      let s1 := s.closeRound
      let s2 := { s1 with frm := { s1.frm with alignAnswers := [], alignOpen := true } }
      s2.upPorts.foldl (fun (s : State) n => s.sayOn n s.rootStation (.tickProbe n now.toNat)) s2)

/-- TICK_PROBE (R45): the root answers a probe with the times at which the probe came and the echo left, and the number of the
frame that received it; `since` is the time from that frame's tick. -/
def execTickProbe (port : Fin 24) (h : Packet) (t1 t2 t3 : BitVec 64) (since : BitVec 32) (s : State) : Out :=
  let n := port.val
  .next (s.mgmtReceive n 0x0010 (carrying h (toLe 8 t1.toNat)) (fun s =>
    if s.frm.ticking && s.isRoot then
      s.sayOn n h.src.toNat (.tickEcho n h.src.toNat t1.toNat t2.toNat t3.toNat s.frm.tick since.toNat)
    else s))

/-- One plane's offset from its four times, in 1/8 rc. -/
def planeOffset (t1 t2 t3 t4 : BitVec 64) : Int := ((t2 - t1).toInt - (t4 - t3).toInt) / 2

/-- The number of the root tick that aligns with this device's last tick, less this device's number: the root tick lies
`d` eighths of an rc after it. -/
def State.numberGap (s : State) (d : Int) (tick : BitVec 64) : BitVec 64 :=
  let l : Int := 8 * s.modeLen
  tick - BitVec.ofInt 64 ((2 * d + l) / (2 * l)) - s.frm.tick

/-- A plane's answer to the round in progress: the times t1 to t3, the root's number and the time since its tick as the echo
carries them, and the time t4 at which it came. -/
def State.takeEcho (s : State) (n : Nat) (t1 t2 t3 t4 tick : BitVec 64) (since : BitVec 32) : State :=
  let o := planeOffset t1 t2 t3 t4
  let d := (t2 - t4).toInt - since.toNat - o + s.phaseAt 0
  let a : AlignAnswer := { plane := n, offset := o, rootTick := s.numberGap d tick }
  { s with frm := { s.frm with alignAnswers := s.frm.alignAnswers ++ [a] } }

/-- TICK_ECHO's packet (Table 12.6; log entry 65). -/
def echoPacket (h : Packet) (t1 t2 t3 tick : BitVec 64) (since : BitVec 32) : Packet :=
  carrying h (toLe 8 t1.toNat ++ toLe 8 t2.toNat ++ toLe 8 t3.toNat ++ toLe 8 tick.toNat ++ toLe 4 since.toNat)

/-- TICK_ECHO (R45): the first answer of each plane to the round in progress, from the timing root. -/
def execTickEcho (port : Fin 24) (h : Packet) (t1 t2 t3 t4 tick : BitVec 64) (since : BitVec 32) (s : State) : Out :=
  let n := port.val
  .next (s.mgmtReceive n 0x0011 (echoPacket h t1 t2 t3 tick since) (fun s =>
    if s.aligns && s.frm.alignOpen && h.src.toNat == s.rootStation && !s.frm.alignAnswers.any (fun a => a.plane == n) then
      s.takeEcho n t1 t2 t3 t4 tick since
    else s))

/-! ### TICK_SET (R40) -/

/-- TICK_SET is admitted in epoch 0, or after a lost tick. -/
def State.tickSetOk (s : State) : Bool := s.frm.epoch == 0 || s.tickLost

/-- A number for the tick at which it applies; one already past applies at the next. -/
def State.setTick (s : State) (tick at_ : BitVec 64) : State := { s with frm := { s.frm with tickNext := some (at_, some tick) } }

/-- TICK_SET, the command. -/
def execTickSet (m : BitVec 6) (s : State) : Out :=
  .next (s.welfy 0x0307 m fun ps s =>
    if !s.tickSetOk then s.no .runLock
    else (s.setTick (BitVec.ofNat 64 (u64At ps 0)) (BitVec.ofNat 64 (u64At ps 8))).ok [])

/-- TICK_SET's packet (Table 12.6). -/
def tickSetPacket (h : Packet) (tick at_ : BitVec 64) : Packet := carrying h (toLe 8 tick.toNat ++ toLe 8 at_.toNat)

/-- TICK_SET, the management message (R374), under the conditions of the command. -/
def execTickSetMsg (port : Fin 24) (h : Packet) (tick at_ : BitVec 64) (s : State) : Out :=
  .next (s.mgmtReceive port.val 0x0012 (tickSetPacket h tick at_) (fun s => s.fromFm h.src.toNat (fun s =>
    if s.tickSetOk then (s.setTick tick at_).say (.tickSetAck .success tick)
    else s.say (.tickSetAck .runLock tick))))

/-- TICK_ALIGN_CONFIG: FRM_ALIGN_CFG staged under R59. -/
def execTickAlignConfig (m : BitVec 6) (s : State) : Out :=
  .next (s.welfy 0x0308 m fun ps s =>
    if !inRange (u8At ps 2) 16 24 then s.bad 2
    else (s.stage Reg.FRM_ALIGN_CFG 0x1FFFFF (BitVec.ofNat 32 (u16At ps 0 + u8At ps 2 * 65536))).ok [])

/-- The number of the coming tick (R40, R45), and whether a set number is used up by it. -/
def State.comingTick (s : State) : BitVec 64 × Bool :=
  let n := s.frm.tick + 1
  match s.frm.tickNext with
  | some (d, none) => (n + d, true)
  | some (a, some v) => if a.toNat ≤ n.toNat then (v, true) else (n, false)
  | none => (n, false)

/-- The coming tick's number in force; the tick of the last switch moves with a new numbering, and so do the gaps that the
round in progress has measured against the old one. -/
def State.numberTick (s : State) : State :=
  let c := s.comingTick
  let shift := c.1 - (s.frm.tick + 1)
  { s with frm := { s.frm with
      tick := c.1, tickNext := if c.2 then none else s.frm.tickNext,
      retained := s.frm.retained.map (fun r => { r with switchTick := r.switchTick + shift }),
      alignAnswers := s.frm.alignAnswers.map (fun a => { a with rootTick := a.rootTick - shift }) } }

/-- What one frame trims of a correction: at most 1 rc (R42). -/
def trimOf (left : Int) : Int := if left > 8 then 8 else if left < -8 then -8 else left

/-- A frame begins: what the trim of the one before leaves of an rc, and its own trim, taken from the correction left. -/
def State.trimFrame (s : State) : State :=
  let t := trimOf s.frm.alignLeft
  { s with frm := { s.frm with
      frac := (((s.frm.frac : Int) - s.frm.trim) % 8).toNat, trim := t, alignLeft := s.frm.alignLeft - t } }

end Sys2Proof.Machine
end

