-- ==== Sys2Proof/Machine/Commit.lean ====
section
/-! DEFINITION. The commit window and the end of a step (R235 to R238, R254 to R264): a clear attempt's exchange, the response
ladder, the late verdict, and what the tick that ends the step does. -/

namespace Sys2Proof.Machine

def State.setUpd (s : State) (f : UpdState → UpdState) : State := { s with upd := f s.upd }
def State.setFrm (s : State) (f : FrmState → FrmState) : State := { s with frm := f s.frm }

/-! ### The decision (R235, R236, R256) -/

/-- The RAS notification vector raised beside a step-fatal record: that record has raised it already where RAS_CFG says so. -/
def State.notifyBeside (s : State) : State := if s.regBit Reg.RAS_CFG 1 then s else s.notifyRas

/-- A late verdict: HOLD, and no slots from the next tick (R236, R255). -/
def State.lateVerdict (s : State) : State :=
  let s1 := ((s.stick Reg.UPD_STATUS 2).bump Reg.UPD_CNT_LATE_VERDICT 1).bump Reg.LUP_CNT_NONNUM 1
  let s2 := ((s1.stick Reg.LUP_STATUS 0).stick Reg.LUP_STATUS 3).setLup (fun l => { l with phase := .hold })
  let s3 := ((s2.say (.verdictLate s.upd.t)).raise .verdictLate ⟨11, 0⟩ 0).notifyBeside
  s3.setFrm (fun f => { f with stopNext := true })

/-- A stop (R263): no slots from the tick; FP8 fallback is reversed (R261) and the counts start anew. -/
def State.stopStep (s : State) : State :=
  let s1 := (s.fallbackReverse.bump Reg.LUP_CNT_STOP 1).stick Reg.LUP_STATUS 5
  let s2 := s1.setLup (fun l => { l with phase := .stopped, n := 0, nonnum := 0, double := false })
  let s3 := s2.setFrm (fun f => { f with stopNext := true })
  if s3.regBit Reg.LUP_CFG 2 then s3.notifyRas else s3

/-- Numeric trouble: rungs 1 and 2, and the stop of rung 3 (Table 8.4). -/
def State.numericTrouble (s : State) (rec' : List Byte) : State :=
  let n := s.lup.n + 1
  let s1 := s.bump Reg.LUP_CNT_NUMERIC 1
  if 3 ≤ n then (s1.markCauses s1.judgedCauses).stopStep
  else (s1.rungActions n rec').setLup (fun l => { l with n := n, nonnum := 0, double := n == 2 })

/-- Only non-numeric trouble: the next attempt is of the same kind, or a stop after NONNUM_MAX in a row. -/
def State.otherTrouble (s : State) : State :=
  let s1 := (s.bump Reg.LUP_CNT_NONNUM 1).setLup (fun l => { l with nonnum := l.nonnum + 1 })
  if s.regField Reg.LUP_CFG 4 7 ≤ s1.lup.nonnum then s1.stopStep else s1

/-- The rung of a history record: 0 for non-numeric trouble, else N, 3 for the stop. -/
def State.rungOf (s : State) (rec' : List Byte) : Nat := if u16At rec' 0 % 64 = 0 then 0 else Nat.min 3 (s.lup.n + 1)

/-- The ladder's answer to a troubled attempt, with its history record (R256, Table 8.10). -/
def State.troubled (s : State) (rec' : List Byte) : State :=
  let rung := s.rungOf rec'
  let s1 := s.stick Reg.LUP_STATUS 0
  let s2 := if rung = 0 then s1.otherTrouble else s1.numericTrouble rec'
  (s2.history s.upd.attempt rung rec' s.comingTick.1.toNat).putHeader s.upd.t.toNat

/-- A clear attempt (R235, R264): the step is to commit. -/
def State.cleared (s : State) : State := s.setUpd (fun u => { u with clear := true })

/-- The work of the commit window: descriptors exchanged, then the Loupe's part. DESIGN CHOICE, log entry 70: it takes effect at
the window's end, so that a step whose cores fail inside the window exchanges nothing (R25, R237). -/
def State.commitWork (s : State) : State := s.exchange.loupeClear.bump Reg.LUP_CNT_CLEAR 1

/-- Units that run no slots from a hard failure on (R511). -/
def State.unitIdle (s : State) (u : UnitId) : Bool := s.frm.idleUnits.contains u

/-- Fewer than 512 cores in service (R25). -/
def State.coresShort (s : State) : Bool :=
  (List.range 512).any (fun l => (s.physOf l).isNone || s.unitIdle (coreId l))

/-- Causes that arose after the local evaluation: FRAME where the step has become uncommittable since, and LATE where a report
came after it (R250, R251, R254). -/
def State.causesSince (s : State) : Nat := 64 * b2n s.frm.uncommittable ||| 256 * b2n s.lup.late

/-- The combined verdict with those causes: where it was clear, they are this station's. -/
def State.finalVerdict (s : State) (r : List Byte) : List Byte :=
  let c := u16At r 0 ||| s.causesSince
  if u16At r 0 = 0 ∧ c ≠ 0 then verdictRecord c (u8At r 2) (s.lnk.station.getD 0) 0xFFFF (leNat (slice r 32 128))
  else toLe 2 c ++ r.drop 2

/-- The verdict on which the step is decided, as the registers show it. -/
def State.putVerdict (s : State) (r : List Byte) (stats : List (List Byte)) : State :=
  (s.setLup (fun l => { l with verdict := some (r, stats) })).showVerdict r

/-- The commit decision at the start of the window. -/
def State.decideCommit (s : State) : State :=
  let s1 := s.mirrorLateCheck.setUpd (fun u => { u with commit := .window })
  match s1.lup.verdict with
  | none => s1.lateVerdict
  | some (r0, gs) =>
    let r := s1.finalVerdict r0
    let s2 := s1.putVerdict r gs
    if u16At r 0 = 0 then s2.cleared else s2.troubled r

/-- COMMIT_WINDOW (R235): the last W_c rc of frame F − 1. -/
def execCommitWindow (s : State) : Out :=
  .next (if s.frm.ticking && s.frm.begun && s.upd.commit == .running && s.lastFrame then
      (s.advance (s.frameLen - s.commitWin)).decideCommit
    else s)

/-! ### The tick that ends a step (R235, R237, R539) -/

/-- A step commits. -/
def State.endCommitted (s : State) (tick : Nat) : State :=
  let s1 := (s.flerraCommit tick).bump Reg.UPD_CNT_COMMITS 1
  (s1.setUpd (fun u => { u with t := u.t + 1, attempt := 0, last := 1, clear := false })).setMirror (fun m => { m with copyDone := false })

/-- A step is discarded; its frames count as lost where a step-fatal record of this device is the cause. -/
def State.endDiscarded (s : State) : State :=
  let s1 := ((s.bump Reg.UPD_CNT_DISCARDS 1).stick Reg.UPD_STATUS 6).setUpd (fun u => { u with last := 2 })
  if s.ras.ownFatalStep then
    { s1 with ras := { s1.ras with avLost := s1.ras.avLost + BitVec.ofNat 64 s1.ras.attemptFrames } }
  else s1

/-- The attempt in progress is over: its lists, marks and counts go. -/
def State.closeAttempt (s : State) : State :=
  let s1 := s.setUpd (fun u => { u with commit := .idle, lists := [] })
  let s2 := s1.setFrm (fun f =>
    { f with uncommittable := false, replayedFrame := false, double := false, pairBase := 0, blocked := false })
  { s2 with ras := { s2.ras with attemptFrames := 0, ownFatalStep := false } }

/-- The step ends at the tick with the given number; a decision that no COMMIT_WINDOW has taken is taken first. With fewer than
512 cores in service nothing commits (R25). -/
def State.endStep (s : State) (tick : Nat) : State :=
  let s1 := if s.upd.commit == .running then s.decideCommit else s
  if s1.upd.commit == .idle then s1.closeAttempt
  else (if s1.upd.clear && !s1.coresShort then s1.commitWork.endCommitted tick else s1.endDiscarded).closeAttempt

/-- An attempt given up at a rollback (R69): discarded, with N zero and no history record (R265). -/
def State.abandonAttempt (s : State) : State :=
  let s1 := if s.upd.commit == .idle then s else s.endDiscarded
  let s2 := s1.closeAttempt.setLup (fun l => { l with n := 0, nonnum := 0, double := false })
  s2.setUpd (fun u => { u with attempt := 0, clear := false })

end Sys2Proof.Machine
end

