-- ==== Sys2Proof/Machine/Hbm.lean ====
section
/-! DEFINITION. The memory stacks (R343 to R358): reads and writes at a stack's controller, the symbol code with marks and
thresholds, scrub, repair steps, thermal states, and the commands of Table 11.10. -/

namespace Sys2Proof.Machine

/-! ### Code words and channels -/

/-- Channel 0 to 255 of a place. -/
def Place.chan (p : Place) : Nat := p.stack * 32 + p.channel

/-- Place of a code word. -/
def State.wordPlace (s : State) (w : Nat) : Place := s.place (w * 64)

def State.putChan (s : State) (c : Nat) (x : Channel) : State :=
  { s with hbm := { s.hbm with channels := tset s.hbm.channels c x } }

/-! ### The symbol code (R347) -/

/-- Low coefficients of the field polynomial x^8 + x^4 + x^3 + x^2 + 1. -/
def rsPoly : Byte := 0x1D

/-- A power of α = 0x02. -/
def rsAlpha (i : Nat) : Byte := gfPow rsPoly 2 i

/-- The generator, the product of (x - α^i) for i = 0 to 7: its coefficients from x^8 down. -/
def rsGenerator : List Byte :=
  (List.range 8).foldl (fun g i => xorBytes (g ++ [0]) (0 :: g.map (gfMul rsPoly (rsAlpha i)))) [1]

/-- The eight check symbols of 64 data bytes: the remainder of the data by the generator, the first data byte its highest
coefficient (DESIGN CHOICE, log entry 77). -/
def rsCheck (data : List Byte) : List Byte :=
  data.foldl (fun (r : List Byte) b =>
    let f := b ^^^ byteAt r 0
    xorBytes (r.drop 1 ++ [0]) ((rsGenerator.drop 1).map (gfMul rsPoly f))) (List.replicate 8 0)

/-- The 72 symbols of a code word: data byte j is symbol j, and symbols 64 to 71 are the check symbols. -/
def rsWord (data : List Byte) : List Byte := data ++ rsCheck data

/-- The bit that a lane carries at a beat of the burst: symbol j goes by lane j, beat b as its bit b. -/
def laneBit (symbols : List Byte) (lane beat : Nat) : Bool := (byteAt symbols lane).getLsbD beat

/-- The values of a word's polynomial at the roots of the generator: all zero for a code word. -/
def rsSyndromes (symbols : List Byte) : List Byte :=
  (List.range 8).map (fun i => symbols.foldl (fun (v : Byte) b => gfMul rsPoly v (rsAlpha i) ^^^ b) 0)

/-- The symbols of a poison word: the data of zero with every check symbol inverted (R349). -/
def poisonSymbols : List Byte := List.replicate 64 0 ++ (rsCheck (List.replicate 64 0)).map (fun b => ~~~ b)

/-- The symbols that the DRAM holds for a code word. -/
def State.storedSymbols (s : State) (w : Nat) : List Byte :=
  if s.hbm.poison.contains w then poisonSymbols else rsWord ((List.range 64).map (fun i => mread s.mem (w * 64 + i)))

/-! ### Marks -/

/-- Marks of a channel that apply to a bank (R350). -/
def Channel.marksOn (c : Channel) (bank : Nat) : List Mark := c.marks.filter (fun m => m.bank == none || m.bank == some bank)

/-- A lane has a mark that applies to a bank. -/
def Channel.erased (c : Channel) (bank lane : Nat) : Bool := (c.marksOn bank).any (fun m => m.lane == lane)

/-- Symbols in error on lanes that no mark erases. -/
def Channel.errors (c : Channel) (bank : Nat) (lanes : List Nat) : List Nat :=
  (lanes.filter (fun l => decide (l < 72) && !c.erased bank l)).eraseDups

/-- The decoder's reach: 2t + e at most 8 (R348). -/
def Channel.corrects (c : Channel) (bank : Nat) (lanes : List Nat) : Bool :=
  decide (2 * (c.errors bank lanes).length + (c.marksOn bank).length ≤ 8)

/-! ### Marks and queued repairs (Table 11.6) -/

/-- Whether two repairs name one place. -/
def Repair.same (a b : Repair) : Bool :=
  a.lane == b.lane && a.channel == b.channel && (if a.lane then a.laneNo == b.laneNo else a.bank == b.bank && a.row == b.row)

/-- A repair queued by a threshold, where AUTO_REPAIR is set and it is not there already (R355). -/
def State.queueRepair (s : State) (lane : Bool) (channel bank row laneNo : Nat) : State :=
  let r : Repair := { lane := lane, channel := channel, bank := bank, row := row, laneNo := laneNo, id := s.hbm.nextRepair }
  let there := (s.hbm.queue ++ s.hbm.current.toList).any (fun x => x.same r)
  if !s.regBit Reg.HBM_CFG 1 || there then s
  else { s with hbm := { s.hbm with queue := s.hbm.queue ++ [r], nextRepair := (s.hbm.nextRepair + 1) % 2 ^ 32 } }

/-- A mark fits: at most 4 in the channel, and at most 2 on any bank (R350). -/
def marksFit (ms : List Mark) : Bool :=
  decide (ms.length ≤ 4) && (List.range 64).all (fun b =>
    decide ((ms.filter (fun m => m.bank == none || m.bank == some b)).length ≤ 2))

/-- A mark added; a lane's bank marks are permanent and stay beside its all-bank mark (Table 11.6). One that would break the limits
makes the channel DEGRADED (R350). -/
def State.addMark (s : State) (ch w : Nat) (m : Mark) : State :=
  let c := s.chan ch
  let ms := (if c.marks.contains m then c.marks else c.marks ++ [m])
  if marksFit ms then
    let s1 := if s.regBit Reg.HBM_CFG 16 && !s.regBit Reg.HBM_STATUS 3 then s.notifyRas else s
    let s2 := (s1.putChan ch { c with marks := ms }).stick Reg.HBM_STATUS 3
    if m.bank.isNone then s2.queueRepair true ch 0 0 m.lane else s2
  else if c.degraded then s
  else ((s.putChan ch { c with degraded := true }).stick Reg.HBM_STATUS 4).raise .hbmDegraded ⟨5, ch⟩ (ownAddr (w * 64))

/-- An observation: lane, bank, row, code word, time. -/
abbrev Seen := Nat × Nat × Nat × Nat × Nat

/-- The lane threshold: 16 corrected code words on one lane within 2^20 rc. -/
def State.laneThreshold (s : State) (ch w lane : Nat) : State :=
  let c := s.chan ch
  let es := c.seen.filter (fun (e : Seen) => e.1 == lane)
  if es.length < 16 then s
  else
    let banks := (es.map (fun (e : Seen) => e.2.1)).eraseDups
    let s1 := s.putChan ch { c with seen := c.seen.filter (fun (e : Seen) => e.1 != lane) }
    s1.addMark ch w { lane := lane, bank := if 2 ≤ banks.length then none else banks.head? }

/-- The row threshold: 4 distinct corrected code words of one row, on unmarked lanes, within 2^20 rc. -/
def State.rowThreshold (s : State) (ch bank row : Nat) : State :=
  let es := (s.chan ch).seen.filter (fun (e : Seen) => e.2.1 == bank && e.2.2.1 == row)
  if 4 ≤ ((es.map (fun (e : Seen) => e.2.2.2.1)).eraseDups).length then s.queueRepair false ch bank row 0 else s

/-- A corrected code word: counted, and its lanes observed (Table 11.6). -/
def State.corrected (s : State) (w : Nat) (lanes : List Nat) : State :=
  if lanes.isEmpty then s
  else
    let p := s.wordPlace w
    let c := s.chan p.chan
    let bad := c.errors p.bank lanes
    let old := c.seen.filter (fun (e : Seen) => decide (s.rc ≤ e.2.2.2.2 + 2 ^ 20))
    let new := bad.map (fun l => ((l, p.bank, p.row, w, s.rc) : Seen))
    let s1 := ((s.bump Reg.HBM_CNT_CE 1).stick Reg.HBM_STATUS 0).putChan p.chan { c with seen := old ++ new }
    (bad.foldl (fun (s : State) l => s.laneThreshold p.chan w l) s1).rowThreshold p.chan p.bank p.row

/-- A burst and, where the decoder cannot correct it, its retry (R349): the state, and whether the word was read. -/
def State.decodeWord (s : State) (w : Nat) (first retry : List Nat) : State × Bool :=
  let p := s.wordPlace w
  let c := s.chan p.chan
  if c.corrects p.bank first then (s.corrected w first, true)
  else if c.corrects p.bank retry then ((s.bump Reg.HBM_CNT_RETRY_OK 1).corrected w retry, true)
  else (((s.bump Reg.HBM_CNT_UE 1).stick Reg.HBM_STATUS 1).queueRepair false p.chan p.bank p.row 0, false)

/-! ### Reads and writes at the controller -/

/-- The buffer's line of a code word. -/
def State.lineOf (s : State) (w : Nat) : Option WcbLine := s.hbm.wcb.find? (fun l => l.word == w)

/-- A stack that has stopped (Table 11.7). -/
def State.stackStopped (s : State) (w : Nat) : Bool := decide ((s.stack (s.wordPlace w).stack).state = .critical)

/-- One code word read: forwarded from a full line, else decoded, and merged with a partial line (R344); true where it is
delivered poisoned. -/
def State.readWord (s : State) (w : Nat) (first retry : List Nat) : State × Bool :=
  if s.stackStopped w then (s.deliverPoison 1, true)
  else
    let line := s.lineOf w
    let s1 := if line.isSome then s.bump Reg.HBM_CNT_WCB_FWD 1 else s
    if (line.map (fun l => l.mask == BitVec.allOnes 64)).getD false then (s1, false)
    else if s1.hbm.poison.contains w then (s1.deliverPoison 1, true)
    else
      let r := s1.decodeWord w first retry
      if r.2 then (r.1, false) else (r.1.deliverPoison 1, true)

/-- The words of a read in order, with the symbol errors that the environment supplies for some of them. -/
def State.readWords (s : State) (base : Nat) (faults : List ReadFault) : List Nat → State × Bool
  | [] => (s, false)
  | w :: ws =>
    let f := faults.find? (fun f => f.word.toNat == w - base)
    let x := s.readWord w ((f.map (fun f => f.first.map (·.toNat))).getD []) ((f.map (fun f => f.retry.map (·.toNat))).getD [])
    let r := x.1.readWords base faults ws
    (r.1, x.2 || r.2)

/-- HBM_READ (R344, R347 to R349): a poisoned word fails the reading slot's attempt; an address refused fails the slot (R331). -/
def execHbmRead (unit : BitVec 16) (addr : BitVec 39) (len : BitVec 16) (faults : List ReadFault) (s : State) : Out :=
  let a := addr.toNat
  let u := unitOf unit
  .next (if !s.accessOk (ownAddr a) len.toNat false then (s.addrFault u (ownAddr a)).failRun ((s.runOf u).map (fun x => x.ref))
    else
      let r := s.readWords (a / 64) faults (wordsOf a len.toNat)
      if r.2 then r.1.faultRun ((s.runOf u).map (fun x => x.ref)) else r.1)

/-- HBM_WRITE (R343): merged into the buffer or written; a stopped stack takes no write, and its writer's slot fails. -/
def execHbmWrite (unit : BitVec 16) (addr : BitVec 39) (data : List Byte) (s : State) : Out :=
  let a := addr.toNat
  let u := unitOf unit
  .next (if !s.accessOk (ownAddr a) data.length true then (s.addrFault u (ownAddr a)).failRun ((s.runOf u).map (fun x => x.ref))
    else if (wordsOf a data.length).any s.stackStopped then s.faultRun ((s.runOf u).map (fun x => x.ref))
    else s.store (ownAddr a) data)

/-- A word written back as a poison word: its data zero, but for the bytes that the buffer holds (R349). -/
def State.poisonWord (s : State) (w : Nat) : State :=
  let m := ((s.lineOf w).map (fun (l : WcbLine) => l.mask)).getD 0
  let bs := (List.range 64).map (fun i => if m.getLsbD i then mread s.mem (w * 64 + i) else 0)
  { s with mem := mwrites s.mem (w * 64) bs, hbm := { s.hbm with poison := w :: s.hbm.poison } }

/-- A line written back: the read of a partial one's word is decoded, and one that fails becomes a poison word (R349). Only
this row supplies the symbol errors of such a read (log entry 76). -/
def State.writeBack (s : State) (l : WcbLine) (first retry : List Nat) : State :=
  if l.mask = BitVec.allOnes 64 ∨ s.stackStopped l.word ∨ s.hbm.poison.contains l.word then s.drainLine l.word
  else
    let r := s.decodeWord l.word first retry
    if r.2 then r.1.drainLine l.word else (r.1.drainLine l.word).poisonWord l.word

/-- WCB_WRITEBACK (R345): at the second tick after the line was last written. -/
def execWcbWriteback (word : WordRead) (s : State) : Out :=
  .next (match s.lineOf word.word.toNat with
    | some l =>
      if l.tick.toNat + 2 ≤ s.frm.tick.toNat then s.writeBack l (word.first.map (·.toNat)) (word.retry.map (·.toNat)) else s
    | none => s)

/-- PATROL_SCRUB (R349): a corrected word is written back, an uncorrectable one becomes a poison word. A poison word stays
one, and a full line's data does not come from the DRAM. -/
def execPatrolScrub (word : BitVec 33) (first retry : List (BitVec 7)) (s : State) : Out :=
  let w := word.toNat
  .next (if !s.regBit Reg.HBM_CFG 0 || s.phys.idling || s.stackStopped w || s.hbm.poison.contains w then s
    else
      let r := s.decodeWord w (first.map (·.toNat)) (retry.map (·.toNat))
      let full := ((s.lineOf w).map (fun (l : WcbLine) => l.mask == BitVec.allOnes 64)).getD false
      if r.2 || full then r.1 else r.1.poisonWord w)

/-! ### Repair steps (R353 to R355) -/

/-- A free spare lane of a channel takes over a lane, whose all-bank mark goes. -/
def Channel.repairLane (c : Channel) (lane : Nat) : Option Channel :=
  let ms := c.marks.filter (fun m => !(m.lane == lane && m.bank == none))
  if c.spare0 = 0xFF then some { c with spare0 := lane, marks := ms }
  else if c.spare1 = 0xFF then some { c with spare1 := lane, marks := ms } else none

/-- A spare row of a bank used. -/
def Channel.repairRow (c : Channel) (bank row : Nat) : Option Channel :=
  if 2 ≤ tget 0 c.rowsUsed bank then none
  else some { c with rowsUsed := tmod 0 c.rowsUsed bank (· + 1),
                     seen := c.seen.filter (fun (e : Seen) => !(e.2.1 == bank && e.2.2.1 == row)) }

/-- The channel after a repair, if it finds a spare. -/
def State.repaired (s : State) (r : Repair) : Option Channel :=
  if r.lane then (s.chan r.channel).repairLane r.laneNo else (s.chan r.channel).repairRow r.bank r.row

/-- Buffered words of a channel, or of one of its rows. -/
def State.linesOn (s : State) (ch : Nat) (row : Option (Nat × Nat)) : List Nat :=
  (s.hbm.wcb.filter (fun l =>
    let p := s.wordPlace l.word
    p.chan == ch && (match row with
      | some (b, r) => p.bank == b && p.row == r
      | none => true))).map (fun l => l.word)

/-- Guard band of the current mode in rc, without a stretch (R38). -/
def State.guardRc (s : State) : Nat := s.frm.guard * 2 ^ s.frm.lenExp / 64

/-- A repair step may run (R354): at a tick, every stack NORMAL, a guard band of at least 256 rc, and 16 frames since the
last step. -/
def State.mayRepair (s : State) : Bool :=
  s.frm.phase == 0 && (List.range 8).all (fun i => decide ((s.stack i).state = .normal)) && decide (256 ≤ s.guardRc)
    && (match s.hbm.lastRepairTick with
      | some t => decide (t.toNat + 16 ≤ s.frm.tick.toNat)
      | none => true)

/-- The repair that is next: a requested one, else the head of the queue. -/
def State.nextStep (s : State) : Option Repair :=
  match s.hbm.current with
  | some r => some r
  | none => s.hbm.queue.head?

/-- A repair taken off the queue, or no longer in progress. -/
def State.dropRepair (s : State) (r : Repair) : State :=
  { s with hbm := { s.hbm with
      current := if s.hbm.current = some r then none else s.hbm.current, queue := s.hbm.queue.filter (fun x => x != r) } }

/-- Whether a long operation is the repair `id`. -/
def LongOp.isRepair (o : LongOp) (id : Nat) : Bool :=
  match o with
  | .repair i => i == id
  | _ => false

/-- Position 1 of 1 for the requested repair's progress record. -/
def State.stepCounted (s : State) (r : Repair) : State :=
  { s with host := { s.host with records := s.host.records.map (fun e =>
      if e.2.running && e.2.op.isRepair r.id then (e.1, { e.2 with position := 1 }) else e) } }

/-- A repair step done: the lines of its row or channel flushed, the channel repaired and recorded in the saved training
settings (R345, R353, R355). -/
def State.repairStep (s : State) (r : Repair) (c : Channel) (pause : Nat) : State :=
  let s1 := s.drainLines (s.linesOn r.channel none)
  let s2 := ((s1.putChan r.channel c).dropRepair r).stepCounted r
  let s3 := ((s2.bump Reg.HBM_CNT_REPAIR 1).bump Reg.HBM_CNT_PAUSE_RC pause).stick Reg.HBM_STATUS 5
  { s3 with hbm := { s3.hbm with lastRepairTick := some s.frm.tick }, boot := { s3.boot with softRepairs := s3.boot.softRepairs ++ [r] } }

/-- REPAIR_STEP (R353): a pause of at most 48 rc. A repair that finds no spare is refused with NO_SPARE. -/
def execRepairStep (pause : BitVec 6) (s : State) : Out :=
  .next (match s.nextStep with
    | none => s
    | some r =>
      if !s.mayRepair || decide (48 < pause.toNat) then s
      else match s.repaired r with
        | some c => s.repairStep r c pause.toNat
        | none =>
          let s1 := (s.dropRepair r).stick Reg.HBM_STATUS 6
          match s.host.records.find? (fun e => e.2.running && e.2.op.isRepair r.id) with
          | some e => s1.finishRecord e.1 .noSpare
          | none => s1)

/-! ### Thermal states (R351, R352) -/

def State.putStack (s : State) (i : Nat) (x : StackTherm) : State :=
  { s with hbm := { s.hbm with therms := tset s.hbm.therms i x } }

/-- A stack enters a state (Table 11.7). -/
def State.stackEnter (s : State) (i : Nat) (t : Therm) : State :=
  match t with
  | .normal => s
  | .warning => s.stick Reg.HBM_STATUS 7
  | .throttle =>
    let s1 := s.stick Reg.HBM_STATUS 8
    { s1 with frm := { s1.frm with throttled := if s1.frm.throttled.contains i then s1.frm.throttled
                                                else s1.frm.throttled ++ [i] } }
  | .critical =>
    let s1 := s.stick Reg.HBM_STATUS 9
    ({ s1 with hbm := { s1.hbm with wcb := s1.hbm.wcb.filter (fun l => (s.wordPlace l.word).stack != i) },
               phys := { s1.phys with coolStacks := i :: s1.phys.coolStacks } }).raise .stackCritical ⟨4, i⟩ 0

/-- STACK_SAMPLE (R351, R352): a sample ends a hold; a hotter state is entered at once; the samples below the exit
threshold are counted. -/
def execStackSample (stack : Fin 8) (temp : BitVec 8) (s : State) : Out :=
  let i := stack.val
  let x := s.stack i
  let v := temp.toNat
  let t := x.state.max (s.entryState v)
  let below := if v < s.exitBelow t then (if t = x.state then x.below + 1 else 1) else 0
  let s1 := s.putStack i { x with temp := v, peak := Nat.max x.peak v, state := t, below := below, missed := 0, held := false }
  .next (if x.state.code < t.code then s1.stackEnter i t else s1)

/-- STACK_STATE_EXIT (R351): one state down after 65 samples below the exit threshold; a step down from THROTTLE enters
WARNING. -/
def execStackStateExit (stack : Fin 8) (s : State) : Out :=
  let i := stack.val
  let x := s.stack i
  let d := x.state.down
  .next (if (x.state = .warning ∨ x.state = .throttle) ∧ !x.held ∧ 65 ≤ x.below then
      let s1 := s.putStack i { x with state := d, below := if x.temp < s.exitBelow d then 1 else 0 }
      (s1.stackEnter i d).noteCooled i x.state
    else s)

/-- STACK_SENSOR_FAIL (R352): four missed samples hold the stack in THROTTLE. -/
def execStackSensorFail (stack : Fin 8) (s : State) : Out :=
  let i := stack.val
  let x := s.stack i
  let t := x.state.max .throttle
  let s1 := s.putStack i { x with state := t, below := 0, missed := 4, held := true }
  let s2 := (s1.stick Reg.HBM_STATUS 10).raise .sensorFail ⟨4, i⟩ 0
  .next (if x.held then s else if x.state.code < t.code then s2.stackEnter i t else s2)

/-! ### Commands (Table 11.10) -/

/-- MEM_LAYOUT (R335): in epoch 0, a long operation over all local HBM. -/
def execMemLayout (m : BitVec 6) (s : State) : Out :=
  .next (s.welfy 0x0401 m fun ps s =>
    if 64 < u8At ps 0 then s.bad 0
    else if s.frm.epoch ≠ 0 then s.no .runLock
    else s.startLong 0x0401 m.toNat (2 ^ 39) (.layout (u8At ps 0)))

/-- MEM_FLUSH (R358). -/
def execMemFlush (m : BitVec 6) (s : State) : Out :=
  .next (s.welfy 0x0402 m fun ps s =>
    let ws := (s.hbm.wcb.filter (fun l => bit (u8At ps 0) (s.wordPlace l.word).stack)).map (fun l => l.word)
    (s.drainLines ws).ok (toLe 4 ws.length))

/-- MEM_ADDR_DECODE (R333). -/
def execMemAddrDecode (m : BitVec 6) (s : State) : Out :=
  .next (s.welfy 0x0403 m fun ps s =>
    s.ok (match s.region (u64At ps 0) with
      | .hbm off =>
        let p := s.place off
        toLe 1 (b2n (!p.interleaved)) ++ toLe 1 p.stack ++ toLe 1 p.channel ++ toLe 1 p.word ++ toLe 1 p.granule
          ++ toLe 1 p.bank ++ toLe 2 p.row
      | .core _ _ => 2 :: List.replicate 7 0
      | _ => 3 :: List.replicate 7 0))

def memCounters : List Nat :=
  [Reg.HBM_CNT_CE, Reg.HBM_CNT_UE, Reg.HBM_CNT_RETRY_OK, Reg.HBM_CNT_POISON_RD, Reg.HBM_CNT_WCB_FWD, Reg.HBM_CNT_WCB_RMW,
   Reg.HBM_CNT_RFM, Reg.HBM_CNT_THROTTLE_FR, Reg.HBM_CNT_REPAIR, Reg.HBM_CNT_PAUSE_RC, Reg.MEM_CNT_CS_CE,
   Reg.MEM_CNT_CS_UE, Reg.MEM_CNT_DMA_DESC, Reg.MEM_CNT_ADDR_INVALID]

/-- MEM_COUNTERS: clearing also clears the peaks (HBM_THERM.PEAK). -/
def execMemCounters (m : BitVec 6) (s : State) : Out :=
  .next (s.welfy 0x0404 m fun ps s =>
    let c := bit (u8At ps 0) 0
    let r := s.countersReply memCounters c
    if c then
      { r with st := { r.st with hbm := { r.st.hbm with therms := r.st.hbm.therms.map (fun e => (e.1, { e.2 with peak := 0 })) } } }
    else r)

/-- HBM_THERMAL_QUERY (R351). -/
def execHbmThermalQuery (m : BitVec 6) (s : State) : Out :=
  .next (s.welfy 0x0405 m fun _ s =>
    s.ok ((List.range 8).map (fun i => BitVec.ofNat 8 (s.stack i).temp)
      ++ (List.range 8).map (fun i => BitVec.ofNat 8 (s.stack i).peak) ++ toLe 2 s.thermAll.toNat))

/-- HBM_REPAIR (R357): a requested repair is in progress until its step has run. -/
def execHbmRepair (m : BitVec 6) (s : State) : Out :=
  .next (s.welfy 0x0406 m fun ps s =>
    let r : Repair :=
      { lane := u8At ps 0 == 1, channel := u8At ps 1, bank := u8At ps 2, row := u16At ps 4, laneNo := u8At ps 3,
        id := s.hbm.nextRepair }
    if 1 < u8At ps 0 then s.bad 0
    else if 63 < r.bank then s.bad 2
    else if 71 < r.laneNo then s.bad 3
    else if 16383 < r.row then s.bad 4
    else if s.hbm.current.isSome then s.no .repairBusy
    else if (s.repaired r).isNone then (s.stick Reg.HBM_STATUS 6).no .noSpare
    else
      let x := s.startLong 0x0406 m.toNat 1 (.repair r.id)
      if x.status = .opStarted then
        { x with
            data := toLe 4 r.id,
            st := { x.st with hbm := { x.st.hbm with current := some r, nextRepair := (r.id + 1) % 2 ^ 32 } } }
      else x)

/-- HBM_REPAIR_QUERY (R353). -/
def execHbmRepairQuery (m : BitVec 6) (s : State) : Out :=
  .next (s.welfy 0x0407 m fun ps s =>
    let ch := u8At ps 0
    let c := s.chan ch
    let n := ((s.hbm.queue ++ s.hbm.current.toList).filter (fun r => r.channel == ch)).length
    s.ok (toLe 4 c.laneMap.toNat ++ (List.range 4).flatMap (fun i => toLe 4 (c.erase i).toNat) ++ toLe 4 c.pprFree.toNat
      ++ toLe 1 n))

/-- Stations that the fabric manager has enumerated, as this device knows them: one for a device without a number, else
those of its peer map with itself (log entry 26). -/
def State.stationCount (s : State) : Nat :=
  match s.lnk.station with
  | none => 1
  | some n => ((List.range 65536).filter (fun i => s.lnk.peers.getLsbD i || i == n)).length

/-- The cells of a channel zeroed. -/
def State.zeroChannel (s : State) (ch : Nat) : State :=
  let on := fun (off : Nat) => decide (off < 2 ^ 39) && (s.place off).chan == ch
  { s with mem := s.mem.filter (fun c => !on c.1), hbm := { s.hbm with poison := s.hbm.poison.filter (fun w => !on (w * 64)) } }

/-- The lane with the smallest timing margin, the lowest on a tie. -/
def worstLane (ms : List (BitVec 8 × BitVec 16)) : Nat :=
  (List.range 74).foldl (fun b i =>
    if ((ms.getD i (0, 0)).1).toNat < ((ms.getD b (0, 0)).1).toNat then i else b) 0

/-- A lane's margins as the response and the result area give them. -/
def marginBytes (ms : List (BitVec 8 × BitVec 16)) (i : Nat) : List Byte :=
  [BitVec.ofNat 8 i, (ms.getD i (0, 0)).1] ++ toLe 2 ((ms.getD i (0, 0)).2).toNat

/-- HBM_MARGIN (R356): the margins are what the sweep found; the channel is left zero. -/
def execHbmMargin (m : BitVec 6) (margins : List (BitVec 8 × BitVec 16)) (s : State) : Out :=
  .next (s.welfy 0x0408 m fun ps s =>
    let ch := u8At ps 0
    let dst := u64At ps 8
    if s.frm.epoch ≠ 0 ∨ 8 < s.stationCount then s.no .runLock
    else if !(s.isHbm dst && s.paramOk dst 296 true) then s.no .addrInvalid
    else if (wordsOf (dst % 2 ^ 48) 296).any (fun w => (s.wordPlace w).stack == ch / 32) then s.bad 8
    else
      let s1 := (s.drainLines (s.linesOn ch none)).zeroChannel ch
      (s1.store dst ((List.range 74).flatMap (marginBytes margins))).ok (marginBytes margins (worstLane margins)))

end Sys2Proof.Machine
end

