-- ==== Sys2Proof/Machine/Dma.lean ====
section
/-! DEFINITION. DMA chains (R337 to R340): COPY, FILL and FENCE, descriptor by descriptor. -/

namespace Sys2Proof.Machine

/-! ### Descriptors (Table 11.3) -/

/-- A DMA descriptor as read. -/
structure Dma where
  addr : Nat
  raw : List Byte
  deriving DecidableEq, Repr

namespace Dma

def op (d : Dma) : Nat := u8At d.raw 0
def last (d : Dma) : Bool := bit (u8At d.raw 1) 0
def rows (d : Dma) : Nat := u32At d.raw 4
def src (d : Dma) : Nat := u64At d.raw 8
def dst (d : Dma) : Nat := u64At d.raw 16
def len (d : Dma) : Nat := u32At d.raw 24
def srcStride (d : Dma) : Int := s64At d.raw 32
def dstStride (d : Dma) : Int := s64At d.raw 40
def fill (d : Dma) : List Byte := slice d.raw 48 8

/-- Zero reserved fields, a defined OP and counts in range, a FENCE's too (R340). -/
def ok (d : Dma) : Bool :=
  d.addr % 64 == 0 && decide (1 ≤ d.op) && decide (d.op ≤ 3) && decide (u8At d.raw 1 < 2) && zeroBytes d.raw 2 2
    && zeroBytes d.raw 28 4 && zeroBytes d.raw 56 8
    && decide (1 ≤ d.rows) && decide (d.rows ≤ 2 ^ 24) && decide (1 ≤ d.len) && decide (d.len ≤ 2 ^ 30)

/-- Address of row `r` from a base and a stride, modulo 2^64. -/
def rowAddr (base : Nat) (stride : Int) (r : Nat) : Nat := ofInt 64 ((base : Int) + stride * r)

def srcRow (d : Dma) (r : Nat) : Nat := rowAddr d.src d.srcStride r
def dstRow (d : Dma) (r : Nat) : Nat := rowAddr d.dst d.dstStride r

/-- Byte ranges that the descriptor reads and writes. -/
def access (d : Dma) : List (Nat × Nat × Bool) :=
  (List.range d.rows).flatMap (fun r =>
    (if d.op = 1 then [(d.srcRow r, d.len, false)] else []) ++ [(d.dstRow r, d.len, true)])

/-- The pattern repeated from the destination's first byte: each row goes on where the one before it ended (DEDUCED, log
entry 27). -/
def pattern (d : Dma) (r : Nat) : List Byte := (List.range d.len).map (fun i => byteAt d.fill ((r * d.len + i) % 8))

end Dma

/-! ### Running a descriptor -/

/-- A descriptor completed in its chain: counted, with the ranges it wrote. -/
def State.dmaDone (s : State) (ref : SlotRef) (d : Dma) : State :=
  let ws := if d.op = 3 then [] else (List.range d.rows).map (fun r => (d.dstRow r, d.len))
  (s.bump Reg.MEM_CNT_DMA_DESC 1).setRun ref (fun r =>
    { r with steps := r.steps + 1, last := r.last || d.last, wrote := r.wrote ++ ws })

/-- A COPY, row by row. -/
def State.dmaCopy (s : State) (ref : SlotRef) (d : Dma) : State :=
  (List.range d.rows).foldl (fun (s : State) r => s.copyBytes (.slot ref) (d.srcRow r) (d.dstRow r) d.len) s

/-- A FILL, row by row. -/
def State.dmaFill (s : State) (ref : SlotRef) (d : Dma) : State :=
  (List.range d.rows).foldl (fun (s : State) r => s.putOut (.slot ref) (d.dstRow r) (d.pattern r)) s

/-- The lines that a chain's writes touched are written to the DRAM (R338, R345). -/
def State.dmaFlush (s : State) (r : SlotRun) : State :=
  let ws := r.wrote.flatMap (fun w => match s.region w.1 with
    | .hbm off => wordsOf off w.2
    | _ => [])
  s.drainLines ((s.hbm.wcb.filter (fun l => ws.contains l.word)).map (fun l => l.word))

/-- A refused descriptor (R340): the chain stops there, and the earlier writes stand. -/
def State.refuseDma (s : State) (u : UnitId) (ref : SlotRef) : State := (s.stick Reg.MEM_STATUS 3).refuseRun u (some ref) .descInvalid

/-- The descriptor that a chain starts next, where the slot of an engine runs that chain (R337, R338). -/
def State.chainAt (s : State) (engine : BitVec 9) (desc : Nat) : Option SlotRun :=
  match s.runOf ⟨2, engine.toNat⟩ with
  | some r => if !r.last && decide (r.steps < 4096) && desc == s.slotAddr r.ref + 64 * r.steps then some r else none
  | none => none

/-- A descriptor of a chain, on its row: `op` is the row's OP, and a descriptor with another row's OP is not this command's
(log entry 6). The 4,096th descriptor must be the last. -/
def State.dmaStep (s : State) (engine : BitVec 9) (desc op : Nat) (work : SlotRun → Dma → State → State) : State :=
  match s.chainAt engine desc with
  | none => s
  | some r =>
    let u : UnitId := ⟨2, engine.toNat⟩
    s.guarded u (some r.ref) [(desc, 64, false)] (fun s =>
      let d : Dma := ⟨desc, s.load desc 64⟩
      if d.op != op && decide (1 ≤ d.op) && decide (d.op ≤ 3) then s
      else if !d.ok || (!d.last && r.steps == 4095) then s.refuseDma u r.ref
      else s.guarded u (some r.ref) (if d.op = 3 then [] else d.access) (fun s => work r d s))

/-- COPY (R337). -/
def execCopy (engine : BitVec 9) (desc : BitVec 64) (s : State) : Out :=
  .next (s.dmaStep engine desc.toNat 1 (fun r d s => (s.dmaCopy r.ref d).dmaDone r.ref d))

/-- FILL (R337). -/
def execFill (engine : BitVec 9) (desc : BitVec 64) (s : State) : Out :=
  .next (s.dmaStep engine desc.toNat 2 (fun r d s => (s.dmaFill r.ref d).dmaDone r.ref d))

/-- FENCE (R338): once every earlier write of the chain is acknowledged, its lines are flushed. -/
def execFence (engine : BitVec 9) (desc : BitVec 64) (s : State) : Out :=
  .next (s.dmaStep engine desc.toNat 3 (fun r d s =>
    if s.slotWaits r.ref then s else (s.dmaFlush r).dmaDone r.ref d))

end Sys2Proof.Machine
end

