-- ==== Sys2Proof/Machine/Stash.lean ====
section
/-! DEFINITION. The stash manager and the generator's commands (chapter 9): stash descriptors and their checks, placement
at each tick, off-load, recompute, far-stash windows and the commands of Table 9.5. -/

namespace Sys2Proof.Machine

/-! ### Stash descriptor and groups (Tables 9.1 and 9.2) -/

/-- The stash descriptor in force, zeros while UNCONFIGURED. -/
def State.stash (s : State) : List Byte := s.sts.desc.getD []

def ringAddr (d : List Byte) : Nat := u64At d 8
def ringSize (d : List Byte) : Nat := u64At d 16
def recompAddr (d : List Byte) : Nat := u64At d 24
def recompSize (d : List Byte) : Nat := u64At d 32
def targetAddr (d : List Byte) : Nat := u64At d 40
def targetSize (d : List Byte) : Nat := u64At d 48
def stashProg (d : List Byte) : Nat := u32At d 64

namespace StashGroup

def layer (g : StashGroup) : Nat := u16At g.raw 0
def planned (g : StashGroup) : Nat := u8At g.raw 2
def entries (g : StashGroup) : Nat := u8At g.raw 3
def writeFirst (g : StashGroup) : Nat := u32At g.raw 4
def writeLast (g : StashGroup) : Nat := u32At g.raw 8
def rerunFrame (g : StashGroup) : Nat := u32At g.raw 12
def releaseFrame (g : StashGroup) : Nat := u32At g.raw 16
def rerunAddr (g : StashGroup) : Nat := u64At g.raw 24
def desc (g : StashGroup) (i : Nat) : Nat := u64At g.raw (64 + 8 * i)

/-- The descriptors of entries 1 onward. -/
def derived (g : StashGroup) : List Nat := (List.range (g.entries - 1)).map (fun i => g.desc (i + 1))

/-- A group at the beginning of an attempt. -/
def fresh (g : StashGroup) : StashGroup :=
  { raw := g.raw, phase := .unplaced, recomp := false, addr := 0, size := 0, taddr := 0, inRing := false,
    inTarget := false, done := false }

/-- A group as its entry gives it. -/
def ofBytes (b : List Byte) : StashGroup :=
  { raw := b, phase := .unplaced, recomp := false, addr := 0, size := 0, taddr := 0, inRing := false,
    inTarget := false, done := false }

end StashGroup

/-! ### Sizes (R271) -/

/-- Size of an entry: its planes, each rounded up to 4 KiB. -/
def TDesc.stashSize (d : TDesc) : Nat := sumNat (d.planeSizes.map (fun n => roundUp n 4096))

/-- An entry with byte `i` of its descriptor replaced. -/
def TDesc.setByte (d : TDesc) (i v : Nat) : TDesc := { d with raw := slice d.raw 0 i ++ [BitVec.ofNat 8 v] ++ slice d.raw (i + 1) (63 - i) }

/-- Worst-case size of an entry. -/
def TDesc.stashWorst (d : TDesc) : Nat :=
  let own := if d.outliers || d.fallback then (d.setByte 60 0x42).stashSize else d.stashSize
  Nat.max own ((d.setByte 4 3).setByte 5 (d.flags - d.flags / 2 % 8 * 2)).stashSize

def State.groupSize (s : State) (g : StashGroup) : Nat := sumNat (g.derived.map (fun a => (s.tdesc a).stashSize))
def State.groupWorst (s : State) (g : StashGroup) : Nat := sumNat (g.derived.map (fun a => (s.tdesc a).stashWorst))

/-! ### Recompute halves (R272) -/

/-- Whether group (g, i) takes its half before group (h, j). -/
def halfBefore (g : StashGroup) (i : Nat) (h : StashGroup) (j : Nat) : Bool :=
  decide (g.rerunFrame < h.rerunFrame) || (g.rerunFrame == h.rerunFrame && decide (i < j))

/-- The half of group `i`: those of its round in ascending RERUN_FRAME alternate 0 and 1. -/
def groupHalf (step : List Byte) (gs : List StashGroup) (i : Nat) : Nat :=
  match gs[i]? with
  | none => 0
  | some g =>
    ((gs.zip (List.range gs.length)).filter (fun (x : StashGroup × Nat) =>
      (roundOf step x.1.writeFirst).1 == (roundOf step g.writeFirst).1 && halfBefore x.1 x.2 g i)).length % 2

/-! ### The checks of R272 -/

/-- The step descriptor attached to the loaded program of an identifier. -/
def State.stepOfProg (s : State) (id : Nat) : Option (List Byte) :=
  let of := fun (p : Option Program) => match p with
    | some p => if p.progId = id then p.step.map (fun d => d.bytes) else none
    | none => none
  match of s.frm.curProg with
  | some b => some b
  | none => of s.frm.standbyProg

/-- Frames of the loaded program of an identifier. -/
def State.framesOfProg (s : State) (id : Nat) : Nat :=
  match s.frm.curProg, s.frm.standbyProg with
  | some p, q => if p.progId = id then p.frames.length else (q.map (fun (q : Program) => q.frames.length)).getD 0
  | none, some q => q.frames.length
  | none, none => 0

/-- An area in local HBM, aligned to 4 KiB with a size that is a multiple of 4 KiB. -/
def State.areaOk (s : State) (a n : Nat) : Bool := a % 4096 == 0 && n % 4096 == 0 && s.isHbm a && s.accessOk a n true

/-- The stash descriptor's own checks. -/
def State.stashDescOk (s : State) (addr : Nat) (d : List Byte) : Bool :=
  addr % 64 == 0 && u32At d 0 == 0x48535453 && u16At d 4 == 1 && decide (1 ≤ u16At d 6) && decide (u16At d 6 ≤ 4096)
    && zeroBytes d 69 59 && (s.stepOfProg (stashProg d)).isSome
    && s.areaOk (ringAddr d) (ringSize d) && s.areaOk (recompAddr d) (recompSize d)
    && !overlaps (ringAddr d % 2 ^ 48, ringSize d) (recompAddr d % 2 ^ 48, recompSize d)
    && decide (u8At d 68 ≤ 2)
    && (if u8At d 68 = 0 then targetAddr d == 0 && targetSize d == 0 else targetAddr d != 0 && targetSize d != 0)
    && s.isHbm (u64At d 56) && s.accessOk (u64At d 56) (128 * u16At d 6) false

/-- The frames of a group against the rounds of the step. -/
def groupFrames (step : List Byte) (frames : Nat) (g : StashGroup) : Bool :=
  let r := (roundOf step g.writeFirst).1
  let last := if r + 1 < stepRounds step then fwdFirst step (r + 1) else frames
  decide (1 ≤ g.writeFirst) && decide (g.writeFirst ≤ g.writeLast) && decide (g.writeLast < g.rerunFrame)
    && decide (g.rerunFrame ≤ g.releaseFrame) && decide (g.writeLast < bwdFirst step r)
    && decide (bwdFirst step r ≤ g.rerunFrame) && decide (g.releaseFrame < last)

/-- The fields of a group entry, and the descriptors that it names. -/
def State.groupFields (s : State) (g : StashGroup) : Bool :=
  decide (g.layer ≤ 1023) && decide (g.planned ≤ 2) && decide (2 ≤ g.entries) && decide (g.entries ≤ 8)
    && zeroBytes g.raw 20 4 && zeroBytes g.raw 32 32
    && (List.range 8).all (fun i => if i < g.entries then s.isHbm (g.desc i) && s.tdescOk (g.desc i) else g.desc i == 0)
    && (g.rerunAddr != 0) == decide (g.planned < 2)

/-- An anchor lies in local HBM, outside the ring and the recompute area. -/
def State.anchorOk (s : State) (d : List Byte) (g : StashGroup) : Bool :=
  (s.tdesc (g.desc 0)).planes.all (fun p => s.isHbm p.1 && s.accessOk p.1 p.2 false
    && !overlaps (p.1 % 2 ^ 48, p.2) (ringAddr d % 2 ^ 48, ringSize d)
    && !overlaps (p.1 % 2 ^ 48, p.2) (recompAddr d % 2 ^ 48, recompSize d))

/-- Another group takes the same half in overlapping frames. -/
def halfClash (step : List Byte) (gs : List StashGroup) (g : StashGroup) (i : Nat) : Bool :=
  (gs.zip (List.range gs.length)).any (fun (x : StashGroup × Nat) =>
    x.2 != i && groupHalf step gs x.2 == groupHalf step gs i && decide (x.1.rerunFrame ≤ g.releaseFrame)
      && decide (g.rerunFrame ≤ x.1.releaseFrame))

/-- One group's checks. -/
def State.groupOk (s : State) (d step : List Byte) (frames : Nat) (gs : List StashGroup) (i : Nat) (g : StashGroup) : Bool :=
  groupFrames step frames g && s.groupFields g && s.anchorOk d g && decide (s.groupWorst g ≤ recompSize d / 2)
    && decide (s.groupWorst g ≤ ringSize d) && !halfClash step gs g i

/-- The group table that a stash descriptor names. -/
def State.groupTable (s : State) (d : List Byte) : List StashGroup :=
  (List.range (u16At d 6)).map (fun i => StashGroup.ofBytes (s.load (u64At d 56 + 128 * i) 128))

/-- The first failing group of a stash descriptor, 0xFFFF for the descriptor itself; none where all pass. -/
def State.stashFail (s : State) (addr : Nat) (d : List Byte) : Option Nat :=
  if !s.stashDescOk addr d then some 0xFFFF
  else
    let gs := s.groupTable d
    let step := (s.stepOfProg (stashProg d)).getD []
    let n := s.framesOfProg (stashProg d)
    (List.range gs.length).find? (fun i => match gs[i]? with
      | some g => !s.groupOk d step n gs i g
      | none => false)

/-- STASH_CONFIG (R272, R294): in force from the next tick. -/
def execStashConfig (m : BitVec 6) (s : State) : Out :=
  .next (s.welfy 0x0660 m fun ps s =>
    let src := u64At ps 0
    let no := fun (x : Status) (data : List Byte) => (⟨x, 0, data, s.stick Reg.STS_STATUS 5⟩ : Reply)
    if s.stepRuns then no .runLock []
    else if !s.paramOk src 128 false then no .addrInvalid []
    else
      let d := s.load src 128
      match s.stashFail src d with
      | some i => no .planInvalid (toLe 2 (u16At d 6) ++ toLe 2 i)
      | none =>
        ({ s with sts := { s.sts with next := some (d, s.groupTable d) } }).ok (toLe 2 (u16At d 6) ++ toLe 2 0xFFFF))

/-! ### Placement (R273 to R276) -/

/-- Group `i` changed. -/
def State.setGroup (s : State) (i : Nat) (f : StashGroup → StashGroup) : State :=
  let gs := (s.sts.groups.zip (List.range s.sts.groups.length)).map (fun (x : StashGroup × Nat) =>
    if x.2 = i then f x.1 else x.1)
  { s with sts := { s.sts with groups := gs } }

/-- The addresses of an entry's planes laid out from a base, each at a multiple of 4 KiB, and the address after them. -/
def planeRun (base : Nat) : List Nat → List Nat × Nat
  | [] => ([], base)
  | n :: ns =>
    let r := planeRun (base + roundUp n 4096) ns
    ((if n = 0 then 0 else base) :: r.1, r.2)

/-- The entries of a group laid out one after another: each descriptor with its plane addresses. -/
def State.entryRuns (s : State) (base : Nat) : List Nat → List (Nat × List Nat)
  | [] => []
  | a :: as =>
    let r := planeRun base (s.tdesc a).planeSizes
    (a, r.1) :: s.entryRuns r.2 as

/-- The plane addresses of a group's entries written, bytes 8 to 47 of each descriptor (R276). -/
def State.placeEntries (s : State) (g : StashGroup) (base : Nat) : State :=
  s.stores ((s.entryRuns base g.derived).map (fun x => (x.1 + 8, x.2.flatMap (toLe 8))))

/-- A range of the ring that no group holds. -/
def State.ringFree (s : State) (a n : Nat) : Bool :=
  s.sts.groups.all (fun g => !g.inRing || !overlaps (a, n) (g.addr, g.size))

/-- The place of a contiguous run in the ring: at the head, or at the base when the rest of the ring is too short. -/
def State.ringPlace (s : State) (n : Nat) : Option Nat :=
  let d := s.stash
  let off := if s.sts.head + n ≤ ringSize d then s.sts.head else 0
  if decide (n ≤ ringSize d) && s.ringFree (ringAddr d + off) n then some off else none

/-- The lowest free place of a size in the target (DESIGN CHOICE, log entry 28). -/
def State.targetPlace (s : State) (n : Nat) : Option Nat :=
  let d := s.stash
  let used := s.sts.groups.filter (fun g => g.inTarget)
  let free := fun (a : Nat) => decide (a + n ≤ targetAddr d + targetSize d)
    && used.all (fun g => !overlaps (a, n) (g.taddr, g.size))
  ((targetAddr d :: used.map (fun g => g.taddr + g.size)).filter free).foldl (fun (b : Option Nat) a =>
    match b with
    | none => some a
    | some c => some (Nat.min a c)) none

/-- A group switched to the RECOMPUTE state: counted and recorded as the first of the attempt where it is. -/
def State.switchGroup (s : State) (i : Nat) : State :=
  let s1 := ((s.bump Reg.STS_CNT_SWITCH 1).stick Reg.STS_STATUS 2).setGroup i (fun g => { g with recomp := true })
  { s1 with sts := { s1.sts with first := match s1.sts.first with
    | some x => some x
    | none => some i } }

/-- A group without ring or target space in the RECOMPUTE state. -/
def State.toRecompute (s : State) (i : Nat) : State :=
  s.setGroup i (fun g => { g with phase := .recompute, addr := 0, inRing := false, inTarget := false })

/-- Group `i` and every RING group of its round with a later WRITE_FIRST switch (R275). -/
def State.switchFrom (s : State) (step : List Byte) (i : Nat) (g : StashGroup) : State :=
  let later := (s.sts.groups.zip (List.range s.sts.groups.length)).filter (fun (x : StashGroup × Nat) =>
    x.2 != i && x.1.planned == 0 && !x.1.recomp && (roundOf step x.1.writeFirst).1 == (roundOf step g.writeFirst).1
      && decide (g.writeFirst < x.1.writeFirst))
  later.foldl (fun (s : State) (x : StashGroup × Nat) => s.switchGroup x.2) ((s.switchGroup i).toRecompute i)

/-- A RING group placed (R273). -/
def State.placeRing (s : State) (step : List Byte) (i : Nat) (g : StashGroup) : State :=
  let n := s.groupSize g
  match s.ringPlace n with
  | none => s.switchFrom step i g
  | some off =>
    let a := ringAddr s.stash + off
    let s1 := ((s.placeEntries g a).bump Reg.STS_CNT_PLACED 1).setGroup i (fun g =>
      { g with phase := .ring, addr := a, size := n, inRing := true })
    { s1 with sts := { s1.sts with head := off + n } }

/-- A TARGET group placed; where the target is lost or has no room it switches (DESIGN CHOICE, log entry 28). -/
def State.placeTarget (s : State) (i : Nat) (g : StashGroup) : State :=
  let n := s.groupSize g
  match (if s.sts.lost then none else s.targetPlace n) with
  | none =>
    let s1 := if s.sts.lost then s
      else ({ s with sts := { s.sts with full := true } }).stick Reg.STS_STATUS 3
    (s1.switchGroup i).toRecompute i
  | some a =>
    ((s.placeEntries g a).bump Reg.STS_CNT_PLACED 1).setGroup i (fun g =>
      { g with phase := .target, addr := a, taddr := a, size := n, inTarget := true })

/-- A group placed by its state (R273, step 3). -/
def State.placeGroup (s : State) (step : List Byte) (i : Nat) : State :=
  match s.sts.groups[i]? with
  | none => s
  | some g =>
    if g.recomp || g.planned == 2 then s.toRecompute i
    else if g.planned = 1 then s.placeTarget i g else s.placeRing step i g

/-- The groups that satisfy a condition, by index. -/
def State.groupsWhere (s : State) (f : StashGroup → Bool) : List Nat :=
  (List.range s.sts.groups.length).filter (fun i => (s.sts.groups[i]?).any f)

/-- Step 2: what completed off-loads and past release frames give back. -/
def releaseGroup (f : Nat) (g : StashGroup) : StashGroup :=
  if decide (1 ≤ f) && g.releaseFrame == f - 1 && decide (g.phase ≠ .unplaced) then
    { g with phase := .released, inRing := false, inTarget := false, done := false, addr := 0 }
  else if g.done then { g with phase := .target, inRing := false, done := false, addr := g.taddr } else g

/-! ### Off-load (R274, R276, R277) -/

/-- Sizes of the groups being off-loaded. -/
def State.inFlight (s : State) : Nat :=
  sumNat ((s.sts.groups.filter (fun g => decide (g.phase = .offloading) && g.inRing)).map (fun g => g.size))

/-- The next group to off-load: ring-resident, written by frame f - 1, the earliest WRITE_FIRST, then the lowest index. -/
def State.nextOffload (s : State) (f : Nat) : Option Nat :=
  (s.groupsWhere (fun g => decide (g.phase = .ring) && g.inRing && decide (g.writeLast + 1 ≤ f))).foldl
    (fun (b : Option Nat) i => match b with
      | none => some i
      | some j => if ((s.sts.groups[i]?).map StashGroup.writeFirst).getD 0 < ((s.sts.groups[j]?).map StashGroup.writeFirst).getD 0
          then some i else some j) none

/-- A group's copies to the target begun: its planes written there as the manager's own traffic. -/
def State.startOffload (s : State) (i a : Nat) : State :=
  match s.sts.groups[i]? with
  | none => s
  | some g =>
    let dest := s.entryRuns a g.derived
    let s1 := (g.derived.zip dest).foldl (fun (t : State) (x : Nat × Nat × List Nat) =>
      let d := s.tdesc x.1
      let here := [d.elemAddr, d.scaleAddr, d.metaAddr, d.outAddr, d.fbAddr]
      ((here.zip x.2.2).zip d.planeSizes).foldl (fun (t : State) (y : (Nat × Nat) × Nat) =>
        if y.2 = 0 then t else t.putOut (.offload i) y.1.2 (t.load y.1.1 y.2)) t) s
    s1.setGroup i (fun g => { g with phase := .offloading, inTarget := true, taddr := a })

/-- Off-load selection (R274), `n` groups at most. -/
def State.selectOffload (s : State) (f : Nat) : Nat → State
  | 0 => s
  | n + 1 =>
    let low := ringSize s.stash * s.regField Reg.STS_CFG 8 14 / 100
    if s.ringUse - s.inFlight ≤ low then s
    else match s.nextOffload f with
      | none => s
      | some i =>
        match s.targetPlace (((s.sts.groups[i]?).map (fun g => g.size)).getD 0) with
        | none => ({ s with sts := { s.sts with full := true } }).stick Reg.STS_STATUS 3
        | some a => (s.startOffload i a).selectOffload f n

/-- Step 4: crossing the high-water mark. -/
def State.highWater (s : State) (f : Nat) : State :=
  if s.ringUse * 100 ≤ ringSize s.stash * s.regField Reg.STS_CFG 0 6 then s
  else
    let s1 := (s.bump Reg.STS_CNT_HIGH_WATER 1).stick Reg.STS_STATUS 0
    if s.regBit Reg.STS_CFG 16 && s.targetKind != 0 && !s.sts.lost then s1.selectOffload f s.sts.groups.length else s1

/-! ### Recompute (R273 step 5, R282, R283) -/

/-- A group in the RECOMPUTE state placed in its half. -/
def State.placeHalf (s : State) (step : List Byte) (i : Nat) : State :=
  match s.sts.groups[i]? with
  | none => s
  | some g =>
    let a := recompAddr s.stash + groupHalf step s.sts.groups i * (recompSize s.stash / 2)
    let n := s.groupSize g
    ((s.placeEntries g a).bump Reg.STS_CNT_PLACED 1).setGroup i (fun g => { g with addr := a, size := n })

/-- The rows of a rerun table: logical core and sequencer entry. -/
def State.rerunRows (s : State) (addr : Nat) : List (Nat × Nat) :=
  (List.range (Nat.min 512 (u16At (s.load addr 2) 0))).map (fun i =>
    let b := s.load (addr + 8 + 16 * i) 16
    (u16At b 0, u64At b 8))

/-- The rerun slots of the frame: those of every switched group whose RERUN_FRAME it is. -/
def State.giveReruns (s : State) (f : Nat) : State :=
  let is := s.groupsWhere (fun g => g.recomp && g.rerunAddr != 0 && g.rerunFrame == f)
  let rs := is.flatMap (fun i => (s.rerunRows (((s.sts.groups[i]?).map StashGroup.rerunAddr).getD 0)).map (fun r => (r.1, r.2, i)))
  ({ s with sts := { s.sts with reruns := rs } }).bump Reg.STS_CNT_RERUN is.length

/-! ### The tick -/

/-- A loss of the target takes effect at the next tick (R281): every group that it holds, one whose copy is complete but not yet
released from the ring among them, switches to RECOMPUTE, and copies on the way are given up. -/
def State.loseTarget (s : State) : State :=
  if !s.sts.lossSeen || s.sts.lost || s.targetKind == 0 then s
  else
    let s1 := ({ s with sts := { s.sts with lost := true } }).stick Reg.STS_STATUS 4
    let held := s1.groupsWhere (fun g => g.inTarget && (!g.inRing || g.done))
    let s2 := held.foldl (fun (s : State) i => (s.switchGroup i).toRecompute i) s1
    { s2 with sts := { s2.sts with groups := s2.sts.groups.map (fun g =>
        if g.inTarget then { g with phase := .ring, inTarget := false, done := false } else g) } }

/-- A stash configuration accepted since the last tick comes into force. -/
def State.takeStash (s : State) : State :=
  match s.sts.next with
  | none => s
  | some (d, gs) =>
    { s with sts := { StsState.reset with
        desc := some d, groups := gs, windows := s.sts.windows, seedNext := s.sts.seedNext } }

/-- Step 1: an attempt starts with an empty stash. -/
def State.emptyStash (s : State) : State :=
  { s with sts := { s.sts with
      groups := s.sts.groups.map StashGroup.fresh, head := 0, full := false, first := none, peak := 0 } }

/-- The stash manager at the tick that begins program frame `f` of an attempt (R273). -/
def State.stashFrame (s : State) (f : Nat) : State :=
  match s.sts.desc, s.frm.curProg with
  | some d, some p =>
    if p.progId ≠ stashProg d then s
    else
      let step := (p.step.map (fun (x : StepDesc) => x.bytes)).getD []
      let s1 := if f = 0 then s.emptyStash else s
      let s2 := { s1 with sts := { s1.sts with groups := s1.sts.groups.map (releaseGroup f) } }
      let s3 := (s2.groupsWhere (fun g => g.writeFirst == f + 1)).foldl (fun (s : State) i => s.placeGroup step i) s2
      let s4 := { s3 with sts := { s3.sts with peak := Nat.max s3.sts.peak s3.ringUse } }
      let s5 := s4.highWater f
      let s6 := (s5.groupsWhere (fun g => (g.recomp || g.planned == 2) && g.rerunFrame == f + 1)).foldl
        (fun (s : State) i => s.placeHalf step i) s5
      s6.giveReruns f
  | _, _ => s

/-- The stash manager at a tick: a loss and a new configuration first; then, in an attempt, the frame's placement; the
groups are kept as STASH_GROUP_QUERY shows them (R295). -/
def State.stashTick (s : State) (frame : Option Nat) : State :=
  let s1 := ({ s with sts := { s.sts with reruns := [] } }).loseTarget.takeStash
  let s2 := match frame with
    | some f => s1.stashFrame f
    | none => s1
  { s2 with sts := { s2.sts with snap := s2.sts.groups } }

/-- OFFLOAD_DONE (R276): once the target holds an acknowledged copy, the entries' plane addresses are rewritten. -/
def execOffloadDone (group : BitVec 16) (s : State) : Out :=
  let i := group.toNat
  .next (match s.sts.groups[i]? with
    | none => s
    | some g =>
      if g.phase ≠ .offloading || g.done || s.sts.lossSeen
          || (s.lnk.trans ++ s.lnk.backlog).any (fun t => t.owner == .offload i) then s
      else
        let s1 := ((s.placeEntries g g.taddr).bump Reg.STS_CNT_OFFLOAD 1).bump Reg.STS_CNT_OFFLOAD_MIB (g.size / 2 ^ 20)
        (s1.stick Reg.STS_STATUS 1).setGroup i (fun g => { g with done := true }))

/-! ### Commands (Table 9.5) -/

/-- FARSTASH_WINDOW (R279, R294). -/
def execFarstashWindow (m : BitVec 6) (s : State) : Out :=
  .next (s.welfy 0x0661 m fun ps s =>
    let i := u8At ps 0
    let base := u64At ps 8
    let size := u64At ps 16
    let old := tget ⟨0, 0, 0, false⟩ s.sts.windows i
    let new : FarWindow := { base := if size = 0 then 0 else base % 2 ^ 48, size := size, owner := u16At ps 24, used := false }
    if 15 < i then s.bad 0
    else if size != 0 && !(s.isHbm base && s.paramOk base size true) then s.no .addrInvalid
    else if old.used && s.stepRuns && !(old.base == new.base && old.size == size) then s.no .runLock
    else ({ s with sts := { s.sts with windows := tset s.sts.windows i { new with used := old.used } } }).ok [])

def StashPhase.code : StashPhase → Nat
  | .unplaced => 0 | .ring => 1 | .offloading => 2 | .target => 3 | .recompute => 4 | .released => 5

/-- STASH_GROUP_QUERY (R295). -/
def execStashGroupQuery (m : BitVec 6) (s : State) : Out :=
  .next (s.welfy 0x0662 m fun ps s =>
    match s.sts.snap[u16At ps 0]? with
    | none => s.bad 0
    | some g =>
      s.ok (toLe 2 g.phase.code ++ toLe 2 g.layer ++ toLe 4 0 ++ toLe 8 g.addr ++ toLe 4 (g.size / 1024)))

def stsCounters : List Nat :=
  [Reg.STS_CNT_PLACED, Reg.STS_CNT_OFFLOAD, Reg.STS_CNT_OFFLOAD_MIB, Reg.STS_CNT_SWITCH, Reg.STS_CNT_RERUN,
   Reg.STS_CNT_HIGH_WATER]

/-- STASH_COUNTERS. -/
def execStashCounters (m : BitVec 6) (s : State) : Out :=
  .next (s.welfy 0x0663 m fun ps s => s.countersReply stsCounters (bit (u8At ps 0) 0))

/-- SEED_SET (R287, R294): in force from the tick that begins the next step. -/
def execSeedSet (m : BitVec 6) (s : State) : Out :=
  .next (s.welfy 0x0668 m fun ps s =>
    if s.stepRuns then s.no .runLock
    else ({ s with sts := { s.sts with seedNext := some (u64At ps 0) } }).ok [])

/-- A seed put in for the step that begins now (R287). -/
def State.takeSeed (s : State) : State :=
  match s.sts.seedNext with
  | none => s
  | some v =>
    (({ s with sts := { s.sts with seedNext := none } }).putPair Reg.RNG_SEED_LO Reg.RNG_SEED_HI v).stick Reg.RNG_STATUS 1

/-- RNG_EVAL (R295): the generator's output for the seed given. -/
def execRngEval (m : BitVec 6) (s : State) : Out :=
  .next (s.welfy 0x0669 m fun ps s => s.ok (philox (u64At ps 0) (u32At ps 8) (u64At ps 16) (u32At ps 24)))

end Sys2Proof.Machine
end

