-- ==== Sys2Proof/Machine/Frame.lean ====
section
/-! DEFINITION. The tick (R40, R49, R54, R57 to R59): what every tick does, the end of a frame and the beginning of the next,
the start of a step attempt; the mode switch, the rollback, and what ends by itself at a tick. -/

namespace Sys2Proof.Machine

/-! ### Every tick -/

/-- A frame with a slot in the program, under a nonzero epoch (R539). -/
def State.scheduled (s : State) : Bool := s.frm.epoch != 0 && s.frm.curProg.any (fun p => !p.slots.isEmpty)

/-- The frame counted as scheduled and, while an attempt runs, as one of the attempt's. -/
def State.countFrame (s : State) : State :=
  let r := s.ras
  let n := if s.upd.commit == .idle then r.attemptFrames else r.attemptFrames + 1
  { s with ras := { r with avSched := if s.scheduled then r.avSched + 1 else r.avSched, attemptFrames := n } }

/-- Stacks at throttle now, lowest first, and 8 for a core die that is HOT (R494). -/
def State.hotParts (s : State) : List Nat :=
  (List.range 8).filter (fun i => decide ((s.stack i).state = .throttle)) ++ (if s.phys.die = .throttle then [8] else [])

/-- Frames with a stack in THROTTLE and with the core die HOT. -/
def State.countHeat (s : State) : State :=
  let hot := s.hotParts ++ s.frm.throttled ++ s.frm.cooled
  s.bumps [(Reg.HBM_CNT_THROTTLE_FR, b2n (hot.any (fun i => decide (i < 8)))), (Reg.THM_CNT_HOT_FR, b2n (hot.contains 8))]

/-- A stretch is armed: no request is sent (R75). -/
def State.stretchArmed (s : State) : Bool := s.frm.armed.any (fun a => a.mode.stretchAmt != 0)

/-- STRETCH_REQ with s and C from FRM_STRETCH (R72). -/
def State.requestStretch (s : State) (stack : Nat) : State :=
  (s.setFrm (fun f => { f with stretchRequested := true })).say
    (.stretchReq stack (s.regField Reg.FRM_STRETCH 0 3) (s.regField Reg.FRM_STRETCH 8 15))

/-- A request for each part that entered the throttle state during the frame (R72). -/
def State.stretchTick (s : State) : State :=
  let s1 := s.setFrm (fun f => { f with stretchLeft := f.stretchLeft - 1, throttled := [], cooled := [] })
  if s.stretchArmed then s1 else s.frm.throttled.foldl (fun (s : State) i => s.requestStretch i) s1

/-- Ages and counts of frames advanced: held packets (R71), frames since the switch (R68), idle frames of the running
collective's peers (R397); slots stop here where that was due. -/
def State.ageTick (s : State) : State :=
  let s1 := s.setFrm (fun f =>
    { f with
        hold := f.hold.map (fun h => (h.1, h.2.map (fun x => (x.1 + 1, x.2)))),
        framesSinceSwitch := Nat.min 255 (f.framesSinceSwitch + 1), noSlots := f.noSlots || f.stopNext, stopNext := false })
  if s.col.phase == .idle then s1
  else s1.setCol (fun c =>
    { c with idle := (List.range c.ranks.length).map (fun r => (r, Nat.min 15 (tget 0 c.idle r + 1))) })

/-- The power guard's idling ends with the frame (R489). -/
def State.endIdling (s : State) : State := if s.phys.idling then s.guardRelease else s

/-- The ports retrained in service join the spray sets (Table 14.8). -/
def State.portsJoin (s : State) : State :=
  { s with lnk := { s.lnk with ports := s.lnk.ports.map (fun e => (e.1, { e.2 with joining := false })) } }

/-- What takes effect at every tick: map-ins, peer map and keys, roles, a pending pairing (R511, R377, R400, R26, R515). -/
def State.dueTick (s : State) : State :=
  s.mapInsDue.resumeMapIns.peersTick.keysTick.portsJoin.moveRoles.answerUnknown.pairTick

/-- Every tick: the new number, phase 0, counts, requests and what is due. -/
def State.everyTick (s : State) : State :=
  let s1 := s.countFrame.countHeat.numberTick.trimFrame.setFrm (fun f => { f with phase := 0 })
  s1.stretchTick.ageTick.endIdling.dueTick

/-! ### The slots of a frame -/

/-- An attempt runs its slots in this frame. -/
def State.slotsRun (s : State) : Bool :=
  s.frm.begun && s.frm.epoch != 0 && !s.frm.noSlots && s.upd.commit != .idle

/-- A slot of the frame, or a rerun slot, that has not started. -/
def State.missedSlot (s : State) : Bool :=
  s.frameSlots.any (fun d => (s.run (.prog d.1)).isNone && !s.unitIdle d.2.unit)
    || s.sts.reruns.any (fun x => (s.run (.rerun x.1)).isNone && !s.unitIdle (coreId x.1))

/-- A slot that failed without a replay: REPLAY_SKIPPED, and the step is marked (R55, R509). -/
def State.skipReplay (s : State) (u : UnitId) : State := (s.stick Reg.FRM_STATUS 6).raise .replaySkipped u 0

/-- Slots that their START or wait never let start: the step is marked for step replay (DESIGN CHOICE, log entry 35). -/
def State.markMissed (s : State) : State := if s.slotsRun && s.missedSlot then s.skipReplay ⟨7, 0⟩ else s

/-! ### Frame faults (R57) -/

/-- A frame fault of a unit: the first since clear is recorded. -/
def State.frameFault (s : State) (u : UnitId) : State :=
  let s1 := if s.reg Reg.FRM_FAULT_CNT == 0 then
      (s.putPair Reg.FRM_FAULT_TICK_LO Reg.FRM_FAULT_TICK_HI s.frm.tick.toNat).putReg Reg.FRM_FAULT_UNIT (BitVec.ofNat 32 u.code)
    else s
  ((s1.bump Reg.FRM_FAULT_CNT 1).frameEvent 1).raise .frameFault u 0

/-- A collective runs on, and each tick that it passes is a frame fault; its overrun is counted at the first one. -/
def State.overrun (s : State) (r : SlotRun) : State :=
  if r.carried then s.frameFault r.unit
  else
    let s1 := (s.setRun r.ref (fun x => { x with carried := true })).setCol (fun c =>
      { c with phase := if c.phase == .idle then .idle else .overrun })
    ((s1.stick Reg.COL_STATUS 2).bump Reg.COL_CNT_OVERRUN 1).frameFault r.unit

/-- A slot still running at the tick. -/
def State.faultSlot (s : State) (r : SlotRun) : State :=
  if r.unit.ty = 3 then s.overrun r else ((s.dropWork r).failRun (some r.ref)).frameFault r.unit

/-- Every slot still running at the tick. -/
def State.faultSlots (s : State) : State :=
  (s.frm.slots.filter (fun r => decide (r.phase = .running))).foldl (fun (s : State) r => s.faultSlot r) s

/-! ### The end of a frame -/

/-- Counter of a cause of guard-band use (Table 2.6). -/
def GuardCause.counter : GuardCause → Nat
  | .replay => Reg.FRM_GUARD_REPLAY
  | .thermal => Reg.FRM_GUARD_THERMAL
  | .lane => Reg.FRM_GUARD_LANE
  | .power => Reg.FRM_GUARD_POWER
  | .other => Reg.FRM_GUARD_OTHER

/-- A frame with guard-band use counted once (R54). -/
def State.countGuard (s : State) : State :=
  if s.frm.guardUsed then (s.stick Reg.FRM_STATUS 0).bump (s.frm.guardCause.getD .other).counter 1 else s

/-- A frame completed with a frame replay counted (R539). -/
def State.countReplayed (s : State) : State :=
  if s.scheduled && s.frm.replayedFrame then { s with ras := { s.ras with avReplayed := s.ras.avReplayed + 1 } } else s

/-- Writes staged before the cut-off take effect together (R59). -/
def State.applyStaged (s : State) : State :=
  let s1 := s.frm.staged.foldl (fun (s : State) e => s.putReg e.1 ((s.reg e.1 &&& ~~~ e.2.1) ||| (e.2.2 &&& e.2.1))) s
  s1.setFrm (fun f => { f with staged := f.stagedLate, stagedLate := [] })

/-- What belongs to one frame is cleared; a collective that runs on keeps its slot (R49, R57, R322). -/
def State.clearFrame (s : State) : State :=
  s.setFrm (fun f => { f with
    slots := f.slots.filter (fun r => decide (r.phase = .running)), events := [], signalsSeen := [], waits := [],
    guardUsed := false, retried := false, guardCause := none, replayedFrame := false, pairBase := 0 })

/-- Update programs put in since the last tick (R241); measurement 6 changes with them (R553). -/
def State.takePrograms (s : State) : State :=
  let s1 := s.setUpd (fun u => { u with
    programs := u.progNext.foldl (fun t e => tset t e.1 e.2) u.programs, progNext := [] })
  if s.upd.programs = s1.upd.programs then s1 else s1.measChanged 6

/-- A step number and update programs put in since the last tick (R240, R241). -/
def State.takeUpd (s : State) : State :=
  let s1 := s.takePrograms
  match s1.upd.stepNext with
  | some t => (s1.setUpd (fun u => { u with t := t, stepNext := none, stepBegun := none, attempt := 0 })).setMirror (fun m => { m with copyDone := false })
  | none => s1

/-- A step is in progress or, for want of cores, its frames pass without one (R25). -/
def State.inAttempt (s : State) : Bool := s.upd.commit != .idle || s.frm.blocked

/-- The step ends at this tick, or the next frame of the program follows. -/
def State.nextFrame (s : State) : State :=
  if !s.inAttempt then s.setFrm (fun f => { f with frameIndex := 0 })
  else if s.frm.frameIndex + 1 < s.progLen then s.setFrm (fun f => { f with frameIndex := f.frameIndex + 1 })
  else (s.endStep s.frm.tick.toNat).setFrm (fun f => { f with frameIndex := 0 })

/-- The end of a frame, or of a double-frame pair. -/
def State.endFrame (s : State) : State :=
  (s.markMissed.faultSlots.countGuard.countReplayed.nextFrame.applyStaged.clearFrame.takeUpd).loupeTick

/-- A commit decision that no COMMIT_WINDOW has taken: the window has passed with the frame. -/
def State.takeDecision (s : State) : State :=
  if s.upd.commit == .running && s.lastFrame then s.decideCommit else s

/-! ### The beginning of a frame -/

/-- Steps may be attempted: a program under a nonzero epoch, and nothing that stops slots. -/
def State.mayAttempt (s : State) : Bool :=
  s.frm.curProg.isSome && s.frm.epoch != 0 && !s.frm.noSlots && !s.frm.halted && decide (s.lup.phase ≠ .hold)
    && decide (s.lup.phase ≠ .stopped)

/-- The attempt's own state set up. -/
def State.openAttempt (s : State) : State :=
  let first := s.upd.attempt == 0
  let s1 := s.setUpd (fun u => { u with commit := .running, attempt := Nat.min 255 (u.attempt + 1), clear := false, lists := [] })
  let s2 := s1.setFrm (fun f => { f with uncommittable := false, double := s.lup.double })
  let s3 := { s2 with
    ras := { s2.ras with
      ownFatalStep := false, attemptFrames := 0, stepSsb := if first then s.lup.snap else s.ras.stepSsb } }
  let tick := s.frm.tick
  (s3.setCol (fun c => { c with attemptTick := tick })).bumps [(Reg.LUP_CNT_DOUBLE, b2n s.lup.double)]

/-- A step attempt starts (R25, R207, R256, R262, R518); a new seed is taken at the first attempt of a step alone, so that every
attempt of a step uses the same seed (R287). -/
def State.startAttempt (s : State) : State :=
  let ws := s.sts.windows.map (fun w => (w.1, { w.2 with used := false }))
  let s1 := { s with sts := { s.sts with windows := ws } }
  let s2 := if s1.upd.stepBegun = some s1.upd.t then s1 else s1.takeSeed
  (s2.setUpd (fun u => { u with stepBegun := some u.t })).openAttempt.loupeBegin.mirrorAttempt

/-- The tick at which frame index 0 begins: an attempt, frames without one while cores are short, or neither. -/
def State.beginAttempt (s : State) : State :=
  let s1 := s.setFrm (fun f => { f with frameIndex := 0, blocked := false, double := false })
  if !s1.mayAttempt then s1
  else if s1.coresShort then s1.setFrm (fun f => { f with blocked := true })
  else s1.startAttempt

/-- At the first tick of frame F - 1 coverage is checked and the statistics are closed (R234, R251). -/
def State.closeStats (s : State) : State :=
  let c := s.coverFails
  (if c then s.stick Reg.UPD_STATUS 1 else s).loupeClose c

/-- The first tick of a frame of an attempt, and the stash manager's work at every tick (R273). -/
def State.frameStart (s : State) : State :=
  let run := s.upd.commit == .running
  let s1 := if run && s.frm.frameIndex + 1 == s.progLen then s.closeStats else s
  s1.stashTick (if run then some s.frm.frameIndex else none)

/-- A frame begins. -/
def State.beginFrame (s : State) : State :=
  let s1 := s.setFrm (fun f => { f with begun := true })
  (if s1.inAttempt then s1 else s1.beginAttempt).frameStart

/-- After a tick and what changes at it, the frame begins; the second frame of a pair only goes on. -/
def State.enterFrame (s : State) : State :=
  if s.frm.double && s.frm.pairBase != 0 then s.setFrm (fun f => { f with begun := true }) else s.beginFrame

/-- A mode switch, and a rollback, is due at this tick. -/
def State.switchDue (s : State) : Bool := s.frm.armed.any (fun a => decide (a.tick.toNat ≤ s.frm.tick.toNat))
def State.rollbackDue (s : State) : Bool := s.frm.rollback.any (fun r => decide (r.tick.toNat ≤ s.frm.tick.toNat))

/-- What is due at a tick comes before the frame that it begins. -/
def State.afterTick (s : State) : State :=
  if s.switchDue || s.rollbackDue then s.setFrm (fun f => { f with begun := false }) else s.enterFrame

/-- The first frame of a double-frame pair ends: the pair goes on (R262). -/
def State.midPair (s : State) : Bool := s.frm.double && s.frm.pairBase == 0

/-- The rc for which cores are still held under R209 at the tick are counted. -/
def State.countWaits (s : State) : State :=
  s.bumps [(Reg.UPD_CNT_BWD_WAIT,
    sumNat (s.frm.waits.map (fun e => if e.2 = 0 then 0 else s.frm.pairBase + s.frm.phase + 1 - e.2)))]

/-- FRAME_TICK (R40). -/
def execFrameTick (s : State) : Out :=
  let len := s.frameLen
  let s1 := s.advance len
  .next (if !s.frm.ticking || !s.frm.begun then s
    else if s.midPair then (s1.everyTick.takePrograms.loseTarget.setFrm (fun f => { f with pairBase := if f.double then len else 0 })).afterTick
    else s1.takeDecision.runningUse.countWaits.everyTick.endFrame.afterTick)

/-! ### The mode switch (R64, R67) and the rollback (R69) -/

/-- Every running slot stopped, collectives included. -/
def State.stopAll (s : State) : State :=
  let s1 := (s.frm.slots.filter (fun r => decide (r.phase = .running))).foldl (fun (s : State) r => s.dropWork r) s
  (s1.setFrm (fun f => { f with slots := [] })).setCol (fun c => { c with phase := .idle })

/-- An attempt that a switch or rollback cuts short. -/
def State.cutAttempt (s : State) : State := if s.inAttempt then s.stopAll.abandonAttempt else s

/-- The switch at T, with the standby banks intact or not. -/
def State.switchAt (s : State) (a : Armed) (intact : Bool) : State :=
  let c := s.changes a.mode
  let s1 := if c then s.cutAttempt else s
  if c && !intact then s1.failSwitch a else (s1.takeMode a).releaseHeld

/-- Measurement 10 changes with the current program's digest or plan (R553). -/
def State.noteProgram (s old : State) : State :=
  let tag := fun (x : State) => x.frm.curProg.map (fun p => (p.digest, p.planId))
  if tag s = tag old then s else s.measChanged 10

/-- MODE_SWITCH (R64): `intact` says whether the standby program and plan pass their integrity check. -/
def execModeSwitch (intact : Bool) (s : State) : Out :=
  .next (match s.frm.armed with
    | some a =>
      if s.frm.ticking && !s.frm.begun && !s.rollbackDue && s.switchDue then ((s.switchAt a intact).noteProgram s).enterFrame else s
    | none => s)

/-- The mode rolled back changed the program or the plan: the step that began at T is replayed. -/
def State.undoes (s : State) (rb : Rollback) : Bool := s.frm.retained.any (fun r => r.epoch == rb.epoch && (r.prog || r.plan))

/-- The rollback at T′. -/
def State.rollBack (s : State) (rb : Rollback) : State :=
  (if s.undoes rb then s.stopAll.abandonAttempt else s).takeRollback rb

/-- ROLLBACK_APPLY (R69). -/
def execRollbackApply (s : State) : Out :=
  .next (match s.frm.rollback with
    | some rb => if s.frm.ticking && !s.frm.begun && s.rollbackDue then ((s.rollBack rb).noteProgram s).enterFrame else s
    | none => s)

/-- RETENTION_END (R68): four frames after the switch, unless a rollback is due. -/
def execRetentionEnd (s : State) : Out :=
  .next (if s.frm.retained.isSome && !s.frm.halted && s.frm.rollback.isNone && decide (4 ≤ s.frm.framesSinceSwitch) then
      s.setFrm (fun f => { f with retained := none })
    else s)

/-- HOLD_EXPIRY (R71): packets held for 2 frames are dropped. -/
def execHoldExpiry (s : State) : Out :=
  let old := sumNat (s.frm.hold.map (fun h => (h.2.filter (fun x => decide (2 ≤ x.1))).length))
  let rest := s.frm.hold.map (fun h => (h.1, h.2.filter (fun x => decide (x.1 < 2))))
  .next ((s.setFrm (fun f => { f with hold := rest })).epochDrop old)

/-- STRETCH_END (R74): the frame length is L again. -/
def execStretchEnd (s : State) : Out :=
  .next (if s.frm.stretchLeft = 0 then s.setFrm (fun f => { f with stretchAmt := 0 }) else s)

/-- STRETCH_RENEW (R75): a part still at throttle when 8 stretched frames remain. -/
def execStretchRenew (s : State) : Out :=
  .next (match s.hotParts with
    | i :: _ =>
      if s.frm.stretchLeft = 8 ∧ !s.stretchArmed then s.requestStretch i else s
    | [] => s)

/-! ### A spare in service -/

/-- Cores are whole again at the tick that begins a step: its attempt starts (R25). -/
def State.unblock (s : State) : State :=
  if s.frm.blocked && s.frm.begun && s.frm.frameIndex == 0 && s.frm.phase == 0 then
    (s.setFrm (fun f => { f with blocked := false })).beginFrame
  else s

/-- MAP_IN (R511, step 4): at the first tick after the write the logical number resolves to the spare. -/
def execMapIn (logical : BitVec 9) (s : State) : Out :=
  .next (match s.boot.pendingMapIn.find? (fun e => e.1 == logical.toNat && e.2.2) with
    | none => s
    | some e => (s.takeMapIn logical.toNat e.2.1).unblock)

/-! ### Idling -/

/-- One rc passes with no command waiting (DESIGN CHOICE, log entry 7): the frame's phase and the device's time count on, and
the rc idled under the power guard (R489). The phase register holds 18 bits. -/
def State.idle (s : State) : State :=
  let f := if s.frm.ticking then { s.frm with phase := Nat.min 262143 (s.frm.phase + 1) } else s.frm
  let s1 := { s with rc := s.rc + 1, frm := f }
  if s.phys.idling then s1.bump Reg.PWR_CNT_IDLE_RC 1 else s1

end Sys2Proof.Machine
end

