-- ==== Sys2Proof/Machine/SlotRows.lean ====
section
/-! DEFINITION. Slots start and end (R48, R49, R55, R144, R205, R209, R339, R507 to R511). -/

namespace Sys2Proof.Machine

/-- The reference of a slot that a command names. -/
def refOf : SlotArg → SlotRef
  | .prog n => .prog n.toNat
  | .rerun c => .rerun c.toNat

/-- A rerun slot of a core (R282): it may start at the tick, waits on nothing and carries no flags. -/
def rerunDesc (core : Nat) : SlotDesc :=
  { unit := coreId core, kind := 1, flags := 0, start := 0, endNom := 0, endThr := 0, descAddr := 0, waitCtr := 0xFF,
    signalCtr := 0, waitVal := 0, wrrNoc := 0, wrrUpd := 0, energy := 0 }

/-- Rerun slots of a core in the frame. -/
def State.rerunsOf (s : State) (core : Nat) : Nat := (s.sts.reruns.filter (fun x => x.1 == core)).length

/-- Descriptor of a slot of the frame in progress, or of a slot that still runs from an earlier one. -/
def State.descOf (s : State) (ref : SlotRef) : Option SlotDesc :=
  match ref with
  | .prog n => s.progSlot n
  | .rerun c => if s.rerunsOf c = 0 then none else some (rerunDesc c)

/-- A slot belongs to the frame in progress. -/
def State.inFrame (s : State) (ref : SlotRef) : Bool :=
  match ref with
  | .prog n => s.frameSlots.any (fun d => d.1 == n)
  | .rerun c => s.rerunsOf c != 0

/-! ### Time -/

/-- Rc since the tick from which slots are timed: the one that begins the frame, or the pair (R262). -/
def State.slotTime (s : State) : Nat := s.frm.pairBase + s.frm.phase

/-- Length of the next frame, as the stretch now in force and the correction left leave it. -/
def State.nextLen (s : State) : Nat :=
  let l := 2 ^ s.frm.lenExp
  let m := if 1 < s.frm.stretchLeft then l + s.frm.stretchAmt * l / 8 else l
  let frac := ((s.frm.frac : Int) - s.frm.trim) % 8
  ((8 * m : Nat) + frac - trimOf s.frm.alignLeft).toNat / 8

/-- Rc from that tick to the tick that ends the frame or the pair. -/
def State.slotSpan (s : State) : Nat := s.frm.pairBase + s.frameLen + (if s.midPair then s.nextLen else 0)

/-- Time passes to `rc` after the tick; guard-band use begins where a slot runs past the work window. -/
def State.timeTo (s : State) (rc : Nat) : State :=
  let s1 := s.advance (rc - s.frm.pairBase)
  if s1.workEnd < s1.frm.phase then s1.runningUse else s1

/-- `rc` lies before the next tick. -/
def State.inTime (s : State) (rc : Nat) : Bool := decide (rc ≤ s.frm.pairBase + s.frameLen)

/-! ### The start (R48) -/

/-- A slot that holds its unit back: one not started or still running, but for the other half of a core (R168). -/
def State.holdsBack (s : State) (ref : SlotRef) : Bool :=
  match s.run ref with
  | some r => decide (r.phase = .running) && r.half.isNone
  | none => true

/-- The slots before it on its unit are over: rerun slots first, then descriptor order. -/
def State.earlierOver (s : State) (ref : SlotRef) (d : SlotDesc) : Bool :=
  match ref with
  | .rerun _ => true
  | .prog n =>
    s.frameSlots.all (fun x => !(x.2.unit == d.unit && decide (x.1 < n)) || !s.holdsBack (.prog x.1))
      && !(d.unit.ty == 1 && s.sts.reruns.any (fun x => x.1 == d.unit.idx
        && (decide (1 < s.rerunsOf x.1) || s.holdsBack (.rerun x.1))))

/-- The unit runs no slot, or only one of a half of a core in split mode. -/
def State.unitFree (s : State) (u : UnitId) : Bool :=
  let rs := s.frm.slots.filter (fun r => r.unit == u && decide (r.phase = .running))
  rs.isEmpty || (u.ty == 1 && rs.length == 1 && rs.all (fun r => r.half.isSome))

/-- The failed core would have signalled a counter (R511, step 1). -/
def State.excused (s : State) (ctr : Nat) : Bool :=
  s.frameSlots.any (fun x => bit x.2.flags 2 && x.2.signalCtr == ctr && s.unitIdle x.2.unit)

/-- The wait condition of a slot is met. -/
def State.waitMet (s : State) (d : SlotDesc) : Bool :=
  d.waitCtr == 0xFF || decide (d.waitVal ≤ tget 0 s.frm.events d.waitCtr) || s.excused d.waitCtr

/-- First frames of the step's ranges. -/
def State.rangeFirsts (s : State) : List Nat :=
  match s.stepBytes with
  | some b => (List.range (stepRounds b)).flatMap (fun r => [fwdFirst b r, bwdFirst b r])
  | none => []

/-- The frame is the first of a range of the step, with a range before it. -/
def State.rangeFirst (s : State) : Bool := s.frm.frameIndex != 0 && s.rangeFirsts.contains s.frm.frameIndex

/-- First frame of the range before the one that begins with the frame in progress. -/
def State.rangeBefore (s : State) : Nat :=
  ((s.rangeFirsts).filter (fun f => decide (f < s.frm.frameIndex))).foldl Nat.max 0

/-- The number of the attempt of a step, by which its slots are told from those of another. -/
def State.attemptId (s : State) : Nat := s.upd.t.toNat * 256 + s.upd.attempt

/-- A core's slot waits for the collectives of the range before (R209): those that this attempt started in that range. -/
def State.held209 (s : State) (d : SlotDesc) : Bool :=
  d.unit.ty == 1 && s.rangeFirst && s.frm.slots.any (fun r => r.unit.ty == 3 && decide (r.phase = .running)
    && r.attempt == s.attemptId && decide (s.rangeBefore ≤ r.frame) && decide (r.frame < s.frm.frameIndex))

/-- The slot has run already; a core named by the rerun tables of two groups runs one slot for each. -/
def State.ranAlready (s : State) (ref : SlotRef) : Bool :=
  match s.run ref, ref with
  | none, _ => false
  | some _, .prog _ => true
  | some r, .rerun c => decide (r.phase = .running) || s.rerunsOf c == 1

/-- Everything that a start needs but the hold of R209. -/
def State.mayStart48 (s : State) (ref : SlotRef) (d : SlotDesc) : Bool :=
  s.slotsRun && s.inFrame ref && !s.ranAlready ref && !s.unitIdle d.unit && s.earlierOver ref d && s.unitFree d.unit
    && s.waitMet d

/-- A first entry with a core removed from the rerun slots. -/
def dropRerun (core : Nat) : List (Nat × Nat × Nat) → List (Nat × Nat × Nat)
  | [] => []
  | x :: xs => if x.1 = core then xs else x :: dropRerun core xs

/-- The rerun slot that a core has run makes room for its next one. -/
def State.dropOldRun (s : State) (ref : SlotRef) : State :=
  match s.run ref, ref with
  | some _, .rerun c =>
    let s1 := s.setFrm (fun f => { f with slots := f.slots.filter (fun r => r.ref != ref) })
    { s1 with sts := { s1.sts with reruns := dropRerun c s1.sts.reruns } }
  | _, _ => s

/-- A fresh run of a slot. -/
def freshRun (ref : SlotRef) (u : UnitId) (rc : Nat) (seen : List Host.Cell) (frame attempt : Nat) : SlotRun :=
  { ref := ref, unit := u, phase := .running, startRc := rc, carried := false, replay := false, half := none, fault := false,
    eff := Effects.empty, steps := 0, last := false, wrote := [],
    seen := seen, frame := frame, attempt := attempt, fetched := [] }

/-- The rc for which a core was held are counted at its start. -/
def State.countHeld (s : State) (d : SlotDesc) : State :=
  let t := tget 0 s.frm.waits d.unit.idx
  if d.unit.ty = 1 ∧ t ≠ 0 then
    (s.bump Reg.UPD_CNT_BWD_WAIT (s.slotTime + 1 - t)).setFrm (fun f => { f with waits := tset f.waits d.unit.idx 0 })
  else s

/-- The slot runs. -/
def State.beginSlot (s : State) (ref : SlotRef) (d : SlotDesc) : State :=
  let s1 := (s.dropOldRun ref).countHeld d
  let s2 := s1.setFrm (fun f => { f with slots := f.slots ++ [freshRun ref d.unit s1.rc s1.mem s.frm.frameIndex s.attemptId] })
  let s3 := if d.unit.ty = 4 then s2.putEngine d.unit.idx UpdEngine.reset else s2
  if s3.workEnd < s3.frm.phase then s3.runningUse else s3

/-- A core that R209 holds: noted from when, as one more than the rc after the tick. -/
def State.noteHeld (s : State) (d : SlotDesc) : State :=
  if tget 0 s.frm.waits d.unit.idx = 0 then
    s.setFrm (fun f => { f with waits := tset f.waits d.unit.idx (s.slotTime + 1) })
  else s

/-- SLOT_START (R48): `rc` counts from the tick that begins the frame or pair. -/
def execSlotStart (slot : SlotArg) (rc : BitVec 18) (s : State) : Out :=
  let ref := refOf slot
  .next (match s.descOf ref with
    | none => s
    | some d =>
      if s.mayStart48 ref d && decide (d.start ≤ Nat.max rc.toNat s.slotTime) && s.inTime rc.toNat then
        let s1 := s.timeTo rc.toNat
        if s1.held209 d then s1.noteHeld d else s1.beginSlot ref d
      else s)

/-! ### An end without error (R49, R339) -/

/-- The slot's own work is complete: every write acknowledged, no job open, and its chain, job or collective at its end. -/
def State.slotDone (s : State) (r : SlotRun) : Bool :=
  !r.fault && !s.slotWaits r.ref && !s.hasJobs r.ref
    && (if r.unit.ty = 1 then true else if r.unit.ty = 4 then r.steps != 0 && (s.engine r.unit.idx).job.isNone else r.last)

/-- SIGNAL (R49): the counter of a slot that ends without error; a collective that ran past its tick signals in the frame
in which it ends. -/
def State.slotSignal (s : State) (d : SlotDesc) : State := if bit d.flags 2 then s.signalCtr d.signalCtr else s

/-- The slot ends: what it charged is applied, and its counter signalled. -/
def State.endOk (s : State) (r : SlotRun) (d : SlotDesc) : State :=
  let s1 := s.applyEffects r.ref.isRerun r.eff
  (s1.setRun r.ref (fun x => { x with phase := .ended, eff := Effects.empty })).slotSignal d

/-! ### An end with an error (R55, R169, R170, R396, R507 to R510) -/

/-- Class of an error (Table 16.3). -/
def endClass : SlotEnd → Option RasClass
  | .ok => none
  | .csUe _ => some .csUe
  | .nocUe _ => some .nocUe
  | .facet _ _ _ => some .facetFault
  | .hbmPoison _ => some .hbmPoison
  | .remoteFail _ => some .remoteFail
  | .hostAccess _ => some .hostAccess

/-- The half named by an error. -/
def endHalf : SlotEnd → Option Bool
  | .ok => none
  | .csUe h => h
  | .nocUe h => h
  | .facet _ _ h => h
  | .hbmPoison h => h
  | .remoteFail h => h
  | .hostAccess h => h

/-- Tied to a fixed cell or row (R173). -/
def endFixed : SlotEnd → Bool
  | .facet _ f _ => f
  | _ => false

/-- Cause in FAC_HALF_STS, 0 for none, and whether it marks both halves (Table 5.8). -/
def endCause : SlotEnd → Nat × Bool
  | .csUe _ => (1, false)
  | .facet .weightParity _ _ => (2, false)
  | .facet .laneParity _ _ => (3, false)
  | .facet .sequencer _ _ => (4, true)
  | .nocUe _ => (5, true)
  | _ => (0, false)

/-- A cause put into a core's FAC_HALF_STS: both fields in full mode. -/
def State.markHalf (s : State) (core cause : Nat) (half : Option Bool) : State :=
  let p := (s.physOf core).getD 0
  let old := tget 0 s.frm.halfSts p
  let new := match half with
    | none => cause + cause * 256
    | some false => cause + old / 256 * 256
    | some true => old % 256 + cause * 256
  s.setFrm (fun f => { f with halfSts := tset f.halfSts p new })

/-- The core that an error at a unit marks: the core itself, or the one whose DMA engine has failed (Table 5.8). -/
def markedCore (u : UnitId) : UnitId := if u.ty = 2 then ⟨1, u.idx⟩ else u

/-- Counters and sticky bits of an error. -/
def State.errorMarks (s : State) (u : UnitId) (e : SlotEnd) : State :=
  let core := u.ty == 1
  let c := endCause e
  let s0 := s.transientOf u
  let s1 := if (core && c.1 != 0) || (u.ty == 2 && c.2) then s0.markHalf u.idx c.1 (if c.2 then none else endHalf e) else s0
  match e with
  | .csUe _ =>
    let s2 := (s1.bump Reg.MEM_CNT_CS_UE 1).stick Reg.MEM_STATUS 1
    if core then s2.stick Reg.FAC_STATUS 1 else s2
  | .facet .sequencer _ _ => s1.stick Reg.FAC_STATUS 2
  | .facet _ _ _ => (s1.bump Reg.FAC_CNT_PARITY 1).stick Reg.FAC_STATUS 0
  | _ => s1

/-- A stack that the slot touches is at throttle: its own for an update engine (R30), else one of those that the planned slot
touches, which its command names (log entry 56). -/
def State.touchedHot (s : State) (d : SlotDesc) (touched : BitVec 8) : Bool :=
  (List.range 8).any (fun i => decide ((s.stack i).state = .throttle)
    && (if d.unit.ty = 4 then i == d.unit.idx else touched.getLsbD i))

/-- The planned length of a slot fits in the time left (R55). -/
def State.replayFits (s : State) (d : SlotDesc) (touched : BitVec 8) : Bool :=
  decide ((if s.touchedHot d touched then d.endThr else d.endNom) - d.start + s.slotTime ≤ s.slotSpan)

/-- A slot that may be replayed (R233, R396, R508). -/
def SlotDesc.replayable (d : SlotDesc) : Bool := d.unit.ty != 3 && (bit d.flags 0 || d.kind == 4)

/-- The slot runs again from its frame record, on the same half (R507). -/
def State.replayRun (s : State) (r : SlotRun) : State :=
  let s1 := s.setRun r.ref (fun x => { freshRun x.ref x.unit s.rc x.seen x.frame x.attempt with replay := true, half := x.half, carried := x.carried })
  let s2 := s1.setFrm (fun f => { f with replayedFrame := true })
  if r.half.isSome then s2.stick Reg.FAC_STATUS 5 else s2

/-- After the error's record: a core that has failed hard, a replay, or REPLAY_SKIPPED. -/
def State.afterError (s : State) (r : SlotRun) (d : SlotDesc) (e : SlotEnd) (touched : BitVec 8) : State :=
  let s1 := s.dropWork r
  if (s.run r.ref).isNone then s
  else if s1.unitIdle r.unit then s1.failRun (some r.ref)
  else if r.unit.ty = 1 ∧ (r.replay ∨ endFixed e) then (s1.failRun (some r.ref)).hardCore r.unit.idx
  else if d.replayable && s1.replayFits d touched then s1.replayRun r
  else (s1.failRun (some r.ref)).skipReplay r.unit

/-- The running halves of a core beside slot `r` that an error which marks both halves strikes too (Table 5.8). -/
def State.struckHalves (s : State) (r : SlotRun) (e : SlotEnd) : List SlotRun :=
  if (endCause e).2 then
    s.frm.slots.filter (fun x => x.ref != r.ref && decide (x.phase = .running) && x.half.isSome && x.unit == markedCore r.unit)
  else []

/-- What follows the error for a struck half: a replay of its own slot, under its own time condition (R170). -/
def State.afterStruck (s : State) (e : SlotEnd) (touched : BitVec 8) (x : SlotRun) : State :=
  match s.descOf x.ref with
  | some d => s.afterError x d e touched
  | none => s

/-- A slot attempt ends with an error. -/
def State.endError (s : State) (r : SlotRun) (d : SlotDesc) (e : SlotEnd) (c : RasClass) (touched : BitVec 8) : State :=
  let s1 := ((s.errorMarks r.unit e).raiseNoted c r.unit 0 (endHalf e == some true)).afterError r d e touched
  (s.struckHalves r e).foldl (fun (s : State) x => s.afterStruck e touched x) s1

/-- Core store words whose single-bit error was corrected while a slot ran (R336). -/
def State.csCorrected (s : State) (n : Nat) : State :=
  if n = 0 then s else (s.bump Reg.MEM_CNT_CS_CE n).stick Reg.MEM_STATUS 0

/-- SLOT_END (R49): the end of an attempt without error once its work is complete, or with an error; a collective ends only
when its engine has done all it can (R396). The core store words corrected in the attempt are counted. -/
def execSlotEnd (slot : SlotArg) (rc : BitVec 18) (result : SlotOutcome) (s : State) : Out :=
  let ref := refOf slot
  let s1 := (s.timeTo rc.toNat).csCorrected result.corrected.toNat
  .next (match s.run ref, s.descOf ref with
    | some r, some d =>
      if decide (r.phase ≠ .running) || !s.inTime rc.toNat then s
      else match endClass result.how with
        | none => if s.slotDone r then s1.endOk r d else s
        | some c => if r.unit.ty = 3 ∧ !r.last then s else s1.endError r d result.how c result.touched
    | _, _ => s)

end Sys2Proof.Machine
end

