-- ==== Sys2Proof/Machine/Trust.lean ====
section
/-! DEFINITION. Trust and attestation (chapter 17): measurements, attestation reports, the owner key, debug unlock and key
handles. -/

namespace Sys2Proof.Machine

/-! ### Measurements (Table 17.2) -/

/-- Content digest of measurement `i`. -/
def State.measurement (s : State) (i : Nat) : List Byte :=
  let im := s.bankImage s.boot.startedB
  match i with
  | 1 => Config.romMeasurement
  | 2 => componentDigest im 1
  | 3 => sha256 ((List.range 4).flatMap (fun j => componentDigest (s.bankImage (s.scp j).bankB) 2))
  | 4 => componentDigest im 3
  | 5 => componentDigest im 4
  | 6 => sha256 ((List.range 12).flatMap (fun j => s.slotImage (j + 4)))
  | 7 => sha256 (toLe 68 s.boot.fuses.coreMap.toNat
      ++ (List.range 544).flatMap (fun p => s.boot.fuses.coreRows p) ++ toLe 1 s.boot.fuses.aperture
      ++ toLe 1 s.sec.svnFloor)
  | 8 => sha256 (s.sec.ownerKey.getD (List.replicate 32 0))
  | 9 => sha256 (toLe 1 s.sec.debug ++ toLe 4 s.sec.ownerCounter)
  | _ => sha256 (match s.frm.curProg with
      | some p => p.digest ++ toLe 4 p.planId
      | none => List.replicate 36 0)

/-- Kind of measurement `i` (Table 17.2). -/
def measurementKind (i : Nat) : Nat :=
  if i = 1 then 0 else if i ≤ 5 then 1 else if i = 6 ∨ i = 10 then 3 else 2

/-- A 40-byte measurement record (Table 17.3). -/
def State.measRecord (s : State) (i : Nat) : List Byte :=
  toLe 1 i ++ toLe 1 (measurementKind i) ++ [0, 0] ++ toLe 4 (tget 0 s.sec.measChanges i) ++ slice (s.measurement i) 0 32

def State.allRecords (s : State) : List Byte := (List.range 10).flatMap (fun j => s.measRecord (j + 1))

/-! ### Attestation (R554) -/

/-- The report of Table 17.3 before its signature. -/
def State.reportBody (s : State) (nonce : List Byte) : List Byte :=
  let flags := b2n s.sec.ownerKey.isSome + 2 * b2n s.boot.fallback
    + 4 * b2n s.sec.certValid + 8 * bits (s.readReg Reg.SEC_STATE).toNat 4 4 + 16 * b2n s.lnk.station.isSome
  toLe 4 0x54535441 ++ toLe 2 1 ++ toLe 2 10 ++ slice nonce 0 32 ++ s.identity
    ++ imageVersion (s.bankImage (s.scp 0).bankB) ++ toLe 2 (u16At (s.bankImage s.boot.startedB) 6)
    ++ toLe 2 s.sec.svnFloor ++ toLe 1 s.boot.fuses.aperture ++ toLe 1 s.boot.running ++ toLe 1 s.sec.debug
    ++ toLe 1 flags ++ toLe 2 (s.lnk.station.getD 0) ++ [0, 0] ++ toLe 4 s.boot.persist.startNo
    ++ toLe 8 s.frm.tick.toNat ++ slice (s.sec.ownerKey.getD []) 0 32 ++ List.replicate 16 0 ++ s.allRecords

/-- An identity-key signature, counted (native and SPDM alike). Its randomness is a free value (log entry 58); a request never
waits for another's signature, as R544 bounds it, since each is made when it is asked for. -/
def State.signed (s : State) (ctx msg : List Byte) : List Byte × State :=
  (slhSign slhFast idSecret ctx msg (Config.randomBytes s.freeCtr),
    ({ s with freeCtr := s.freeCtr + 1 }).bump Reg.SEC_CNT_ATTEST 1)

/-- ATTEST (R554, R560). -/
def execAttest (m : BitVec 6) (s : State) : Out :=
  .next (s.welfy 0x0801 m fun ps s =>
    let dst := u64At ps 32
    if !s.paramOk dst 17616 true then s.no .addrInvalid
    else
      let body := s.reportBody (slice ps 0 32)
      let g := s.signed (asciiBytes "V9T-ATTEST") body
      let rep := body ++ g.1
      (g.2.store dst rep).ok (toLe 4 rep.length ++ sha256 rep))

/-- The chain that software sees: empty without CERT_VALID (R552). -/
def State.shownChain (s : State) : List Byte := if s.sec.certValid then s.sec.chain else []

/-- CERT_CHAIN_READ (R552, R560). -/
def execCertChainRead (m : BitVec 6) (s : State) : Out :=
  .next (s.welfy 0x0802 m fun ps s =>
    let dst := u64At ps 0
    let c := s.shownChain
    if !s.paramOk dst c.length true then s.no .addrInvalid
    else (s.store dst c).ok (toLe 4 c.length ++ toLe 1 (if c.isEmpty then 0 else 3) ++ [0, 0, 0] ++ sha256 c))

/-- MEASUREMENTS_READ (R553, R560). -/
def execMeasurementsRead (m : BitVec 6) (s : State) : Out :=
  .next (s.welfy 0x0803 m fun ps s =>
    let i := u8At ps 0
    if i = 0xFF then s.ok (toLe 8 s.frm.tick.toNat ++ s.allRecords)
    else if i < 1 ∨ 10 < i then s.bad 0
    else s.ok (toLe 8 s.frm.tick.toNat ++ s.measRecord i))

/-! ### The owner key (R548) -/

/-- A failed authorisation signature. -/
def State.authFailed (s : State) : State := (s.bump Reg.SEC_CNT_SIG_FAIL 1).stick Reg.SEC_STATUS 0

/-- Check 1 of R548: the authorising signature where a key is enrolled. -/
def State.ownerAuthorised (s : State) (key sig : List Byte) : Bool :=
  match s.sec.ownerKey with
  | none => true
  | some k => slhVerify slhSmall k (asciiBytes "V9T-OWN") (key ++ s.identity ++ toLe 4 (s.sec.ownerCounter + 1)) sig

/-- Check 2 of R548: every valid bank holds an OWNER_SIG of the new key. -/
def State.banksSigned (s : State) (key : List Byte) : Bool :=
  let ok := fun (im : List Byte) =>
    slhVerify slhSmall key (asciiBytes "V9T-FW") (slice im 0 256) (slice im 8112 7856)
  (!s.boot.persist.aValid || ok s.boot.bankA) && (!s.boot.persist.bValid || ok s.boot.bankB)

/-- OWNER_KEY_ENROL (R548). -/
def execOwnerKeyEnrol (m : BitVec 6) (s : State) : Out :=
  .next (s.welfy 0x0804 m fun ps s =>
    let key := slice ps 0 32
    let addr := u64At ps 32
    let none? := zeroBytes key 0 32
    if s.sec.ownerKey.isSome && !s.paramOk addr 7856 false then s.no .addrInvalid
    else if !s.ownerAuthorised key (s.load addr 7856) then s.authFailed.no .sigInvalid
    else if !none? && !s.banksSigned key then s.authFailed.no .sigInvalid
    else if s.frm.epoch ≠ 0 then s.no .runLock
    else
      let c := (s.sec.ownerCounter + 1) % 2 ^ 32
      let s1 := { s with sec := { s.sec with
        ownerKey := if none? then none else some key, ownerCounter := c, ownerFuse := c } }
      (((s1.stick Reg.SEC_STATUS 3).measChanged 8).measChanged 9).ok (toLe 4 c))

/-! ### Debug unlock (R556, R557) -/

/-- DEBUG_CHALLENGE (R557): a fresh nonce replaces any earlier challenge; 600 s of validity. -/
def execDebugChallenge (m : BitVec 6) (s : State) : Out :=
  .next (s.welfy 0x0805 m fun ps s =>
    let l := u8At ps 0
    if l < 1 ∨ 2 < l then s.bad 0
    else
      let n := slice (Config.randomBytes s.freeCtr) 0 32
      let s1 := { s with freeCtr := s.freeCtr + 1, sec := { s.sec with challenge := some ⟨l, n, s.rc⟩ } }
      s1.ok (n ++ s.identity ++ toLe 4 600))

/-- A level 2 unlock clears the key table and every handle and moves the IDE streams to insecure (Table 17.5, R559). -/
def State.vendorUnlock (s : State) : State :=
  { s with
      sec := { s.sec with handles := [] },
      lnk := { s.lnk with keys := [], keysNext := [], keysOld := [] },
      host := s.host.ideEnd }

/-- DEBUG_UNLOCK (R557): the five checks in order; checks 4 and 5 consume the challenge. -/
def execDebugUnlock (m : BitVec 6) (s : State) : Out :=
  .next (s.welfy 0x0806 m fun ps s =>
    let l := u8At ps 0
    let addr := u64At ps 8
    let used := { s with sec := { s.sec with challenge := none } }
    if l < 1 ∨ 2 < l ∨ l ≤ s.sec.debug then s.bad 0
    else if l = 2 ∧ s.frm.epoch ≠ 0 then s.no .runLock
    else if l = 1 ∧ s.sec.ownerKey.isNone then s.no .debugLocked
    else if !s.paramOk addr 7856 false then s.no .addrInvalid
    else match s.sec.challenge with
      | none => s.no .challengeStale
      | some c =>
        if c.level ≠ l ∨ c.rc + 60000000000 ≤ s.rc then used.no .challengeStale
        else
          let key := if l = 1 then s.sec.ownerKey.getD [] else Config.debugKey
          if !slhVerify slhSmall key (asciiBytes "V9T-DBG") (c.nonce ++ s.identity ++ toLe 1 l) (s.load addr 7856) then
            ((used.bump Reg.SEC_CNT_DEBUG_FAIL 1).stick Reg.SEC_STATUS 5).no .sigInvalid
          else
            let s1 := { used with sec := { used.sec with debug := l } }
            let s2 := (s1.stick Reg.SEC_STATUS 4).measChanged 9
            (if l = 2 then s2.vendorUnlock else s2).ok (toLe 1 l))

/-- CHALLENGE_EXPIRY (R557): 600 s after it was issued a challenge is no longer valid. -/
def execChallengeExpiry (s : State) : Out :=
  .next (match s.sec.challenge with
    | some c => if c.rc + 60000000000 ≤ s.rc then { s with sec := { s.sec with challenge := none } } else s
    | none => s)

/-! ### Key handles (R558) -/

/-- A Dreska key entry names a handle. -/
def State.handleNamed (s : State) (h : Nat) : Bool :=
  let named := fun (e : Option KeyEntry) => match e with
    | some k => k.handle == h
    | none => false
  s.lnk.keys.any (fun e => named e.2) || s.lnk.keysNext.any (fun e => named e.2) || s.lnk.keysOld.any (fun e => named e.2)

/-- KEY_HANDLE_CREATE (R558): creates a handle for a key, or destroys one; a handle that does not exist is KEY_UNKNOWN
(DEDUCED, log entry 58). -/
def execKeyHandleCreate (m : BitVec 6) (s : State) : Out :=
  .next (s.welfy 0x0807 m fun ps s =>
    let h := u32At ps 0
    if h = 0 then
      if 1024 ≤ s.sec.handles.length then s.no .keyUnknown
      else
        let n := s.sec.nextHandle
        ({ s with sec := { s.sec with
            handles := tset s.sec.handles n (slice ps 16 32), nextHandle := n + 1 } }).ok (toLe 4 n)
    else if !zeroBytes ps 16 32 then s.bad 16
    else if !(s.sec.handles.any (fun e => e.1 == h)) then s.no .keyUnknown
    else if s.handleNamed h then s.no .runLock
    else ({ s with sec := { s.sec with handles := s.sec.handles.filter (fun e => e.1 != h) } }).ok (toLe 4 h))

end Sys2Proof.Machine
end

