-- ==== Sys2Proof/Machine/Spdm.lean ====
section
/-! DEFINITION. The SPDM responder of the security processor (R544, R555, R559). Table 17.4 says what it serves; codes,
message layouts, transcripts and the key schedule are PRESUMED from the DMTF standard that it names (log entry 19). A request
with `session` is what that session's AEAD has opened. -/

namespace Sys2Proof

open Machine

/-- A request's bytes. -/
def SpdmReq.bytes (r : SpdmReq) (code : Nat) : List Byte :=
  [r.version, BitVec.ofNat 8 code, r.param1, r.param2] ++ r.body

def SpdmReq.ver (r : SpdmReq) : Nat := r.version.toNat

/-- The requester's context, which version 1.3 returns. -/
def SpdmReq.context (r : SpdmReq) (at' : Nat) : List Byte := if r.ver = 0x13 then slice r.body at' 8 else []

end Sys2Proof

namespace Sys2Proof.Machine

/-- What a request is answered with, and the state after it. -/
abbrev SpdmOut := List Byte × State

/-- A message: version, code, two parameters and the rest. -/
def spdmMsg (ver code p1 p2 : Nat) (rest : List Byte) : List Byte :=
  toLe 1 ver ++ toLe 1 code ++ toLe 1 p1 ++ toLe 1 p2 ++ rest

def State.setSpdm (s : State) (f : SpdmState → SpdmState) : State :=
  { s with sec := { s.sec with spdm := f s.sec.spdm } }

/-- An ERROR response is counted and flagged (Table 17.6). -/
def State.spdmFault (s : State) (ver code : Nat) (rest : List Byte) : SpdmOut :=
  (spdmMsg ver 0x7F code 0 rest, (s.bump Reg.SEC_CNT_SPDM_ERR 1).stick Reg.SEC_STATUS 7)

def State.spdmError (s : State) (ver code : Nat) : SpdmOut := s.spdmFault ver code []

/-- A message as it leaves: one above the requester's transfer size, or above 4,096 bytes, is kept, and the requester is told
to fetch it in chunks. -/
def SpdmOut.fit (r : SpdmOut) (ver : Nat) : SpdmOut :=
  if r.1.length ≤ Nat.min r.2.sec.spdm.limit 4096 then r
  else
    let h := r.2.sec.spdm.nextHandle % 256
    (r.2.setSpdm fun x => { x with large := some (h, r.1), nextHandle := h + 1 }).spdmFault ver 0x0F (toLe 1 h)

/-- The response leaves. -/
def SpdmOut.send (r : SpdmOut) (ver : Nat) : State :=
  let f := r.fit ver
  f.2.setSpdm fun x => { x with out := x.out ++ [f.1] }

/-! ### Order of requests -/

/-- A request before the connection is negotiated, or of another version, is answered with ERROR; else `f` runs. -/
def State.spdmIf (s : State) (r : SpdmReq) (f : State → SpdmOut) : SpdmOut :=
  let x := s.sec.spdm
  if x.version.isSome && x.version != some r.ver then s.spdmError r.ver 0x41
  else if x.algos && x.version.isSome then f s
  else s.spdmError r.ver 0x04

/-- The open session that carries a request. -/
def State.spdmSession (s : State) (r : SpdmReq) : Option SpdmSession :=
  match r.session with
  | none => none
  | some i => s.sec.spdm.sessions.find? (fun x => x.id == i.toNat)

/-- A request that only a finished session may carry. -/
def State.spdmSecured (s : State) (r : SpdmReq) (f : SpdmSession → State → SpdmOut) : SpdmOut :=
  s.spdmIf r fun s => match s.spdmSession r with
    | some x => if x.finished then f x s else s.spdmError r.ver 0x04
    | none => s.spdmError r.ver 0x0B

/-- The transcript of certificate requests ends with a request of another kind, that of measurement requests likewise. -/
def State.dropLogs (s : State) (cert meas : Bool) : State :=
  s.setSpdm fun x => { x with certLog := if cert then [] else x.certLog, measLog := if meas then [] else x.measLog }

def State.endSession (s : State) (id : Nat) : State :=
  s.setSpdm fun y => { y with sessions := y.sessions.filter (fun z => z.id != id) }

/-! ### Negotiation -/

/-- GET_VERSION: the connection begins anew, without sessions; versions 1.3 and 1.2. -/
def spdmVersion (r : SpdmReq) (s : State) : SpdmOut :=
  let m := spdmMsg 0x10 0x04 0 0 ([0, 2] ++ toLe 2 0x1300 ++ toLe 2 0x1200)
  (m, s.setSpdm fun x => { SpdmState.reset with
    out := x.out, nextSession := x.nextSession, nextHandle := x.nextHandle, vca := r.bytes 0x84 ++ m })

/-- GET_CAPABILITIES: CERT, CHAL, MEAS with signature, MEAS_FRESH, ENCRYPT, MAC, KEY_EX, HBEAT, KEY_UPD and CHUNK; transfer
sizes 4,096 and 65,536. The request gives the requester's own transfer size. -/
def spdmCapabilities (r : SpdmReq) (s : State) : SpdmOut :=
  if r.ver ≠ 0x12 ∧ r.ver ≠ 0x13 then s.spdmError r.ver 0x41
  else if s.sec.spdm.vca.isEmpty then s.spdmError r.ver 0x04
  else
    let m := spdmMsg r.ver 0x61 0 0 ([0, 0, 0, 0] ++ toLe 4 0x000262F6 ++ toLe 4 4096 ++ toLe 4 65536)
    let n := u32At r.body 8
    if n < 42 then s.spdmError r.ver 0x01
    else (m, s.setSpdm fun x => { x with
      version := some r.ver, caps := true, limit := n, vca := x.vca ++ r.bytes 0xE1 ++ m })

/-- NEGOTIATE_ALGORITHMS: the extended asymmetric algorithm of PCI-SIG, vendor 0x1F3C, number 1, and no base one; SHA-256; DMTF
measurements; secp384r1, AES-256-GCM and the SPDM key schedule. -/
def spdmAlgorithms (r : SpdmReq) (s : State) : SpdmOut :=
  let x := s.sec.spdm
  if x.version != some r.ver then s.spdmError r.ver 0x41
  else if !x.caps then s.spdmError r.ver 0x04
  else
    let ext := [3, 0] ++ toLe 2 vendorId ++ toLe 2 1
    let fixed := [1, 2] ++ toLe 4 2 ++ toLe 4 0 ++ toLe 4 1 ++ List.replicate 12 0 ++ [1, 0, 0, 0]
    let tables := [2, 0x20] ++ toLe 2 0x10 ++ [3, 0x20] ++ toLe 2 2 ++ [5, 0x20] ++ toLe 2 1
    let m := spdmMsg r.ver 0x63 3 0 (toLe 2 (6 + fixed.length + ext.length + tables.length) ++ fixed ++ ext ++ tables)
    (m, s.setSpdm fun x => { x with algos := true, vca := x.vca ++ r.bytes 0xE3 ++ m })

/-! ### Certificates -/

/-- The chain of slot 0 as SPDM carries it: length, digest of the root certificate, certificates; empty without CERT_VALID
(R552). -/
def State.spdmChain (s : State) : List Byte :=
  let c := s.shownChain
  if c.isEmpty then []
  else toLe 2 (36 + c.length) ++ [0, 0] ++ sha256 (slice c 0 (4 + beNat (slice c 2 2))) ++ c

/-- A certificate request with its answer, in the transcript. -/
def State.certSaid (s : State) (r : SpdmReq) (code : Nat) (m : List Byte) : SpdmOut :=
  (m, s.setSpdm fun x => { x with certLog := x.certLog ++ r.bytes code ++ m, measLog := [] })

/-- GET_DIGESTS: slot 0. -/
def spdmDigests (r : SpdmReq) (s : State) : SpdmOut :=
  s.spdmIf r fun s => s.certSaid r 0x81 (spdmMsg r.ver 0x01 0 1 (sha256 s.spdmChain))

/-- GET_CERTIFICATE: slot 0 only; the portion asked for. -/
def spdmCertificate (r : SpdmReq) (s : State) : SpdmOut :=
  s.spdmIf r fun s =>
    if r.param1 ≠ 0 then s.spdmError r.ver 0x01
    else
      let c := s.spdmChain
      let off := u16At r.body 0
      let n := Nat.min (u16At r.body 2) (c.length - off)
      s.certSaid r 0x82 (spdmMsg r.ver 0x02 0 0 (toLe 2 n ++ toLe 2 (c.length - off - n) ++ slice c off n))

/-! ### Signed answers -/

/-- What SPDM signs: a prefix of 100 bytes that names the version and the purpose, and the digest of the transcript. -/
def spdmSigned (ver : Nat) (purpose : String) (log : List Byte) : List Byte :=
  let v := asciiBytes (if ver = 0x12 then "dmtf-spdm-v1.2.*" else "dmtf-spdm-v1.3.*")
  let p := asciiBytes ("responder-" ++ purpose ++ " signing")
  v ++ v ++ v ++ v ++ List.replicate (36 - p.length) 0 ++ p ++ sha256 log

/-- 32 random bytes, and the state after the draw. -/
def State.nonce (s : State) : List Byte × State :=
  (slice (Config.randomBytes s.freeCtr) 0 32, { s with freeCtr := s.freeCtr + 1 })

/-- A DMTF measurement block; its value is that of the native report (R555). -/
def State.measBlock (s : State) (i : Nat) : List Byte :=
  toLe 1 i ++ [1] ++ toLe 2 35 ++ toLe 1 (measurementKind i) ++ toLe 2 32 ++ slice (s.measurement i) 0 32

/-- The summary of measurements that a request asks for: none, those of immutable and mutable firmware (1), or all (0xFF). -/
def State.measSummary (s : State) (kind : Nat) : List Byte :=
  if kind = 0xFF then sha256 ((List.range 10).flatMap (fun i => s.measBlock (i + 1)))
  else if kind = 1 then sha256 ((List.range 5).flatMap (fun i => s.measBlock (i + 1)))
  else []

/-- CHALLENGE: slot 0; signed over the negotiation, the certificate requests and itself. -/
def spdmChallenge (r : SpdmReq) (s : State) : SpdmOut :=
  s.spdmIf r fun s =>
    let kind := r.param2.toNat
    if r.param1 ≠ 0 ∨ (kind ≠ 0 ∧ kind ≠ 1 ∧ kind ≠ 0xFF) then s.spdmError r.ver 0x01
    else
      let n := s.nonce
      let m := spdmMsg r.ver 0x03 0 1
        (sha256 s.spdmChain ++ n.1 ++ s.measSummary kind ++ toLe 2 0 ++ r.context 32)
      let g := n.2.signed [] (spdmSigned r.ver "challenge_auth"
        (s.sec.spdm.vca ++ s.sec.spdm.certLog ++ r.bytes 0x83 ++ m))
      (m ++ g.1, g.2.dropLogs true true)

/-- GET_MEASUREMENTS: index 0 for their number, 0xFF for all; signed where asked, over the negotiation and the measurement
requests since the last signature. -/
def spdmMeasurements (r : SpdmReq) (s : State) : SpdmOut :=
  s.spdmIf r fun s =>
    let i := r.param2.toNat
    let sign := r.param1.getLsbD 0
    if (i ≠ 0xFF ∧ 10 < i) ∨ (sign ∧ byteAt r.body 32 ≠ 0) then s.spdmError r.ver 0x01
    else
      let idx := if i = 0xFF then (List.range 10).map (· + 1) else if i = 0 then [] else [i]
      let blocks := idx.flatMap s.measBlock
      let n := s.nonce
      let m := spdmMsg r.ver 0x60 (if i = 0 then 10 else 0) 0
        (toLe 1 idx.length ++ toLe 3 blocks.length ++ blocks ++ n.1 ++ toLe 2 0 ++ r.context (if sign then 33 else 0))
      let log := s.sec.spdm.measLog ++ r.bytes 0xE0 ++ m
      if sign then
        let g := n.2.signed [] (spdmSigned r.ver "measurements" (s.sec.spdm.vca ++ log))
        (m ++ g.1, g.2.dropLogs true true)
      else (m, (n.2.dropLogs true false).setSpdm fun x => { x with measLog := log })

/-! ### Sessions -/

/-- A label of the key schedule with its context. -/
def spdmLabel (ver : Nat) (label : String) (ctx : List Byte) : List Byte :=
  toLe 2 32 ++ asciiBytes (if ver = 0x12 then "spdm1.2 " else "spdm1.3 ") ++ asciiBytes label ++ ctx

/-- 32 bytes expanded from a secret. -/
def spdmExpand (secret info : List Byte) : List Byte := hkdfBlocks secret info 1 1 []

/-- The key that checks one direction's verify data, from the shared secret and the digest of the transcript. -/
def spdmFinishKey (ver : Nat) (shared : List Byte) (label : String) (log : List Byte) : List Byte :=
  let hs := spdmExpand (hmacSha256 (List.replicate 32 0) shared) (spdmLabel ver label (sha256 log))
  spdmExpand hs (spdmLabel ver "finished" [])

/-- KEY_EXCHANGE: a new session, up to 4 at once, over secp384r1; signed. The device's secret number is a random draw. -/
def spdmKeyExchange (r : SpdmReq) (s : State) : SpdmOut :=
  s.spdmIf r fun s =>
    let kind := r.param1.toNat
    if 4 ≤ s.sec.spdm.sessions.length then s.spdmError r.ver 0x0A
    else if r.param2 ≠ 0 ∨ (kind ≠ 0 ∧ kind ≠ 1 ∧ kind ≠ 0xFF) then s.spdmError r.ver 0x01
    else match bytesPoint (slice r.body 36 96) with
      | none => s.spdmError r.ver 0x01
      | some peer =>
        let d := beNat (slice (Config.randomBytes s.freeCtr) 0 48)
        let n := ({ s with freeCtr := s.freeCtr + 1 }).nonce
        let own := s.sec.spdm.nextSession % 65536
        let id := u16At r.body 0 + 65536 * own
        let m := spdmMsg r.ver 0x64 0 0 (toLe 2 own ++ [0, 0] ++ n.1 ++ pointBytes (curveMul curveBase d 384)
          ++ s.measSummary kind ++ toLe 2 0)
        let log := s.sec.spdm.vca ++ sha256 s.spdmChain ++ r.bytes 0xE4 ++ m
        let g := n.2.signed [] (spdmSigned r.ver "key_exchange_rsp" log)
        let shared := (pointBytes (curveMul peer d 384)).take 48
        let log1 := log ++ g.1
        let check := hmacSha256 (spdmFinishKey r.ver shared "rsp hs data" log1) (sha256 log1)
        let x : SpdmSession := ⟨id, false, log1 ++ check, spdmFinishKey r.ver shared "req hs data" log1⟩
        (m ++ g.1 ++ check, (g.2.dropLogs true true).setSpdm fun y => { y with
          sessions := y.sessions ++ [x], nextSession := own + 1 })

/-- FINISH: good verify data completes the session; bad data ends it with ERROR. -/
def spdmFinish (r : SpdmReq) (s : State) : SpdmOut :=
  s.spdmIf r fun s => match s.spdmSession r with
    | none => s.spdmError r.ver 0x0B
    | some x =>
      if x.finished then s.spdmError r.ver 0x04
      else if hmacSha256 x.finishKey (sha256 (x.log ++ (r.bytes 0xE5).take 4)) = slice r.body 0 32 then
        (spdmMsg r.ver 0x65 0 0 [], (s.dropLogs true true).setSpdm fun y => { y with
          sessions := y.sessions.map (fun z => if z.id = x.id then { z with finished := true } else z) })
      else (s.endSession x.id).spdmError r.ver 0x06

/-- END_SESSION. -/
def spdmEndSession (r : SpdmReq) (s : State) : SpdmOut :=
  s.spdmSecured r fun x s => (spdmMsg r.ver 0x6C 0 0 [], (s.dropLogs true true).endSession x.id)

/-- HEARTBEAT. -/
def spdmHeartbeat (r : SpdmReq) (s : State) : SpdmOut :=
  s.spdmSecured r fun _ s => (spdmMsg r.ver 0x68 0 0 [], s.dropLogs true true)

/-- KEY_UPDATE: acknowledged with its operation and tag. -/
def spdmKeyUpdate (r : SpdmReq) (s : State) : SpdmOut :=
  s.spdmSecured r fun _ s =>
    if r.param1.toNat < 1 ∨ 3 < r.param1.toNat then s.spdmError r.ver 0x01
    else (spdmMsg r.ver 0x69 r.param1.toNat r.param2.toNat [], s.dropLogs true true)

/-! ### IDE_KM (R559) -/

/-- A request of IDE_KM: protocol (0 CXL.io, 1 CXL.cachemem), object, stream, key set with direction and substream, port, and
what follows. -/
structure IdeKm where
  protocol : Nat
  object : Nat
  stream : Nat
  sub : Nat
  port : Nat
  rest : List Byte

/-- A body of the PCI-SIG, read as IDE_KM. -/
def ideKm (b : List Byte) : Option IdeKm :=
  if u16At b 0 = 3 ∧ u8At b 2 = 2 ∧ u16At b 3 = 1 ∧ u8At b 7 ≤ 1 then
    some ⟨u8At b 7, u8At b 8, u8At b 11, u8At b 13, u8At b 14, b.drop 15⟩
  else none

/-- The stream of a request, and its key. -/
def IdeKm.streamNo (k : IdeKm) : Nat := k.protocol * 256 + k.stream
def IdeKm.keyNo (k : IdeKm) : Nat := k.streamNo * 256 + k.sub

/-- A key of this stream may be held: CXL.io has one link and one selective stream, CXL.cachemem one (Table 13.1). -/
def HostState.ideRoom (h : HostState) (k : IdeKm) : Bool :=
  let held := ((h.ideKeys.map (fun e => e.1 / 256)).eraseDups.filter (fun n => n / 256 == k.protocol && n != k.streamNo)).length
  decide (held < if k.protocol = 0 then 2 else 1)

/-- The streams that run, and with them IDE_IO and IDE_CM (Table 13.16). -/
def HostState.setIde (h : HostState) (on : List Nat) : HostState :=
  { h with ideOn := on, ideIo := on.any (fun n => decide (n < 256)), ideCm := on.any (fun n => decide (256 ≤ n)) }

/-- An IDE_KM request: the answer's object and its bytes, and the host side after it; none for an object that a device does
not serve. -/
def HostState.ideServe (h : HostState) (k : IdeKm) : Option (List Byte × HostState) :=
  let head := fun (object status : Nat) =>
    toLe 1 k.protocol ++ toLe 1 object ++ [0, 0] ++ toLe 1 k.stream ++ toLe 1 status ++ toLe 1 k.sub ++ toLe 1 k.port
  match k.object with
  | 0 => some (toLe 1 k.protocol ++ [1, 0] ++ slice (toLe 1 k.stream) 0 5, h)
  | 2 =>
    if k.rest.length < 40 then some (head 3 1, h)
    else if h.ideRoom k then some (head 3 0, { h with ideKeys := tset h.ideKeys k.keyNo (k.rest.take 40) })
    else some (head 3 3, h)
  | 4 =>
    if h.ideKeys.any (fun e => e.1 == k.keyNo) then
      some (head 6 0, h.setIde (if h.ideOn.contains k.streamNo then h.ideOn else h.ideOn ++ [k.streamNo]))
    else none
  | 5 =>
    some (head 6 0, ({ h with ideKeys := h.ideKeys.filter (fun e => e.1 != k.keyNo) }).setIde
      (h.ideOn.filter (fun n => n != k.streamNo)))
  | _ => none

/-- VENDOR_DEFINED_REQUEST: IDE_KM inside a secured session. -/
def spdmVendor (r : SpdmReq) (s : State) : SpdmOut :=
  s.spdmSecured r fun _ s => match ideKm r.body with
    | none => s.spdmError r.ver 0x07
    | some k => match s.host.ideServe k with
      | none => s.spdmError r.ver 0x01
      | some o => (spdmMsg r.ver 0x7E 0 0 (slice r.body 0 5 ++ toLe 2 o.1.length ++ o.1),
          ({ s with host := o.2 }).dropLogs true true)

/-! ### Chunks -/

/-- The answer to a whole request of a code; another is not supported. -/
def spdmServe (code : Nat) (r : SpdmReq) (s : State) : SpdmOut :=
  match code with
  | 0x84 => spdmVersion r s
  | 0xE1 => spdmCapabilities r s
  | 0xE3 => spdmAlgorithms r s
  | 0x81 => spdmDigests r s
  | 0x82 => spdmCertificate r s
  | 0x83 => spdmChallenge r s
  | 0xE0 => spdmMeasurements r s
  | 0xE4 => spdmKeyExchange r s
  | 0xE5 => spdmFinish r s
  | 0xEC => spdmEndSession r s
  | 0xE8 => spdmHeartbeat r s
  | 0xE9 => spdmKeyUpdate r s
  | 0xFE => spdmVendor r s
  | _ => s.spdmError r.ver 0x07

/-- A chunk of a request: the first names the size of the whole, at most 65,536 bytes. A chunk out of its order ends the
transfer. -/
def State.takeChunk (s : State) (r : SpdmReq) : Option (Nat × Nat × Nat × List Byte) :=
  let n := u16At r.body 0
  let len := u32At r.body 4
  let handle := r.param2.toNat
  if n = 0 then some (handle, 1, u32At r.body 8, slice r.body 12 len)
  else match s.sec.spdm.chunk with
    | some c => if c.1 = handle ∧ c.2.1 = n then some (handle, n + 1, c.2.2.1, c.2.2.2 ++ slice r.body 8 len) else none
    | none => none

/-- CHUNK_SEND: chunks gathered; the last one has the whole request served, and its acknowledgement carries the answer. -/
def spdmChunkSend (r : SpdmReq) (s : State) : SpdmOut :=
  s.spdmIf r fun s =>
    let ack := fun (rest : List Byte) => spdmMsg r.ver 0x05 0 r.param2.toNat (toLe 2 (u16At r.body 0) ++ rest)
    let idle := s.setSpdm fun x => { x with chunk := none }
    match s.takeChunk r with
    | none => idle.spdmError r.ver 0x01
    | some c =>
      let all := c.2.2.2
      if 65536 < c.2.2.1 ∨ c.2.2.1 < all.length then idle.spdmError r.ver 0x0E
      else if r.param1.getLsbD 0 then
        if all.length ≠ c.2.2.1 then idle.spdmError r.ver 0x01
        else
          let q : SpdmReq := ⟨r.session, byteAt all 0, byteAt all 2, byteAt all 3, all.drop 4⟩
          let o := (spdmServe (u8At all 1) q idle).fit r.ver
          (ack o.1, o.2)
      else (ack [], s.setSpdm fun x => { x with chunk := some c })

/-- CHUNK_GET: the next chunk of a large response; the first names the size of the whole. -/
def spdmChunkGet (r : SpdmReq) (s : State) : SpdmOut :=
  s.spdmIf r fun s => match s.sec.spdm.large with
    | none => s.spdmError r.ver 0x01
    | some l =>
      let n := u16At r.body 0
      let room := Nat.min s.sec.spdm.limit 4096 - 12
      let from' := if n = 0 then 0 else n * room - 4
      let c := (l.2.drop from').take (if n = 0 then room - 4 else room)
      let last := decide (l.2.length ≤ from' + c.length)
      if l.1 ≠ r.param2.toNat ∨ c.isEmpty then s.spdmError r.ver 0x01
      else (spdmMsg r.ver 0x06 (b2n last) l.1 (toLe 2 n ++ [0, 0] ++ toLe 4 c.length
          ++ (if n = 0 then toLe 4 l.2.length else []) ++ c),
        s.setSpdm fun x => { x with large := if last then none else x.large })

/-! ### The rows -/

/-- GET_VERSION. -/
def execGetVersion (r : SpdmReq) (s : State) : Out := .next ((spdmVersion r s).send r.ver)

/-- GET_CAPABILITIES. -/
def execGetCapabilities (r : SpdmReq) (s : State) : Out := .next ((spdmCapabilities r s).send r.ver)

/-- NEGOTIATE_ALGORITHMS. -/
def execNegotiateAlgorithms (r : SpdmReq) (s : State) : Out := .next ((spdmAlgorithms r s).send r.ver)

/-- GET_DIGESTS. -/
def execGetDigests (r : SpdmReq) (s : State) : Out := .next ((spdmDigests r s).send r.ver)

/-- GET_CERTIFICATE. -/
def execGetCertificate (r : SpdmReq) (s : State) : Out := .next ((spdmCertificate r s).send r.ver)

/-- CHALLENGE. -/
def execChallenge (r : SpdmReq) (s : State) : Out := .next ((spdmChallenge r s).send r.ver)

/-- GET_MEASUREMENTS. -/
def execGetMeasurements (r : SpdmReq) (s : State) : Out := .next ((spdmMeasurements r s).send r.ver)

/-- KEY_EXCHANGE. -/
def execKeyExchange (r : SpdmReq) (s : State) : Out := .next ((spdmKeyExchange r s).send r.ver)

/-- FINISH. -/
def execFinish (r : SpdmReq) (s : State) : Out := .next ((spdmFinish r s).send r.ver)

/-- END_SESSION. -/
def execEndSession (r : SpdmReq) (s : State) : Out := .next ((spdmEndSession r s).send r.ver)

/-- HEARTBEAT. -/
def execHeartbeat (r : SpdmReq) (s : State) : Out := .next ((spdmHeartbeat r s).send r.ver)

/-- KEY_UPDATE. -/
def execKeyUpdate (r : SpdmReq) (s : State) : Out := .next ((spdmKeyUpdate r s).send r.ver)

/-- CHUNK_SEND. -/
def execChunkSend (r : SpdmReq) (s : State) : Out := .next ((spdmChunkSend r s).send r.ver)

/-- CHUNK_GET. -/
def execChunkGet (r : SpdmReq) (s : State) : Out := .next ((spdmChunkGet r s).send r.ver)

/-- VENDOR_DEFINED_REQUEST. -/
def execVendorDefinedRequest (r : SpdmReq) (s : State) : Out := .next ((spdmVendor r s).send r.ver)

end Sys2Proof.Machine
end

