-- ==== Sys2Proof/Machine/Dispatch.lean ====
section
/-! DEFINITION. The dispatch: one arm for each row of the opcode table, each a call of that row's meaning. -/

namespace Sys2Proof.Machine

def exec (i : Instr) (s : State) : Host.Outcome State Fault Refusal :=
  match i with
  | .submit m width store => Sys2Proof.Machine.execSubmit m width store s
  | .ack m width rsv => Sys2Proof.Machine.execAck m width rsv s
  | .dispatchDb width value => Sys2Proof.Machine.execDispatchDb width value s
  | .commandAreaStore m off data => Sys2Proof.Machine.execCommandAreaStore m off data s
  | .registerStore off width value => Sys2Proof.Machine.execRegisterStore off width value s
  | .trappedStoreExec => Sys2Proof.Machine.execTrappedStoreExec s
  | .identify m => Sys2Proof.Machine.execIdentify m s
  | .mbxAbort m => Sys2Proof.Machine.execMbxAbort m s
  | .opQuery m => Sys2Proof.Machine.execOpQuery m s
  | .irqConfig m => Sys2Proof.Machine.execIrqConfig m s
  | .deviceReset m => Sys2Proof.Machine.execDeviceReset m s
  | .echo m => Sys2Proof.Machine.execEcho m s
  | .mbxCounters m => Sys2Proof.Machine.execMbxCounters m s
  | .regWrite m => Sys2Proof.Machine.execRegWrite m s
  | .hdmConfig m => Sys2Proof.Machine.execHdmConfig m s
  | .hostWindowConfig m => Sys2Proof.Machine.execHostWindowConfig m s
  | .frameProgramLoad m => Sys2Proof.Machine.execFrameProgramLoad m s
  | .layoutPlanLoad m => Sys2Proof.Machine.execLayoutPlanLoad m s
  | .modeArm m => Sys2Proof.Machine.execModeArm m s
  | .modeAbort m => Sys2Proof.Machine.execModeAbort m s
  | .modeRollback m => Sys2Proof.Machine.execModeRollback m s
  | .modeQuery m => Sys2Proof.Machine.execModeQuery m s
  | .tickSet m => Sys2Proof.Machine.execTickSet m s
  | .tickAlignConfig m => Sys2Proof.Machine.execTickAlignConfig m s
  | .frameCounters m => Sys2Proof.Machine.execFrameCounters m s
  | .memLayout m => Sys2Proof.Machine.execMemLayout m s
  | .memFlush m => Sys2Proof.Machine.execMemFlush m s
  | .memAddrDecode m => Sys2Proof.Machine.execMemAddrDecode m s
  | .memCounters m => Sys2Proof.Machine.execMemCounters m s
  | .hbmThermalQuery m => Sys2Proof.Machine.execHbmThermalQuery m s
  | .hbmRepair m => Sys2Proof.Machine.execHbmRepair m s
  | .hbmRepairQuery m => Sys2Proof.Machine.execHbmRepairQuery m s
  | .hbmMargin m margins => Sys2Proof.Machine.execHbmMargin m margins s
  | .stationQuery m => Sys2Proof.Machine.execStationQuery m s
  | .peerMapLoad m => Sys2Proof.Machine.execPeerMapLoad m s
  | .portQuery m => Sys2Proof.Machine.execPortQuery m s
  | .portControl m => Sys2Proof.Machine.execPortControl m s
  | .dreskaKeySet m => Sys2Proof.Machine.execDreskaKeySet m s
  | .dreskaKeyClear m => Sys2Proof.Machine.execDreskaKeyClear m s
  | .linkCounters m => Sys2Proof.Machine.execLinkCounters m s
  | .collCounters m => Sys2Proof.Machine.execCollCounters m s
  | .remoteProbe m times => Sys2Proof.Machine.execRemoteProbe m times s
  | .tensorConvert m => Sys2Proof.Machine.execTensorConvert m s
  | .quantCounters m => Sys2Proof.Machine.execQuantCounters m s
  | .prismSigns m => Sys2Proof.Machine.execPrismSigns m s
  | .facetMapQuery m => Sys2Proof.Machine.execFacetMapQuery m s
  | .facetCounters m => Sys2Proof.Machine.execFacetCounters m s
  | .accCounters m => Sys2Proof.Machine.execAccCounters m s
  | .accFirstNonfin m => Sys2Proof.Machine.execAccFirstNonfin m s
  | .trainStepConfig m => Sys2Proof.Machine.execTrainStepConfig m s
  | .stepSet m => Sys2Proof.Machine.execStepSet m s
  | .updProgramLoad m => Sys2Proof.Machine.execUpdProgramLoad m s
  | .updCounters m => Sys2Proof.Machine.execUpdCounters m s
  | .commitQuery m => Sys2Proof.Machine.execCommitQuery m s
  | .loupeLoad m => Sys2Proof.Machine.execLoupeLoad m s
  | .loupeSave m => Sys2Proof.Machine.execLoupeSave m s
  | .loupeEntryQuery m => Sys2Proof.Machine.execLoupeEntryQuery m s
  | .loupeStats m => Sys2Proof.Machine.execLoupeStats m s
  | .loupeHistory m => Sys2Proof.Machine.execLoupeHistory m s
  | .loupeCounters m => Sys2Proof.Machine.execLoupeCounters m s
  | .stashConfig m => Sys2Proof.Machine.execStashConfig m s
  | .farstashWindow m => Sys2Proof.Machine.execFarstashWindow m s
  | .stashGroupQuery m => Sys2Proof.Machine.execStashGroupQuery m s
  | .stashCounters m => Sys2Proof.Machine.execStashCounters m s
  | .seedSet m => Sys2Proof.Machine.execSeedSet m s
  | .rngEval m => Sys2Proof.Machine.execRngEval m s
  | .dspQueueTable m => Sys2Proof.Machine.execDspQueueTable m s
  | .dspQueueConfig m => Sys2Proof.Machine.execDspQueueConfig m s
  | .dspQueueQuery m => Sys2Proof.Machine.execDspQueueQuery m s
  | .dspCounters m => Sys2Proof.Machine.execDspCounters m s
  | .rasRecords m => Sys2Proof.Machine.execRasRecords m s
  | .powerFeedSet m => Sys2Proof.Machine.execPowerFeedSet m s
  | .mirrorPair m => Sys2Proof.Machine.execMirrorPair m s
  | .mirrorFill m => Sys2Proof.Machine.execMirrorFill m s
  | .coreMapIn m => Sys2Proof.Machine.execCoreMapIn m s
  | .flerraRead m => Sys2Proof.Machine.execFlerraRead m s
  | .checkpointExport m => Sys2Proof.Machine.execCheckpointExport m s
  | .checkpointImport m => Sys2Proof.Machine.execCheckpointImport m s
  | .logReplay m => Sys2Proof.Machine.execLogReplay m s
  | .rasCounters m => Sys2Proof.Machine.execRasCounters m s
  | .attest m => Sys2Proof.Machine.execAttest m s
  | .certChainRead m => Sys2Proof.Machine.execCertChainRead m s
  | .measurementsRead m => Sys2Proof.Machine.execMeasurementsRead m s
  | .ownerKeyEnrol m => Sys2Proof.Machine.execOwnerKeyEnrol m s
  | .debugChallenge m => Sys2Proof.Machine.execDebugChallenge m s
  | .debugUnlock m => Sys2Proof.Machine.execDebugUnlock m s
  | .keyHandleCreate m => Sys2Proof.Machine.execKeyHandleCreate m s
  | .fwUpdate m => Sys2Proof.Machine.execFwUpdate m s
  | .fwActivate m => Sys2Proof.Machine.execFwActivate m s
  | .bootJournalRead m => Sys2Proof.Machine.execBootJournalRead m s
  | .apertureSelect m => Sys2Proof.Machine.execApertureSelect m s
  | .fuseQuery m => Sys2Proof.Machine.execFuseQuery m s
  | .scpBankSwap m => Sys2Proof.Machine.execScpBankSwap m s
  | .trainSweep m => Sys2Proof.Machine.execTrainSweep m s
  | .selftestResults m => Sys2Proof.Machine.execSelftestResults m s
  | .telemetryRead m => Sys2Proof.Machine.execTelemetryRead m s
  | .powerQuery m => Sys2Proof.Machine.execPowerQuery m s
  | .dieThermalQuery m => Sys2Proof.Machine.execDieThermalQuery m s
  | .clockQuery m => Sys2Proof.Machine.execClockQuery m s
  | .energyModelRead m => Sys2Proof.Machine.execEnergyModelRead m s
  | .powerGuardConfig m => Sys2Proof.Machine.execPowerGuardConfig m s
  | .progressUpdate rec position => Sys2Proof.Machine.execProgressUpdate rec position s
  | .longOpEnd rec status => Sys2Proof.Machine.execLongOpEnd rec status s
  | .frameTick => Sys2Proof.Machine.execFrameTick s
  | .stretchRenew => Sys2Proof.Machine.execStretchRenew s
  | .stretchEnd => Sys2Proof.Machine.execStretchEnd s
  | .modeSwitch intact => Sys2Proof.Machine.execModeSwitch intact s
  | .retentionEnd => Sys2Proof.Machine.execRetentionEnd s
  | .rollbackApply => Sys2Proof.Machine.execRollbackApply s
  | .holdExpiry => Sys2Proof.Machine.execHoldExpiry s
  | .mapIn logical => Sys2Proof.Machine.execMapIn logical s
  | .alignRound now => Sys2Proof.Machine.execAlignRound now s
  | .workWindowEnd => Sys2Proof.Machine.execWorkWindowEnd s
  | .commitWindow => Sys2Proof.Machine.execCommitWindow s
  | .slotStart slot rc => Sys2Proof.Machine.execSlotStart slot rc s
  | .slotEnd slot rc result => Sys2Proof.Machine.execSlotEnd slot rc result s
  | .rowMode core half desc => Sys2Proof.Machine.execRowMode core half desc s
  | .columnMode core half desc => Sys2Proof.Machine.execColumnMode core half desc s
  | .backwardPair core half desc => Sys2Proof.Machine.execBackwardPair core half desc s
  | .gradientSum core half desc => Sys2Proof.Machine.execGradientSum core half desc s
  | .quantize unit desc => Sys2Proof.Machine.execQuantize unit desc s
  | .quantizeDual unit desc => Sys2Proof.Machine.execQuantizeDual unit desc s
  | .expand unit desc => Sys2Proof.Machine.execExpand unit desc s
  | .mxImport unit desc => Sys2Proof.Machine.execMxImport unit desc s
  | .mxExport unit desc => Sys2Proof.Machine.execMxExport unit desc s
  | .router core half desc => Sys2Proof.Machine.execRouter core half desc s
  | .dropout core half src dst stream p16 keep => Sys2Proof.Machine.execDropout core half src dst stream p16 keep s
  | .dispatch core desc => Sys2Proof.Machine.execDispatch core desc s
  | .returnRows core desc => Sys2Proof.Machine.execReturn core desc s
  | .combine core desc => Sys2Proof.Machine.execCombine core desc s
  | .jobEnd desc => Sys2Proof.Machine.execJobEnd desc s
  | .updateJob stack desc => Sys2Proof.Machine.execUpdateJob stack desc s
  | .endProg stack => Sys2Proof.Machine.execEndProg stack s
  | .sldp stack d imm => Sys2Proof.Machine.execSldp stack d imm s
  | .sldi stack d imm => Sys2Proof.Machine.execSldi stack d imm s
  | .sldt stack d imm => Sys2Proof.Machine.execSldt stack d imm s
  | .sadd stack d a b => Sys2Proof.Machine.execSadd stack d a b s
  | .ssub stack d a b => Sys2Proof.Machine.execSsub stack d a b s
  | .smul stack d a b => Sys2Proof.Machine.execSmul stack d a b s
  | .sdiv stack d a b => Sys2Proof.Machine.execSdiv stack d a b s
  | .ssqrt stack d a => Sys2Proof.Machine.execSsqrt stack d a s
  | .spown stack d a imm => Sys2Proof.Machine.execSpown stack d a imm s
  | .ld stack d stream => Sys2Proof.Machine.execLd stack d stream s
  | .st stack a stream => Sys2Proof.Machine.execSt stack a stream s
  | .vadd stack d a b => Sys2Proof.Machine.execVadd stack d a b s
  | .vsub stack d a b => Sys2Proof.Machine.execVsub stack d a b s
  | .vmul stack d a b => Sys2Proof.Machine.execVmul stack d a b s
  | .vdiv stack d a b => Sys2Proof.Machine.execVdiv stack d a b s
  | .vfma stack d a b c => Sys2Proof.Machine.execVfma stack d a b c s
  | .vadds stack d a b => Sys2Proof.Machine.execVadds stack d a b s
  | .vmuls stack d a b => Sys2Proof.Machine.execVmuls stack d a b s
  | .vfmas stack d a b c => Sys2Proof.Machine.execVfmas stack d a b c s
  | .vsqrt stack d a => Sys2Proof.Machine.execVsqrt stack d a s
  | .vmax stack d a b => Sys2Proof.Machine.execVmax stack d a b s
  | .vmin stack d a b => Sys2Proof.Machine.execVmin stack d a b s
  | .vabs stack d a => Sys2Proof.Machine.execVabs stack d a s
  | .vneg stack d a => Sys2Proof.Machine.execVneg stack d a s
  | .vsign stack d a => Sys2Proof.Machine.execVsign stack d a s
  | .vclips stack d a b => Sys2Proof.Machine.execVclips stack d a b s
  | .vmov stack d a => Sys2Proof.Machine.execVmov stack d a s
  | .copy engine desc => Sys2Proof.Machine.execCopy engine desc s
  | .fill engine desc => Sys2Proof.Machine.execFill engine desc s
  | .fence engine desc => Sys2Proof.Machine.execFence engine desc s
  | .reduceScatter desc => Sys2Proof.Machine.execReduceScatter desc s
  | .allGather desc => Sys2Proof.Machine.execAllGather desc s
  | .transpose desc => Sys2Proof.Machine.execTranspose desc s
  | .refocus desc => Sys2Proof.Machine.execRefocus desc s
  | .verdict desc => Sys2Proof.Machine.execVerdict desc s
  | .loupeReport report => Sys2Proof.Machine.execLoupeReport report s
  | .offloadDone group => Sys2Proof.Machine.execOffloadDone group s
  | .hbmRead unit addr len faults => Sys2Proof.Machine.execHbmRead unit addr len faults s
  | .hbmWrite unit addr data => Sys2Proof.Machine.execHbmWrite unit addr data s
  | .wcbWriteback word => Sys2Proof.Machine.execWcbWriteback word s
  | .patrolScrub word first retry => Sys2Proof.Machine.execPatrolScrub word first retry s
  | .repairStep pause => Sys2Proof.Machine.execRepairStep pause s
  | .stackSample stack temp => Sys2Proof.Machine.execStackSample stack temp s
  | .stackStateExit stack => Sys2Proof.Machine.execStackStateExit stack s
  | .stackSensorFail stack => Sys2Proof.Machine.execStackSensorFail stack s
  | .dieSample readings => Sys2Proof.Machine.execDieSample readings s
  | .dieStateExit => Sys2Proof.Machine.execDieStateExit s
  | .dieSensorFail sensor => Sys2Proof.Machine.execDieSensorFail sensor s
  | .analogueTrip sensor => Sys2Proof.Machine.execAnalogueTrip sensor s
  | .powerSample v0 i0 v1 i1 => Sys2Proof.Machine.execPowerSample v0 i0 v1 i1 s
  | .overBudget => Sys2Proof.Machine.execOverBudget s
  | .feedLow connector volts => Sys2Proof.Machine.execFeedLow connector volts s
  | .powerLoss v0 v1 => Sys2Proof.Machine.execPowerLoss v0 v1 s
  | .powerApplied connector supply => Sys2Proof.Machine.execPowerApplied connector supply s
  | .railFault rail => Sys2Proof.Machine.execRailFault rail s
  | .refclkLost => Sys2Proof.Machine.execRefclkLost s
  | .refclkPresent => Sys2Proof.Machine.execRefclkPresent s
  | .clockWindow domain count => Sys2Proof.Machine.execClockWindow domain count s
  | .hkStable domain => Sys2Proof.Machine.execHkStable domain s
  | .clockMuxSwitch domain => Sys2Proof.Machine.execClockMuxSwitch domain s
  | .muxHang domain => Sys2Proof.Machine.execMuxHang domain s
  | .stageResetEnd => Sys2Proof.Machine.execStageResetEnd s
  | .stageEnd out ms => Sys2Proof.Machine.execStageEnd out ms s
  | .ready => Sys2Proof.Machine.execReady s
  | .stageWatchdog hang => Sys2Proof.Machine.execStageWatchdog hang s
  | .shellFault event => Sys2Proof.Machine.execShellFault event s
  | .flashRecoveryImage bankB image => Sys2Proof.Machine.execFlashRecoveryImage bankB image s
  | .i3cRead sel => Sys2Proof.Machine.execI3cRead sel s
  | .perst => Sys2Proof.Machine.execPerst s
  | .functionLevelReset => Sys2Proof.Machine.execFunctionLevelReset s
  | .hotReset => Sys2Proof.Machine.execHotReset s
  | .linkDown => Sys2Proof.Machine.execLinkDown s
  | .hdmAccess decoder hpa write data => Sys2Proof.Machine.execHdmAccess decoder hpa write data s
  | .ideFail => Sys2Proof.Machine.execIdeFail s
  | .rasRecord cls unit detail half => Sys2Proof.Machine.execRasRecord cls unit detail half s
  | .deviceFatalReset => Sys2Proof.Machine.execDeviceFatalReset s
  | .mirrorComplete => Sys2Proof.Machine.execMirrorComplete s
  | .hostLogCatchup => Sys2Proof.Machine.execHostLogCatchup s
  | .fecWindow port symbols uncorrectable => Sys2Proof.Machine.execFecWindow port symbols uncorrectable s
  | .laneSwap port lane => Sys2Proof.Machine.execLaneSwap port lane s
  | .laserFail port spare => Sys2Proof.Machine.execLaserFail port spare s
  | .linkCtl port p => Sys2Proof.Machine.execLinkCtl port p s
  | .linkRetryTimeout port => Sys2Proof.Machine.execLinkRetryTimeout port s
  | .write port p => Sys2Proof.Machine.execWrite port p s
  | .readReq port p => Sys2Proof.Machine.execReadReq port p s
  | .signal port p => Sys2Proof.Machine.execSignal port p s
  | .readResp port p => Sys2Proof.Machine.execReadResp port p s
  | .writeAck port p => Sys2Proof.Machine.execWriteAck port p s
  | .completionErr port p => Sys2Proof.Machine.execCompletionErr port p s
  | .unreach port p => Sys2Proof.Machine.execUnreach port p s
  | .unreachableExpiry station plane => Sys2Proof.Machine.execUnreachableExpiry station plane s
  | .e2eTimeout tag => Sys2Proof.Machine.execE2eTimeout tag s
  | .colData port p => Sys2Proof.Machine.execColData port p s
  | .colCredit port p => Sys2Proof.Machine.execColCredit port p s
  | .peerTimeout rank => Sys2Proof.Machine.execPeerTimeout rank s
  | .enumProbe port h => Sys2Proof.Machine.execEnumProbe port h s
  | .stationAssign port h station manager => Sys2Proof.Machine.execStationAssign port h station manager s
  | .tickProbe port h t1 t2 t3 since => Sys2Proof.Machine.execTickProbe port h t1 t2 t3 since s
  | .tickEcho port h t1 t2 t3 t4 tick since => Sys2Proof.Machine.execTickEcho port h t1 t2 t3 t4 tick since s
  | .tickSetMsg port h tick at_ => Sys2Proof.Machine.execTickSetMsg port h tick at_ s
  | .arm port h mode epoch tick => Sys2Proof.Machine.execArm port h mode epoch tick s
  | .abort port h epoch => Sys2Proof.Machine.execAbort port h epoch s
  | .rollback port h epoch tick => Sys2Proof.Machine.execRollback port h epoch tick s
  | .challengeExpiry => Sys2Proof.Machine.execChallengeExpiry s
  | .getVersion req => Sys2Proof.Machine.execGetVersion req s
  | .getCapabilities req => Sys2Proof.Machine.execGetCapabilities req s
  | .negotiateAlgorithms req => Sys2Proof.Machine.execNegotiateAlgorithms req s
  | .getDigests req => Sys2Proof.Machine.execGetDigests req s
  | .getCertificate req => Sys2Proof.Machine.execGetCertificate req s
  | .challenge req => Sys2Proof.Machine.execChallenge req s
  | .getMeasurements req => Sys2Proof.Machine.execGetMeasurements req s
  | .keyExchange req => Sys2Proof.Machine.execKeyExchange req s
  | .finish req => Sys2Proof.Machine.execFinish req s
  | .endSession req => Sys2Proof.Machine.execEndSession req s
  | .heartbeat req => Sys2Proof.Machine.execHeartbeat req s
  | .keyUpdate req => Sys2Proof.Machine.execKeyUpdate req s
  | .chunkSend req => Sys2Proof.Machine.execChunkSend req s
  | .chunkGet req => Sys2Proof.Machine.execChunkGet req s
  | .vendorDefinedRequest req => Sys2Proof.Machine.execVendorDefinedRequest req s
  | .linkActive width rate => Sys2Proof.Machine.execLinkActive width rate s
  | .laserChangeoverEnd port => Sys2Proof.Machine.execLaserChangeoverEnd port s
  | .portTrainingDone port ok => Sys2Proof.Machine.execPortTrainingDone port ok s
  | .scpImageVerified scp => Sys2Proof.Machine.execScpImageVerified scp s
  | .recordHandlingEnd => Sys2Proof.Machine.execRecordHandlingEnd s
  | .msixTableStore vector entry => Sys2Proof.Machine.execMsixTableStore vector entry s
  | .msixIntervalEnd vector => Sys2Proof.Machine.execMsixIntervalEnd vector s

end Sys2Proof.Machine
end

