-- ==== Sys2Proof/Machine/Bar.lean ====
section
/-! DEFINITION. What the host sees of the function without a command (chapter 13): the features of the CXL port, the
identity and the BARs, what CXL reports of the HDM window, and every byte of BAR0. -/

namespace Sys2Proof.Machine

/-! ### The port and its function (R402, R406) -/

/-- The protocols of the DOE instance (Table 13.1). -/
inductive DoeProtocol where
  | discovery | cmaSpdm | securedCmaSpdm | cdat
  deriving DecidableEq, Repr

/-- What DOE discovery answers for an index: the protocol there, or none past the last. -/
def doeDiscovery (i : Nat) : Option DoeProtocol :=
  [DoeProtocol.discovery, .cmaSpdm, .securedCmaSpdm, .cdat][i]?

/-- Class code of the function: processing accelerator. -/
def classCode : Nat := 0x120000

/-- Revision ID and Subsystem Vendor ID (R577). -/
def revisionId : Nat := 1
def subsystemVendorId : Nat := 0x1F3C

/-- Subsystem ID: by the fused aperture, whatever aperture is selected (Table 18.8). -/
def State.subsystemId (s : State) : Nat := s.boot.fuses.aperture

/-- A base address register: which, its size in bytes, 64-bit and prefetchable. -/
structure BarInfo where
  index : Nat
  size : Nat
  wide : Bool
  prefetchable : Bool
  deriving DecidableEq, Repr

/-- BAR0, the Welfy window. -/
def bar0Info : BarInfo := ⟨0, 2 ^ 20, true, false⟩

/-- Size of BAR2, which holds the CXL component registers. -/
def bar2Size : Nat := 2 ^ 16

/-- Capabilities of the component registers in BAR2, located through the Register Locator DVSEC. -/
inductive ComponentCap where
  | ras | link | hdmDecoder | ide
  deriving DecidableEq, Repr

def componentCaps : List ComponentCap := [.ras, .link, .hdmDecoder, .ide]

/-- Whether a bus address lies in the programmed BAR0. -/
def State.inBar0 (s : State) (addr : Nat) : Bool :=
  decide (s.host.cfg.bar0.toNat ≤ addr) && decide (addr < s.host.cfg.bar0.toNat + bar0Info.size)

/-- CXL DVSEC range 1: the size of the HDM window in bytes, and Memory_Active (R426, R446). -/
def State.dvsecRange1 (s : State) : Nat × Bool := (s.host.hdmUnits * 2 ^ 28, s.host.memoryActive)

/-- The CDAT table: one DSMAS entry, the HDM range, and its DSLBIS latency and bandwidth (R402). -/
structure Cdat where
  base : Nat
  size : Nat
  latency : Nat
  bandwidth : Nat
  deriving DecidableEq, Repr

/-- CDAT as it stands; the spec gives no number for latency and bandwidth (log entry 61). -/
def State.cdat (s : State) : Cdat :=
  ⟨s.host.hdmBase, s.host.hdmUnits * 2 ^ 28, Config.dslbisLatency, Config.dslbisBandwidth⟩

/-! ### BAR0 (R409, Tables 13.2 and 13.4) -/

/-- The parts of BAR0, with the offset inside each. -/
inductive Bar0Area where
  | identity (off : Nat)
  | progress (rec off : Nat)
  | doorbell (off : Nat)
  | msix (vector off : Nat)
  | pba (off : Nat)
  | mailbox (m off : Nat)
  | registers (off : Nat)
  | reserved
  deriving DecidableEq, Repr

/-- Table 13.2. -/
def bar0Area (off : Nat) : Bar0Area :=
  if off < 0x800 then .identity off
  else if off < 0xA00 then .progress ((off - 0x800) / 32) (off % 32)
  else if off < 0x1000 then .reserved
  else if off < 0x2000 then .doorbell (off - 0x1000)
  else if off < 0x2400 then .msix ((off - 0x2000) / 16) (off % 16)
  else if off < 0x3000 then .reserved
  else if off < 0x3008 then .pba (off - 0x3000)
  else if off < 0x40000 then .reserved
  else if off < 0x80000 then .mailbox ((off - 0x40000) / 4096) (off % 4096)
  else if off < 0x100000 then .registers (off - 0x80000)
  else .reserved

/-- The state word of a mailbox page. -/
def Mailbox.stateWord (b : Mailbox) : Nat :=
  (match b.st with
    | .idle => 0
    | .busy => 1
    | .done => 2) + 4 * b2n b.overwrite + 8 * b2n b.ignoredSubmit

/-- A byte of a mailbox page (Table 13.4). -/
def Mailbox.pageByte (b : Mailbox) (off : Nat) : Byte :=
  if off < 0x40 then byteAt b.cmd off
  else if off < 0x80 then byteAt b.resp (off - 0x40)
  else if off < 0x84 then byteAt (toLe 4 b.stateWord) (off - 0x80)
  else if off < 0x100 then 0
  else byteAt b.ext (off - 0x100)

/-- An entry of the MSI-X table as PCI Express lays it out. -/
def MsixEntry.bytes (e : MsixEntry) : List Byte :=
  toLe 8 e.addr.toNat ++ toLe 4 e.data.toNat ++ toLe 4 (b2n e.masked)

/-- A byte of BAR0 as the host reads it. The two doorbell registers have none: the spec says what a store to them does, not
what a read returns. -/
def State.bar0Byte (s : State) (off : Nat) : Option Byte :=
  match bar0Area off with
  | .identity i => some (byteAt s.identityPage i)
  | .progress r i => some (byteAt ((s.record r).bytes r) i)
  | .doorbell i => if i < 12 then none else some 0
  | .msix v i => some (byteAt (s.msixEntry v).bytes i)
  | .pba i => some (byteAt (toLe 8 s.host.pba.toNat) i)
  | .mailbox m i => some ((s.box m).pageByte i)
  | .registers i => some (s.regByte i)
  | .reserved => some 0

/-- Whether a store to an offset of BAR0 is discarded because the range is reserved or read only (R409, Table 13.4). Stores
to the others are rows of their own. -/
def bar0Discards (off : Nat) : Bool :=
  match bar0Area off with
  | .identity _ | .progress _ _ | .pba _ | .reserved => true
  | .doorbell i => decide (12 ≤ i)
  | .mailbox _ i => decide (0x40 ≤ i)
  | .msix _ _ | .registers _ => false

end Sys2Proof.Machine
end

