-- ==== Sys2Proof/Safety.lean ====
section
/-! DEFINITION. What a good state of the block is, in the terms that the claims use: the memory list in canonical form, the
RAS queues as R503 and R505 bound them, and a step that completes. -/

namespace Sys2Proof.Machine

/-- No record of the queue stands behind one that it goes before (R503: descending severity, then arrival). -/
def rasSorted (q : List RasRecord) : Prop := q.Pairwise (fun a b => rasBefore b a = false)

/-- The queue of at most 15 records, in order, and the last-loss ring of at most 64 (R503, R505). -/
def rasBounds (queue lastLoss : List RasRecord) : Prop :=
  queue.length ≤ 15 ∧ rasSorted queue ∧ lastLoss.length ≤ 64

/-- The RAS engine's lists are within their bounds and in order. -/
def RasState.ok (r : RasState) : Prop := rasBounds r.queue r.lastLoss

/-- What every step keeps: the memory list in canonical form and the RAS lists in order. -/
def State.Inv (s : State) : Prop := Memory.wf s.mem = true ∧ s.ras.ok

/-- A step completes: it neither faults nor refuses. -/
def State.steps (s : State) : Prop := ∃ t, step s = .next t

/-- The 48 parameter bytes of the command that mailbox `m` captured (Table 13.5). -/
def State.params (s : State) (m : BitVec 6) : List Byte := slice (s.box m.toNat).captured 16 48

/-- Mailbox `m` holds a command of opcode `op` that Welfy may start now and that passes the checks 1 to 5 of R415. -/
def State.admits (s : State) (op : Nat) (m : BitVec 6) : Bool :=
  s.mayStart m.toNat && u16At (s.box m.toNat).captured 0 == op && (s.headerCheck m.toNat).isNone &&
  match cmdInfo op with
  | some c => !(c.admin && m.toNat != 0) && stateAdmits s.boot.dev op m.toNat && (badParamByte c (s.params m)).isNone
  | none => false

/-- The command of mailbox `m` completes with SUCCESS and response data. -/
def State.answer (s : State) (m : BitVec 6) (data : List Byte) : State := s.finish m.toNat .success 0 data

/-- The command of mailbox `m` is refused with a status. -/
def State.refusal (s : State) (m : BitVec 6) (x : Status) : State := s.finish m.toNat x 0 []

/-- The command of mailbox `m` is refused with BAD_PARAM at a parameter byte. -/
def State.refusalAt (s : State) (m : BitVec 6) (off : Nat) : State := s.finish m.toNat .badParam off []

/-- The link takes packet `p` on port `n` as a management message of the code given (R366 to R368). -/
def State.mgmtTakes (s : State) (n code : Nat) (p : Packet) : Prop :=
  (s.port n).phase = .up ∧ p.type.toNat = tyMgmt ∧ p.lcrcOk = true ∧ p.ecrc = packetCrc p ∧
  p.seq.toNat = (s.port n).rxNext ∧ packetFormed p = true ∧ p.tag.toNat = code

/-- The state once port `n` has taken and acknowledged the next packet (R368). -/
def State.linkTaken (s : State) (n : Nat) : State :=
  (s.putPort n { s.port n with rxNext := ((s.port n).rxNext + 1) % 4096 }).linkReply n (s.port n).rxNext false

/-- Every access of a list is one that the device admits, and none meets poison or a host link that is down (R331, R336,
R405). -/
def State.mayAccess (s : State) (acc : List (Nat × Nat × Bool)) : Bool := (s.firstBad acc).isNone && !s.accessFault acc

/-- Every access of a list may be done at once: the device admits it, it meets no fault, and what it reads lies in this station's
memory (R330). -/
def State.reaches (s : State) (acc : List (Nat × Nat × Bool)) : Bool :=
  s.mayAccess acc && acc.all (fun a => a.2.2 || a.2.1 == 0 || !s.isRemote a.1)

/-- The update engine of stack `k` runs job `j` in a running slot of the stack's, and `w` is its next instruction word. -/
def State.executes (s : State) (k : Nat) (j : UpdJob) (w : Nat) : Prop :=
  (s.engine k).job = some j ∧ (s.runOf (updUnit k)).isSome = true ∧ (s.engine k).word = some w

/-- The responder answers a request with ERROR and a code. -/
def State.spdmRefuses (s : State) (ver code : Nat) : State := (s.spdmError ver code).send ver

/-- Everything of the state but the host side, the registers kept as plain words and what the device has sent. -/
def State.beyondHost (s t : State) : Prop :=
  (t.pending, t.rc, t.freeCtr, t.mem, t.frm, t.boot, t.phys, t.ras) =
    (s.pending, s.rc, s.freeCtr, s.mem, s.frm, s.boot, s.phys, s.ras) ∧
  (t.sec, t.lnk, t.hbm, t.col, t.upd, t.lup, t.sts, t.dsp) = (s.sec, s.lnk, s.hbm, s.col, s.upd, s.lup, s.sts, s.dsp)

end Sys2Proof.Machine

namespace Sys2Proof

open Machine

/-- The state that a row's command is run in: HDM_CONFIG's operand says how the host's decoder stands (log entry 10); every
other row runs in the state as it is. -/
def Instr.before (i : Instr) (s : State) : State :=
  match i with
  | .hdmConfig b => s.setDecoder b.seen
  | _ => s

/-- The opcode and the mailbox of a Welfy command; none for every other row. -/
def Instr.mailboxCommand : Instr → Option (Nat × BitVec 6)
  | .identify m => some (0x0101, m)
  | .mbxAbort m => some (0x0102, m)
  | .opQuery m => some (0x0103, m)
  | .irqConfig m => some (0x0104, m)
  | .deviceReset m => some (0x0105, m)
  | .echo m => some (0x0106, m)
  | .mbxCounters m => some (0x0107, m)
  | .regWrite m => some (0x0201, m)
  | .hdmConfig b => some (0x0202, b.box)
  | .hostWindowConfig m => some (0x0203, m)
  | .frameProgramLoad m => some (0x0301, m)
  | .layoutPlanLoad m => some (0x0302, m)
  | .modeArm m => some (0x0303, m)
  | .modeAbort m => some (0x0304, m)
  | .modeRollback m => some (0x0305, m)
  | .modeQuery m => some (0x0306, m)
  | .tickSet m => some (0x0307, m)
  | .tickAlignConfig m => some (0x0308, m)
  | .frameCounters m => some (0x0309, m)
  | .memLayout m => some (0x0401, m)
  | .memFlush m => some (0x0402, m)
  | .memAddrDecode m => some (0x0403, m)
  | .memCounters m => some (0x0404, m)
  | .hbmThermalQuery m => some (0x0405, m)
  | .hbmRepair m => some (0x0406, m)
  | .hbmRepairQuery m => some (0x0407, m)
  | .hbmMargin m _ => some (0x0408, m)
  | .stationQuery m => some (0x0501, m)
  | .peerMapLoad m => some (0x0502, m)
  | .portQuery m => some (0x0503, m)
  | .portControl m => some (0x0504, m)
  | .dreskaKeySet m => some (0x0505, m)
  | .dreskaKeyClear m => some (0x0506, m)
  | .linkCounters m => some (0x0507, m)
  | .collCounters m => some (0x0508, m)
  | .remoteProbe m _ => some (0x0509, m)
  | .tensorConvert m => some (0x0620, m)
  | .quantCounters m => some (0x0621, m)
  | .prismSigns m => some (0x0622, m)
  | .facetMapQuery m => some (0x0628, m)
  | .facetCounters m => some (0x0629, m)
  | .accCounters m => some (0x0630, m)
  | .accFirstNonfin m => some (0x0631, m)
  | .trainStepConfig m => some (0x0640, m)
  | .stepSet m => some (0x0641, m)
  | .updProgramLoad m => some (0x0642, m)
  | .updCounters m => some (0x0643, m)
  | .commitQuery m => some (0x0644, m)
  | .loupeLoad m => some (0x0650, m)
  | .loupeSave m => some (0x0651, m)
  | .loupeEntryQuery m => some (0x0652, m)
  | .loupeStats m => some (0x0653, m)
  | .loupeHistory m => some (0x0654, m)
  | .loupeCounters m => some (0x0655, m)
  | .stashConfig m => some (0x0660, m)
  | .farstashWindow m => some (0x0661, m)
  | .stashGroupQuery m => some (0x0662, m)
  | .stashCounters m => some (0x0663, m)
  | .seedSet m => some (0x0668, m)
  | .rngEval m => some (0x0669, m)
  | .dspQueueTable m => some (0x0670, m)
  | .dspQueueConfig m => some (0x0671, m)
  | .dspQueueQuery m => some (0x0672, m)
  | .dspCounters m => some (0x0673, m)
  | .rasRecords m => some (0x0701, m)
  | .powerFeedSet m => some (0x0702, m)
  | .mirrorPair m => some (0x0703, m)
  | .mirrorFill m => some (0x0704, m)
  | .coreMapIn m => some (0x0705, m)
  | .flerraRead m => some (0x0706, m)
  | .checkpointExport m => some (0x0707, m)
  | .checkpointImport m => some (0x0708, m)
  | .logReplay m => some (0x0709, m)
  | .rasCounters m => some (0x070A, m)
  | .attest m => some (0x0801, m)
  | .certChainRead m => some (0x0802, m)
  | .measurementsRead m => some (0x0803, m)
  | .ownerKeyEnrol m => some (0x0804, m)
  | .debugChallenge m => some (0x0805, m)
  | .debugUnlock m => some (0x0806, m)
  | .keyHandleCreate m => some (0x0807, m)
  | .fwUpdate m => some (0x0901, m)
  | .fwActivate m => some (0x0902, m)
  | .bootJournalRead m => some (0x0903, m)
  | .apertureSelect b => some (0x0904, b.box)
  | .fuseQuery m => some (0x0905, m)
  | .scpBankSwap m => some (0x0906, m)
  | .trainSweep m => some (0x0907, m)
  | .selftestResults m => some (0x0908, m)
  | .telemetryRead m => some (0x0A01, m)
  | .powerQuery m => some (0x0A02, m)
  | .dieThermalQuery m => some (0x0A03, m)
  | .clockQuery m => some (0x0A04, m)
  | .energyModelRead m => some (0x0A05, m)
  | .powerGuardConfig m => some (0x0A06, m)
  | _ => none

end Sys2Proof
end

