-- ==== Sys2Proof/Certificates/Slice0/Obligations.lean ====
section
/-! DEFINITION. The statements for the provers. A statement about a mailbox command has as its hypothesis that the mailbox
admits it (State.admits: its turn has come under R416 and it passes the checks of R415), and where the command's own part
refuses some operands, that these operands are not among them. -/

open Sys2Proof Sys2Proof.Machine

/-! ### The queue, and what every step keeps -/

/-- A step takes the command at the front of the queue and runs it on the state with the queue's rest. -/
def Obligations.StepRunsFront : Prop :=
  ∀ (c : Instr) (rest : List Instr) (s : State),
    step { s with pending := c :: rest } = exec c { s with pending := rest }

/-- On an empty queue one reference cycle passes: the cycle count and the frame's phase count on (18 bits), a device idled
by the power guard counts it, and nothing else changes. The model's own choice (log entry 7). -/
def Obligations.IdleStepIsOneCycle : Prop :=
  ∀ s : State, s.pending = [] → ∃ t : State, step s = .next t ∧ t.rc = s.rc + 1 ∧
    t.frm = (if s.frm.ticking then { s.frm with phase := Nat.min 262143 (s.frm.phase + 1) } else s.frm) ∧
    (∀ off, t.reg off = if off = Reg.PWR_CNT_IDLE_RC ∧ s.phys.idling = true then satAdd (s.reg off) 1 else s.reg off) ∧
    (t.pending, t.freeCtr, t.mem, t.host, t.hbm, t.boot, t.phys, t.ras, t.sec, t.lnk) =
      (s.pending, s.freeCtr, s.mem, s.host, s.hbm, s.boot, s.phys, s.ras, s.sec, s.lnk) ∧
    (t.col, t.upd, t.lup, t.sts, t.dsp, t.out) = (s.col, s.upd, s.lup, s.sts, s.dsp, s.out)

/-- The state after reset meets the invariant. -/
def Obligations.ResetMeetsInvariant : Prop :=
  State.reset.Inv

/-- Every step from any state keeps the invariant: memory in canonical form, the RAS queue of at most 15 records in order of
severity and arrival (R503), the last-loss ring of at most 64 records (R505). -/
def Obligations.StepKeepsInvariant : Prop :=
  ∀ s t : State, s.Inv → step s = .next t → t.Inv

/-- Every step from any state consumes exactly the front of the queue, runs neither time nor the numbering of free values
back, and takes back nothing that the device has sent. -/
def Obligations.StepConsumesFrontAndSentStaysSent : Prop :=
  ∀ s t : State, step s = .next t →
    t.pending = s.pending.tail ∧ s.rc ≤ t.rc ∧ s.freeCtr ≤ t.freeCtr ∧
    s.out.msix <+: t.out.msix ∧ s.out.mgmt <+: t.out.mgmt ∧ s.out.fabric <+: t.out.fabric

/-- What reset leaves: DEV_STATE RESET in stage 0 with no command waiting; a frame of 2^13 rc with a guard band of 8 units; tick, epoch and step number 0; no long
operation, no station number, an unpaired mirror, and every frame counter zero. -/
def Obligations.ResetValues : Prop :=
  State.reset.boot.dev = .reset ∧ State.reset.boot.stage = 0 ∧ State.reset.pending = [] ∧
  State.reset.frm.lenExp = 13 ∧ State.reset.frm.guard = 8 ∧ State.reset.frm.tick = 0 ∧ State.reset.frm.epoch = 0 ∧
  State.reset.upd.t = 0 ∧ State.reset.longRunning = false ∧ State.reset.lnk.station = none ∧
  State.reset.ras.mirror.phase = .unpaired ∧ State.reset.host.hdmBase = 0x006C00000000 ∧
  State.reset.host.hdmUnits * 2 ^ 28 = 16 * 2 ^ 30 ∧ State.reset.host.hostLimit = 0 ∧
  ∀ off ∈ frmCounters, State.reset.readReg off = 0

/-! ### Mailboxes (chapter 13) -/

/-- SUBMIT: a BUSY mailbox only takes IGNORED_SUBMIT; any other becomes BUSY with the 64 bytes of its command area captured and
its flags clear. With an opcode of Table 13.13 it waits there, the other mailboxes as they were; with any other, where nothing
waits and Welfy runs, it is DONE at once with UNKNOWN_OPCODE.
ACK moves DONE to IDLE and is ignored in any other state.
A store to the command area of a BUSY mailbox is discarded and sets OVERWRITE; to any other it changes exactly the bytes
stored, and no other mailbox. -/
def Obligations.MailboxStores : Prop :=
  ((∀ (s : State) (m : BitVec 6),
    let b := s.box m.toNat
    (b.st = .busy → ∃ t : State, exec (.submit m .w32 ⟨1, 0⟩) s = .next t ∧
      t.box m.toNat = { b with ignoredSubmit := true } ∧ t.regBit Reg.MBX_STATUS 5 = true) ∧
    (b.st ≠ .busy → (cmdInfo (u16At b.cmd 0)).isSome = true →
      (∀ e ∈ s.host.boxes, e.2.st = .busy → (cmdInfo (u16At e.2.captured 0)).isSome = true) →
      ∃ t : State, exec (.submit m .w32 ⟨1, 0⟩) s = .next t ∧
        t.box m.toNat = { b with captured := b.cmd, st := .busy, overwrite := false, ignoredSubmit := false, order := s.host.submits } ∧
        (∀ n, n ≠ m.toNat → t.box n = s.box n) ∧ t.host.submits = s.host.submits + 1) ∧
    (b.st ≠ .busy → cmdInfo (u16At b.cmd 0) = none → u8At b.cmd 2 / 2 = 0 → u8At b.cmd 3 = 0 → zeroBytes b.cmd 8 8 = true →
      (∀ e ∈ s.host.boxes, e.2.st ≠ .busy) → s.boot.welfy = true → (s.scp 0).moving = false → s.phys.apSelect = none →
      ∃ t : State, exec (.submit m .w32 ⟨1, 0⟩) s = .next t ∧ (t.box m.toNat).st = .done ∧
        u16At (t.box m.toNat).resp 2 = Status.unknownOpcode.code ∧
        (t.box m.toNat).overwrite = false ∧ (t.box m.toNat).ignoredSubmit = false ∧
        (∀ n, n ≠ m.toNat → t.box n = s.box n) ∧ t.host.submits = s.host.submits + 1)) ∧
  (∀ (s : State) (m : BitVec 6),
    ((s.box m.toNat).st = .done → ∃ t : State, exec (.ack m .w32 0) s = .next t ∧
      t.box m.toNat = { s.box m.toNat with st := .idle } ∧ ∀ n, n ≠ m.toNat → t.box n = s.box n) ∧
    ((s.box m.toNat).st ≠ .done → exec (.ack m .w32 0) s = .next s))) ∧
  (∀ (s : State) (m off : BitVec 6) (data : List Byte),
    (s.box m.toNat).cmd.length = 64 → off.toNat + data.length ≤ 64 →
    ∃ t : State, exec (.commandAreaStore m off data) s = .next t ∧ (∀ n, n ≠ m.toNat → t.box n = s.box n) ∧
      ((s.box m.toNat).st = .busy → (t.box m.toNat).cmd = (s.box m.toNat).cmd ∧ (t.box m.toNat).overwrite = true) ∧
      ((s.box m.toNat).st ≠ .busy → (t.box m.toNat).st = (s.box m.toNat).st ∧ ∀ i, i < 64 →
        byteAt (t.box m.toNat).cmd i =
          if off.toNat ≤ i ∧ i < off.toNat + data.length then byteAt data (i - off.toNat)
          else byteAt (s.box m.toNat).cmd i))

/-- A doorbell store of another width, with a reserved bit set or with a reserved action is ignored, counted and flagged. -/
def Obligations.BadDoorbellCounts : Prop :=
  ∀ (s : State) (m : BitVec 6) (action : BitVec 2) (w : Width) (rsv : BitVec 24) (v : BitVec 64),
    ((action = 0 ∨ action = 3 ∨ w ≠ .w32 ∨ rsv ≠ 0) →
      exec (.submit m w ⟨action, rsv⟩) s = .next ((s.bump Reg.MBX_CNT_DB_BAD 1).stick Reg.MBX_STATUS 3)) ∧
    ((w ≠ .w32 ∨ rsv ≠ 0) →
      exec (.ack m w rsv) s = .next ((s.bump Reg.MBX_CNT_DB_BAD 1).stick Reg.MBX_STATUS 3)) ∧
    ((w ≠ .w64 ∨ bits v.toNat 20 31 ≠ 0) →
      exec (.dispatchDb w v) s = .next ((s.bump Reg.MBX_CNT_DB_BAD 1).stick Reg.MBX_STATUS 3))

/-- Completion: the response page holds the opcode, status, tag, data length, DETAIL and the first 48 data bytes, the extension holds the rest, the
mailbox is DONE, the command is counted, and no other mailbox changes. -/
def Obligations.CompletionWritesResponse : Prop :=
  ∀ (s : State) (m : Nat) (x : Status) (d : BitVec 32) (data : List Byte), data.length ≤ 3888 →
    ((s.complete m x d.toNat data).box m).st = .done ∧
    u16At ((s.complete m x d.toNat data).box m).resp 0 = u16At (s.box m).captured 0 ∧
    u16At ((s.complete m x d.toNat data).box m).resp 2 = x.code ∧
    u32At ((s.complete m x d.toNat data).box m).resp 4 = u32At (s.box m).captured 4 ∧
    u16At ((s.complete m x d.toNat data).box m).resp 8 = data.length ∧
    u32At ((s.complete m x d.toNat data).box m).resp 12 = d.toNat ∧
    (∀ i, i < 48 → byteAt ((s.complete m x d.toNat data).box m).resp (16 + i) = byteAt data i) ∧
    (∀ i, i < 3840 → byteAt ((s.complete m x d.toNat data).box m).ext i = byteAt data (48 + i)) ∧
    (s.complete m x d.toNat data).reg Reg.MBX_CNT_CMDS = satAdd (s.reg Reg.MBX_CNT_CMDS) 1 ∧
    ∀ n, n ≠ m → (s.complete m x d.toNat data).box n = s.box n

/-- The first five checks of a mailbox command whose turn has come, in their order: nonzero reserved header bytes (with a
DETAIL that log entry 5 leaves free), an admin-only command on a general mailbox, the device state, and the first parameter
byte with a bit that the command does not define. Each ends the command with its status and changes nothing else. -/
def Obligations.ChecksInOrder : Prop :=
  ∀ (i : Instr) (op : Nat) (m : BitVec 6) (s₀ : State) (c : CmdInfo), i.mailboxCommand = some (op, m) →
    let s := i.before s₀
    s.mayStart m.toNat = true → u16At (s.box m.toNat).captured 0 = op → cmdInfo op = some c →
    ((u8At (s.box m.toNat).captured 2 / 2 ≠ 0 ∨ u8At (s.box m.toNat).captured 3 ≠ 0
        ∨ zeroBytes (s.box m.toNat).captured 8 8 = false) →
      ∃ d, exec i s₀ = .next (({ s with freeCtr := s.freeCtr + 1 }).finish m.toNat .badParam d [])) ∧
    (u8At (s.box m.toNat).captured 2 / 2 = 0 → u8At (s.box m.toNat).captured 3 = 0 →
      zeroBytes (s.box m.toNat).captured 8 8 = true →
      (c.admin = true → m ≠ 0 → exec i s₀ = .next (s.refusal m .notAdmin)) ∧
      (¬(c.admin = true ∧ m ≠ 0) → stateAdmits s.boot.dev op m.toNat = false → exec i s₀ = .next (s.refusal m .notReady)) ∧
      (¬(c.admin = true ∧ m ≠ 0) → stateAdmits s.boot.dev op m.toNat = true →
        ∀ k, badParamByte c (s.params m) = some k → exec i s₀ = .next (s.refusalAt m k)))

/-- A mailbox command runs only from its own mailbox, and only when its turn has come: while an earlier-submitted command of its opcode group
has not completed, or it is on a general mailbox and an admin command waits with nothing before it, nothing happens (log entry
6). -/
def Obligations.CommandWaitsItsTurn : Prop :=
  ∀ (i : Instr) (op : Nat) (m : BitVec 6) (s : State), i.mailboxCommand = some (op, m) →
    (u16At (s.box m.toNat).captured 0 ≠ op ∨ (s.box m.toNat).st ≠ .busy ∨
      (∃ n b, (n, b) ∈ s.host.boxes ∧ n ≠ m.toNat ∧ b.st = .busy ∧ b.order < (s.box m.toNat).order ∧
        cmdGroup (u16At b.captured 0) = cmdGroup (u16At (s.box m.toNat).captured 0)) ∨
      (m ≠ 0 ∧ (s.box 0).st = .busy ∧ s.started 0 = false ∧ s.groupWaits 0 = false)) →
    exec i s = .next (i.before s)

/-- Completion changes nothing beyond the mailbox, the two command counters and the message: a command that ends otherwise
than with SUCCESS or OP_STARTED is counted as refused, and with FLAGS.IRQ set the mailbox's vector sends its message, or
sets its pending bit where it is masked, or waits for the end of its interval. -/
def Obligations.CompletionFrameAndMessage : Prop :=
  ∀ (s : State) (m : BitVec 6) (x : Status) (d : Nat) (data : List Byte),
    let t := s.complete m.toNat x d data
    let v := s.boxVec m.toNat
    let irq := bit (u8At (s.box m.toNat).captured 2) 0
    s.beyondHost t ∧
    (t.host.records, t.host.traps, t.host.msix, t.host.hdmBase, t.host.hdmUnits, t.host.hdmDecoder, t.host.hostLimit) =
      (s.host.records, s.host.traps, s.host.msix, s.host.hdmBase, s.host.hdmUnits, s.host.hdmDecoder, s.host.hostLimit) ∧
    (∀ off, off ≠ Reg.MBX_CNT_CMDS → off ≠ Reg.MBX_CNT_REFUSED → t.reg off = s.reg off) ∧
    t.reg Reg.MBX_CNT_REFUSED = (if x = .success ∨ x = .opStarted then s.reg Reg.MBX_CNT_REFUSED
      else satAdd (s.reg Reg.MBX_CNT_REFUSED) 1) ∧
    t.out.mgmt = s.out.mgmt ∧ t.out.fabric = s.out.fabric ∧
    (t.out.msix = if irq ∧ (s.msixEntry v).masked = false ∧ s.host.spaced.getLsbD v = false then s.out.msix ++ [v]
      else s.out.msix) ∧
    (t.host.pba = if irq ∧ (s.msixEntry v).masked = true then setBit64 s.host.pba v true else s.host.pba) ∧
    (t.host.covered = if irq ∧ (s.msixEntry v).masked = false ∧ s.host.spaced.getLsbD v = true
      then setBit64 s.host.covered v true else s.host.covered)

/-! ### The host's own commands (chapter 13) -/

/-- The commands that read: IDENTIFY answers vendor, device, fused and running aperture, DEV_STATE, the identity, the
firmware version and the bank; OP_QUERY the record that its handle names; ECHO its parameter bytes. A handle that names no
allocation is refused. Nothing else changes. -/
def Obligations.HostQueriesAnswer : Prop :=
  ∀ (s : State) (m : BitVec 6),
    (s.admits 0x0101 m = true → exec (.identify m) s = .next (s.answer m
      (toLe 2 0x1F3C ++ toLe 2 0x0940 ++ toLe 1 s.boot.fuses.aperture ++ toLe 1 s.boot.running ++ toLe 2 s.devStateWord
        ++ s.identity ++ s.fwVersion ++ toLe 1 (if s.boot.startedB then 1 else 0)))) ∧
    (s.admits 0x0106 m = true → exec (.echo m) s = .next (s.answer m (s.params m))) ∧
    (s.admits 0x0103 m = true → ∀ i q : Nat, i < 16 → u32At (s.params m) 0 = q * 256 + i →
      ((s.record i).used = true → (s.record i).seq = q →
        exec (.opQuery m) s = .next (s.answer m ((s.record i).bytes i))) ∧
      ((s.record i).seq ≠ q → exec (.opQuery m) s = .next (s.refusalAt m 0)))

/-- IRQ_CONFIG sets the vector of a mailbox, of the RAS engine, of progress or of frame events; HDM_CONFIG sets base and
size, and is refused with RUN_LOCK while the decoder, which its operand gives (log entry 10), is committed; HOST_WINDOW_CONFIG sets the limit. A value out of its range
is refused at its byte, and nothing else changes. -/
def Obligations.HostConfigurationCommands : Prop :=
  ∀ (s : State) (m : BitVec 6),
    (s.admits 0x0104 m = true →
      let p := s.params m
      (u8At p 1 ≤ 63 → u8At p 2 ≤ 63 → u8At p 0 = 0 → exec (.irqConfig m) s = .next (State.answer
        { s with host := { s.host with vecBox := tset s.host.vecBox (u8At p 1) (u8At p 2) } } m [])) ∧
      (u8At p 1 = 0 → u8At p 2 ≤ 63 →
        (u8At p 0 = 1 → exec (.irqConfig m) s = .next (State.answer
          { s with host := { s.host with vecRas := u8At p 2 } } m [])) ∧
        (u8At p 0 = 2 → exec (.irqConfig m) s = .next (State.answer
          { s with host := { s.host with vecProgress := u8At p 2 } } m [])) ∧
        (u8At p 0 = 3 → exec (.irqConfig m) s = .next (State.answer
          { s with host := { s.host with vecFrame := u8At p 2 } } m []))) ∧
      (3 < u8At p 0 → exec (.irqConfig m) s = .next (s.refusalAt m 0)) ∧
      (u8At p 0 ≤ 3 → ((u8At p 0 = 0 ∧ 63 < u8At p 1) ∨ (u8At p 0 ≠ 0 ∧ u8At p 1 ≠ 0)) →
        exec (.irqConfig m) s = .next (s.refusalAt m 1)) ∧
      ((u8At p 0 = 0 ∧ u8At p 1 ≤ 63) ∨ (1 ≤ u8At p 0 ∧ u8At p 0 ≤ 3 ∧ u8At p 1 = 0) → 63 < u8At p 2 →
        exec (.irqConfig m) s = .next (s.refusalAt m 2))) ∧
    (s.admits 0x0202 m = true →
      let base := u64At (s.params m) 0
      let size := u64At (s.params m) 8
      ∀ d : Option (BitVec 52),
      (base % 2 ^ 28 = 0 → size % 2 ^ 28 = 0 → size ≤ 2 ^ 36 → base + size ≤ 2 ^ 39 →
        (d = none → exec (.hdmConfig ⟨m, d⟩) s = .next (State.answer
          { s with host := { s.host with hdmDecoder := none, hdmBase := base, hdmUnits := size / 2 ^ 28 } } m [])) ∧
        (d ≠ none → exec (.hdmConfig ⟨m, d⟩) s = .next ((s.setDecoder d).refusal m .runLock))) ∧
      ((base % 2 ^ 28 ≠ 0 ∨ 2 ^ 39 < base) → exec (.hdmConfig ⟨m, d⟩) s = .next ((s.setDecoder d).refusalAt m 0)) ∧
      (base % 2 ^ 28 = 0 → base ≤ 2 ^ 39 → (size % 2 ^ 28 ≠ 0 ∨ 2 ^ 36 < size ∨ 2 ^ 39 < base + size) →
        exec (.hdmConfig ⟨m, d⟩) s = .next ((s.setDecoder d).refusalAt m 8))) ∧
    (s.admits 0x0203 m = true →
      let l := u64At (s.params m) 0
      (l % 4096 = 0 → l ≤ 2 ^ 46 → exec (.hostWindowConfig m) s = .next (State.answer
        { s with host := { s.host with hostLimit := l } } m [])) ∧
      ((l % 4096 ≠ 0 ∨ 2 ^ 46 < l) → exec (.hostWindowConfig m) s = .next (s.refusalAt m 0)))

/-- REG_WRITE of an aligned register: refused with BAD_PARAM where a masked field's value is out of its range, with
ACCESS_DENIED where the mask touches a bit that is not writable, with RUN_LOCK where it touches an LK field of a busy block,
which sets the class's bit in FRM_RUNLOCK. Otherwise a register of RW, LK and W1C fields takes the masked bits at once: RW and LK
bits as written, and a W1C bit written 1 clears. -/
def Obligations.RegWriteByFieldClass : Prop :=
  ∀ (s : State) (m : BitVec 6), s.admits 0x0201 m = true →
    ∀ off : Nat, u32At (s.params m) 0 = off → off % 4 = 0 → off < 0x80000 → off ≠ Reg.CLK_GATE →
    let mask := BitVec.ofNat 32 (u32At (s.params m) 4)
    let v := BitVec.ofNat 32 (u32At (s.params m) 8)
    (s.rangesOk off mask v = false → exec (.regWrite m) s = .next (s.refusalAt m 8)) ∧
    (s.rangesOk off mask v = true → mask &&& ~~~writableMask off ≠ 0 →
      exec (.regWrite m) s = .next (s.refusal m .accessDenied)) ∧
    (s.rangesOk off mask v = true → mask &&& ~~~writableMask off = 0 →
      mask &&& classMask off .lk ≠ 0 → (s.lockOf off).2 = true →
      ∃ t : State, exec (.regWrite m) s = .next (t.refusal m .runLock) ∧ t.regBit Reg.FRM_RUNLOCK (s.lockOf off).1 = true ∧
        ∀ r, r ≠ Reg.FRM_RUNLOCK → r ≠ Reg.FRM_RUNLOCK_ADDR → t.reg r = s.reg r) ∧
    (s.rangesOk off mask v = true → mask &&& ~~~writableMask off = 0 →
      (mask &&& classMask off .lk = 0 ∨ (s.lockOf off).2 = false) → mask &&& classMask off .ta = 0 →
      ∃ t : State, exec (.regWrite m) s = .next (t.answer m (toLe 4 (t.readReg off).toNat)) ∧ s.beyondHost t ∧
        t.host = s.host ∧ t.out = s.out ∧ (∀ r, r ≠ off → t.reg r = s.reg r) ∧
        ∀ k, k < 32 → (t.reg off).getLsbD k =
          if (mask &&& (classMask off .rw ||| classMask off .lk)).getLsbD k = true
            then v.getLsbD k && !((mask &&& classMask off .w1c &&& v).getLsbD k)
          else (s.reg off).getLsbD k && !((mask &&& classMask off .w1c &&& v).getLsbD k))

/-- MBX_ABORT ends a command that has not started on the named general mailbox with ABORTED, leaves a started one to finish, and
touches no long operation. -/
def Obligations.MbxAbortEndsAWaitingCommand : Prop :=
  ∀ (s : State) (m : BitVec 6), s.admits 0x0102 m = true → ∀ n : Nat, u8At (s.params m) 0 = n →
    (1 ≤ n → n ≤ 63 → (s.box n).st = .busy → s.started n = false →
      exec (.mbxAbort m) s = .next ((s.complete n .aborted 0 []).answer m []) ∧
      ((s.complete n .aborted 0 []).answer m []).host.records = s.host.records) ∧
    (1 ≤ n → n ≤ 63 → ((s.box n).st ≠ .busy ∨ s.started n = true) → exec (.mbxAbort m) s = .next (s.answer m [])) ∧
    ((n = 0 ∨ 63 < n) → exec (.mbxAbort m) s = .next (s.refusalAt m 0))

/-- DEVICE_RESET is refused with RUN_LOCK while a step is in progress outside HOLD, STOPPED and HALTED without FORCE; otherwise it
answers, and the device warm-starts: DEV_STATE RESET with cause 2, memory, the CXL link and the programming of its BARs kept. -/
def Obligations.DeviceResetWarmStarts : Prop :=
  ∀ (s : State) (m : BitVec 6), s.admits 0x0105 m = true →
    let force := bit (u8At (s.params m) 0) 0
    ((s.upd.commit ≠ .idle ∧ s.lup.phase ≠ .hold ∧ s.lup.phase ≠ .stopped ∧ s.boot.dev ≠ .halted ∧ force = false) →
      exec (.deviceReset m) s = .next (s.refusal m .runLock)) ∧
    ((s.upd.commit = .idle ∨ s.lup.phase = .hold ∨ s.lup.phase = .stopped ∨ s.boot.dev = .halted ∨ force = true) →
      ∃ t : State, exec (.deviceReset m) s = .next t ∧ t.boot.dev = .reset ∧ t.boot.stage = 0 ∧ t.boot.cold = false ∧
        t.boot.cause = 2 ∧ (t.mem, t.rc, t.pending) = (s.mem, s.rc, s.pending) ∧ s.freeCtr ≤ t.freeCtr ∧
        (t.host.linkActive, t.host.linkWidth, t.host.linkRate, t.host.hdmDecoder, t.host.msix, t.host.cfg) =
          (s.host.linkActive, s.host.linkWidth, s.host.linkRate, s.host.hdmDecoder, s.host.msix, s.host.cfg) ∧
        t.boot.persist = s.boot.persist ∧ t.boot.journal = s.boot.journal ∧ t.ras.lastLoss = s.ras.lastLoss ∧
        (t.box m.toNat).st = .done ∧ u16At (t.box m.toNat).resp 2 = 0)

/-! ### Memory -/

/-- A store changes exactly the bytes stored: reading memory after it gives the stored byte inside its range, and what was
there before everywhere else. Of the rest of the state it changes only the stacks' write-combining lines and poison words, and
the counter of partial lines drained. -/
def Obligations.StoreChangesExactlyItsBytes : Prop :=
  ∀ (s : State) (addr : Nat) (bs : List Byte),
    let t := s.store addr bs
    let k := s.key addr
    (∀ i, i < bs.length → mread t.mem (k + i) = bs.getD i 0) ∧
    (∀ a, (a < k ∨ k + bs.length ≤ a) → mread t.mem a = mread s.mem a) ∧
    (∀ r, r ≠ Reg.HBM_CNT_WCB_RMW → t.reg r = s.reg r) ∧
    t = { s with mem := t.mem, regs := t.regs, hbm := { s.hbm with wcb := t.hbm.wcb, poison := t.hbm.poison } }

/-! ### Mode epochs, programs and plans (chapter 2) -/

/-- The messages ARM, ABORT and ROLLBACK, and the commands MODE_ARM, MODE_ABORT and MODE_ROLLBACK given the same mode, epoch and
tick, leave the same state but for their answers, and answer with the same status. What a message does, once the link has
taken its packet from the fabric manager: an ARM that R65 does not refuse arms and is acknowledged; an ABORT of the armed epoch
disarms it; a ROLLBACK within its window is noted for its tick. How the payloads hold the fields is the model's choice (log
entry 65). -/
def Obligations.ModeCommandsMatchMessages : Prop :=
  ∀ (s : State) (m : BitVec 6) (port : Fin 24) (h : Packet) (mode : BitVec 128) (e : BitVec 16) (t : BitVec 64),
    s.boot.dev = .ready → (s.lnk.manager = none ∨ s.lnk.manager = some h.src.toNat) →
    let v := s.linkTaken port.val
    (s.mgmtTakes port.val 0x0020 (armPacket h mode e t) →
      let b := toLe 16 mode.toNat
      (s.armedAlready b e t = false → s.armFail b e t = none → exec (.arm port h mode e t) s = .next (State.say
        { v with frm := { s.frm with
          armed := some ⟨modeOfBytes b, e, t⟩, armTick := t, lastArm := some ⟨modeOfBytes b, e, t⟩,
          stretchRequested := s.frm.stretchRequested && (modeOfBytes b).stretchAmt == 0 } }
        (.armAck e ((sha256 b).take 8)))) ∧
      (v.admits 0x0303 m = true → slice (v.params m) 0 16 = b → u16At (v.params m) 16 = e.toNat →
        u64At (v.params m) 24 = t.toNat →
        (∃ u : State, exec (.arm port h mode e t) s = .next (u.say (.armAck e ((sha256 b).take 8))) ∧
          exec (.modeArm m) v = .next (u.answer m (sha256 b))) ∨
        (∃ (u : State) (x : Status) (d : Nat), exec (.arm port h mode e t) s = .next (u.say (.armNak e x)) ∧
          exec (.modeArm m) v = .next (u.finish m.toNat x d [])))) ∧
    (s.mgmtTakes port.val 0x0024 (carrying h (toLe 2 e.toNat)) →
      (∀ a, s.frm.armed = some a → a.epoch = e → (∀ x, s.frm.lastAborted = some x → newerEpoch e x = true) →
        exec (.abort port h e) s = .next (State.say
          { v with frm := { s.frm with armed := none, lastAborted := some e } } (.abortDone e))) ∧
      (v.admits 0x0304 m = true → u16At (v.params m) 0 = e.toNat →
        (∃ u : State, exec (.abort port h e) s = .next (u.say (.abortDone e)) ∧
          exec (.modeAbort m) v = .next (u.answer m [])) ∨
        (exec (.abort port h e) s = .next (v.say (.abortLate e)) ∧
          exec (.modeAbort m) v = .next (v.refusal m .abortLate)))) ∧
    (s.mgmtTakes port.val 0x0028 (rollbackPacket h e t) →
      (∀ t0, s.tickOf e = some t0 → t.toNat ≤ t0 + 4 → s.frm.tick.toNat + 1 ≤ t.toNat →
        exec (.rollback port h e t) s = .next (State.say
          { v with frm := { s.frm with rollback := some ⟨e, t⟩ } } (.rollbackDone e))) ∧
      (v.admits 0x0305 m = true → u16At (v.params m) 0 = e.toNat → u64At (v.params m) 8 = t.toNat →
        (∃ u : State, exec (.rollback port h e t) s = .next (u.say (.rollbackDone e)) ∧
          exec (.modeRollback m) v = .next (u.answer m [])) ∨
        (exec (.rollback port h e t) s = .next (v.armMiss e) ∧
          exec (.modeRollback m) v = .next ((v.armMiss e).refusal m .armMiss)) ∨
        (exec (.rollback port h e t) s = .next (v.say (.rollbackExpired e)) ∧
          exec (.modeRollback m) v = .next (v.refusal m .rollbackExpired))))

/-- MODE_ARM arms where no case of R65 refuses, and only then: the mode, epoch and tick stand armed, and nothing else changes but a
request for a stretch that the mode answers and the note of the last ARM that came, which a refused one leaves too; the same ARM
again for an epoch not armed reports ARM_MISS (log entry 64). An ARM identical to the one armed is acknowledged again and changes
nothing. MODE_ABORT of the armed
epoch disarms it and records it as aborted; of an epoch in force it is late. MODE_ROLLBACK of an armed or retained epoch is
taken from the next tick to four frames after the switch, and is late otherwise. MODE_QUERY answers the epoch, the mode state, the armed tick and
mode, and the staged words. -/
def Obligations.ModeCommands : Prop :=
  ∀ (s : State) (m : BitVec 6),
    (s.admits 0x0303 m = true →
      let b := slice (s.params m) 0 16
      let e := BitVec.ofNat 16 (u16At (s.params m) 16)
      let t := BitVec.ofNat 64 (u64At (s.params m) 24)
      (s.armedAlready b e t = true → exec (.modeArm m) s = .next (s.answer m (sha256 b))) ∧
      (s.armedAlready b e t = false → s.armFail b e t = none →
        exec (.modeArm m) s = .next (State.answer { s with frm := { s.frm with
          armed := some ⟨modeOfBytes b, e, t⟩, armTick := t, lastArm := some ⟨modeOfBytes b, e, t⟩,
          stretchRequested := s.frm.stretchRequested && (modeOfBytes b).stretchAmt == 0 } } m (sha256 b))) ∧
      (s.armedAlready b e t = false →
        let u := if s.frm.lastArm = some ⟨modeOfBytes b, e, t⟩ then s.armMiss e else s
        let u1 := { u with frm := { u.frm with lastArm := some ⟨modeOfBytes b, e, t⟩ } }
        (∀ d, modeFail b = some d → exec (.modeArm m) s = .next (u1.refusalAt m d)) ∧
        (modeFail b = none → ∀ x, s.armFail b e t = some x → exec (.modeArm m) s = .next (u1.refusal m x)))) ∧
    (s.admits 0x0304 m = true → ∀ e : BitVec 16, u16At (s.params m) 0 = e.toNat →
      (∀ a, s.frm.armed = some a → a.epoch = e → (∀ x, s.frm.lastAborted = some x → newerEpoch e x = true) →
        exec (.modeAbort m) s = .next (State.answer
          { s with frm := { s.frm with armed := none, lastAborted := some e } } m [])) ∧
      (s.frm.armed = none → s.frm.epoch = e → s.frm.lastAborted ≠ some e →
        exec (.modeAbort m) s = .next (s.refusal m .abortLate))) ∧
    (s.admits 0x0305 m = true → ∀ (e : BitVec 16) (t : BitVec 64), u16At (s.params m) 0 = e.toNat →
      u64At (s.params m) 8 = t.toNat → ∀ t0, s.tickOf e = some t0 →
      (t.toNat ≤ t0 + 4 → s.frm.tick.toNat + 1 ≤ t.toNat → exec (.modeRollback m) s = .next (State.answer
        { s with frm := { s.frm with rollback := some ⟨e, t⟩ } } m [])) ∧
      ((t0 + 4 < t.toNat ∨ t.toNat ≤ s.frm.tick.toNat) →
        exec (.modeRollback m) s = .next (s.refusal m .rollbackExpired))) ∧
    (s.admits 0x0306 m = true → exec (.modeQuery m) s = .next (s.answer m
      (toLe 4 (s.readReg Reg.FRM_EPOCH).toNat ++ toLe 4 (s.readReg Reg.FRM_MODE_STATE).toNat ++ toLe 8 s.frm.armTick.toNat
        ++ (match s.frm.armed with | some a => a.mode.bytes | none => List.replicate 16 0)
        ++ toLe 4 (s.stagedView Reg.FRM_STRETCH).toNat ++ toLe 4 (s.stagedView Reg.FRM_ALIGN_CFG).toNat)))

/-- A frame program that passes every check is held in the standby bank, and so is a layout plan; one whose digest differs is refused with
PLAN_INVALID and changes nothing; while a mode is armed or retained both are refused with ARM_BUSY. -/
def Obligations.ProgramAndPlanLoads : Prop :=
  ∀ (s : State) (m : BitVec 6),
    (s.admits 0x0301 m = true →
      let src := u64At (s.params m) 0
      let len := u32At (s.params m) 8
      let b := s.load src len
      let h := s.load src 64
      (s.loadsHeld = true → exec (.frameProgramLoad m) s = .next (s.refusal m .armBusy)) ∧
      (s.loadsHeld = false → s.paramOk src 64 false = true → progFieldsOk h = true → len = progLength h →
        s.paramOk src len false = true →
        (sha256 (b.drop 64) ≠ slice b 32 32 → exec (.frameProgramLoad m) s = .next
          (s.finish m.toNat .planInvalid 0 (toLe 4 (u32At h 16) ++ toLe 4 0xFFFFFFFF))) ∧
        (sha256 (b.drop 64) = slice b 32 32 → u8At b 24 = s.boot.running → progFramesFail b (u8At b 24) = none →
          exec (.frameProgramLoad m) s = .next (State.answer
            { s with frm := { s.frm with standbyProg := some (programOfBytes b) } } m
            (toLe 4 (u32At h 16) ++ toLe 4 0xFFFFFFFF))))) ∧
    (s.admits 0x0302 m = true →
      let src := u64At (s.params m) 0
      let len := u32At (s.params m) 8
      let b := s.load src len
      let h := s.load src 64
      (s.loadsHeld = true → exec (.layoutPlanLoad m) s = .next (s.refusal m .armBusy)) ∧
      (s.loadsHeld = false → s.paramOk src 64 false = true → planHeaderOk h len = true → s.paramOk src len false = true →
        (sha256 (b.drop 64) ≠ slice b 32 32 → exec (.layoutPlanLoad m) s = .next
          (s.finish m.toNat .planInvalid 0 (toLe 4 (u32At h 12) ++ toLe 4 0xFFFFFFFF))) ∧
        (sha256 (b.drop 64) = slice b 32 32 → s.planFail (planEntries b) = none →
          exec (.layoutPlanLoad m) s = .next (State.answer
            { s with frm := { s.frm with standbyPlan := some ⟨u32At h 12, planEntries b⟩ } } m
            (toLe 4 (u32At h 12) ++ toLe 4 0xFFFFFFFF)))))

/-- TICK_ALIGN_CONFIG and POWER_GUARD_CONFIG stage their word for the next tick, or after the cut-off for the tick after it; the
registers keep their values. TICK_SET, admitted in epoch 0 or after a lost tick, sets the number due at its tick, as the
message TICK_SET does, whose payload is laid out as log entry 65 says. -/
def Obligations.StagedConfigurationCommands : Prop :=
  ∀ (s : State) (m : BitVec 6),
    (s.admits 0x0308 m = true → 16 ≤ u8At (s.params m) 2 → u8At (s.params m) 2 ≤ 24 →
      let w : Word := BitVec.ofNat 32 (u16At (s.params m) 0 + u8At (s.params m) 2 * 65536)
      (s.beforeCutoff = true → exec (.tickAlignConfig m) s = .next (State.answer
        { s with frm := { s.frm with staged := s.frm.staged ++ [(Reg.FRM_ALIGN_CFG, 0x1FFFFF, w)] } } m [])) ∧
      (s.beforeCutoff = false → exec (.tickAlignConfig m) s = .next (State.answer
        { s with frm := { s.frm with stagedLate := s.frm.stagedLate ++ [(Reg.FRM_ALIGN_CFG, 0x1FFFFF, w)] } } m []))) ∧
    (s.admits 0x0A06 m = true → 50 ≤ u8At (s.params m) 0 → u8At (s.params m) 0 ≤ 100 → 1 ≤ u8At (s.params m) 1 →
      u8At (s.params m) 1 ≤ 8 →
      let w : Word := BitVec.ofNat 32 (u8At (s.params m) 0 + u8At (s.params m) 1 * 256)
      ∃ t : State, exec (.powerGuardConfig m) s = .next (t.answer m (toLe 4 (t.stagedReg Reg.PWR_CFG).toNat)) ∧
        t.regs = s.regs ∧
        (s.beforeCutoff = true → t = { s with frm := { s.frm with staged := s.frm.staged ++ [(Reg.PWR_CFG, 0xF7F, w)] } }) ∧
        (s.beforeCutoff = false →
          t = { s with frm := { s.frm with stagedLate := s.frm.stagedLate ++ [(Reg.PWR_CFG, 0xF7F, w)] } })) ∧
    (∀ tick at_ : BitVec 64, u64At (s.params m) 0 = tick.toNat → u64At (s.params m) 8 = at_.toNat →
      let u : State := { s with frm := { s.frm with tickNext := some (at_, some tick) } }
      ((s.frm.epoch = 0 ∨ s.regBit Reg.FRM_STATUS 7 = true) →
        (s.admits 0x0307 m = true → exec (.tickSet m) s = .next (u.answer m []))) ∧
      (s.frm.epoch ≠ 0 → s.regBit Reg.FRM_STATUS 7 = false → s.admits 0x0307 m = true →
        exec (.tickSet m) s = .next (s.refusal m .runLock))) ∧
    (∀ (port : Fin 24) (h : Packet) (tick at_ : BitVec 64), s.boot.dev = .ready →
      s.mgmtTakes port.val 0x0012 (tickSetPacket h tick at_) →
      (s.lnk.manager = none ∨ s.lnk.manager = some h.src.toNat) →
      let v := s.linkTaken port.val
      ((s.frm.epoch = 0 ∨ s.regBit Reg.FRM_STATUS 7 = true) → exec (.tickSetMsg port h tick at_) s = .next (State.say
        { v with frm := { s.frm with tickNext := some (at_, some tick) } }
        (.tickSetAck .success tick))) ∧
      (s.frm.epoch ≠ 0 → s.regBit Reg.FRM_STATUS 7 = false →
        exec (.tickSetMsg port h tick at_) s = .next (v.say (.tickSetAck .runLock tick))))

/-- Writes staged before the cut-off take effect together, and the last one to a field counts: after them a register's masked
bits are those of the last write staged for it. What was staged after the cut-off is staged for the next tick. -/
def Obligations.StagedWritesTakeEffectTogether : Prop :=
  ∀ (s : State) (l r : List (Nat × Word × Word)) (off : Nat) (mask v : Word),
    s.frm.staged = l ++ (off, mask, v) :: r → (∀ e ∈ r, e.1 ≠ off) →
    (s.applyStaged).reg off &&& mask = v &&& mask ∧
    (∀ o, (∀ e ∈ s.frm.staged, e.1 ≠ o) → (s.applyStaged).reg o = s.reg o) ∧
    (s.applyStaged).frm = { s.frm with staged := s.frm.stagedLate, stagedLate := [] } ∧
    (s.applyStaged).mem = s.mem ∧ (s.applyStaged).out = s.out

/-- What a tick does to its number: one more than the last whatever the frame length, or the number that TICK_SET set for
it; the cycle count and phase move to the tick, and the phase starts again. FRAME_TICK runs these, the end of the frame and the beginning of the next, on a
device whose ticks run; on one whose ticks do not run yet it does nothing.
Four frames after a switch the retained configuration is dropped unless a rollback is due; packets held for two frames are
dropped and counted; when no stretched frame is left the frame length is L again; a device with a part still at throttle when 8
stretched frames remain asks for a new stretch, unless one is armed. Each changes nothing else. -/
def Obligations.TicksAndExpiries : Prop :=
  (∀ s : State,
    (s.frm.tickNext = none → s.numberTick.frm.tick = s.frm.tick + 1) ∧
    (∀ a v : BitVec 64, s.frm.tickNext = some (a, some v) → a.toNat ≤ (s.frm.tick + 1).toNat →
      s.numberTick.frm.tick = v ∧ s.numberTick.frm.tickNext = none) ∧
    (s.frm.ticking = true → s.frm.begun = true → s.midPair = false →
      exec .frameTick s = .next (s.advance s.frameLen).takeDecision.runningUse.countWaits.everyTick.endFrame.afterTick) ∧
    (s.frm.phase ≤ s.frameLen → (s.advance s.frameLen).frm.phase = s.frameLen ∧
      (s.advance s.frameLen).rc = s.rc + (s.frameLen - s.frm.phase)) ∧
    ((s.frm.ticking = false ∨ s.frm.begun = false) → exec .frameTick s = .next s)) ∧
  (∀ s : State,
    (s.frm.retained ≠ none → s.frm.halted = false → s.frm.rollback = none → 4 ≤ s.frm.framesSinceSwitch →
      exec .retentionEnd s = .next { s with frm := { s.frm with retained := none } }) ∧
    ((s.frm.rollback ≠ none ∨ s.frm.framesSinceSwitch < 4) → exec .retentionEnd s = .next s) ∧
    (exec .holdExpiry s = .next (State.epochDrop { s with frm := { s.frm with
        hold := s.frm.hold.map (fun h => (h.1, h.2.filter (fun x => decide (x.1 < 2)))) } }
      (sumNat (s.frm.hold.map (fun h => (h.2.filter (fun x => decide (2 ≤ x.1))).length))))) ∧
    (s.frm.stretchLeft = 0 → exec .stretchEnd s = .next { s with frm := { s.frm with stretchAmt := 0 } } ∧
      ({ s with frm := { s.frm with stretchAmt := 0 } } : State).modeLen = 2 ^ s.frm.lenExp) ∧
    (∀ i l, s.hotParts = i :: l → s.frm.stretchLeft = 8 → s.stretchArmed = false →
      exec .stretchRenew s = .next (State.say { s with frm := { s.frm with stretchRequested := true } }
        (.stretchReq i (s.regField Reg.FRM_STRETCH 0 3) (s.regField Reg.FRM_STRETCH 8 15)))) ∧
    (s.stretchArmed = true → exec .stretchRenew s = .next s))

/-- Alignment: ALIGN_ROUND concludes the round before and probes every port that is UP, in order; the root answers a TICK_PROBE
with its times and tick number; a station takes one TICK_ECHO a plane, with the offset that its four times give. A guard band
is trimmed by at most 1 rc, 8 steps, toward the measured offset, and its frame is as much shorter.
A round with fewer than 3 answers makes no correction and is counted. The messages' payloads are laid out as log entry 65 says. -/
def Obligations.AlignmentExchange : Prop :=
  (∀ s : State,
    (∀ now : BitVec 64, s.aligns = true → ∃ t : State, exec (.alignRound now) s = .next t ∧
      t.out.mgmt = s.closeRound.out.mgmt ++ ((List.range 24).filter (fun n =>
        decide ((s.closeRound.port n).phase = .up))).map (fun n => MgmtOut.tickProbe n now.toNat) ∧
      t.frm = { s.closeRound.frm with alignAnswers := [], alignOpen := true } ∧ t.mem = s.closeRound.mem) ∧
    (∀ now : BitVec 64, s.aligns = false → exec (.alignRound now) s = .next s) ∧
    (∀ (n : Fin 24) (h : Packet) (t1 t2 t3 : BitVec 64) (since : BitVec 32), s.frm.ticking = true → s.isRoot = true →
      s.mgmtTakes n.val 0x0010 (carrying h (toLe 8 t1.toNat)) →
      exec (.tickProbe n h t1 t2 t3 since) s = .next ((s.linkTaken n.val).sayOn n.val h.src.toNat
        (.tickEcho n.val h.src.toNat t1.toNat t2.toNat t3.toNat s.frm.tick since.toNat))) ∧
    (∀ (n : Fin 24) (h : Packet) (t1 t2 t3 t4 tick : BitVec 64) (since : BitVec 32), s.aligns = true →
      s.frm.alignOpen = true → h.src.toNat = s.rootStation → s.mgmtTakes n.val 0x0011 (echoPacket h t1 t2 t3 tick since) →
      (∀ a ∈ s.frm.alignAnswers, a.plane ≠ n.val) →
      ∃ a : AlignAnswer, a.plane = n.val ∧ 2 * a.offset ≤ (t2 - t1).toInt - (t4 - t3).toInt ∧
        (t2 - t1).toInt - (t4 - t3).toInt < 2 * a.offset + 2 ∧
        exec (.tickEcho n h t1 t2 t3 t4 tick since) s = .next
          { s.linkTaken n.val with frm := { s.frm with alignAnswers := s.frm.alignAnswers ++ [a] } }) ∧
    (s.trimFrame.frm.alignLeft.natAbs = s.frm.alignLeft.natAbs - 8 ∧
      (s.frm.alignLeft - s.trimFrame.frm.alignLeft).natAbs ≤ 8 ∧
      s.trimFrame.frm.trim = s.frm.alignLeft - s.trimFrame.frm.alignLeft ∧
      s.frameLen = ((8 * s.modeLen + s.frm.frac : Int) - s.frm.trim).toNat / 8)) ∧
  (∀ s : State, s.frm.alignOpen = true → s.frm.alignAnswers.length < 3 → s.closeRound = s.bump Reg.FRM_ALIGN_MISS 1)

/-- At T the armed mode switches: its length, guard band and stretch stand under its epoch, the epoch before is kept, nothing is armed,
and what the retention window needs is retained; the program and plan that it changes exchange their banks. With a standby bank
that fails its integrity check the device keeps its mode and epoch, runs no slots and reports SWITCH_FAIL. A rollback at T′ puts the epoch
E + 1 in force with nothing armed or retained, under the lengths retained. -/
def Obligations.SwitchAndRollback : Prop :=
  ∀ s : State,
    (∀ (a : Armed) (intact : Bool), s.frm.armed = some a → s.frm.ticking = true → s.frm.begun = false →
      s.rollbackDue = false → a.tick.toNat ≤ s.frm.tick.toNat →
      exec (.modeSwitch intact) s = .next ((s.switchAt a intact).noteProgram s).enterFrame ∧
      ((s.changes a.mode = false ∨ intact = true) → s.switchAt a intact =
        ((if s.changes a.mode then s.cutAttempt else s).takeMode a).releaseHeld) ∧
      (s.changes a.mode = true → intact = false → s.switchAt a intact = s.cutAttempt.failSwitch a)) ∧
    ((s.frm.armed = none ∨ s.switchDue = false) → ∀ intact, exec (.modeSwitch intact) s = .next s) ∧
    (∀ a : Armed,
      let t := s.takeMode a
      t.frm.epoch = a.epoch ∧ t.frm.prevEpoch = some s.frm.epoch ∧ t.frm.armed = none ∧ t.frm.framesSinceSwitch = 0 ∧
      (t.frm.lenExp, t.frm.guard, t.frm.stretchAmt) = (a.mode.lenExp, a.mode.guard, a.mode.stretchAmt) ∧
      (∃ r, t.frm.retained = some r ∧ r.epoch = a.epoch ∧ r.switchTick = s.frm.tick ∧
        (r.lenExp, r.guard, r.stretchAmt) = (s.frm.lenExp, s.frm.guard, s.frm.stretchAmt)) ∧
      (t.frm.curProg, t.frm.standbyProg) = (if s.changesProg a.mode then (s.frm.standbyProg, s.frm.curProg)
        else (s.frm.curProg, s.frm.standbyProg)) ∧
      (t.frm.curPlan, t.frm.standbyPlan) = (if s.changesPlan a.mode then (s.frm.standbyPlan, s.frm.curPlan)
        else (s.frm.curPlan, s.frm.standbyPlan)) ∧ t.mem = s.mem) ∧
    (∀ a : Armed,
      let t := s.failSwitch a
      t.frm.epoch = s.frm.epoch ∧ t.frm.noSlots = true ∧ t.frm.halted = true ∧ t.regBit Reg.FRM_STATUS 3 = true ∧
      t.out.mgmt = s.out.mgmt ++ [.switchFail a.epoch .switchFail] ∧
      (t.frm.lenExp, t.frm.guard, t.frm.curProg, t.frm.curPlan) = (s.frm.lenExp, s.frm.guard, s.frm.curProg, s.frm.curPlan)) ∧
    (∀ rb : Rollback, s.frm.rollback = some rb → s.frm.ticking = true → s.frm.begun = false →
      rb.tick.toNat ≤ s.frm.tick.toNat →
      exec .rollbackApply s = .next
        ((((if s.undoes rb then s.stopAll.abandonAttempt else s).takeRollback rb).noteProgram s).enterFrame)) ∧
    (s.frm.rollback = none → exec .rollbackApply s = .next s)

/-- A slot starts at the latest of its START, the end of its unit's slot before it and its wait: SLOT_START of a slot of the frame whose turn has come, not
held by a range (R209), puts it among the running slots, and changes neither memory nor what was sent; one
whose START lies ahead, whose unit runs a slot, or whose wait is not met does nothing. -/
def Obligations.SlotStart : Prop :=
  ∀ (s : State) (slot : SlotArg) (rc : BitVec 18) (d : SlotDesc), s.descOf (refOf slot) = some d →
    (s.mayStart48 (refOf slot) d = true → d.start ≤ Nat.max rc.toNat s.slotTime → s.inTime rc.toNat = true →
      (s.timeTo rc.toNat).held209 d = false →
      ∃ t : State, exec (.slotStart slot rc) s = .next t ∧
        freshRun (refOf slot) d.unit (s.timeTo rc.toNat).rc s.mem s.frm.frameIndex s.attemptId ∈ t.frm.slots ∧ t.mem = s.mem ∧ t.out = s.out ∧
        t.frm.tick = s.frm.tick ∧ t.frm.events = s.frm.events) ∧
    ((s.inFrame (refOf slot) = false ∨ s.unitFree d.unit = false ∨ s.waitMet d = false ∨ s.earlierOver (refOf slot) d = false ∨
      Nat.max rc.toNat s.slotTime < d.start) → exec (.slotStart slot rc) s = .next s)

/-- SLOT_END without an error of a slot whose work is complete applies what it charged and signals its counter once; one whose work is
not complete does nothing. An end with an error raises its record with the error's marks; then a replayable slot whose planned length
fits runs again as a replay, and one that does not fit sets REPLAY_SKIPPED; an error that marks both halves of a core does the same to
the slot of the other half. The core store words corrected in the attempt are counted. -/
def Obligations.SlotEndAndReplay : Prop :=
  ∀ (s : State) (slot : SlotArg) (rc : BitVec 18) (hot : BitVec 8) (n : BitVec 32) (r : SlotRun) (d : SlotDesc),
    s.run (refOf slot) = some r → s.descOf (refOf slot) = some d → r.phase = .running → s.inTime rc.toNat = true →
    let u := (s.timeTo rc.toNat).csCorrected n.toNat
    (s.slotDone r = true → exec (.slotEnd slot rc ⟨.ok, hot, n⟩) s = .next (u.endOk r d)) ∧
    (s.slotDone r = false → exec (.slotEnd slot rc ⟨.ok, hot, n⟩) s = .next s) ∧
    (∀ e c, endClass e = some c → (r.unit.ty ≠ 3 ∨ r.last = true) → exec (.slotEnd slot rc ⟨e, hot, n⟩) s = .next
      ((u.struckHalves r e).foldl (fun (v : State) x => v.afterStruck e hot x)
        (((u.errorMarks r.unit e).raiseNoted c r.unit 0 (endHalf e == some true)).afterError r d e hot))) ∧
    (bit d.flags 2 = true → tget 0 s.frm.events d.signalCtr < 0xFFFF →
      tget 0 (s.slotSignal d).frm.events d.signalCtr = tget 0 s.frm.events d.signalCtr + 1) ∧
    (∀ e, (s.dropWork r).unitIdle r.unit = false → (r.unit.ty ≠ 1 ∨ (r.replay = false ∧ endFixed e = false)) →
      (d.replayable = true → (s.dropWork r).replayFits d hot = true → s.afterError r d e hot = (s.dropWork r).replayRun r) ∧
      ((d.replayable = false ∨ (s.dropWork r).replayFits d hot = false) →
        s.afterError r d e hot =
          (((s.dropWork r).failRun (some r.ref)).stick Reg.FRM_STATUS 6).raise .replaySkipped r.unit 0)) ∧
    ((n ≠ 0 → (s.csCorrected n.toNat).regBit Reg.MEM_STATUS 0 = true) ∧
      (s.csCorrected n.toNat).reg Reg.MEM_CNT_CS_CE = satAdd (s.reg Reg.MEM_CNT_CS_CE) n.toNat)

/-- Where a unit still runs at the end of the work window, the guard band is in use, under the first cause attributed; a rolling
average above the guard limit idles the device and sets its bit. The commit window is decided where the attempt's last frame runs, once, and nowhere else. -/
def Obligations.WorkAndCommitWindows : Prop :=
  ∀ s : State,
    (s.frm.ticking = true → (s.frm.double = false ∨ s.frm.pairBase ≠ 0) →
      let u := (s.advance s.workEnd).runningUse
      (u.phys.sum ≤ u.guardLimit * 10000000 → exec .workWindowEnd s = .next u) ∧
      (u.guardLimit * 10000000 < u.phys.sum → ∃ t : State, exec .workWindowEnd s = .next t ∧ t.phys = { u.phys with idling := true } ∧
        t.regBit Reg.PWR_STATUS 0 = true ∧ t.frm.guardUsed = true ∧
        t.frm.guardCause = some (u.frm.guardCause.getD .power) ∧ t.mem = u.mem ∧ t.out = u.out)) ∧
    (s.frm.ticking = false → exec .workWindowEnd s = .next s) ∧
    (s.frm.ticking = true → s.frm.begun = true → s.upd.commit = .running → s.lastFrame = true →
      exec .commitWindow s = .next (s.advance (s.frameLen - s.commitWin)).decideCommit) ∧
    ((s.upd.commit ≠ .running ∨ s.lastFrame = false ∨ s.frm.begun = false) → exec .commitWindow s = .next s)

/-- A clear verdict commits, with 512 cores in service: at the tick that ends the step t advances by one with the first attempt to come, and the attempt is
over. -/
def Obligations.ClearStepCommits : Prop :=
  ∀ (s : State) (tick : Nat), s.upd.commit ≠ .running → s.upd.commit ≠ .idle → s.upd.clear = true → s.coresShort = false →
    (s.endStep tick).upd.t = s.upd.t + 1 ∧ (s.endStep tick).upd.attempt = 0 ∧
    (s.endStep tick).upd.last = 1 ∧ (s.endStep tick).upd.commit = .idle ∧ (s.endStep tick).frm.uncommittable = false ∧
    ∀ k, (s.endStep tick).commitList k = []

/-- A step that does not commit, for its verdict or for want of cores (R25), exchanges nothing: at its tick memory stays, its commit lists are cleared, the discard is counted
and flagged, and t stands for the attempt that follows. -/
def Obligations.DiscardedStepExchangesNothing : Prop :=
  ∀ (s : State) (tick : Nat), s.upd.commit ≠ .running → s.upd.commit ≠ .idle →
    (s.upd.clear = false ∨ s.coresShort = true) →
    (s.endStep tick).mem = s.mem ∧ (∀ k, (s.endStep tick).commitList k = []) ∧
    (s.endStep tick).reg Reg.UPD_CNT_DISCARDS = satAdd (s.reg Reg.UPD_CNT_DISCARDS) 1 ∧
    (s.endStep tick).upd.t = s.upd.t ∧ (s.endStep tick).upd.last = 2 ∧ (s.endStep tick).upd.commit = .idle ∧
    (s.endStep tick).regBit Reg.UPD_STATUS 6 = true

/-! ### Mailbox commands of the units -/

/-- Every counter command answers its registers in offset order, as they are before it, and clears them where bit 0 of its
parameter asks for it; nothing else changes. TELEMETRY_READ of the counters does the same, and clears the peak of the die; MEM_COUNTERS
clears the stacks' peaks, QUANT_COUNTERS the counts it does not show, and RAS_COUNTERS its two groups by a bit each.
A cleared register reads zero and every other keeps its value. -/
def Obligations.CountersAreReadAndCleared : Prop :=
  (∀ (s : State) (m : BitVec 6),
    let clear := bit (u8At (s.params m) 0) 0
    let reply := fun (l : List Nat) => (if clear then s.clearRegs l else s).answer m (l.flatMap (fun o => toLe 4 (s.readReg o).toNat))
    (s.admits 0x0107 m = true → exec (.mbxCounters m) s = .next (reply mbxCounters)) ∧
    (s.admits 0x0309 m = true → exec (.frameCounters m) s = .next (reply frmCounters)) ∧
    (s.admits 0x0507 m = true → exec (.linkCounters m) s = .next (reply lnkCounters)) ∧
    (s.admits 0x0508 m = true → exec (.collCounters m) s = .next (reply colCounters)) ∧
    (s.admits 0x0629 m = true → exec (.facetCounters m) s = .next (reply facCounters)) ∧
    (s.admits 0x0630 m = true → exec (.accCounters m) s = .next (reply accCounters)) ∧
    (s.admits 0x0643 m = true → exec (.updCounters m) s = .next (reply updCounters)) ∧
    (s.admits 0x0655 m = true → exec (.loupeCounters m) s = .next (reply lupCounters)) ∧
    (s.admits 0x0663 m = true → exec (.stashCounters m) s = .next (reply stsCounters)) ∧
    (s.admits 0x0673 m = true → exec (.dspCounters m) s = .next (reply dspCounters)) ∧
    (s.admits 0x0621 m = true → exec (.quantCounters m) s = .next
      ((if clear then s.clearRegs (qntCounters ++ qntHidden) else s).answer m (s.regBytes qntCounters))) ∧
    (s.admits 0x0404 m = true → ∃ t : State, exec (.memCounters m) s = .next (t.answer m (s.regBytes memCounters)) ∧
      t.regs = (if clear then s.clearRegs memCounters else s).regs ∧
      (clear = false → t = s) ∧
      (clear = true → t.hbm = { s.hbm with therms := s.hbm.therms.map (fun e => (e.1, { e.2 with peak := 0 })) })) ∧
    (s.admits 0x0A01 m = true → u8At (s.params m) 0 % 4 = 0 → ∃ t : State, exec (.telemetryRead m) s = .next (t.answer m
        (s.regBytes (clkCounters ++ pwrCounters ++ thmCounters))) ∧
      (bit (u8At (s.params m) 0) 7 = false → t = s) ∧
      (bit (u8At (s.params m) 0) 7 = true → t.regs = (s.clearRegs (clkCounters ++ pwrCounters ++ thmCounters)).regs ∧
        t.phys = { s.phys with diePeak := s.phys.dieTemp } ∧ t.mem = s.mem)) ∧
    (s.admits 0x070A m = true → ∃ t : State, exec (.rasCounters m) s = .next (t.answer m
        (s.regBytes (rasCounters ++ avCounters))) ∧
      t.regs = (if clear then s.clearRegs rasCounters else s).regs ∧
      t.ras = (if bit (u8At (s.params m) 0) 1 then { s.ras with avSched := 0, avLost := 0, avReplayed := 0 } else s.ras))) ∧
  (∀ (s : State) (l : List Nat) (r : Nat),
    (s.clearRegs l).reg r = (if r ∈ l then 0 else s.reg r) ∧ s.clearRegs l = { s with regs := (s.clearRegs l).regs })

/-- The telemetry queries answer what the registers and samples hold and change nothing: POWER_QUERY, DIE_THERMAL_QUERY,
CLOCK_QUERY of domains 0 to 36, ENERGY_MODEL_READ of the three apertures, and TELEMETRY_READ of the sensors; its rail readings
are free values (log entry 18).
The memory commands: MEM_FLUSH drains every line of the stacks named and answers how many; MEM_ADDR_DECODE gives the place of
an HBM address; the thermal and repair queries answer the stacks' and the channel's state; HBM_MARGIN, outside an epoch, leaves the channel
zero and writes the lanes' margins. -/
def Obligations.TelemetryAndMemoryCommands : Prop :=
  (∀ (s : State) (m : BitVec 6),
    let p := u8At (s.params m) 0
    (s.admits 0x0A02 m = true → exec (.powerQuery m) s = .next (s.answer m
      (s.regBytes [Reg.PWR_AVG_W, Reg.PWR_IN0, Reg.PWR_IN1, Reg.PWR_LIMIT_W] ++ toLe 8 (s.phys.energy / 10000000)))) ∧
    (s.admits 0x0A03 m = true → exec (.dieThermalQuery m) s = .next (s.answer m (toLe 4 s.thmDie.toNat ++ s.sensorBytes))) ∧
    (s.admits 0x0A04 m = true → (p ≤ 36 → exec (.clockQuery m) s = .next (s.answer m
        (toLe 4 (s.clkDomain p).toNat ++ toLe 4 (s.domain p).count ++ toLe 4 (expectedCount s.lockMultiple p)))) ∧
      (36 < p → exec (.clockQuery m) s = .next (s.refusalAt m 0))) ∧
    (s.admits 0x0A05 m = true → (p = 36 ∨ p = 32 ∨ p = 26) →
      exec (.energyModelRead m) s = .next (s.answer m ((energyModel p).flatMap (toLe 4)))) ∧
    (s.admits 0x0A01 m = true → (p = 1 → exec (.telemetryRead m) s = .next (s.answer m s.sensorBytes)) ∧
      (p = 2 → ∃ d, exec (.telemetryRead m) s = .next (State.answer { s with freeCtr := s.freeCtr + 72 } m d)))) ∧
  (∀ (s : State) (m : BitVec 6),
    let p := s.params m
    (s.admits 0x0402 m = true →
      let ws := (s.hbm.wcb.filter (fun l => bit (u8At p 0) (s.wordPlace l.word).stack)).map (fun l => l.word)
      exec (.memFlush m) s = .next ((s.drainLines ws).answer m (toLe 4 ws.length))) ∧
    (s.admits 0x0403 m = true →
      (∀ off, s.region (u64At p 0) = .hbm off → exec (.memAddrDecode m) s = .next (s.answer m
        (toLe 1 (if (s.place off).interleaved then 0 else 1) ++ toLe 1 (s.place off).stack ++ toLe 1 (s.place off).channel
          ++ toLe 1 (s.place off).word ++ toLe 1 (s.place off).granule ++ toLe 1 (s.place off).bank ++ toLe 2 (s.place off).row))) ∧
      (∀ c a, s.region (u64At p 0) = .core c a → exec (.memAddrDecode m) s = .next (s.answer m (2 :: List.replicate 7 0)))) ∧
    (s.admits 0x0405 m = true → exec (.hbmThermalQuery m) s = .next (s.answer m
      ((List.range 8).map (fun i => BitVec.ofNat 8 (s.stack i).temp)
        ++ (List.range 8).map (fun i => BitVec.ofNat 8 (s.stack i).peak) ++ toLe 2 s.thermAll.toNat))) ∧
    (s.admits 0x0407 m = true →
      let c := u8At p 0
      exec (.hbmRepairQuery m) s = .next (s.answer m (toLe 4 (s.chan c).laneMap.toNat
        ++ (List.range 4).flatMap (fun i => toLe 4 ((s.chan c).erase i).toNat) ++ toLe 4 (s.chan c).pprFree.toNat
        ++ toLe 1 ((s.hbm.queue ++ s.hbm.current.toList).filter (fun r => r.channel == c)).length))) ∧
    (∀ margins, s.admits 0x0408 m = true →
      let ch := u8At p 0
      let dst := u64At p 8
      ((s.frm.epoch ≠ 0 ∨ 8 < s.stationCount) → exec (.hbmMargin m margins) s = .next (s.refusal m .runLock)) ∧
      (s.frm.epoch = 0 → s.stationCount ≤ 8 → s.isHbm dst = true → s.paramOk dst 296 true = true →
        (∀ w ∈ wordsOf (dst % 2 ^ 48) 296, (s.wordPlace w).stack ≠ ch / 32) →
        exec (.hbmMargin m margins) s = .next ((((s.drainLines (s.linesOn ch none)).zeroChannel ch).store dst
          ((List.range 74).flatMap (marginBytes margins))).answer m (marginBytes margins (worstLane margins))))))

/-- The fabric commands: STATION_QUERY and PORT_QUERY answer; PEER_MAP_LOAD holds a map for the next tick; PORT_CONTROL
disables a port while 22 stay live, trains one that is down, and swaps a lane or the laser of one that is UP; the key commands
stage a table entry for the next tick; REMOTE_PROBE sends a probe on every plane whose port is UP and answers a time a plane,
none where the port is not UP. -/
def Obligations.FabricCommands : Prop :=
  ∀ (s : State) (m : BitVec 6),
    let p := s.params m
    let n := u8At p 0
    let q := s.port n
    (s.admits 0x0501 m = true → exec (.stationQuery m) s = .next (s.answer m
      (s.regBytes [Reg.LNK_STATION, Reg.LNK_PORTS_LIVE] ++ s.identity))) ∧
    (s.admits 0x0502 m = true → s.paramOk (u64At p 0) 8192 false = true →
      let b := BitVec.ofNat 65536 (leNat (s.load (u64At p 0) 8192))
      exec (.peerMapLoad m) s = .next (State.answer { s with lnk := { s.lnk with peersNext := some b } } m
        (toLe 4 ((List.range 65536).filter (fun i => b.getLsbD i)).length))) ∧
    (s.admits 0x0503 m = true → n ≤ 23 → exec (.portQuery m) s = .next (s.answer m
      (toLe 4 q.stateWord.toNat ++ toLe 4 q.laneMap.toNat ++ (List.range 18).flatMap (fun i => toLe 4 (q.symbols.getD i 0))))) ∧
    (s.admits 0x0504 m = true → n ≤ 23 →
      (u8At p 1 = 0 → s.livePorts - (if s.portLive n then 1 else 0) < 22 →
        exec (.portControl m) s = .next (s.refusal m .runLock)) ∧
      (u8At p 1 = 0 → 22 ≤ s.livePorts - (if s.portLive n then 1 else 0) →
        (q.phase ≠ .disabled → exec (.portControl m) s = .next ((s.portGone n 4 .disabled).answer m [])) ∧
        (q.phase = .disabled → exec (.portControl m) s = .next (s.answer m []))) ∧
      (u8At p 1 = 1 → (q.phase = .down ∨ q.phase = .disabled) → exec (.portControl m) s = .next
        (((s.putPort n { q with phase := .training, trainFails := 0 }).portEvent n 4).answer m [])) ∧
      (u8At p 1 = 2 → u8At p 2 ≤ 17 → q.phase = .up → (q.carries (u8At p 2)).isSome = true →
        ((q.takeSpare (u8At p 2)).isSome = true → exec (.portControl m) s = .next
          ((s.portSwaps n { q with replacing := [u8At p 2] }).answer m [])) ∧
        (q.takeSpare (u8At p 2) = none → exec (.portControl m) s = .next (s.refusal m .noSpare))) ∧
      (u8At p 1 = 3 → q.phase = .up → exec (.portControl m) s = .next
        ((((s.portSwaps n { q with changing := true, spareLaser := !q.spareLaser }).bump Reg.LNK_CNT_LASER_SWAP 1).stick
          Reg.LNK_STATUS 1).answer m [])) ∧
      ((u8At p 1 = 2 ∨ u8At p 1 = 3) → (u8At p 1 = 2 → u8At p 2 ≤ 17) → q.phase ≠ .up →
        exec (.portControl m) s = .next (s.refusal m .runLock))) ∧
    (s.admits 0x0505 m = true → u16At p 0 ≤ 1023 →
      (∀ e ∈ s.keysStaged, e.1 ≠ u16At p 0 → ∀ k, e.2 = some k → k.peer ≠ u16At p 2 ∧ k.handle ≠ u64At p 8) →
      (s.sec.handles.any (fun e => e.1 == u64At p 8) = true → exec (.dreskaKeySet m) s = .next (State.answer
        { s with lnk := { s.lnk with keysNext := s.lnk.keysNext ++ [(u16At p 0, some
          { peer := u16At p 2, planes := BitVec.ofNat 24 (leNat (slice p 4 3)), required := bit (u8At p 7) 0,
            handle := u64At p 8, counters := [] })] } } m [])) ∧
      (s.sec.handles.any (fun e => e.1 == u64At p 8) = false →
        exec (.dreskaKeySet m) s = .next (s.refusal m .keyUnknown))) ∧
    (s.admits 0x0506 m = true → u16At p 0 ≤ 1023 → exec (.dreskaKeyClear m) s = .next (State.answer
      { s with lnk := { s.lnk with keysNext := s.lnk.keysNext ++ [(u16At p 0, none)] } } m [])) ∧
    (∀ times : List (BitVec 16), s.admits 0x0509 m = true →
      let ports := (List.range 24).filter (fun i => decide ((s.port i).phase = .up))
      exec (.remoteProbe m times) s = .next
        ((ports.foldl (fun (t : State) i => t.sayOn i (u16At p 0) (.remoteProbe i (u16At p 0))) s).answer m
          ((List.range 24).flatMap (fun i => toLe 2 (if (s.port i).phase = .up then (times.getD i 0xFFFF).toNat else 0xFFFF)))))

/-- The array's and the quantizer's commands: FACET_MAP_QUERY answers a core's logical number, state, depth and rows;
ACC_FIRST_NONFIN the first tile, which it clears where asked; PRISM_SIGNS the signs of 128 indices under the seed in force; a
TENSOR_CONVERT that passes its checks and whose unit has no slot in the frame runs its job and answers the blocks. -/
def Obligations.ArrayAndQuantizerCommands : Prop :=
  ∀ (s : State) (m : BitVec 6),
    let p := s.params m
    (s.admits 0x0628 m = true → ∀ c, u16At p 0 = c → c < 544 → exec (.facetMapQuery m) s = .next (s.answer m
      (toLe 2 ((s.logicalOf c).getD 0xFFFF)
        ++ toLe 2 (if (s.logicalOf c).isSome then (if s.boot.fuses.coreMap.getLsbD c then 0 else 2)
            else if s.outOfUse c then 3 else 1)
        ++ toLe 4 (s.facDepth c).toNat ++ (List.range 4).flatMap (fun f => slice (s.loadedRows c) (2 * f) 2 ++ [0, 0])))) ∧
    (s.admits 0x0631 m = true →
      let d := toLe 4 (s.reg Reg.ACC_FIRST_TILE).toNat ++ toLe 4 (s.reg Reg.ACC_FIRST_LOC).toNat
        ++ toLe 8 (s.pair Reg.ACC_FIRST_TICK_LO Reg.ACC_FIRST_TICK_HI) ++ toLe 4 (s.reg Reg.ACC_STATUS).toNat
      (bit (u8At p 0) 0 = false → exec (.accFirstNonfin m) s = .next (s.answer m d)) ∧
      (bit (u8At p 0) 0 = true → ∃ t : State, exec (.accFirstNonfin m) s = .next (t.answer m d) ∧
        t.reg Reg.ACC_FIRST_TILE = 0 ∧ t.regBit Reg.ACC_STATUS 0 = false ∧
        ∀ r, r ≠ Reg.ACC_FIRST_TILE → r ≠ Reg.ACC_STATUS → t.reg r = s.reg r)) ∧
    (s.admits 0x0622 m = true →
      (u64At p 8 % 128 = 0 → exec (.prismSigns m) s = .next (s.answer m (philoxFixed s.seed (u32At p 0) (u64At p 8 / 128)))) ∧
      (u64At p 8 % 128 ≠ 0 → exec (.prismSigns m) s = .next (s.refusalAt m 8))) ∧
    (s.admits 0x0620 m = true → ∀ u a, convertUnit (u16At p 8) = some u → u64At p 0 = a →
      (s.slotInFrame u = true →
        exec (.tensorConvert m) s = .next (s.finish m.toNat .runLock 0 (convertReply 0 0xFFFFFFFF))) ∧
      (s.slotInFrame u = false → a % 64 = 0 → s.paramOk a 64 false = true → s.jobCheck (s.qjob a) false = none →
        s.firstBad (s.jobAccess (s.qjob a)) = none → s.accessFault (s.jobAccess (s.qjob a)) = false →
        exec (.tensorConvert m) s = .next ((s.runJob none (s.qjob a)).1.answer m
          (convertReply (s.runJob none (s.qjob a)).2 0xFFFFFFFF))))

/-- The training commands: a step descriptor that fits its program is attached to it; STEP_SET outside a step sets t for the
next tick and is refused with RUN_LOCK inside one; an update program that passes its checks is held for the next tick, while slots 0 to 3,
the supplied programs, are refused; COMMIT_QUERY answers t and the commit state. -/
def Obligations.TrainingCommands : Prop :=
  ∀ (s : State) (m : BitVec 6),
    let p := s.params m
    (s.admits 0x0640 m = true → s.paramOk (u64At p 0) 192 false = true → ∀ b, s.load (u64At p 0) 192 = b →
      (s.stepFail b (u32At p 8) = none → exec (.trainStepConfig m) s = .next ((s.attachStep b).answer m
        (toLe 4 (u32At b 8) ++ toLe 4 0xFFFFFFFF))) ∧
      (∀ w, s.stepFail b (u32At p 8) = some w → exec (.trainStepConfig m) s = .next
        (s.finish m.toNat .planInvalid 0 (toLe 4 (u32At b 8) ++ toLe 4 w)))) ∧
    (s.admits 0x0641 m = true →
      (s.upd.commit = .idle → exec (.stepSet m) s = .next (State.answer
        { s with upd := { s.upd with stepNext := some (BitVec.ofNat 64 (u64At p 0)) } } m [])) ∧
      (s.upd.commit ≠ .idle → exec (.stepSet m) s = .next (s.refusal m .runLock))) ∧
    (s.admits 0x0642 m = true → s.unitInFrame 4 = false →
      (u8At p 8 < 4 → exec (.updProgramLoad m) s = .next
        (s.finish m.toNat .progInvalid 0 (toLe 2 0 ++ toLe 2 0xFFFF))) ∧
      (∀ h im n, s.load (u64At p 0) 16 = h → n = 16 + 4 * (imagePrologue h + imageBody h) → s.load (u64At p 0) n = im →
        4 ≤ u8At p 8 → u8At p 8 ≤ 15 → s.paramOk (u64At p 0) 16 false = true → progHeaderOk h = true →
        s.paramOk (u64At p 0) n false = true → progFail im = none →
        exec (.updProgramLoad m) s = .next (State.answer
          { s with upd := { s.upd with progNext := s.upd.progNext ++ [(u8At p 8, im)] } } m
          (toLe 2 (imagePrologue im + imageBody im) ++ toLe 2 0xFFFF)))) ∧
    (s.admits 0x0644 m = true → exec (.commitQuery m) s = .next (s.answer m
      (toLe 8 s.upd.t.toNat ++ s.regBytes [Reg.UPD_COMMIT_STATE, Reg.UPD_LIST_MAX, Reg.UPD_STATUS])))

/-- The Loupe's commands: a scale state block that passes every check is held for the next tick with its destination, and a bad
one is refused with SSB_INVALID and sets its bit; LOUPE_SAVE stores the block as of the last tick and answers its length and
digest; the queries answer an entry, its statistics and a history record. -/
def Obligations.LoupeCommands : Prop :=
  ∀ (s : State) (m : BitVec 6),
    let p := s.params m
    (s.admits 0x0650 m = true →
      (s.upd.commit ≠ .idle → s.lup.phase ≠ .hold → s.lup.phase ≠ .stopped →
        exec (.loupeLoad m) s = .next (s.refusal m .runLock)) ∧
      (s.upd.commit = .idle → s.paramOk (u64At p 0) 64 false = true → ∀ h n img, s.load (u64At p 0) 64 = h →
        u16At h 6 = n → s.load (u64At p 0) (ssbSize n) = img →
        (headerOk h = false → exec (.loupeLoad m) s = .next ((s.stick Reg.LUP_STATUS 4).finish m.toNat .ssbInvalid 0
          (toLe 2 n ++ toLe 2 0xFFFF))) ∧
        (headerOk h = true → s.paramOk (u64At p 0) (ssbSize n) false = true → s.isHbm (u64At p 8) = true →
          s.paramOk (u64At p 8) (ssbSize n) true = true → imageOk img = true → s.firstBadEntry img = none →
          exec (.loupeLoad m) s = .next (State.answer { s with lup := { s.lup with load := some (u64At p 8, img) } } m
            (toLe 2 n ++ [0xFF, 0xFF]))))) ∧
    (s.admits 0x0651 m = true →
      (s.lup.snap = [] → exec (.loupeSave m) s = .next (s.refusal m .runLock)) ∧
      (s.lup.snap ≠ [] → s.paramOk (u64At p 0) s.lup.snap.length true = true →
        exec (.loupeSave m) s = .next ((s.store (u64At p 0) s.lup.snap).answer m
          (toLe 4 s.lup.snap.length ++ sha256 s.lup.snap)))) ∧
    (s.admits 0x0652 m = true → ∀ i, u16At p 0 = i →
      (0xC40 + 64 * (i + 1) ≤ s.lup.snap.length → exec (.loupeEntryQuery m) s = .next (s.answer m
        (slice s.lup.snap (0xC40 + 64 * i + 32 * (u8At p 2 % 2)) 32))) ∧
      (s.lup.snap.length < 0xC40 + 64 * (i + 1) → exec (.loupeEntryQuery m) s = .next (s.refusalAt m 0))) ∧
    (s.admits 0x0653 m = true → ∀ i, u16At p 0 = i → i < s.ssbEntries → exec (.loupeStats m) s = .next (s.answer m
      (slice (s.lupStat i).stats.record 0 40 ++ toLe 4 (s.lupStat i).tile))) ∧
    (s.admits 0x0654 m = true → u8At p 0 ≤ 15 → exec (.loupeHistory m) s = .next (s.answer m
      (if s.ssbLoaded then s.ssb (0xA40 + 32 * u8At p 0) 32 else List.replicate 32 0)))

/-- The stash's and the generator's commands: outside a step, a stash descriptor that passes its checks and a seed are held for the
next tick and the next step; inside one both are refused with RUN_LOCK. A FARSTASH window opens over local HBM, or closes with
size 0. STASH_GROUP_QUERY answers a group as of the last tick, RNG_EVAL the generator's output.
The dispatch queue commands: the table's base is taken, with the cache emptied, unless a dispatch job runs; a queue that
no job uses takes a valid descriptor, its counts kept, in cache and table; DSP_QUEUE_QUERY answers the descriptor. A QID of 2^20
or more is refused at byte 0. -/
def Obligations.StashSeedAndQueueCommands : Prop :=
  (∀ (s : State) (m : BitVec 6),
    let p := s.params m
    (s.admits 0x0660 m = true →
      (s.stepRuns = true → exec (.stashConfig m) s = .next ((s.stick Reg.STS_STATUS 5).refusal m .runLock)) ∧
      (s.stepRuns = false → s.paramOk (u64At p 0) 128 false = true → ∀ d, s.load (u64At p 0) 128 = d →
        s.stashFail (u64At p 0) d = none → exec (.stashConfig m) s = .next (State.answer
          { s with sts := { s.sts with next := some (d, s.groupTable d) } } m (toLe 2 (u16At d 6) ++ toLe 2 0xFFFF)))) ∧
    (s.admits 0x0661 m = true → u8At p 0 ≤ 15 → (tget ⟨0, 0, 0, false⟩ s.sts.windows (u8At p 0)).used = false →
      (u64At p 16 = 0 → exec (.farstashWindow m) s = .next (State.answer { s with sts := { s.sts with
        windows := tset s.sts.windows (u8At p 0) { base := 0, size := 0, owner := u16At p 24, used := false } } } m [])) ∧
      (u64At p 16 ≠ 0 → s.isHbm (u64At p 8) = true → s.paramOk (u64At p 8) (u64At p 16) true = true →
        exec (.farstashWindow m) s = .next (State.answer { s with sts := { s.sts with
          windows := tset s.sts.windows (u8At p 0)
            { base := u64At p 8 % 2 ^ 48, size := u64At p 16, owner := u16At p 24, used := false } } } m []))) ∧
    (s.admits 0x0662 m = true → ∀ g, s.sts.snap[u16At p 0]? = some g → exec (.stashGroupQuery m) s = .next (s.answer m
      (toLe 2 g.phase.code ++ toLe 2 g.layer ++ toLe 4 0 ++ toLe 8 g.addr ++ toLe 4 (g.size / 1024)))) ∧
    (s.admits 0x0668 m = true →
      (s.stepRuns = true → exec (.seedSet m) s = .next (s.refusal m .runLock)) ∧
      (s.stepRuns = false → exec (.seedSet m) s = .next (State.answer
        { s with sts := { s.sts with seedNext := some (u64At p 0) } } m []))) ∧
    (s.admits 0x0669 m = true → exec (.rngEval m) s = .next (s.answer m
      (philox (u64At p 0) (u32At p 8) (u64At p 16) (u32At p 24))))) ∧
  (∀ (s : State) (m : BitVec 6),
    let p := s.params m
    let qid := u32At p 0
    (s.admits 0x0670 m = true →
      (s.dspBusy = true → exec (.dspQueueTable m) s = .next (s.refusal m .runLock)) ∧
      (s.dspBusy = false → u64At p 0 % 256 = 0 → s.isHbm (u64At p 0) = true → s.paramOk (u64At p 0) (2 ^ 26) true = true →
        exec (.dspQueueTable m) s = .next ((State.putPair { s with dsp := { s.dsp with cache := [] } }
          Reg.DSP_QTABLE_ADDR_LO Reg.DSP_QTABLE_ADDR_HI (u64At p 0)).answer m []))) ∧
    (s.admits 0x0671 m = true → qid < 2 ^ 20 → s.paramOk (u64At p 8) 64 false = true →
      (s.queueRuns qid = true → exec (.dspQueueConfig m) s = .next ((s.stick Reg.DSP_STATUS 2).refusal m .queueBusy)) ∧
      (s.queueRuns qid = false → ∀ new old, s.load (u64At p 8) 64 = new → s.queueDesc qid = old → s.queueOk new = true →
        (queuePinned new = false ∨ s.pinnedOthers qid < 8192) →
        exec (.dspQueueConfig m) s = .next
          (((s.cachePut [qid] qid (queueCounts new (u32At old 20) (u32At old 24) (u32At old 28))).store (s.queueAddr qid)
            (queueCounts new (u32At old 20) (u32At old 24) (u32At old 28))).answer m []))) ∧
    (s.admits 0x0672 m = true →
      (qid < 2 ^ 20 → exec (.dspQueueQuery m) s = .next (s.answer m (s.queueDesc qid))) ∧
      (2 ^ 20 ≤ qid → exec (.dspQueueQuery m) s = .next (s.refusalAt m 0))))

/-! ### Recovery, trust and boot commands, and long operations -/

/-- The commands of chapter 16 that are done at once: RAS_RECORDS shows the active record and the queue, or the last-loss area
and clears it where asked; POWER_FEED_SET; MIRROR_PAIR unpairs, or begins a pairing whose outcome its status gives;
CORE_MAP_IN takes the nearest spare or the one named and writes it to the journal; FLERRA_READ answers entries or stores them. -/
def Obligations.RecoveryCommands : Prop :=
  ∀ (s : State) (m : BitVec 6),
    let p := s.params m
    let records := fun (rs : List RasRecord) => slice (toLe 1 (rs.take 64).length) 0 4
      ++ toLe 4 (s.reg Reg.RAS_CNT_OVERFLOW).toNat ++ List.replicate 8 0 ++ (rs.take 64).flatMap RasRecord.bytes
    let lastLoss := { s with ras := { s.ras with lastLoss := [] } }
    (s.admits 0x0701 m = true →
      (u8At p 0 = 0 → bit (u8At p 1) 0 = false →
        exec (.rasRecords m) s = .next (s.answer m (records (s.ras.active.toList ++ s.ras.queue)))) ∧
      (u8At p 0 = 1 → exec (.rasRecords m) s = .next
        ((if bit (u8At p 1) 0 then lastLoss else s).answer m (records s.ras.lastLoss))) ∧
      (1 < u8At p 0 → exec (.rasRecords m) s = .next (s.refusalAt m 0))) ∧
    (s.admits 0x0702 m = true →
      ((s.ras.mirror.phase = .pending ∨ s.ras.mirror.phase = .paired) →
        exec (.powerFeedSet m) s = .next (s.refusal m .runLock)) ∧
      (s.ras.mirror.phase ≠ .pending → s.ras.mirror.phase ≠ .paired → exec (.powerFeedSet m) s = .next
        (State.answer { s with ras := { s.ras with feedId := u8At p 0, fromStraps := false } } m []))) ∧
    (s.admits 0x0703 m = true → s.ras.mirror.phase ≠ .filling →
      (bit (u8At p 2) 1 = true → exec (.mirrorPair m) s = .next
        (s.unpair.answer m (toLe 8 s.unpair.ras.mirror.imageBytes ++ toLe 1 MirrorPhase.unpaired.code))) ∧
      (bit (u8At p 2) 1 = false → s.boot.persist.exclStacks ≠ 0 → (s.isHbm (u64At p 8) = true ∨ s.isHbm (u64At p 16) = true) →
        exec (.mirrorPair m) s = .next (s.refusal m .addrInvalid)) ∧
      (bit (u8At p 2) 1 = false → s.boot.persist.exclStacks = 0 → s.pairFail p = none →
        let t := s.beginPair p
        exec (.mirrorPair m) s = .next (if t.ras.mirror.phase = .feedRefused then t.refusal m .feedShared
          else t.answer m (toLe 8 t.ras.mirror.imageBytes ++ toLe 1 t.ras.mirror.phase.code)))) ∧
    (s.admits 0x0705 m = true → u16At p 0 ≤ 511 → s.boot.pendingMapIn = [] → s.recoveryActions < 4 →
      (∀ q, u16At p 2 = 0xFFFF → nearest ((s.physOf (u16At p 0)).getD 0) s.mapInSpares = some q →
        exec (.coreMapIn m) s = .next (((s.idleCore (u16At p 0)).writeMapIn (u16At p 0) q).answer m (toLe 2 q))) ∧
      (u16At p 2 = 0xFFFF → s.mapInSpares = [] → exec (.coreMapIn m) s = .next (s.refusal m .noSpareCore)) ∧
      (s.namedSpare (u16At p 2) = true → exec (.coreMapIn m) s = .next
        (((s.idleCore (u16At p 0)).writeMapIn (u16At p 0) (u16At p 2)).answer m (toLe 2 (u16At p 2))))) ∧
    (s.admits 0x0706 m = true → s.manifestOk s.ras.mirror.manifest = true →
      let es := fun n => s.logFrom (u64At p 0) n
      let head := fun (l : List (List Byte)) => toLe 8 (match l with
        | e :: _ => u64At e 0
        | [] => u64At p 0) ++ toLe 4 l.length
      let dst := u64At p 16
      let l := es (u32At p 8)
      (dst = 0 → exec (.flerraRead m) s = .next (s.answer m (head (es (Nat.min (u32At p 8) 30)) ++ List.replicate 36 0
        ++ (es (Nat.min (u32At p 8) 30)).flatMap id))) ∧
      (dst ≠ 0 → s.paramOk dst (128 * l.length) true = true →
        exec (.flerraRead m) s = .next ((s.putOut .log dst (l.flatMap id)).answer m (head l))))

/-- The trust commands: ATTEST signs a report, with randomness that is a free value (log entry 58), and stores it; CERT_CHAIN_READ stores the chain; MEASUREMENTS_READ answers a record
or all; OWNER_KEY_ENROL installs an authorised key that every valid bank is signed with; DEBUG_CHALLENGE issues a nonce, a free
value; DEBUG_UNLOCK opens the level of a challenge whose signature verifies, and counts one that does not; KEY_HANDLE_CREATE
makes a handle or destroys one that no key entry names.
A debug challenge is valid for 600 s, 60,000,000,000 rc, and no longer. -/
def Obligations.TrustCommands : Prop :=
  (∀ (s : State) (m : BitVec 6),
    let p := s.params m
    let measure := fun (l : List Nat) => toLe 8 s.frm.tick.toNat ++ l.flatMap s.measRecord
    (s.admits 0x0801 m = true → s.paramOk (u64At p 32) 17616 true = true →
      let body := s.reportBody (slice p 0 32)
      let report := body ++ slhSign slhFast idSecret (asciiBytes "V9T-ATTEST") body (Config.randomBytes s.freeCtr)
      exec (.attest m) s = .next (((({ s with freeCtr := s.freeCtr + 1 } : State).bump Reg.SEC_CNT_ATTEST 1).store (u64At p 32)
        report).answer m (toLe 4 report.length ++ sha256 report))) ∧
    (s.admits 0x0802 m = true → s.paramOk (u64At p 0) s.shownChain.length true = true →
      exec (.certChainRead m) s = .next ((s.store (u64At p 0) s.shownChain).answer m
        (toLe 4 s.shownChain.length ++ [if s.shownChain.isEmpty then 0 else 3, 0, 0, 0] ++ sha256 s.shownChain))) ∧
    (s.admits 0x0803 m = true →
      (u8At p 0 = 0xFF → exec (.measurementsRead m) s = .next (s.answer m (measure [1, 2, 3, 4, 5, 6, 7, 8, 9, 10]))) ∧
      (1 ≤ u8At p 0 → u8At p 0 ≤ 10 → exec (.measurementsRead m) s = .next (s.answer m (measure [u8At p 0])))) ∧
    (s.admits 0x0804 m = true →
      let key := slice p 0 32
      let none? := zeroBytes key 0 32
      let sigOk := s.ownerAuthorised key (s.load (u64At p 32) 7856)
      let addrOk := s.sec.ownerKey = none ∨ s.paramOk (u64At p 32) 7856 false = true
      (addrOk → sigOk = true → (none? = true ∨ s.banksSigned key = true) → s.frm.epoch = 0 →
        let c := (s.sec.ownerCounter + 1) % 2 ^ 32
        exec (.ownerKeyEnrol m) s = .next ((((State.stick { s with sec := { s.sec with
          ownerKey := if none? then none else some key, ownerCounter := c, ownerFuse := c } } Reg.SEC_STATUS 3).measChanged 8).measChanged
          9).answer m (toLe 4 c))) ∧
      (addrOk → (sigOk = false ∨ (none? = false ∧ s.banksSigned key = false)) → exec (.ownerKeyEnrol m) s = .next
        (((s.bump Reg.SEC_CNT_SIG_FAIL 1).stick Reg.SEC_STATUS 0).refusal m .sigInvalid))) ∧
    (s.admits 0x0805 m = true → (u8At p 0 = 1 ∨ u8At p 0 = 2) →
      let n := slice (Config.randomBytes s.freeCtr) 0 32
      exec (.debugChallenge m) s = .next (State.answer { s with
        freeCtr := s.freeCtr + 1, sec := { s.sec with challenge := some ⟨u8At p 0, n, s.rc⟩ } } m
          (n ++ s.identity ++ toLe 4 600))) ∧
    (∀ c, s.admits 0x0806 m = true → s.sec.challenge = some c → c.level = u8At p 0 →
      s.paramOk (u64At p 8) 7856 false = true → s.sec.debug < c.level →
      ((c.level = 1 ∧ s.sec.ownerKey.isSome = true) ∨ (c.level = 2 ∧ s.frm.epoch = 0)) →
      let used := { s with sec := { s.sec with challenge := none } }
      let ok := slhVerify slhSmall (if c.level = 1 then s.sec.ownerKey.getD [] else Config.debugKey) (asciiBytes "V9T-DBG")
        (c.nonce ++ s.identity ++ toLe 1 c.level) (s.load (u64At p 8) 7856)
      let opened := (State.stick { used with sec := { used.sec with debug := c.level } } Reg.SEC_STATUS 4).measChanged 9
      (s.rc < c.rc + 60000000000 → exec (.debugUnlock m) s = .next (if ok then
          (if c.level = 2 then opened.vendorUnlock else opened).answer m (toLe 1 c.level)
        else ((used.bump Reg.SEC_CNT_DEBUG_FAIL 1).stick Reg.SEC_STATUS 5).refusal m .sigInvalid)) ∧
      (c.rc + 60000000000 ≤ s.rc → exec (.debugUnlock m) s = .next (used.refusal m .challengeStale))) ∧
    (s.admits 0x0807 m = true →
      (u32At p 0 = 0 → s.sec.handles.length < 1024 →
        exec (.keyHandleCreate m) s = .next (State.answer { s with sec := { s.sec with
          handles := tset s.sec.handles s.sec.nextHandle (slice p 16 32), nextHandle := s.sec.nextHandle + 1 } } m
            (toLe 4 s.sec.nextHandle))) ∧
      (u32At p 0 ≠ 0 → zeroBytes p 16 32 = true → s.sec.handles.any (fun e => e.1 == u32At p 0) = true →
        (s.handleNamed (u32At p 0) = true → exec (.keyHandleCreate m) s = .next (s.refusal m .runLock)) ∧
        (s.handleNamed (u32At p 0) = false → exec (.keyHandleCreate m) s = .next (State.answer { s with sec := { s.sec with
          handles := s.sec.handles.filter (fun e => e.1 != u32At p 0) } } m (toLe 4 (u32At p 0))))))) ∧
  (∀ s : State,
    (∀ c, s.sec.challenge = some c → c.rc + 60000000000 ≤ s.rc →
      exec .challengeExpiry s = .next { s with sec := { s.sec with challenge := none } }) ∧
    ((∀ c, s.sec.challenge = some c → s.rc < c.rc + 60000000000) → exec .challengeExpiry s = .next s))

/-- The boot commands that are done at once: FW_ACTIVATE prefers a valid bank; BOOT_JOURNAL_READ answers or stores entries, or
stores the persistent block; APERTURE_SELECT, on a device in epoch 0, switches the ARITH domain to the reference, or
lets it lock there, and leaves the command running; where the old clock does not move it is refused; FUSE_QUERY; SCP_BANK_SWAP; SELFTEST_RESULTS. -/
def Obligations.BootCommands : Prop :=
  ∀ (s : State) (m : BitVec 6),
    let p := s.params m
    let n := u8At p 0
    let valid := fun (b : Nat) => if b = 1 then s.boot.persist.bValid else s.boot.persist.aValid
    (s.admits 0x0902 m = true → n ≤ 1 →
      (valid n = true → exec (.fwActivate m) s = .next (((s.journal 0x07 0 [2, BitVec.ofNat 8 n]).persist
        (fun b => { b with preferredB := n == 1 })).answer m [])) ∧
      (valid n = false → exec (.fwActivate m) s = .next (s.refusal m .imageInvalid))) ∧
    (s.admits 0x0903 m = true →
      let total := s.boot.journal.length
      let dst := u64At p 16
      let newest := decide (u32At p 4 = 0xFFFFFFFF)
      let f := if newest then total - 60 else Nat.min (u32At p 4) total
      let c := Nat.min (if newest then 60 else u32At p 8) (total - f)
      let es := ((s.boot.journal.drop f).take c).flatMap JournalEntry.bytes
      (n = 0 → dst = 0 → c ≤ 60 → exec (.bootJournalRead m) s = .next (s.answer m
        (toLe 4 f ++ toLe 4 c ++ List.replicate 40 0 ++ es))) ∧
      (n = 0 → dst ≠ 0 → s.paramOk dst es.length true = true → exec (.bootJournalRead m) s = .next
        ((s.store dst es).answer m (toLe 4 f ++ toLe 4 c))) ∧
      (n = 1 → dst ≠ 0 → s.paramOk dst 4096 true = true → exec (.bootJournalRead m) s = .next
        ((s.store dst s.boot.persist.bytes).answer m (toLe 4 0 ++ toLe 4 1)))) ∧
    (s.admits 0x0904 m = true → (n = 36 ∨ n = 32 ∨ n = 26) →
      (∀ moves, s.boot.fuses.aperture < n → exec (.apertureSelect ⟨m, moves⟩) s = .next (s.refusal m .apertureDenied)) ∧
      (∀ moves, n ≤ s.boot.fuses.aperture → (s.frm.epoch ≠ 0 ∨ s.longRunning = true) →
        exec (.apertureSelect ⟨m, moves⟩) s = .next (s.refusal m .runLock)) ∧
      (n ≤ s.boot.fuses.aperture → s.frm.epoch = 0 → s.longRunning = false →
        exec (.apertureSelect ⟨m, false⟩) s = .next ((s.stick Reg.CLK_STATUS 2).refusal m .clockStopped)) ∧
      (n ≤ s.boot.fuses.aperture → s.frm.epoch = 0 → s.longRunning = false →
        ∃ t : State, exec (.apertureSelect ⟨m, true⟩) s = .next t ∧ (t.domain 2).stable = false ∧
          ((s.domain 2).phase = .onPll → (t.domain 2).switching = some s.rc) ∧
          ((s.domain 2).phase ≠ .onPll → (t.domain 2).phase = .locking) ∧
          t.phys.apSelect = some (m.toNat, n) ∧ t.host = s.host ∧
          (t.regs, t.mem, t.frm, t.boot, t.out) = (s.regs, s.mem, s.frm, s.boot, s.out))) ∧
    (s.admits 0x0905 m = true →
      let f := s.boot.fuses
      let sh := s.boot.shadow
      let q := u16At p 0
      (q = 0xFFFF → exec (.fuseQuery m) s = .next (s.answer m
        (toLe 68 f.coreMap.toNat ++ toLe 1 f.aperture ++ toLe 1 (b2n s.boot.shadowAgrees)))) ∧
      (q < 544 → exec (.fuseQuery m) s = .next (s.answer m (f.coreRows q ++ toLe 1 (b2n (f.coreMap.getLsbD q))
        ++ toLe 1 (b2n (f.coreRows q == sh.coreRows q && f.coreMap.getLsbD q == sh.coreMap.getLsbD q)))))) ∧
    (s.admits 0x0906 m = true →
      let k := u8At p 1
      let run := s.bankImage (s.scp n).bankB
      let im := s.bankImage (k == 1)
      n ≤ 3 → k ≤ 1 → (∀ j, j < 4 → (s.scp j).swapTo = none) → valid k = true → u16At im 16 = u16At run 16 →
      u16At im 18 = u16At run 18 →
      ∃ t : State, exec (.scpBankSwap m) s = .next (t.answer m []) ∧ (t.scp n).swapTo = some (k == 1) ∧
        (t.scp n).bankB = (s.scp n).bankB ∧ (∀ j, j ≠ n → t.scp j = s.scp j) ∧
        t.boot.journal = (s.journal 0x07 0 [3, BitVec.ofNat 8 k, BitVec.ofNat 8 n]).boot.journal ∧
        (t.regs, t.mem, t.frm, t.host) = (s.regs, s.mem, s.frm, s.host)) ∧
    (s.admits 0x0908 m = true → exec (.selftestResults m) s = .next (s.answer m
      (toLe 68 s.boot.selfTest.cores.toNat ++ toLe 1 s.boot.selfTest.stackSet.toNat ++ toLe 1 s.boot.selfTest.units.toNat)))

/-- A long operation that is admitted takes a progress record: its handle, the next sequence number above the record's index,
is the DETAIL of OP_STARTED, and the record holds its opcode, mailbox, tick and total, with IN_PROGRESS at position 0. With all
16 records running MEM_LAYOUT is refused with OP_LIMIT.
POSITION of a running operation rises to the value reported, never past TOTAL and never down. LONG_OP_END gives a
running operation its final status: with SUCCESS, POSITION is at TOTAL, and MEM_LAYOUT leaves local HBM zero with the new split,
FW_UPDATE its bank valid; an operation with a plain failure only ends. A record that does not run changes nothing. -/
def Obligations.LongOperations : Prop :=
  (∀ (s : State) (m : BitVec 6) (i : Nat),
    let p := s.params m
    let q := nextSeq s.host.handleSeq
    let record := fun (op total : Nat) (w : LongOp) =>
      ({ s with host := { s.host with handleSeq := q } }).putRecord i
        { opcode := op, status := .inProgress, seq := q, mailbox := m.toNat, startTick := s.frm.tick.toNat % 2 ^ 32,
          position := 0, total := total, finished := 0, running := true, used := true, op := w }
    let started := fun (t : State) (data : List Byte) => t.finish m.toNat .opStarted (q * 256 + i) data
    (s.admits 0x0401 m = true → u8At p 0 ≤ 64 → s.frm.epoch = 0 →
      (s.freeRecord = some i → exec (.memLayout m) s = .next (started (record 0x0401 (2 ^ 39) (.layout (u8At p 0))) [])) ∧
      (s.freeRecord = none → exec (.memLayout m) s = .next (s.refusal m .opLimit))) ∧
    (s.freeRecord = some i →
      (s.admits 0x0406 m = true →
        let r : Repair := { lane := u8At p 0 == 1, channel := u8At p 1, bank := u8At p 2, row := u16At p 4,
                            laneNo := u8At p 3, id := s.hbm.nextRepair }
        u8At p 0 ≤ 1 → r.bank ≤ 63 → r.laneNo ≤ 71 → r.row ≤ 16383 → s.hbm.current = none → (s.repaired r).isSome = true →
        let t := record 0x0406 1 (.repair r.id)
        exec (.hbmRepair m) s = .next (started { t with hbm := { t.hbm with
          current := some r, nextRepair := (r.id + 1) % 2 ^ 32 } } (toLe 4 r.id))) ∧
      (s.admits 0x0901 m = true →
        let len := u32At p 8
        let isB := u8At p 12 == 1
        let im := s.load (u64At p 0) len
        u8At p 12 ≤ 1 → s.boot.startedB ≠ isB → (∀ j, j < 4 → (s.scp j).bankB ≠ isB) →
        s.paramOk (u64At p 0) len false = true → s.imageVerdict im [1, 2, 3, 4] = none →
        exec (.fwUpdate m) s = .next (started (((record 0x0901 len (.fwUpdate isB im)).journal 0x07 0 [1, BitVec.ofNat 8 (u8At p 12)]).persist
          (fun b => if isB then { b with bValid := false } else { b with aValid := false })) [])) ∧
      (s.admits 0x0907 m = true →
        let k := u8At p 0
        let n := u8At p 1
        (k = 0 → n ≤ 23 → ((s.port n).phase = .down ∨ (s.port n).phase = .disabled) → s.recoveryActions < 4 →
          let t := record 0x0907 18 (.trainSweep 0 n)
          exec (.trainSweep m) s = .next (started (t.putPort n { s.port n with phase := .training }).portsCheck [])) ∧
        (k = 2 → n ≤ 7 → s.frm.epoch = 0 → exec (.trainSweep m) s = .next
          (started (record 0x0907 2368 (.trainSweep 2 n)) []))) ∧
      (s.admits 0x0704 m = true → s.fillAdmitted = true → s.ras.mirror.phase = .paired → s.recoveryActions < 4 →
        (u8At p 0 = 1 → exec (.mirrorFill m) s = .next (started
          (((record 0x0704 s.ras.mirror.imageBytes (.mirrorFill 1 s.upd.t.toNat)).startCopy s.lup.snap).setFilling) [])) ∧
        (∀ h, u8At p 0 = 0 → s.fillHalf (u64At p 8) = some h → exec (.mirrorFill m) s = .next (started
          (((record 0x0704 (u64At (s.ownHalfHeader h) 96) (.mirrorFill 0 (u64At p 8))).readImage h).setFilling) [])) ∧
        (u8At p 0 = 0 → s.fillHalf (u64At p 8) = none → exec (.mirrorFill m) s = .next (s.refusalAt m 8))) ∧
      (s.admits 0x0707 m = true → u8At p 0 = 0 → s.fillAdmitted = true → s.recoveryActions < 4 →
        s.manifestOk s.ras.mirror.manifest = true →
        let n := s.imageSize s.ras.mirror.manifest
        s.paramOk (u64At p 8) n true = true →
        let t := record 0x0707 n (.ckptExport 0 (u64At p 8) s.upd.t.toNat)
        exec (.checkpointExport m) s = .next (started (t.putOut .log (u64At p 8) t.liveImage) [])) ∧
      (s.admits 0x0708 m = true → s.fillAdmitted = true → s.recoveryActions < 4 →
        let src := u64At p 0
        let n := u64At (s.load src 256) 96
        s.paramOk src 256 false = true → s.importOk (s.load src 256) = true → s.paramOk src n false = true →
        exec (.checkpointImport m) s = .next (started ((record 0x0708 n (.ckptImport src)).readSource src n) [])) ∧
      (s.admits 0x0709 m = true → s.ras.replayTo = none →
        let tEnd := u64At p 0
        let ring := s.replayRing (u64At p 8) (u32At p 16)
        (if u64At p 8 = 0 then s.accessOk ring.1 (128 * ring.2) false else s.paramOk (u64At p 8) (128 * ring.2) false) = true →
        s.logWhole ring tEnd = true → s.upd.t.toNat < tEnd →
        let t := record 0x0709 (tEnd - s.upd.t.toNat) (.logReplay tEnd (u64At p 8) ring.2)
        exec (.logReplay m) s = .next (started { t with ras := { t.ras with
          replayTo := some (tEnd, ring.1, ring.2) } } [])))) ∧
  (∀ (s : State) (i : BitVec 4),
    let p := s.record i.toNat
    (∀ x : BitVec 64, p.running = true → p.position ≤ x.toNat → x.toNat ≤ p.total →
      exec (.progressUpdate i x) s = .next (s.putRecord i.toNat { p with position := x.toNat })) ∧
    (∀ x : BitVec 64, p.running = false ∨ x.toNat < p.position ∨ (0 < p.total ∧ p.total < x.toNat) →
      exec (.progressUpdate i x) s = .next s) ∧
    (∀ x : BitVec 16, p.running = false → exec (.longOpEnd i x) s = .next s) ∧
    (p.running = true →
      (p.op = .none → ∃ t : State, exec (.longOpEnd i 0) s = .next t ∧ t.record i.toNat =
        { p with status := .success, running := false, finished := s.host.opEnds + 1, position := p.total } ∧
        (∀ j, j ≠ i.toNat → t.record j = s.record j) ∧ t.mem = s.mem) ∧
      (∀ n, p.op = .layout n → ∃ t : State, exec (.longOpEnd i 0) s = .next t ∧ t.hbm.split = n ∧
        t.mem = s.zeroHbm.mem ∧ (t.record i.toNat).running = false ∧ (t.record i.toNat).position = p.total) ∧
      (∀ b im, p.op = .fwUpdate b im → ∃ t : State, exec (.longOpEnd i 0) s = .next t ∧
        t.bankImage b = im ∧ (if b then t.boot.persist.bValid else t.boot.persist.aValid) = true ∧
        t.bankImage (!b) = s.bankImage (!b) ∧ (t.record i.toNat).status = .success) ∧
      (∀ n, p.op = .layout n → ∃ t : State, exec (.longOpEnd i 0x0014) s = .next t ∧
        t.record i.toNat = { p with status := .aborted, running := false, finished := s.host.opEnds + 1 } ∧
        t.hbm = s.hbm ∧ t.mem = s.mem)))

/-! ### What the host and its link do to the device (chapter 13) -/

/-- A doorbell of a valid HOST queue stores its count in the ring header and is counted, and interrupts once the count has
reached the threshold; of any other queue it only sets BAD_DB. A 32-bit aligned store to a writable register waits as one
of at most 64, in order, and is executed as REG_WRITE of every writable bit; any other store is dropped and counted. -/
def Obligations.DoorbellsAndTrappedStores : Prop :=
  ∀ s : State,
    (∀ v : BitVec 64, bits v.toNat 20 31 = 0 →
      let d := s.queueDesc (v.toNat % 2 ^ 20)
      let n := v.toNat / 2 ^ 32
      (queueValid d = true → queueHost d = true → ∃ t : State, exec (.dispatchDb .w64 v) s = .next t ∧
        t.mem = (s.store (queueRing d) (toLe 4 n)).mem ∧
        t.reg Reg.DSP_CNT_DOORBELL = satAdd (s.reg Reg.DSP_CNT_DOORBELL) 1 ∧
        (queueIrq d = false → t.out = s.out)) ∧
      ((queueValid d && queueHost d) = false → exec (.dispatchDb .w64 v) s = .next (s.stick Reg.DSP_STATUS 7))) ∧
    (∀ (off : BitVec 19) (v : BitVec 64), off.toNat % 4 = 0 → regFields off.toNat ≠ [] →
      (s.host.traps.length < 64 → exec (.registerStore off .w32 v) s = .next
        { s with host := { s.host with traps := s.host.traps ++ [(off.toNat, v.setWidth 32)] } }) ∧
      (64 ≤ s.host.traps.length → exec (.registerStore off .w32 v) s = .next (s.stick Reg.MBX_STATUS 2))) ∧
    (∀ (off : BitVec 19) (w : Width) (v : BitVec 64), (w ≠ .w32 ∨ off.toNat % 4 ≠ 0 ∨ regFields off.toNat = []) →
      exec (.registerStore off w v) s = .next ((s.bump Reg.MBX_CNT_STORE_DROP 1).stick Reg.MBX_STATUS 1)) ∧
    (s.host.traps = [] → exec .trappedStoreExec s = .next s) ∧
    (∀ off v rest, s.host.traps = (off, v) :: rest → s.boot.welfy = true → (s.scp 0).moving = false →
      let r := State.regWrite { s with host := { s.host with traps := rest } } off (writableMask off) v
      (r.1 = .success → exec .trappedStoreExec s = .next (r.2.bump Reg.MBX_CNT_TRAPPED 1)) ∧
      (r.1 ≠ .success → ∃ t : State, exec .trappedStoreExec s = .next t ∧ t.regBit Reg.MBX_STATUS 0 = true ∧
        (r.2.regBit Reg.MBX_STATUS 0 = false → t.reg Reg.MBX_WTRAP_STS = BitVec.ofNat 32 r.1.code) ∧
        (r.2.regBit Reg.MBX_STATUS 0 = true → t.reg Reg.MBX_WTRAP_OFS = r.2.reg Reg.MBX_WTRAP_OFS)))

/-- MSI-X: a table entry written unmasked sends a pending message of its vector; the end of a spacing sends one message for
all that arrived in it. PERST#, a hot and a function level reset reset configuration space and clear mailboxes, table and waiting stores and nothing else,
but that the CXL domain locks anew after PERST#.
A link that leaves the active state is a record CXL_DOWN and ends the IDE streams; one that comes back, on the reference clock and
at a width and rate of Table 13.1, shows them. A CXL.mem write inside the committed range of an active memory is a store. -/
def Obligations.HostEvents : Prop :=
  ∀ s : State,
    (∀ (n : BitVec 6) (x : BitVec 128),
      let e : MsixEntry := { addr := x.setWidth 64, data := (x >>> 64).setWidth 32, masked := x.getLsbD 96 }
      let s1 := { s with host := { s.host with msix := tset s.host.msix n.toNat e } }
      (e.masked = true ∨ s.host.pba.getLsbD n.toNat = false → exec (.msixTableStore n x) s = .next s1) ∧
      (e.masked = false → s.host.pba.getLsbD n.toNat = true → s.host.spaced.getLsbD n.toNat = false →
        ∃ t : State, exec (.msixTableStore n x) s = .next t ∧ t.out.msix = s.out.msix ++ [n.toNat] ∧
          t.host.pba.getLsbD n.toNat = false ∧ t.host.spaced.getLsbD n.toNat = true ∧ t.regs = s.regs ∧ t.mem = s.mem)) ∧
    (∀ n : BitVec 6,
      (s.host.spaced.getLsbD n.toNat = false → exec (.msixIntervalEnd n) s = .next s) ∧
      (s.host.spaced.getLsbD n.toNat = true → ∃ t : State, exec (.msixIntervalEnd n) s = .next t ∧
        t.host.covered.getLsbD n.toNat = false ∧ (s.host.covered.getLsbD n.toNat = false → t.out = s.out ∧
          t.host.spaced.getLsbD n.toNat = false) ∧
        (s.host.covered.getLsbD n.toNat = true → (s.msixEntry n.toNat).masked = false →
          t.out.msix = s.out.msix ++ [n.toNat] ∧ t.host.spaced.getLsbD n.toNat = true))) ∧
    (∀ c, (c = .perst ∨ c = .hotReset ∨ c = .functionLevelReset) → ∃ t : State, exec c s = .next t ∧
      (∀ n, t.box n = State.reset.box n) ∧ t.host.cfg = ConfigSpace.reset ∧ t.host.traps = [] ∧ t.host.pba = 0 ∧ (∀ n, (t.msixEntry n).masked = true) ∧
      t.reg Reg.MBX_CNT_FLR = satAdd (s.reg Reg.MBX_CNT_FLR) 1 ∧ t.regBit Reg.MBX_STATUS 6 = true ∧
      (∀ r, r ≠ Reg.MBX_CNT_FLR → r ≠ Reg.MBX_STATUS → t.reg r = s.reg r) ∧ t.out = s.out ∧ t.beyondHost { s with
        phys := { s.phys with
          apSelect := s.phys.apSelect.map (fun x => (64, x.2)),
          domains := if c = .perst ∧ s.phys.refPresent = true
            then tset s.phys.domains 36 { ClockDomain.reset with phase := .locking } else s.phys.domains } } ∧
      t.host.hdmBase = s.host.hdmBase ∧ t.host.hostLimit = s.host.hostLimit ∧ t.host.linkActive = s.host.linkActive ∧
      t.host.records = s.host.records) ∧
    (∀ (w : BitVec 4) (r : BitVec 8),
      let trains := s.phys.refPresent = true ∧ w.toNat ∈ [8, 4, 2] ∧ r.toNat ∈ [64, 32]
      let clock := { s.domain 36 with phase := .onPll, stable := true, switching := none }
      (trains → exec (.linkActive w r) s = .next { s with
        host := { s.host with linkWidth := w.toNat, linkRate := r.toNat, linkActive := true },
        phys := { s.phys with domains := tset s.phys.domains 36 clock } }) ∧
      (¬trains → exec (.linkActive w r) s = .next s)) ∧
    (∀ c, (c = .linkDown ∧ s.host.linkActive = true) ∨ (c = .ideFail ∧ s.host.linkActive = true ∧
        (s.host.ideIo || s.host.ideCm) = true) →
      ∃ t : State, exec c s = .next t ∧ t.host.linkActive = false ∧ t.host.ideIo = false ∧ t.host.ideCm = false ∧
        t.regBit Reg.MBX_STATUS 7 = true ∧ (c = .ideFail → t.regBit Reg.SEC_STATUS 6 = true) ∧ t.mem = s.mem) ∧
    (s.host.linkActive = false → exec .linkDown s = .next s) ∧
    ((s.host.ideIo || s.host.ideCm) = false → exec .ideFail s = .next s) ∧
    (∀ (d h : BitVec 52) (data : List Byte), d.toNat ≤ h.toNat → s.host.linkActive = true →
      h.toNat + data.length ≤ d.toNat + s.host.hdmUnits * 2 ^ 28 →
      let a := 0xFFFF * 2 ^ 48 + (s.host.hdmBase + (h.toNat - d.toNat))
      let s1 := { s with host := { s.host with hdmDecoder := some d.toNat } }
      (s.host.memoryActive = true → s.accessOk a data.length true = true →
        exec (.hdmAccess (some d) h true data) s = .next (s1.store a data)) ∧
      exec (.hdmAccess (some d) h false data) s = .next s1 ∧
      ∀ wr, exec (.hdmAccess none h wr data) s = .next (s.setDecoder none))

/-! ### The work of slots -/

/-- The operations of a core run in a slot of the core, in the half that they name, on the descriptors as memory held them when the
slot started (R96): one whose descriptor passes every check of R583 and whose memory admits its accesses, all of it this station's,
does its work and has all of it; an array operation that fails a check is refused with
that check's status bit, and one that may not read its own descriptor is an access fault. The quantizer's rows, ROUTER,
DROPOUT, BACKWARD_PAIR and GRADIENT_SUM likewise. -/
def Obligations.CoreOperations : Prop :=
  ∀ (s : State) (c : BitVec 9) (half : Option Bool) (desc : BitVec 64) (r r1 : SlotRun),
    s.coreRun c half = some r → (s.claimHalf r.ref half).run r.ref = some r1 → r1.fetched = [] → r1.seen = r.seen →
    let s1 := s.claimHalf r.ref half
    let v := s1.slotView r1
    let done := fun (t : State) => ({ t with frm := { t.frm with reader := s1.frm.reader } } : State)
    let u := coreUnit c
    let a := v.aop desc.toNat
    let p := v.opProduct a
    let e := v.epi (u64At a.raw 24)
    (s1.reaches [(desc.toNat, 64, false)] = true → a.forHalf half = true →
      (v.opCheck c.toNat a p e = none → v.reaches (p.access ++ v.epiAccess p e) = true →
        (a.op = 1 → exec (.rowMode c half desc) s = .next (done (v.runProduct c.toNat half r.ref p e))) ∧
        (a.op = 2 → exec (.columnMode c half desc) s = .next (done (v.runProduct c.toNat half r.ref p e)))) ∧
      (∀ x, v.opCheck c.toNat a p e = some x → x.status ≠ .prismMismatch →
        (a.op ≠ 2 → exec (.rowMode c half desc) s =
          .next (done (((v.bump Reg.FAC_CNT_REFUSED 1).stick x.reg x.bit).failRun (some r.ref)))) ∧
        (a.op ≠ 1 → exec (.columnMode c half desc) s =
          .next (done (((v.bump Reg.FAC_CNT_REFUSED 1).stick x.reg x.bit).failRun (some r.ref)))))) ∧
    (s1.accessOk desc.toNat 64 false = false → a.op = 1 → a.forHalf half = true →
      exec (.rowMode c half desc) s = .next ((s1.addrFault u desc.toNat).failRun (some r.ref))) ∧
    (half = none →
      let b := v.backPair desc.toNat
      let ex := v.epi (u64At b.raw 40)
      let ew := v.epi (u64At b.raw 48)
      s1.reaches [(desc.toNat, 128, false)] = true → v.pairCheck c.toNat desc.toNat b ex ew = none →
      v.reaches (b.dx.access ++ b.dw.access ++ v.epiAccess b.dx ex ++ v.epiAccess b.dw ew ++ [(b.scratch, 2 ^ 20, true)]) = true →
      exec (.backwardPair c half desc) s = .next (done (v.runPair c.toNat r.ref b ex ew))) ∧
    (∀ g : GSum, g = ⟨desc.toNat, v.descLoad desc.toNat 128⟩ →
      s1.reaches [(desc.toNat, 128, false)] = true → v.gsumOk g = true →
      v.reaches (g.ins.map (fun x => (x, 16 * g.records, false)) ++ (v.gsumOut g).map (fun o => (o.1, o.2, true))) = true →
      exec (.gradientSum c half desc) s = .next (done (v.runGsum r.ref g))) ∧
    (∀ d : RDesc, d = ⟨desc.toNat, v.descLoad desc.toNat 64⟩ →
      let L := v.tdesc d.logits
      s1.reaches [(desc.toNat, 64, false)] = true → v.routerOk c.toNat d = true →
      v.reaches (L.planes.map (fun x => (x.1, x.2, false)) ++ [(d.routeAddr, 64 * L.dim0, true)]
        ++ (if d.histAddr = 0 then [] else [(d.histAddr, 4 * d.experts, true)])) = true →
      exec (.router c half desc) s = .next (done (v.runRouter r.ref d))) ∧
    (∀ (dst : BitVec 64) (stream keep : BitVec 32) (p16 : BitVec 16),
      let S := v.tdesc desc.toNat
      let D := v.tdesc dst.toNat
      s1.reaches [(desc.toNat, 64, false), (dst.toNat, 64, false)] = true → v.tdescOk desc.toNat = true →
      v.tdescOk dst.toNat = true → S.fmt.blocked = false → S.fmt = D.fmt → S.dim0 = D.dim0 → S.dim1 = D.dim1 →
      S.dim0 * S.dim1 ≤ 2 ^ 43 →
      v.reaches (S.planes.map (fun x => (x.1, x.2, false)) ++ D.planes.map (fun x => (x.1, x.2, true))) = true →
      exec (.dropout c half desc dst stream p16 keep) s =
        .next (done (v.runDropout r.ref S D stream.toNat p16.toNat keep.toNat)))

/-- A quantize job that passes its checks, in a slot of a unit that holds a quantizer, writes its destinations; one that fails a
check, or whose OP is outside Table 4.1, only sets QNT_STATUS.7 and fails its slot. A row of another OP than the descriptor's
does nothing (log entry 6). -/
def Obligations.QuantizerJobs : Prop :=
  ∀ (s : State) (code : BitVec 16) (desc : BitVec 64) (r : SlotRun),
    s.runOf (unitOf code) = some r → (unitOf code).quantizes = true → s.run r.ref = some r → r.fetched = [] →
    let v := s.slotView r
    let done := fun (t : State) => ({ t with frm := { t.frm with reader := s.frm.reader } } : State)
    let j := v.qjob desc.toNat
    let rows := [(1, Instr.quantize code desc), (2, Instr.quantizeDual code desc), (3, Instr.expand code desc),
      (4, Instr.mxImport code desc), (5, Instr.mxExport code desc)]
    ∀ x ∈ rows, s.reaches [(desc.toNat, 64, false)] = true →
      (j.op ≠ x.1 → 1 ≤ j.op → j.op ≤ 5 → exec x.2 s = .next s) ∧
      (j.op = x.1 → desc.toNat % 64 = 0 → v.jobCheck j false = none → v.reaches (v.jobAccess j) = true →
        exec x.2 s = .next (done (v.runJob (some r.ref) j).1) ∧
        (v.runJob (some r.ref) j).1.mem = ((v.jobReads (some r.ref) j).putsOut (some r.ref)
          (v.jobOut j (v.sourceVals j)).writes).mem) ∧
      ((j.op = x.1 ∨ j.op = 0 ∨ 5 < j.op) → (desc.toNat % 64 ≠ 0 ∨ (v.jobCheck j false).isSome = true) →
        exec x.2 s = .next (done ((v.stick Reg.QNT_STATUS 7).failRun (some r.ref))))

/-- A scalar instruction writes its destination from its operands and no other register, and a vector instruction its 4,096
elements; the next word follows; memory, registers and the other engines stay. -/
def Obligations.ScalarAndVectorInstructions : Prop :=
  ∀ (s : State) (stack : BitVec 3) (j : UpdJob),
    let k := stack.toNat
    let e := s.engine k
    let sc := fun (d : BitVec 4) (v : Nat) => s.putEngine k (e.setSc d v)
    let vec := fun (d : BitVec 4) (v : List Nat) => s.putEngine k (e.setVec d v)
    (∀ d v, ((sc d v).engine k).sc d = canon32 v ∧ (∀ i, i ≠ d → ((sc d v).engine k).sc i = e.sc i) ∧
      ((sc d v).engine k).pc = e.pc + 1 ∧ (∀ i, ((sc d v).engine k).vec i = e.vec i) ∧
      (∀ n, n ≠ k → (sc d v).engine n = s.engine n) ∧ (sc d v).mem = s.mem ∧ (sc d v).regs = s.regs) ∧
    (∀ d v, ((vec d v).engine k).vec d = v.map canon32 ∧ (∀ i, i ≠ d → ((vec d v).engine k).vec i = e.vec i) ∧
      ((vec d v).engine k).pc = e.pc + 1 ∧ (∀ i, ((vec d v).engine k).sc i = e.sc i) ∧
      (∀ n, n ≠ k → (vec d v).engine n = s.engine n) ∧ (vec d v).mem = s.mem ∧ (vec d v).regs = s.regs) ∧
    (∀ (d : BitVec 4) (imm : BitVec 16), s.executes k j (updWord 0x01 d.toNat 0 0 0 imm.toNat) →
      exec (.sldp stack d imm) s = .next (sc d (j.params.getD imm.toNat 0))) ∧
    (∀ (d : BitVec 4) (imm : BitVec 32), -128 ≤ imm.toInt → imm.toInt ≤ 127 →
      s.executes k j (updWord 0x02 d.toNat 0 0 0 (imm.toNat % 256)) →
      exec (.sldi stack d imm) s = .next (sc d (intF imm.toInt))) ∧
    (∀ (d : BitVec 4) (imm : BitVec 16), s.executes k j (updWord 0x03 d.toNat 0 0 0 imm.toNat) →
      exec (.sldt stack d imm) s = .next (sc d j.sched)) ∧
    (∀ (d a b : BitVec 4),
      let word := fun (op : Nat) => updWord op d.toNat a.toNat b.toNat 0 0
      (s.executes k j (word 0x04) → exec (.sadd stack d a b) s = .next (sc d (addF (e.sc a) (e.sc b)))) ∧
      (s.executes k j (word 0x05) → exec (.ssub stack d a b) s = .next (sc d (subF (e.sc a) (e.sc b)))) ∧
      (s.executes k j (word 0x06) → exec (.smul stack d a b) s = .next (sc d (mulF (e.sc a) (e.sc b)))) ∧
      (s.executes k j (word 0x07) → exec (.sdiv stack d a b) s = .next (sc d (divF (e.sc a) (e.sc b)))) ∧
      (s.executes k j (word 0x30) → exec (.vadd stack d a b) s = .next (vec d (List.zipWith addF (e.vec a) (e.vec b)))) ∧
      (s.executes k j (word 0x31) → exec (.vsub stack d a b) s = .next (vec d (List.zipWith subF (e.vec a) (e.vec b)))) ∧
      (s.executes k j (word 0x32) → exec (.vmul stack d a b) s = .next (vec d (List.zipWith mulF (e.vec a) (e.vec b)))) ∧
      (s.executes k j (word 0x33) → exec (.vdiv stack d a b) s = .next (vec d (List.zipWith divF (e.vec a) (e.vec b)))) ∧
      (s.executes k j (word 0x35) →
        exec (.vadds stack d a b) s = .next (vec d ((e.vec a).map (fun x => addF x (e.sc b))))) ∧
      (s.executes k j (word 0x36) →
        exec (.vmuls stack d a b) s = .next (vec d ((e.vec a).map (fun x => mulF x (e.sc b))))) ∧
      (s.executes k j (word 0x39) → exec (.vmax stack d a b) s = .next (vec d (List.zipWith maxF (e.vec a) (e.vec b)))) ∧
      (s.executes k j (word 0x3A) → exec (.vmin stack d a b) s = .next (vec d (List.zipWith minF (e.vec a) (e.vec b)))) ∧
      (s.executes k j (word 0x3E) →
        exec (.vclips stack d a b) s = .next (vec d ((e.vec a).map (fun x => clipF x (e.sc b)))))) ∧
    (∀ (d a : BitVec 4),
      let word := fun (op : Nat) => updWord op d.toNat a.toNat 0 0 0
      (s.executes k j (word 0x08) → exec (.ssqrt stack d a) s = .next (sc d (sqrtF (e.sc a)))) ∧
      (s.executes k j (word 0x38) → exec (.vsqrt stack d a) s = .next (vec d ((e.vec a).map sqrtF))) ∧
      (s.executes k j (word 0x3B) → exec (.vabs stack d a) s = .next (vec d ((e.vec a).map absF))) ∧
      (s.executes k j (word 0x3C) → exec (.vneg stack d a) s = .next (vec d ((e.vec a).map negF))) ∧
      (s.executes k j (word 0x3D) → exec (.vsign stack d a) s = .next (vec d ((e.vec a).map signF))) ∧
      (s.executes k j (word 0x3F) → exec (.vmov stack d a) s = .next (vec d (e.vec a)))) ∧
    (∀ (d a : BitVec 4) (imm : BitVec 16), s.executes k j (updWord 0x09 d.toNat a.toNat 0 0 imm.toNat) →
      exec (.spown stack d a imm) s = .next (sc d (pownF (e.sc a) (s.upd.t.toNat + imm.toNat)))) ∧
    (∀ (d a b c : BitVec 4),
      let word := fun (op : Nat) => updWord op d.toNat a.toNat b.toNat c.toNat 0
      (s.executes k j (word 0x34) → exec (.vfma stack d a b c) s =
        .next (vec d (List.zipWith (fun (x : Nat × Nat) z => fmaF x.1 x.2 z) ((e.vec a).zip (e.vec b)) (e.vec c)))) ∧
      (s.executes k j (word 0x37) → exec (.vfmas stack d a b c) s =
        .next (vec d (List.zipWith (fun x z => fmaF x (e.sc b) z) (e.vec a) (e.vec c)))))

/-- An update job, read as memory stood when its slot started (R96), that passes every check starts its engine at the first word of its prologue, and its pairs join the commit
list; one that fails is flagged, counted and fails its slot. LD takes the tile of its stream; ST writes a wide tile at once and holds a blocked
one for its slab; END goes on to the body, to the next tile, or ends the engine's work. -/
def Obligations.UpdateJobs : Prop :=
  ∀ (s : State) (stack : BitVec 3) (r : SlotRun),
    let k := stack.toNat
    let e := s.engine k
    s.runOf (updUnit k) = some r →
    (∀ desc : BitVec 64, s.slotAddr r.ref = desc.toNat → e.job = none → r.steps = 0 →
      let j := (s.slotView r).readJob desc.toNat
      (s.jobFieldsOk j = true → s.mayAccess (jobTables j) = true → s.updJobOk k j = true →
        ∃ t : State, exec (.updateJob stack desc) s = .next t ∧ t.engine k = { UpdEngine.reset with job := some j } ∧
          t.commitList k = s.commitList k ++ s.newPairs k j ∧ (∀ n, n ≠ k → t.engine n = s.engine n) ∧
          t.mem = s.mem ∧ t.regs = s.regs) ∧
      (s.jobFieldsOk j = false → ∃ t : State, exec (.updateJob stack desc) s = .next t ∧
        t.regBit Reg.UPD_STATUS 3 = true ∧ t.engine k = e ∧ t.commitList k = s.commitList k ∧ t.mem = s.mem)) ∧
    (∀ (j : UpdJob) (d st : BitVec 4), s.executes k j (updWord 0x20 d.toNat st.toNat 0 0 0) →
      let T := j.inDesc st.toNat
      let c := j.cur
      let x := tileAt T c.1 c.2
      s.mayAccess (tileAccess T c.1 c.2 false) = true →
      exec (.ld stack d st) s = .next ((s.countRead (some r.ref) T (regionBlocks T x.1 64 x.2 64)).putEngine k
        (e.setVec d ((s.tileVals T c.1 c.2).map ldF)))) ∧
    (∀ (j : UpdJob) (a st : BitVec 4), s.executes k j (updWord 0x21 0 st.toNat a.toNat 0 0) →
      let i := st.toNat
      let D := j.outDesc i
      let c := j.cur
      (D.fmt.blocked = true → exec (.st stack a st) s = .next (s.putEngine k { e with
        held := tset e.held i (tset (tget [] e.held i) (c.2 * j.tk + c.1) (e.vec a)), pc := e.pc + 1 })) ∧
      (D.fmt.blocked = false → s.mayAccess (tileAccess D c.1 c.2 true) = true → ∃ t : State,
        exec (.st stack a st) s = .next t ∧ t.mem = (s.stores (wideWrites D c.1 c.2 (s.wideCodes j e i (e.vec a)))).mem ∧
        (t.engine k).vec a = ((s.wideCodes j e i (e.vec a)).map (fun x => backF D.te (wide32 D.fmt x))).map canon32 ∧
        (∀ n, n ≠ k → t.engine n = s.engine n))) ∧
    (∀ j : UpdJob, s.executes k j 0 →
      (e.inBody = false → exec (.endProg stack) s = .next (s.putEngine k (e.nextTile j j.slabs))) ∧
      (∀ k0 n0 t0 t1 ts rest, e.inBody = true → j.slabs = (k0, n0, t0 :: t1 :: ts) :: rest →
        ∃ t : State, exec (.endProg stack) s = .next t ∧ t.mem = s.mem ∧
          (t.engine k).job = some { j with slabs := (k0, n0, t1 :: ts) :: rest } ∧ (t.engine k).pc = 0 ∧
          (t.engine k).inBody = true ∧ (t.engine k).vectors = []) ∧
      (e.inBody = true → j.slabs = [] → ∃ t : State, exec (.endProg stack) s = .next t ∧ t.mem = s.mem ∧
        t.engine k = UpdEngine.reset))

/-- DISPATCH, RETURN and COMBINE issue a job of their kind from the slot of their core: with a place free and nothing waiting
it starts at once, as the kind says, if its fields are in order and its memory admits it; with every place taken it waits. JOB_END of a
job with nothing outstanding sends its headers and retires it. COPY, FILL and FENCE do the descriptor that their chain has
come to; the bytes that a FENCE's chain has written are flushed. -/
def Obligations.DispatchAndDmaJobs : Prop :=
  ∀ (s : State) (c : BitVec 9) (desc : BitVec 64) (r : SlotRun),
    let rows := [(0x21, Instr.dispatch c desc), (0x22, Instr.returnRows c desc), (0x23, Instr.combine c desc)]
    ((s.coreRuns c).head? = some r → s.dsp.waiting = [] →
      (∀ x ∈ rows, (s.loadByte desc.toNat).toNat = x.1 →
        (s.regField Reg.DSP_CFG 4 7 ≤ s.dsp.jobs.length →
          exec x.2 s = .next { s with dsp := { s.dsp with waiting := [(r.ref, desc.toNat)] } }) ∧
        (s.dsp.jobs.length < s.regField Reg.DSP_CFG 4 7 → s.run r.ref = some r →
          s.mayAccess [(desc.toNat, 64, false)] = true →
          ∀ j : Job, j = ⟨desc.toNat, s.load desc.toNat 64⟩ → j.fieldsOk = true → j.kind = x.1 →
          exec x.2 s = .next (if x.1 = 0x21 then s.startDispatch r.unit r.ref j
            else if x.1 = 0x22 then s.startReturn r.unit r.ref j else s.startCombine r.unit r.ref j)))) ∧
    (∀ j, s.dsp.jobs.find? (fun x => x.desc == desc.toNat) = some j → j.queues = [] → s.slotWaits j.ref = false →
      s.dsp.waiting = [] → exec (.jobEnd desc) s = .next { s with dsp := { s.dsp with
        jobs := s.dsp.jobs.filter (fun x => !(x.desc == desc.toNat && x.ref == j.ref)) } }) ∧
    (∀ j, s.dsp.jobs.find? (fun x => x.desc == desc.toNat) = some j → s.slotWaits j.ref = true →
      exec (.jobEnd desc) s = .next s) ∧
    (s.chainAt c desc.toNat = some r → s.mayAccess [(desc.toNat, 64, false)] = true →
      ∀ d : Dma, d = ⟨desc.toNat, s.load desc.toNat 64⟩ → d.ok = true → (d.last = true ∨ r.steps ≠ 4095) →
      (d.op = 1 → s.mayAccess d.access = true → exec (.copy c desc) s = .next ((s.dmaCopy r.ref d).dmaDone r.ref d)) ∧
      (d.op = 2 → s.mayAccess d.access = true → exec (.fill c desc) s = .next ((s.dmaFill r.ref d).dmaDone r.ref d)) ∧
      (d.op = 3 → (s.slotWaits r.ref = true → exec (.fence c desc) s = .next s) ∧
        (s.slotWaits r.ref = false → exec (.fence c desc) s = .next ((s.dmaFlush r).dmaDone r.ref d))))

/-- A read of words that hold no error, poison or buffered bytes leaves the state as it is; one poisoned word fails the slot
that reads it. A write goes through the combining buffer, and a stopped stack takes none; an address that the unit may not access
is recorded and fails its slot. A buffered line is written back no sooner than two ticks after its last write; a partial one whose
DRAM word cannot be read leaves a poison word. Unless the guard idles the device, scrub corrects what the code can reach and makes the rest poison. A repair
step runs at a tick in a long guard band, not more than once in 16 frames. -/
def Obligations.HbmRows : Prop :=
  ∀ s : State,
    (∀ (unit len : BitVec 16) (addr : BitVec 39), s.accessOk (ownAddr addr.toNat) len.toNat false = true →
      let clean := fun (w : Nat) => s.stackStopped w = false ∧ s.lineOf w = none ∧ w ∉ s.hbm.poison ∧
        ((s.chan (s.wordPlace w).chan).marksOn (s.wordPlace w).bank).length ≤ 8
      ((∀ w ∈ wordsOf addr.toNat len.toNat, clean w) → exec (.hbmRead unit addr len []) s = .next s) ∧
      (∀ w, wordsOf addr.toNat len.toNat = [w] → s.stackStopped w = false → s.lineOf w = none → w ∈ s.hbm.poison →
        exec (.hbmRead unit addr len []) s = .next
          (((s.bump Reg.HBM_CNT_POISON_RD 1).stick Reg.HBM_STATUS 2).faultRun ((s.runOf (unitOf unit)).map (fun x => x.ref))))) ∧
    (∀ (unit : BitVec 16) (addr : BitVec 39) (data : List Byte), s.accessOk (ownAddr addr.toNat) data.length true = true →
      ((∀ w ∈ wordsOf addr.toNat data.length, s.stackStopped w = false) →
        exec (.hbmWrite unit addr data) s = .next (s.store (ownAddr addr.toNat) data)) ∧
      ((∃ w ∈ wordsOf addr.toNat data.length, s.stackStopped w = true) →
        exec (.hbmWrite unit addr data) s = .next (s.faultRun ((s.runOf (unitOf unit)).map (fun x => x.ref))))) ∧
    (∀ (unit len : BitVec 16) (addr : BitVec 39) (faults : List ReadFault) (data : List Byte),
      let out := (s.addrFault (unitOf unit) (ownAddr addr.toNat)).failRun ((s.runOf (unitOf unit)).map (fun x => x.ref))
      (s.accessOk (ownAddr addr.toNat) len.toNat false = false → exec (.hbmRead unit addr len faults) s = .next out) ∧
      (s.accessOk (ownAddr addr.toNat) data.length true = false → exec (.hbmWrite unit addr data) s = .next out)) ∧
    (∀ (word : BitVec 33) (first retry : List (BitVec 7)) (l : WcbLine), s.lineOf word.toNat = some l →
      let w := word.toNat
      let c := s.chan (s.wordPlace w).chan
      let ok := fun (l : List (BitVec 7)) => c.corrects (s.wordPlace w).bank (l.map (fun x => x.toNat))
      let due := l.tick.toNat + 2 ≤ s.frm.tick.toNat
      (due → l.mask = BitVec.allOnes 64 → exec (.wcbWriteback ⟨word, first, retry⟩) s = .next (s.drainLine w)) ∧
      (due → l.mask ≠ BitVec.allOnes 64 → s.stackStopped w = false → w ∉ s.hbm.poison → ok first = true →
        exec (.wcbWriteback ⟨word, first, retry⟩) s = .next ((s.corrected w (first.map (fun x => x.toNat))).drainLine w)) ∧
      (due → l.mask ≠ BitVec.allOnes 64 → s.stackStopped w = false → w ∉ s.hbm.poison → ok first = false →
        ok retry = false → ∃ t : State, exec (.wcbWriteback ⟨word, first, retry⟩) s = .next t ∧ w ∈ t.hbm.poison ∧
        t.regBit Reg.HBM_STATUS 1 = true ∧ t.reg Reg.HBM_CNT_UE = satAdd (s.reg Reg.HBM_CNT_UE) 1 ∧
        t.reg Reg.HBM_CNT_WCB_RMW = satAdd (s.reg Reg.HBM_CNT_WCB_RMW) 1 ∧ t.lineOf w = none ∧
        t.mem = mwrites s.mem (w * 64) (List.replicate 64 0)) ∧
      (¬ due → exec (.wcbWriteback ⟨word, first, retry⟩) s = .next s)) ∧
    (∀ (word : BitVec 33) (first retry : List (BitVec 7)), s.regBit Reg.HBM_CFG 0 = true → s.phys.idling = false →
      s.stackStopped word.toNat = false → word.toNat ∉ s.hbm.poison →
      let w := word.toNat
      let c := s.chan (s.wordPlace w).chan
      let ok := fun (l : List (BitVec 7)) => c.corrects (s.wordPlace w).bank (l.map (fun x => x.toNat))
      (ok first = true → exec (.patrolScrub word first retry) s = .next (s.corrected w (first.map (fun x => x.toNat)))) ∧
      (ok first = false → ok retry = true → exec (.patrolScrub word first retry) s = .next
        ((s.bump Reg.HBM_CNT_RETRY_OK 1).corrected w (retry.map (fun x => x.toNat)))) ∧
      (ok first = false → ok retry = false → s.lineOf w = none → ∃ t : State,
        exec (.patrolScrub word first retry) s = .next t ∧ w ∈ t.hbm.poison ∧
        t.mem = mwrites s.mem (w * 64) (List.replicate 64 0) ∧ t.regBit Reg.HBM_STATUS 1 = true ∧
        t.reg Reg.HBM_CNT_UE = satAdd (s.reg Reg.HBM_CNT_UE) 1)) ∧
    (∀ (word : BitVec 33) (first retry : List (BitVec 7)), s.regBit Reg.HBM_CFG 0 = false ∨ s.phys.idling = true →
      exec (.patrolScrub word first retry) s = .next s) ∧
    (∀ (pause : BitVec 6) (q : Repair) (x : Channel), s.nextStep = some q → pause.toNat ≤ 48 →
      (s.mayRepair = true → s.repaired q = some x → ∃ t : State, exec (.repairStep pause) s = .next t ∧
        t.chan q.channel = x ∧ t.hbm.lastRepairTick = some s.frm.tick ∧
        t.reg Reg.HBM_CNT_REPAIR = satAdd (s.reg Reg.HBM_CNT_REPAIR) 1 ∧
        t.reg Reg.HBM_CNT_PAUSE_RC = satAdd (s.reg Reg.HBM_CNT_PAUSE_RC) pause.toNat ∧
        t.boot.softRepairs = s.boot.softRepairs ++ [q] ∧ t.mem = s.mem) ∧
      (s.mayRepair = false → exec (.repairStep pause) s = .next s))

/-- Sensors and supply. A sample hotter than a stack's or the die's state puts it into the hotter state at once; 65 samples
below the exit threshold bring it down one state; a failed sensor holds it at least in THROTTLE (HOT). A critical die and a tripped sensor shut
the device down. Samples of the inputs enter the rolling average and start and stop the fast hold; an average over the guard limit for
10,000 samples is OVER_BUDGET; a connector below 40 V is FEED_LOW; a second-stage rail off is RAIL_FAULT. -/
def Obligations.SensorsAndSupply : Prop :=
  ∀ s : State,
    (∀ (i : Fin 8) (v : BitVec 8),
      let x := s.stack i.val
      let hot := x.state.max (s.entryState v.toNat)
      ∃ t : State, exec (.stackSample i v) s = .next t ∧
        (hot ≠ .critical ∨ x.state = .critical →
          (t.stack i.val).temp = v.toNat ∧ (t.stack i.val).peak = Nat.max x.peak v.toNat ∧
          (t.stack i.val).state = hot ∧ (t.stack i.val).held = false ∧ (∀ n, n ≠ i.val → t.stack n = s.stack n) ∧
          t.mem = s.mem ∧ (hot = x.state → t.regs = s.regs))) ∧
    (∀ i : Fin 8,
      let x := s.stack i.val
      ((x.state = .warning ∨ x.state = .throttle) → x.held = false → 65 ≤ x.below →
        ∃ t : State, exec (.stackStateExit i) s = .next t ∧ (t.stack i.val).state = x.state.down ∧
          (t.stack i.val).temp = x.temp ∧ t.mem = s.mem) ∧
      ((x.held = true ∨ x.below < 65) → exec (.stackStateExit i) s = .next s) ∧
      (x.held = false → ∃ t : State, exec (.stackSensorFail i) s = .next t ∧ (t.stack i.val).held = true ∧
        (t.stack i.val).state = x.state.max .throttle ∧ t.regBit Reg.HBM_STATUS 10 = true ∧ t.mem = s.mem) ∧
      (x.held = true → exec (.stackSensorFail i) s = .next s)) ∧
    (∀ l : List (Fin 64 × BitVec 8), l ≠ [] → (∀ x ∈ l, s.entryState x.2.toNat = .normal) → s.phys.die = .normal →
      (∀ e ∈ s.phys.missed, e.2 = 0) → ∃ t : State, exec (.dieSample l) s = .next t ∧ t.phys.die = .normal ∧
        (∃ x ∈ l, t.phys.dieTemp = x.2.toNat) ∧ (∀ x ∈ l, x.2.toNat ≤ t.phys.dieTemp) ∧
        t.phys.diePeak = Nat.max s.phys.diePeak t.phys.dieTemp ∧ t.mem = s.mem ∧ t.regs = s.regs) ∧
    ((s.phys.die = .warning ∨ s.phys.die = .throttle) → 65 ≤ s.phys.dieBelow →
      ∃ t : State, exec .dieStateExit s = .next t ∧ t.phys.die = s.phys.die.down ∧ t.mem = s.mem) ∧
    (s.phys.dieBelow < 65 → exec .dieStateExit s = .next s) ∧
    (∀ i : Fin 64, (tget 0 s.phys.missed i.val ≠ 1 → s.phys.die = .throttle → ∃ t : State,
        exec (.dieSensorFail i) s = .next t ∧ t.regBit Reg.THM_STATUS 2 = true ∧ t.phys.die = .throttle ∧
        tget 0 t.phys.missed i.val = 1 ∧ t.mem = s.mem) ∧
      (tget 0 s.phys.missed i.val = 1 → exec (.dieSensorFail i) s = .next s) ∧
      (s.phys.die = .critical → exec (.analogueTrip i) s = .next s) ∧
      (s.phys.die ≠ .critical → exec (.analogueTrip i) s = .next (State.dieEnter { s with
        phys := { s.phys with dieHottest := i.val, die := .critical, dieBelow := 0 } } .critical))) ∧
    (∀ v0 i0 v1 i1 : BitVec 16, ∃ t : State, exec (.powerSample v0 i0 v1 i1) s = .next t ∧
      t.phys.in0 = (v0.toNat, i0.toNat) ∧ t.phys.in1 = (v1.toNat, i1.toNat) ∧
      t.phys.power = (v0.toNat * i0.toNat + v1.toNat * i1.toNat) / 10000 ∧
      let w := v0.toNat * i0.toNat + v1.toNat * i1.toNat
      t.phys.samples = (w :: s.phys.samples).take 1000 ∧ t.phys.energy = s.phys.energy + w ∧
      (t.phys.idling = true → s.phys.idling = true) ∧ t.mem = s.mem ∧
      (t.phys.fastHold = true → s.phys.fastHold = false →
        s.guardLimit * 12500000 < sumNat (t.phys.samples.take 10) * 100 ∧ t.regBit Reg.PWR_STATUS 2 = true)) ∧
    (10000 ≤ s.phys.overFor → ∃ t : State, exec .overBudget s = .next t ∧ t.phys.overFor = 0 ∧
      t.regBit Reg.PWR_STATUS 1 = true ∧ t.reg Reg.PWR_CNT_OVER_BUDGET = satAdd (s.reg Reg.PWR_CNT_OVER_BUDGET) 1 ∧
      t.mem = s.mem) ∧
    (s.phys.overFor < 10000 → exec .overBudget s = .next s) ∧
    (∀ v : BitVec 16, v.toNat < 4000 →
      (4000 ≤ s.phys.in1.1 → s.phys.in1.1 ≤ 6000 → ∃ t : State, exec (.feedLow false v) s = .next t ∧
        t.phys.in0 = (v.toNat, 0) ∧ t.phys.in1 = s.phys.in1 ∧ t.regBit Reg.PWR_STATUS 3 = true) ∧
      (4000 ≤ s.phys.in0.1 → s.phys.in0.1 ≤ 6000 → ∃ t : State, exec (.feedLow true v) s = .next t ∧
        t.phys.in1 = (v.toNat, 0) ∧ t.phys.in0 = s.phys.in0 ∧ t.regBit Reg.PWR_STATUS 4 = true)) ∧
    (∀ i : Fin 36, i.val ≠ 0 → exec (.railFault i) s = .next (s.raise .railFault ⟨9, i.val⟩ 0))

/-! ### Collectives, packets and ports -/

/-- A collective's row starts the collective that the engine's slot names, read as memory stood when the slot started (R96, R384), where the engine is idle and the descriptor passes
every check; a malformed one sets COL_STATUS.0 and is refused. A peer silent for the configured time ends the collective with
its station in COL_LOST_STATION and makes the step uncommittable. A report of no entry counts as untracked, one after the close as late, one of a rerun not
at all. OFFLOAD_DONE of a finished off-load counts it and its size. -/
def Obligations.CollectivesAndReports : Prop :=
  ∀ (s : State) (desc : BitVec 64) (r : SlotRun),
    (s.runAt colUnit desc.toNat = some r → s.run r.ref = some r → s.col.phase = .idle → r.steps = 0 →
      s.accessOk desc.toNat 128 false = true →
      let v := s.slotView r
      let done := fun (t : State) => ({ t with frm := { t.frm with reader := s.frm.reader } } : State)
      let k := v.coll desc.toNat
      let me := (v.collStations k).findIdx (fun x => s.lnk.station == some x)
      ∀ x ∈ [(1, false, Instr.reduceScatter desc), (2, false, Instr.allGather desc), (3, false, Instr.transpose desc),
          (3, true, Instr.refocus desc), (4, false, Instr.verdict desc)], k.op = x.1 → k.refocus = x.2.1 →
        (k.formed = true → v.colKind r.ref k = true → v.firstBad k.tables = none →
          (v.collStations k).eraseDups.length = (v.collStations k).length →
          me < (v.collStations k).length → v.collOk k me = true → v.firstBad (v.collAccess k me) = none →
          exec x.2.2 s = .next (done (v.colStart k r.ref me))) ∧
        (k.formed = false → exec x.2.2 s = .next
          (done (((v.stick Reg.COL_STATUS 0).refuse colUnit .descInvalid).failRun (some r.ref))))) ∧
    (∀ n : BitVec 16, s.waitsOn n.toNat = true →
      let st := s.col.ranks.getD n.toNat 0
      (s.regField Reg.COL_CFG 0 3 ≤ tget 0 s.col.idle n.toNat → ∃ t : State, exec (.peerTimeout n) s = .next t ∧
        t.col.phase = .idle ∧ t.reg Reg.COL_LOST_STATION = BitVec.ofNat 32 st ∧ t.regBit Reg.COL_STATUS 1 = true ∧
        t.reg Reg.COL_CNT_PEER_LOST = satAdd (s.reg Reg.COL_CNT_PEER_LOST) 1 ∧ t.frm.uncommittable = true ∧ t.mem = s.mem) ∧
      (tget 0 s.col.idle n.toNat < s.regField Reg.COL_CFG 0 3 → exec (.peerTimeout n) s = .next s)) ∧
    (∀ a : ReportArg,
      let hit := (List.range s.ssbEntries).find? (fun i => reportMatches (reportOf a) (s.entry i))
      (a.rerun = true → exec (.loupeReport a) s = .next s) ∧
      (a.rerun = false → hit = none → exec (.loupeReport a) s = .next (s.bump Reg.LUP_CNT_UNTRACKED 1)) ∧
      (∀ i, a.rerun = false → hit = some i →
        (s.lup.closed = true → ∃ t : State, exec (.loupeReport a) s = .next t ∧ t.lup = { s.lup with late := true } ∧
          t.reg Reg.LUP_CNT_LATE_REPORT = satAdd (s.reg Reg.LUP_CNT_LATE_REPORT) 1 ∧ t.regBit Reg.LUP_STATUS 2 = true) ∧
        (s.lup.closed = false → exec (.loupeReport a) s = .next (s.addReport i (reportOf a))))) ∧
    (∀ (i : BitVec 16) (g : StashGroup), s.sts.groups[i.toNat]? = some g → g.phase = .offloading → g.done = false →
      s.sts.lossSeen = false → (∀ t ∈ s.lnk.trans ++ s.lnk.backlog, t.owner ≠ .offload i.toNat) →
      ∃ t : State, exec (.offloadDone i) s = .next t ∧ (t.sts.groups[i.toNat]?) = some { g with done := true } ∧
        t.mem = (s.placeEntries g g.taddr).mem ∧ t.regBit Reg.STS_STATUS 1 = true ∧
        t.reg Reg.STS_CNT_OFFLOAD = satAdd (s.reg Reg.STS_CNT_OFFLOAD) 1 ∧
        t.reg Reg.STS_CNT_OFFLOAD_MIB = satAdd (s.reg Reg.STS_CNT_OFFLOAD_MIB) (g.size / 2 ^ 20))

/-- The next packet in sequence on a port that is UP, whole, in clear where clear is allowed and of the epoch in force, is
acknowledged and served: a WRITE stores its payload and is answered, a READ_REQ is answered with the bytes, a SIGNAL counts,
a response completes its transaction, collective data and credit go to the engine. A request that Table 12.7 refuses is
answered with its error. A failed check is answered with a NAK, a packet of an undefined TYPE is dropped, as is an older epoch's,
and a newer one's is held. -/
def Obligations.PacketsAreServed : Prop :=
  ∀ (s : State) (port : Fin 24) (p : Packet),
    let n := port.val
    let q := s.port n
    let acked := (s.putPort n { q with rxNext := (q.rxNext + 1) % 4096 }).linkReply n p.seq.toNat false
    let rows := [(tyWrite, Instr.write port p), (tyReadReq, Instr.readReq port p), (tySignal, Instr.signal port p),
      (tyReadResp, Instr.readResp port p), (tyWriteAck, Instr.writeAck port p), (tyComplErr, Instr.completionErr port p),
      (tyColData, Instr.colData port p), (tyColCredit, Instr.colCredit port p)]
    let whole := p.lcrcOk = true ∧ p.ecrc = packetCrc p
    let inTurn := p.seq.toNat = q.rxNext ∧ packetFormed p = true ∧ s.lnk.station.isSome = true ∧
      packetEnc p = false ∧ s.encRequired p.src.toNat n = false ∧ s.frm.rolledBack ≠ some p.epoch
    q.phase = .up →
    (whole → inTurn → p.epoch = s.frm.epoch →
      (p.type.toNat = tyWrite → acked.requestCheck p p.payload.length true true = none →
        exec (.write port p) s = .next (((acked.store (ownAddr p.addr.toNat) p.payload).touchWindow p.addr.toNat
          p.payload.length).reply p tyWriteAck 0 [])) ∧
      (p.type.toNat = tyReadReq → acked.requestCheck p (p.aux.toNat % 1024) false true = none →
        let a := ownAddr p.addr.toNat
        let len := p.aux.toNat % 1024
        exec (.readReq port p) s = .next ((acked.deliverPoison (acked.poisonWords a len).length).reply p tyReadResp
          (2 * b2n (acked.poisoned a len)) (acked.load a len))) ∧
      (p.type.toNat = tySignal → acked.requestCheck p 0 false false = none →
        exec (.signal port p) s = .next ((acked.countSignal p.src.toNat (bits p.addr.toNat 8 27) (p.addr.toNat % 256)).reply p
          tyWriteAck 0 [])) ∧
      (p.type.toNat = tyWrite → s.lnk.peers.getLsbD p.src.toNat = false →
        exec (.write port p) s = .next (((acked.bump Reg.LNK_CNT_DENIED 1).stick Reg.LNK_STATUS 5).replyErr p .accessDenied)) ∧
      (p.type.toNat = tyColData → exec (.colData port p) s = .next (acked.serveColData p)) ∧
      (p.type.toNat = tyColCredit → exec (.colCredit port p) s = .next (acked.serveColCredit p)) ∧
      (∀ t, s.transOf p.tag.toNat = some t → t.packet.dst = p.src →
        let done := (acked.clearTimeouts t.packet.dst.toNat t.plane).closeTrans t.tag
        (p.type.toNat = tyWriteAck → t.packet.type.toNat = tySignal → exec (.writeAck port p) s = .next done) ∧
        (p.type.toNat = tyWriteAck → t.packet.type.toNat = tyWrite → exec (.writeAck port p) s = .next
          ((done.see t.packet.dst.toNat t.packet.addr.toNat t.packet.payload).mirrorAcked t.owner)) ∧
        (p.type.toNat = tyReadResp → t.packet.type.toNat = tyReadReq → packetPoison p = false →
          let read := done.see t.packet.dst.toNat t.packet.addr.toNat p.payload
          (t.dest = none → exec (.readResp port p) s = .next read) ∧
          (∀ a, t.dest = some a → exec (.readResp port p) s = .next (read.putOut t.owner a p.payload))) ∧
        (p.type.toNat = tyReadResp → t.packet.type.toNat = tyReadReq → packetPoison p = true →
          exec (.readResp port p) s = .next (done.transFails t)) ∧
        (∀ ref, p.type.toNat = tyComplErr → t.owner = .slot ref → u16At p.payload 0 = Status.accessDenied.code →
          exec (.completionErr port p) s = .next (((done.windowClosed t Status.accessDenied.code).raise .refused
            (((acked.run ref).map (fun r => r.unit)).getD ⟨11, 0⟩) Status.accessDenied.code).failRun (some ref))))) ∧
    (∀ x ∈ rows, whole → p.seq.toNat = q.rxNext → typeDefined p.type.toNat = false →
      exec x.2 s = .next (acked.bump Reg.LNK_CNT_CRC_DROP 1)) ∧
    (∀ x ∈ rows, p.type.toNat = x.1 →
      (¬ whole → exec x.2 s = .next ((s.bump Reg.LNK_CNT_CRC_DROP 1).linkReply n q.rxNext true)) ∧
      (whole → inTurn → p.epoch ≠ s.frm.epoch → newerEpoch p.epoch s.frm.epoch = true →
        exec x.2 s = .next (acked.holdPacket n p)) ∧
      (whole → inTurn → p.epoch ≠ s.frm.epoch → newerEpoch p.epoch s.frm.epoch = false → s.frm.prevEpoch ≠ some p.epoch →
        exec x.2 s = .next ((acked.bump Reg.FRM_EPOCH_DROP 1).stick Reg.FRM_STATUS 4)))

/-- The link and the ports: an ACK frees the retry buffer up to its number, a missing one resends it all; a window's symbol
counts are kept, and three failed lanes take a port DOWN; a swap takes a spare lane and brings the port back UP; the spare laser
replaces a failed one; training ends UP, and the third failure DOWN. UNREACH marks a station on a plane for 2^16 rc; a request without answer is sent
again on the next plane up to E2E_RETX times. The device answers an enumeration probe and takes its station number once; these
messages' payloads are laid out as log entry 65 says. -/
def Obligations.LinkAndPortRows : Prop :=
  ∀ (s : State) (port : Fin 24),
    let n := port.val
    let q := s.port n
    (q.phase = .up →
      (∀ (p : Packet) e rest, p.type.toNat = tyLinkCtl → p.lcrcOk = true → p.ecrc = packetCrc p → packetFormed p = true →
        p.aux.getLsbD 0 = false → q.retry = e :: rest → e.1 = p.addr.toNat % 4096 → q.waiting = [] →
        exec (.linkCtl port p) s = .next (s.putPort n { q with retry := rest, ackRc := s.rc })) ∧
      (q.ackRc + 200 ≤ s.rc → q.retry ≠ [] → ∃ t : State, exec (.linkRetryTimeout port) s = .next t ∧
        t.out.fabric = s.out.fabric ++ q.retry.map (fun e => (n, e.2.1)) ∧ t.port n = { q with ackRc := s.rc } ∧
        t.reg Reg.LNK_CNT_RETRY = satAdd (s.reg Reg.LNK_CNT_RETRY) q.retry.length ∧ t.mem = s.mem) ∧
      (s.rc < q.ackRc + 200 ∨ q.retry = [] → exec (.linkRetryTimeout port) s = .next s) ∧
      (q.failed.length < 3 → ∀ syms : List (BitVec 32), (∀ i, laneBad (syms.getD i 0).toNat = false) → ∃ t : State,
        exec (.fecWindow port syms 0) s = .next t ∧
        (t.port n).symbols = (List.range 18).map (fun i => (syms.getD i 0).toNat) ∧ (t.port n).phase = .up ∧
        (∀ m, m ≠ n → t.port m = s.port m) ∧ t.mem = s.mem) ∧
      (∀ b, exec (.portTrainingDone port b) s = .next s) ∧ exec (.laserChangeoverEnd port) s = .next s ∧
      (s.portLive n = true → q.spareLaser = false → s.regBit Reg.LNK_CFG 2 = true → ∃ t : State,
        exec (.laserFail port false) s = .next t ∧
        t.port n = { q with phase := .swapping, changing := true, spareLaser := true } ∧
        t.regBit Reg.LNK_STATUS 1 = true ∧ t.reg Reg.LNK_CNT_LASER_SWAP = satAdd (s.reg Reg.LNK_CNT_LASER_SWAP) 1) ∧
      (∀ h : Packet, s.mgmtTakes n 0x0001 (carrying h []) → exec (.enumProbe port h) s = .next
        ((s.linkTaken n).sayOn n h.src.toNat (.enumReply n s.identity s.boot.running))) ∧
      (∀ (h : Packet) (number manager : BitVec 16), s.mgmtTakes n 0x0003 (assignPacket h number manager) →
        let st := number.toNat
        let mg := manager.toNat
        (s.lnk.manager = none ∨ s.lnk.manager = some h.src.toNat →
          (s.lnk.station = none ∨ s.lnk.station = some st ∧ s.frm.epoch = 0 → ∃ t : State,
            exec (.stationAssign port h number manager) s = .next t ∧ t.lnk.station = some st ∧ t.lnk.manager = some mg ∧
            t.lnk.assignEpoch = s.frm.epoch ∧ t.out.mgmt = s.out.mgmt ++ [.assignAck st .success]) ∧
          (∀ old, s.lnk.station = some old → old ≠ st → s.lnk.assignEpoch = s.frm.epoch → ∃ t : State,
            exec (.stationAssign port h number manager) s = .next t ∧ t.lnk.station = some old ∧ t.lnk.manager = s.lnk.manager ∧
            t.regBit Reg.LNK_STATUS 7 = true ∧ t.out.mgmt = s.out.mgmt ++ [.assignAck st .stationConflict])) ∧
        (s.lnk.manager ≠ none → s.lnk.manager ≠ some h.src.toNat →
          exec (.stationAssign port h number manager) s = .next ((s.linkTaken n).bump Reg.LNK_CNT_DENIED 1))) ∧
      (∀ p : Packet, p.type.toNat = tyUnreach → p.lcrcOk = true → p.ecrc = packetCrc p → p.seq.toNat = q.rxNext →
        packetFormed p = true → packetEnc p = false → s.encRequired p.src.toNat n = false → s.lnk.station ≠ none →
        exec (.unreach port p) s = .next ((((s.linkTaken n).bump Reg.LNK_CNT_UNREACH 1).markUnreach (returned p.payload).2.1
          n).resendReturned p.payload))) ∧
    (q.phase = .swapping →
      (q.changing = true → exec (.laserChangeoverEnd port) s = .next (s.swapEnd n { q with changing := false })) ∧
      (q.changing = false → exec (.laserChangeoverEnd port) s = .next s) ∧
      (∀ (lane : BitVec 5) (x : Port), lane.toNat ∈ q.replacing → q.takeSpare lane.toNat = some x →
        exec (.laneSwap port lane) s = .next (((s.swapEnd n { x with
          replacing := q.replacing.filter (fun l => l != lane.toNat) }).bump Reg.LNK_CNT_LANE_SWAP 1).stick Reg.LNK_STATUS 0)) ∧
      (∀ lane : BitVec 5, lane.toNat ∈ q.replacing → q.takeSpare lane.toNat = none →
        exec (.laneSwap port lane) s = .next (s.portGone n 1 .down)) ∧
      (∀ lane : BitVec 5, lane.toNat ∉ q.replacing → exec (.laneSwap port lane) s = .next s)) ∧
    (q.phase = .training →
      exec (.portTrainingDone port true) s = .next ((s.putPort n { q with phase := .up, trainFails := 0 }).portEvent n 3) ∧
      (q.trainFails < 2 → exec (.portTrainingDone port false) s =
        .next (s.putPort n { q with trainFails := q.trainFails + 1 })) ∧
      (2 ≤ q.trainFails → exec (.portTrainingDone port false) s =
        .next ((s.putPort n { q with trainFails := q.trainFails + 1 }).portGone n 3 .down))) ∧
    (∀ st : BitVec 16, exec (.unreachableExpiry st port) s = .next { s with lnk := { s.lnk with
      unreach := s.lnk.unreach.filter (fun u => !(u.1 == st.toNat && u.2.1 == n && decide (u.2.2 + 65536 ≤ s.rc))) } }) ∧
    (∀ (tag : BitVec 32) (x : Trans), s.transOf tag.toNat = some x →
      let late := x.sentRc + 100 * s.regField Reg.LNK_CFG 8 15 ≤ s.rc
      let counted := s.countTimeout x.packet.dst.toNat x.plane
      (¬ late → exec (.e2eTimeout tag) s = .next s) ∧
      (late → x.tries < s.regField Reg.LNK_CFG 4 7 → exec (.e2eTimeout tag) s = .next
        ((counted.bump Reg.LNK_CNT_E2E_RETX 1).resendTrans x (x.tries + 1))) ∧
      (late → s.regField Reg.LNK_CFG 4 7 ≤ x.tries → exec (.e2eTimeout tag) s = .next
        ((counted.closeTrans x.tag).transFails x)))

/-! ### Starting, clocks and supply; the RAS engine; the security processor's protocol -/

/-- The start goes from stage to stage: stage 0 ends where the reference, the rails and the inputs allow, on the persistent copy
last written or, where that one is bad, the other; each later stage ends
by its rule, so a pin held low leaves stage 1 in recovery, images that verify take stages 2 and 3 on, fuse copies that disagree
end stage 4 in HALTED, and a self-test of stage 8 without a failure leads to stage 9 and READY. An end of a stage changes
nothing in recovery, without the reference or after the start's end. -/
def Obligations.StartGoesStageByStage : Prop :=
  ∀ s : State,
    (s.boot.dev = .reset → s.boot.stage = 0 →
      let p := s.readBlocks.boot.persist
      (s.boot.badCopies = 0 → p = s.boot.persist) ∧ (s.boot.badCopies = 1 → p = s.boot.otherCopy) ∧
      (s.resetMayEnd = true → ∃ t : State, exec .stageResetEnd s = .next t ∧ t.boot.stage = 1 ∧ t.boot.stage0Rc = s.rc ∧
        t.boot.persist.startNo = p.startNo + 1 ∧ t.ras.feedId = s.phys.feedStraps.toNat ∧ t.mem = s.mem ∧
        t.boot.persist.cntCold = (if s.boot.cold then satAdd p.cntCold 1 else p.cntCold) ∧
        t.boot.persist.cntWarm = (if s.boot.cold then p.cntWarm else satAdd p.cntWarm 1)) ∧
      (s.resetMayEnd = false → exec .stageResetEnd s = .next s)) ∧
    (∀ (o : StageOut) (ms : BitVec 32),
      ((s.boot.result ≠ .inProgress ∨ s.boot.recovery = true ∨ s.phys.refPresent = false) →
        exec (.stageEnd o ms) s = .next s) ∧
      (s.boot.result = .inProgress → s.boot.recovery = false → s.phys.refPresent = true →
        let goes := fun (n : Nat) => ∃ t : State, exec (.stageEnd o ms) s = .next t ∧ t.boot.stage = n ∧
          t.boot.result = .inProgress ∧ t.boot.recovery = false
        let halts := ∃ t : State, exec (.stageEnd o ms) s = .next t ∧ t.boot.dev = .halted ∧ t.phys.alert = true
        (s.boot.stage = 1 → (s.boot.flashRcvLow = false → goes 2) ∧ (s.boot.flashRcvLow = true →
          ∃ t : State, exec (.stageEnd o ms) s = .next t ∧ t.boot.recovery = true ∧ t.boot.stage = 1)) ∧
        (s.boot.stage = 2 → s.imageVerdict (s.bankImage s.boot.startedB) [1] = none → goes 3) ∧
        (s.boot.stage = 3 → (∀ k ∈ [2, 3, 4], componentOk (s.bankImage s.boot.startedB) k = true) → goes 4) ∧
        (s.boot.stage = 4 → (o.fuseApertureOk = true → o.fuseMapOk = true → goes 5) ∧
          ((o.fuseApertureOk = false ∨ o.fuseMapOk = false) → halts)) ∧
        (s.boot.stage = 5 → s.boot.planSafe = false → goes 6) ∧
        (s.boot.stage = 6 → ∃ t : State, exec (.stageEnd o ms) s = .next t ∧ t.host.memoryActive = true ∧
          (t.boot.stage = 7 ∨ t.boot.dev = .halted)) ∧
        (s.boot.stage = 7 → goes 8) ∧
        (s.boot.stage = 8 → o.firstFailed = false → o.testBad = [] → o.updBad = 0 → o.unitsBad = 0 →
          512 ≤ s.boot.logical.length → goes 9))) ∧
    (s.boot.stage = 9 → s.boot.dev = .booting → s.boot.result = .inProgress → ∃ t : State, exec .ready s = .next t ∧
      t.boot.dev = .ready ∧ t.boot.result = .ready ∧ t.frm.ticking = true ∧ t.frm.phase = 0 ∧
      t.boot.persist.failedStarts = 0 ∧ t.phys.alert = false ∧ t.mem = s.mem) ∧
    ((s.boot.stage ≠ 9 ∨ s.boot.dev ≠ .booting ∨ s.boot.result ≠ .inProgress) → exec .ready s = .next s)

/-- What restarts the device, cuts it off or lets it start: a watchdog or a shell fault during a start is a warm restart of
cause 3 or 4, a shell fault in service a device-fatal record; power at the first connector starts it cold; a lost reference
holds it in reset; a loss of power is recorded and stops everything; a flash image is taken in recovery only. -/
def Obligations.RestartsAndSupply : Prop :=
  ∀ s : State,
    (∀ h : StageHang,
      (s.boot.result = .inProgress → 1 ≤ s.boot.stage → s.boot.stage ≤ 8 → s.boot.recovery = false →
        exec (.stageWatchdog h) s = .next
          (State.restart { s with boot := { s.boot with hang := h, badCopies := h.badCopies } } false 3)) ∧
      (s.boot.result ≠ .inProgress → exec (.stageWatchdog h) s = .next s ∧
        exec (.shellFault ⟨h, none⟩) s = .next (s.raise .shellFault ⟨7, 0⟩ 0) ∧
        (∀ i : BitVec 2, ∃ t : State, exec (.shellFault ⟨h, some i⟩) s = .next t ∧
          (s.ras.active = none → (t.scp i.toNat).failed = true ∧ t.ras.fatalPending = true))) ∧
      (∀ x, s.boot.result = .inProgress → s.boot.dev = .booting →
        exec (.shellFault ⟨h, x⟩) s = .next
          (State.restart { s with boot := { s.boot with hang := h, badCopies := h.badCopies } } false 4))) ∧
    (∀ (c : Bool) (v : BitVec 16) (bad : BitVec 2),
      (v.toNat < 4000 → exec (.powerApplied c ⟨v, bad⟩) s = .next s) ∧
      (4000 ≤ v.toNat → s.phys.in0.1 < 4000 → s.phys.in1.1 < 4000 → ∃ t : State, exec (.powerApplied c ⟨v, bad⟩) s = .next t ∧
        t.boot = { (s.restart true 0).boot with badCopies := bad } ∧ t.phys.rails = true ∧ (if c then t.phys.in1 else t.phys.in0).1 = v.toNat ∧
        (if c then t.phys.in0 else t.phys.in1) = (if c then s.phys.in0 else s.phys.in1) ∧ t.regs = []) ∧
      (4000 ≤ v.toNat → (4000 ≤ s.phys.in0.1 ∨ 4000 ≤ s.phys.in1.1) → ∃ t : State,
        exec (.powerApplied c ⟨v, bad⟩) s = .next t ∧ (if c then t.phys.in1 else t.phys.in0).1 = v.toNat ∧
        (t.boot, t.regs, t.mem, t.frm, t.host) = (s.boot, s.regs, s.mem, s.frm, s.host))) ∧
    (s.phys.refPresent = false →
      exec .refclkPresent s = .next { s with phys := { s.phys with refPresent := true, domains := domainsOnRef } }) ∧
    (s.phys.refPresent = true → exec .refclkPresent s = .next s) ∧
    (s.phys.refPresent = true → ∃ t : State, exec .refclkLost s = .next t ∧ t.phys.refPresent = false ∧
      t.phys.rails = s.phys.rails ∧ t.boot.dev = .reset ∧ t.host.linkActive = false ∧
      (1 ≤ s.boot.stage → t.boot.cause = 1 ∧ t.boot.cold = false)) ∧
    (s.phys.refPresent = false → exec .refclkLost s = .next s) ∧
    (∀ a b : BitVec 16,
      ((a.toNat < 4000 ∧ b.toNat < 4000) ∨ 6000 < a.toNat ∨ 6000 < b.toNat → ∃ t : State,
        exec (.powerLoss a b) s = .next t ∧ t.phys.rails = false ∧ t.boot.cold = true ∧ t.boot.dev = .reset ∧
        t.boot.cause = 0 ∧
        (∃ r ∈ t.ras.lastLoss, r.cls = RasClass.powerLoss.code ∧ r.severity = 4 ∧ r.lastLoss = true ∧ r.tick = s.frm.tick)) ∧
      ((4000 ≤ a.toNat ∨ 4000 ≤ b.toNat) → a.toNat ≤ 6000 → b.toNat ≤ 6000 → exec (.powerLoss a b) s = .next s)) ∧
    (∀ (b : Bool) (im : List Byte),
      (s.boot.recovery = false → exec (.flashRecoveryImage b im) s = .next s) ∧
      (s.boot.recovery = true → s.imageVerdict im [1, 2, 3, 4] = none → ∃ t : State,
        exec (.flashRecoveryImage b im) s = .next t ∧ t.bankImage b = im ∧
        (if b then t.boot.persist.bValid else t.boot.persist.aValid) = true ∧ t.bankImage (!b) = s.bankImage (!b)) ∧
      (∀ x, s.boot.recovery = true → s.imageVerdict im [1, 2, 3, 4] = some x → ∃ t : State,
        exec (.flashRecoveryImage b im) s = .next t ∧ t.bankImage b = s.bankImage b ∧
        (if b then t.boot.persist.bValid else t.boot.persist.aValid) = false))

/-- The management connector reads five sources and changes nothing else; a frame-timed domain that locks counts its windows and
is switched after two that pass in a row; a window that fails in service is counted; the housekeeping domains turn stable; a
multiplexer that hangs for 1,024 rc is set back to the reference, and counted. -/
def Obligations.ClocksAndManagement : Prop :=
  ∀ s : State,
    (∀ q : I3cSel, ∃ t : State, exec (.i3cRead q) s = .next t ∧ t = { s with phys := { s.phys with i3cOut := t.phys.i3cOut } } ∧
      t.phys.i3cOut.length = 4 ∧
      (q = .pwrAvg → t.phys.i3cOut = toLe 4 s.phys.avg) ∧ (q = .bootState → t.phys.i3cOut = toLe 4 s.bootState.toNat)) ∧
    (∀ (d : Fin 37) (n : BitVec 32), 2 ≤ d.val →
      let c := s.domain d.val
      let ok := windowPasses (expectedCount s.lockMultiple d.val) n.toNat
      (c.phase = .locking → c.switching = none →
        (ok = false → exec (.clockWindow d n) s = .next (s.putDomain d.val { c with count := n.toNat, passes := 0 })) ∧
        (ok = true → c.passes = 0 → exec (.clockWindow d n) s = .next
          (s.putDomain d.val { c with count := n.toNat, passes := 1 })) ∧
        (ok = true → 1 ≤ c.passes → exec (.clockWindow d n) s = .next (s.putDomain d.val
          { c with count := n.toNat, passes := c.passes + 1, stable := true, switching := some s.rc }))) ∧
      (c.phase = .onPll → d.val ≤ 11 → ok = false → s.ras.active = none → ∃ t : State,
        exec (.clockWindow d n) s = .next t ∧ t.regBit Reg.CLK_STATUS 0 = true ∧
        t.reg Reg.CLK_CNT_WINDOW_FAIL = satAdd (s.reg Reg.CLK_CNT_WINDOW_FAIL) 1)) ∧
    (∀ d : Fin 2,
      (s.phys.refPresent = true → exec (.hkStable d) s = .next (s.putDomain d.val
        { s.domain d.val with phase := .onPll, stable := true, switching := none })) ∧
      (s.phys.refPresent = false → exec (.hkStable d) s = .next s)) ∧
    (∀ (d : Fin 37) (x : Nat),
      let c := s.domain d.val
      (c.switching = none → exec (.clockMuxSwitch d) s = .next s ∧ exec (.muxHang d) s = .next s) ∧
      (c.switching = some x → c.phase = .onPll → exec (.clockMuxSwitch d) s = .next (s.putDomain d.val
        { c with phase := .locking, switching := none, passes := 0, stable := false })) ∧
      (c.switching = some x → c.phase = .locking → (d.val ≠ 2 ∨ s.phys.apSelect = none) →
        exec (.clockMuxSwitch d) s = .next (s.putDomain d.val { c with phase := .onPll, switching := none, stable := true })) ∧
      (c.switching = some x → s.rc < x + 1024 → exec (.muxHang d) s = .next s) ∧
      (c.switching = some x → x + 1024 ≤ s.rc → d.val ≠ 2 → s.ras.active = none → ∃ t : State,
        exec (.muxHang d) s = .next t ∧ (t.domain d.val).phase = .onRef ∧ (t.domain d.val).switching = none ∧
        t.regBit Reg.CLK_STATUS 1 = true ∧ t.reg Reg.CLK_CNT_MUX_HANG = satAdd (s.reg Reg.CLK_CNT_MUX_HANG) 1))

/-- The RAS engine. A record of a class that is no core's frame-fatal one becomes active where none is
active, is counted under its severity and carries tick, unit and detail; a code that no class has changes nothing. The end of a
record's handling brings the head of the queue to the front, but a device-fatal record's handling ends with its reset alone.
What completes later: a map-in whose write is a tick old gives the logical core its spare, with an empty store, and is
counted; the acknowledgement of STATE 2 completes the Mirror's copy; a host log that lags and is reachable again lags no more;
a processor's verified image waits for the tick that returns its role. -/
def Obligations.RasEngineAndRecovery : Prop :=
  (∀ s : State,
    (∀ (k : BitVec 8) (u : BitVec 16) (x : BitVec 64) (h : Bool),
      (RasClass.ofCode k.toNat = none → exec (.rasRecord k u x h) s = .next s) ∧
      (∀ c, RasClass.ofCode k.toNat = some c → (c.severity ≠ 2 ∨ (UnitId.ofCode u.toNat).ty ≠ 1) → s.ras.active = none →
        ∃ t : State, exec (.rasRecord k u x h) s = .next t ∧ t.ras.active = some
          { severity := c.severity, cls := k.toNat, unit := UnitId.ofCode u.toNat, seq := s.ras.seq, preempted := false,
            half := h, lastLoss := false, tick := s.frm.tick, detail := x.toNat, step := s.upd.t } ∧
        t.reg (rasCounter c.severity) = satAdd (s.reg (rasCounter c.severity)) 1 ∧
        t.ras.queue = s.ras.queue ∧ (c.severity = 3 → t.frm.uncommittable = true) ∧
        (c.severity = 4 → t.phys.alert = true ∧ t.ras.fatalPending = true) ∧ t.mem = s.mem)) ∧
    (∀ r, s.ras.active = some r →
      (r.severity ≠ 4 → exec .recordHandlingEnd s = .next { s with ras := { s.ras with
        active := s.ras.queue.head?, queue := s.ras.queue.drop 1 } }) ∧
      (r.severity = 4 → exec .recordHandlingEnd s = .next s) ∧
      (r.severity = 4 → s.ras.fatalPending = true → ∃ t : State, exec .deviceFatalReset s = .next t ∧
        t.boot.dev = .reset ∧ t.boot.cause = 5 ∧ t.boot.cold = false ∧ { r with lastLoss := true } ∈ t.ras.lastLoss ∧
        t.ras.active = s.ras.queue.head? ∧ t.ras.queue = s.ras.queue.drop 1 ∧ t.mem = s.mem)) ∧
    (s.ras.fatalPending = false → exec .deviceFatalReset s = .next s) ∧
    (s.ras.active = none → exec .recordHandlingEnd s = .next s)) ∧
  (∀ s : State,
    (∀ l : BitVec 9,
      (∀ e, s.boot.pendingMapIn.find? (fun e => e.1 == l.toNat && e.2.2) = some e → s.ras.active = none →
        ∃ t : State, exec (.mapIn l) s = .next t.unblock ∧ t.physOf l.toNat = some e.2.1 ∧
          t.mem = mzero s.mem (0x008000000000 + l.toNat * 0x400000) (0x008000000000 + (l.toNat + 1) * 0x400000) ∧
          (∀ x ∈ t.boot.pendingMapIn, x.1 ≠ l.toNat) ∧ coreId l.toNat ∉ t.frm.idleUnits ∧
          t.reg Reg.RAS_CNT_MAPIN = satAdd (s.reg Reg.RAS_CNT_MAPIN) 1 ∧ t.regBit Reg.RAS_STATUS 4 = true) ∧
      (s.boot.pendingMapIn.find? (fun e => e.1 == l.toNat && e.2.2) = none → exec (.mapIn l) s = .next s)) ∧
    (s.ras.mirror.copying = some 1 → s.mirrorBusy = false → ∃ t : State, exec .mirrorComplete s = .next t ∧
      t.ras.mirror.copying = none ∧ t.ras.mirror.copyDone = true ∧ t.ras.mirror.ownHalf = 1 - s.ras.mirror.ownHalf ∧
      t.ras.ownT = s.upd.t ∧ t.reg Reg.RAS_CNT_MIRROR = satAdd (s.reg Reg.RAS_CNT_MIRROR) 1 ∧ t.mem = s.mem) ∧
    ((s.ras.mirror.copying ≠ some 1 ∨ s.mirrorBusy = true) → exec .mirrorComplete s = .next s) ∧
    (s.ras.hostLagFrom = none → exec .hostLogCatchup s = .next s) ∧
    (∀ f, s.ras.hostLagFrom = some f → s.hostLogOk f = true → ∃ t : State, exec .hostLogCatchup s = .next t ∧
      t.ras.hostLagFrom = none ∧ t.ras.flerraT = s.ras.flerraT ∧ t.frm = s.frm) ∧
    (∀ i : BitVec 2,
      ((s.scp i.toNat).away = true → (s.scp i.toNat).swapTo.isSome = true → ∃ t : State,
        exec (.scpImageVerified i) s = .next t ∧ t.scp i.toNat = { s.scp i.toNat with verified := true } ∧
        (∀ j, j ≠ i.toNat → t.scp j = s.scp j) ∧ (t.regs, t.mem, t.frm) = (s.regs, s.mem, s.frm)) ∧
      ((s.scp i.toNat).away = false → exec (.scpImageVerified i) s = .next s)))

/-- Arrivals at the RAS engine while a record is active (no core's frame-fatal class): one of higher severity becomes active and
the preempted record joins the queue; any other joins the queue itself. The queue stays ordered and holds 15; from a full
one the last in order goes, which is counted and flagged. A second device-fatal record resets the device at once. A queue's
head resumes when the handling of a record ends. -/
def Obligations.RasArrivalsInOrder : Prop :=
  ∀ (s : State) (k : BitVec 8) (u : BitVec 16) (x : BitVec 64) (h : Bool) (c : RasClass) (a : RasRecord),
    s.ras.ok → RasClass.ofCode k.toNat = some c → (c.severity ≠ 2 ∨ (UnitId.ofCode u.toNat).ty ≠ 1) →
    s.ras.active = some a →
    let fresh : RasRecord :=
      { severity := c.severity, cls := k.toNat, unit := UnitId.ofCode u.toNat, seq := s.ras.seq, preempted := false,
        half := h, lastLoss := false, tick := s.frm.tick, detail := x.toNat, step := s.upd.t }
    let queued := fun (r : RasRecord) (t : State) => ∃ l : List RasRecord, l.Perm (r :: s.ras.queue) ∧ rasSorted l ∧
      t.ras.queue = l.take 15 ∧ (s.ras.queue.length = 15 →
        t.reg Reg.RAS_CNT_OVERFLOW = satAdd (s.reg Reg.RAS_CNT_OVERFLOW) 1 ∧ t.regBit Reg.RAS_STATUS 3 = true)
    (a.severity < c.severity → ∃ t : State, exec (.rasRecord k u x h) s = .next t ∧ t.ras.active = some fresh ∧
      queued { a with preempted := true } t) ∧
    (c.severity ≤ a.severity → ¬ (a.severity = 4 ∧ c.severity = 4) → ∃ t : State,
      exec (.rasRecord k u x h) s = .next t ∧ t.ras.active = some a ∧ queued fresh t) ∧
    (a.severity = 4 → c.severity = 4 → ∃ t : State, exec (.rasRecord k u x h) s = .next t ∧ t.boot.dev = .reset ∧
      { fresh with cls := RasClass.doubleFatal.code, lastLoss := true } ∈ t.ras.lastLoss ∧ t.ras.active = none) ∧
    (a.severity ≠ 4 → exec .recordHandlingEnd s = .next { s with ras := { s.ras with
      active := s.ras.queue.head?, queue := s.ras.queue.drop 1 } })

/-- The security processor's protocol: versions and capabilities are negotiated in order, a request before that or of another
version is answered with ERROR, counted and flagged; digests, certificate portions, measurements and signed responses follow; up
to four sessions are opened, finished, kept up and ended; large requests are gathered and large responses handed out in chunks.
The messages' layouts and codes are those of log entry 19. -/
def Obligations.SpdmProtocol : Prop :=
  ∀ (s : State) (q : SpdmReq),
    let v := q.version.toNat
    let x := s.sec.spdm
    let replies := fun (i : Instr) (m : List Byte) (h : State → Prop) => ∃ t : State, exec i s = .next t ∧
      t.sec.spdm.out = x.out ++ [m] ∧ h t
    let answers := fun (i : Instr) (h : State → Prop) => ∃ t : State, exec i s = .next t ∧
      t.sec.spdm.out.length = x.out.length + 1 ∧ t.mem = s.mem ∧ h t
    let later := [Instr.getDigests q, Instr.getCertificate q, Instr.challenge q, Instr.getMeasurements q,
      Instr.keyExchange q, Instr.finish q, Instr.endSession q, Instr.heartbeat q, Instr.keyUpdate q, Instr.chunkSend q,
      Instr.chunkGet q, Instr.vendorDefinedRequest q]
    replies (.getVersion q) [0x10, 0x04, 0, 0, 0, 2, 0x00, 0x13, 0x00, 0x12] (fun t => t.sec.spdm.version = none ∧
      t.sec.spdm.sessions = [] ∧ t.sec.spdm.chunk = none ∧ t.sec.spdm.large = none) ∧
    ((v = 0x12 ∨ v = 0x13) → x.vca ≠ [] → 42 ≤ u32At q.body 8 → answers (.getCapabilities q) (fun t =>
      t.sec.spdm.version = some v ∧ t.sec.spdm.caps = true ∧ t.sec.spdm.limit = u32At q.body 8)) ∧
    (v ≠ 0x12 → v ≠ 0x13 → exec (.getCapabilities q) s = .next (s.spdmRefuses v 0x41)) ∧
    (∀ w, x.version = some w → w ≠ v → ∀ i ∈ .negotiateAlgorithms q :: later, exec i s = .next (s.spdmRefuses v 0x41)) ∧
    (x.version = some v → 42 ≤ x.limit →
      (x.caps = true → answers (.negotiateAlgorithms q) (fun t => t.sec.spdm.algos = true)) ∧
      (x.caps = false → exec (.negotiateAlgorithms q) s = .next (s.spdmRefuses v 0x04)) ∧
      (x.algos = false → ∀ i ∈ later, exec i s = .next (s.spdmRefuses v 0x04)) ∧
      (x.algos = true →
        replies (.getDigests q) ([q.version, 0x01, 0, 1] ++ sha256 s.spdmChain) (fun t => t.regs = s.regs) ∧
        (let c := s.spdmChain
          let off := u16At q.body 0
          let n := Nat.min (u16At q.body 2) (c.length - off)
          q.param1 = 0 → n + 8 ≤ Nat.min x.limit 4096 → replies (.getCertificate q)
            ([q.version, 0x02, 0, 0] ++ toLe 2 n ++ toLe 2 (c.length - off - n) ++ slice c off n) (fun t => t.regs = s.regs)) ∧
        (q.param1 = 0 → q.param2.toNat ∈ [0, 1, 0xFF] → answers (.challenge q) (fun t =>
          t.freeCtr = s.freeCtr + 2 ∧ t.reg Reg.SEC_CNT_ATTEST = satAdd (s.reg Reg.SEC_CNT_ATTEST) 1 ∧
          t.sec.spdm.certLog = [] ∧ t.sec.spdm.measLog = [])) ∧
        ((q.param2 = 0xFF ∨ q.param2.toNat ≤ 10) →
          (q.param1.getLsbD 0 = false → answers (.getMeasurements q) (fun t => t.freeCtr = s.freeCtr + 1)) ∧
          (q.param1.getLsbD 0 = true → byteAt q.body 32 = 0 → answers (.getMeasurements q) (fun t =>
            t.freeCtr = s.freeCtr + 2 ∧ t.reg Reg.SEC_CNT_ATTEST = satAdd (s.reg Reg.SEC_CNT_ATTEST) 1 ∧
            t.sec.spdm.measLog = []))) ∧
        (x.sessions.length < 4 → q.param1.toNat ∈ [0, 1, 0xFF] → q.param2 = 0 →
          (bytesPoint (slice q.body 36 96)).isSome = true → answers (.keyExchange q) (fun t =>
            ∃ y : SpdmSession, t.sec.spdm.sessions = x.sessions ++ [y] ∧ y.finished = false ∧
              y.id = u16At q.body 0 + 65536 * (x.nextSession % 65536))) ∧
        (4 ≤ x.sessions.length → exec (.keyExchange q) s = .next (s.spdmRefuses v 0x0A)) ∧
        (∀ y, s.spdmSession q = some y → y.finished = false →
          let good := hmacSha256 y.finishKey (sha256 (y.log ++ [q.version, 0xE5, q.param1, q.param2])) = slice q.body 0 32
          (good → replies (.finish q) [q.version, 0x65, 0, 0] (fun t => t.sec.spdm.sessions = x.sessions.map
            (fun z => if z.id = y.id then { z with finished := true } else z))) ∧
          (¬ good → answers (.finish q) (fun t => t.sec.spdm.sessions = x.sessions.filter (fun z => z.id != y.id) ∧
            t.regBit Reg.SEC_STATUS 7 = true))) ∧
        (∀ y, s.spdmSession q = some y → y.finished = true →
          replies (.endSession q) [q.version, 0x6C, 0, 0] (fun t =>
            t.sec.spdm.sessions = x.sessions.filter (fun z => z.id != y.id)) ∧
          replies (.heartbeat q) [q.version, 0x68, 0, 0] (fun t => t.sec.spdm.sessions = x.sessions ∧ t.regs = s.regs) ∧
          (1 ≤ q.param1.toNat → q.param1.toNat ≤ 3 → replies (.keyUpdate q) [q.version, 0x69, q.param1, q.param2]
            (fun t => t.sec.spdm.sessions = x.sessions ∧ t.regs = s.regs)) ∧
          (∀ k o, ideKm q.body = some k → s.host.ideServe k = some o → replies (.vendorDefinedRequest q)
            ([q.version, 0x7E, 0, 0] ++ slice q.body 0 5 ++ toLe 2 o.1.length ++ o.1)
            (fun t => t.host = o.2 ∧ t.mem = s.mem))) ∧
        (∀ c, s.takeChunk q = some c → c.2.2.2.length ≤ c.2.2.1 → c.2.2.1 ≤ 65536 →
          (q.param1.getLsbD 0 = false → answers (.chunkSend q) (fun t => t.sec.spdm.chunk = some c)) ∧
          (q.param1.getLsbD 0 = true → c.2.2.2.length = c.2.2.1 →
            answers (.chunkSend q) (fun t => t.sec.spdm.chunk = none))) ∧
        (s.takeChunk q = none → answers (.chunkSend q) (fun t => t.sec.spdm.chunk = none ∧ t.regBit Reg.SEC_STATUS 7 = true)) ∧
        (∀ h m, x.large = some (h, m) → h = q.param2.toNat → u16At q.body 0 = 0 → m ≠ [] →
          let room := Nat.min x.limit 4096 - 16
          replies (.chunkGet q) ([q.version, 0x06, BitVec.ofNat 8 (b2n (decide (m.length ≤ room))), q.param2, 0, 0, 0, 0]
            ++ toLe 4 (m.take room).length ++ toLe 4 m.length ++ m.take room)
            (fun t => t.sec.spdm.sessions = x.sessions ∧
              t.sec.spdm.large = if m.length ≤ room then none else some (h, m))) ∧
        (x.large = none → exec (.chunkGet q) s = .next (s.spdmRefuses v 0x01))))
end

