-- ==== Sys2Proof/Laws/Memory.lean ====
section
/-! SUPPORT. The laws of the memory list: the canonical form as a pairwise order, that every operation keeps it, and what a
read gives after a write. -/

namespace Sys2Proof.Machine

/-- The canonical form, said of pairs of cells and of each cell. -/
theorem Memory.wf_iff (m : List Host.Cell) :
    Memory.wf m = true ↔ m.Pairwise (fun c d => c.1 < d.1) ∧ ∀ c ∈ m, c.2 ≠ memDefault := by
  induction m with
  | nil => simp [Memory.wf]
  | cons c m ih =>
    cases m with
    | nil => simp [Memory.wf]
    | cons d m =>
      simp only [Memory.wf, Bool.and_eq_true, ih, bne_iff_ne, decide_eq_true_eq]
      constructor
      · rintro ⟨⟨h1, h2⟩, h3, h4⟩
        refine ⟨List.pairwise_cons.2 ⟨?_, h3⟩, ?_⟩
        · intro e he
          rcases List.mem_cons.1 he with rfl | he
          · exact h2
          · exact Nat.lt_trans h2 ((List.pairwise_cons.1 h3).1 e he)
        · intro e he
          rcases List.mem_cons.1 he with rfl | he
          · exact h1
          · exact h4 e he
      · rintro ⟨h3, h4⟩
        have hp := List.pairwise_cons.1 h3
        exact ⟨⟨h4 _ (List.mem_cons_self ..), hp.1 d (List.mem_cons_self ..)⟩, hp.2,
          fun e he => h4 e (List.mem_cons_of_mem _ he)⟩

theorem Memory.wf_filter {m : List Host.Cell} (h : Memory.wf m = true) (p : Host.Cell → Bool) :
    Memory.wf (m.filter p) = true := by
  rw [Memory.wf_iff] at h ⊢
  exact ⟨h.1.filter p, fun c hc => h.2 c (List.mem_filter.1 hc).1⟩

theorem Memory.wf_mdrop {m : List Host.Cell} (h : Memory.wf m = true) (a : Nat) : Memory.wf (mdrop m a) = true :=
  Memory.wf_filter h _

theorem Memory.wf_mzero {m : List Host.Cell} (h : Memory.wf m = true) (lo hi : Nat) :
    Memory.wf (mzero m lo hi) = true :=
  Memory.wf_filter h _

/-- The addresses of a list with a cell put into it. -/
theorem mem_mput {m : List Host.Cell} {a : Nat} {b : Byte} {c : Host.Cell} (h : c ∈ mput m a b) :
    c = (a, b) ∨ c ∈ m := by
  induction m with
  | nil => simpa [mput] using h
  | cons d m ih =>
    obtain ⟨k, v⟩ := d
    simp only [mput] at h
    split at h
    · rcases List.mem_cons.1 h with h | h
      · exact .inl h
      · exact .inr (List.mem_cons_of_mem _ h)
    · split at h
      · rcases List.mem_cons.1 h with h | h
        · exact .inl h
        · exact .inr h
      · rcases List.mem_cons.1 h with h | h
        · exact .inr (h ▸ List.mem_cons_self ..)
        · exact (ih h).imp id (List.mem_cons_of_mem _)

theorem Memory.wf_mput {m : List Host.Cell} (h : Memory.wf m = true) {a : Nat} {b : Byte} (hb : b ≠ memDefault) :
    Memory.wf (mput m a b) = true := by
  rw [Memory.wf_iff] at h ⊢
  refine ⟨?_, fun c hc => (mem_mput hc).elim (fun e => e ▸ hb) (h.2 c)⟩
  obtain ⟨h, -⟩ := h
  induction m with
  | nil => simp [mput]
  | cons d m ih =>
    obtain ⟨k, v⟩ := d
    have hp := List.pairwise_cons.1 h
    simp only [mput]
    split
    · next e => subst e; exact List.pairwise_cons.2 hp
    · split
      · next hlt =>
        refine List.pairwise_cons.2 ⟨fun c hc => ?_, h⟩
        rcases List.mem_cons.1 hc with rfl | hc
        · exact hlt
        · exact Nat.lt_trans hlt (hp.1 c hc)
      · refine List.pairwise_cons.2 ⟨fun c hc => ?_, ih hp.2⟩
        rcases mem_mput hc with rfl | hc
        · show k < a; omega
        · exact hp.1 c hc

theorem Memory.wf_mwrite {m : List Host.Cell} (h : Memory.wf m = true) (a : Nat) (b : Byte) :
    Memory.wf (mwrite m a b) = true := by
  unfold mwrite
  split
  · exact Memory.wf_mdrop h a
  · next hb => exact Memory.wf_mput h hb

theorem Memory.wf_mwrites {m : List Host.Cell} (h : Memory.wf m = true) (a : Nat) (bs : List Byte) :
    Memory.wf (mwrites m a bs) = true := by
  induction bs generalizing m a with
  | nil => exact h
  | cons b bs ih => exact ih (Memory.wf_mwrite h a b) (a + 1)

/-! ### What a read gives -/

/-- A read of cells none of which has the address. -/
theorem mread_absent {m : List Host.Cell} {a : Nat} (h : ∀ c ∈ m, c.1 ≠ a) : mread m a = memDefault := by
  induction m with
  | nil => rfl
  | cons c m ih =>
    obtain ⟨k, v⟩ := c
    have hk : k ≠ a := h (k, v) (List.mem_cons_self ..)
    simpa [mread, hk] using ih (fun d hd => h d (List.mem_cons_of_mem _ hd))

theorem mread_filter {m : List Host.Cell} {p : Host.Cell → Bool} {a : Nat} (h : ∀ v, p (a, v) = true) :
    mread (m.filter p) a = mread m a := by
  induction m with
  | nil => rfl
  | cons c m ih =>
    obtain ⟨k, v⟩ := c
    by_cases hk : k = a
    · subst hk; simp [h v, mread]
    · by_cases hp : p (k, v) = true
      · simp [hp, mread, hk, ih]
      · simp [hp, mread, hk, ih]

theorem mread_mdrop_same (m : List Host.Cell) (a : Nat) : mread (mdrop m a) a = memDefault :=
  mread_absent fun c hc => by simpa using (List.mem_filter.1 hc).2

theorem mread_mdrop_other (m : List Host.Cell) {a b : Nat} (h : b ≠ a) : mread (mdrop m a) b = mread m b :=
  mread_filter fun _ => by simpa using h

theorem mread_mput_same (m : List Host.Cell) (a : Nat) (b : Byte) : mread (mput m a b) a = b := by
  induction m with
  | nil => simp [mput, mread]
  | cons c m ih =>
    obtain ⟨k, v⟩ := c
    simp only [mput]
    split
    · simp [mread]
    · split
      · simp [mread]
      · next h _ => simp [mread, Ne.symm h, ih]

theorem mread_mput_other (m : List Host.Cell) {a c : Nat} (b : Byte) (h : c ≠ a) :
    mread (mput m a b) c = mread m c := by
  induction m with
  | nil => simp [mput, mread, Ne.symm h]
  | cons d m ih =>
    obtain ⟨k, v⟩ := d
    simp only [mput]
    split
    · next e => subst e; simp [mread, Ne.symm h]
    · split
      · simp [mread, Ne.symm h]
      · by_cases hk : k = c
        · simp [mread, hk]
        · simp [mread, hk, ih]

theorem mread_mwrite_same (m : List Host.Cell) (a : Nat) (b : Byte) : mread (mwrite m a b) a = b := by
  unfold mwrite
  split
  · next h => rw [mread_mdrop_same, h]
  · exact mread_mput_same m a b

theorem mread_mwrite_other (m : List Host.Cell) {a c : Nat} (b : Byte) (h : c ≠ a) :
    mread (mwrite m a b) c = mread m c := by
  unfold mwrite
  split
  · exact mread_mdrop_other m h
  · exact mread_mput_other m b h

/-- A read outside the bytes written gives what it gave before. -/
theorem mread_mwrites_outside (m : List Host.Cell) (a : Nat) (bs : List Byte) {c : Nat}
    (h : c < a ∨ a + bs.length ≤ c) : mread (mwrites m a bs) c = mread m c := by
  induction bs generalizing m a with
  | nil => rfl
  | cons b bs ih =>
    simp only [List.length_cons] at h
    rw [mwrites, ih _ _ (by omega), mread_mwrite_other _ _ (by omega)]

/-- A read of the bytes written gives them. -/
theorem mread_mwrites_inside (m : List Host.Cell) (a : Nat) (bs : List Byte) {i : Nat} (h : i < bs.length) :
    mread (mwrites m a bs) (a + i) = byteAt bs i := by
  induction bs generalizing m a i with
  | nil => simp at h
  | cons b bs ih =>
    cases i with
    | zero => rw [mwrites, mread_mwrites_outside _ _ _ (by omega), Nat.add_zero, mread_mwrite_same]; rfl
    | succ i =>
      have := ih (mwrite m a b) (a + 1) (i := i) (by simpa using h)
      rw [mwrites, show a + (i + 1) = a + 1 + i by omega, this]
      simp [byteAt]

/-- A read of all the bytes written gives them. -/
theorem mreads_mwrites (m : List Host.Cell) (a : Nat) (bs : List Byte) : mreads (mwrites m a bs) a bs.length = bs := by
  induction bs generalizing m a with
  | nil => rfl
  | cons b bs ih =>
    rw [mwrites, List.length_cons, mreads, ih, mread_mwrites_outside _ _ _ (by omega), mread_mwrite_same]

/-- The first bytes of a longer read. -/
theorem mreads_take (m : List Host.Cell) (a n k : Nat) (h : k ≤ n) : mreads m a k = (mreads m a n).take k := by
  induction n generalizing a k with
  | zero => rw [Nat.le_zero.1 h]; rfl
  | succ n ih =>
    cases k with
    | zero => rfl
    | succ k => rw [mreads, mreads, List.take_succ_cons, ← ih _ _ (by omega)]

theorem mread_mzero_inside (m : List Host.Cell) {lo hi a : Nat} (h : lo ≤ a ∧ a < hi) :
    mread (mzero m lo hi) a = memDefault :=
  mread_absent fun c hc e => by
    have := (List.mem_filter.1 hc).2
    simp [e, h.1, h.2] at this

theorem mread_mzero_outside (m : List Host.Cell) {lo hi a : Nat} (h : a < lo ∨ hi ≤ a) :
    mread (mzero m lo hi) a = mread m a :=
  mread_filter fun _ => by
    rcases h with h | h
    · simp [Nat.not_le.2 h]
    · simp [Nat.not_lt.2 h]

end Sys2Proof.Machine
end

