-- ==== Sys2Proof/Laws/Keeps.lean ====
section
/-! SUPPORT. What every effect of a command keeps, said once as a relation between the state before and the state after, and
its lemmas for the operations of Machine/Ops.lean. -/

namespace Sys2Proof.Machine

/-- The waiting commands stay, time never runs back, free values are only used up, what was sent stays sent, memory keeps its
canonical form and the RAS lists stay within their bounds and in order. -/
structure Keeps (s t : State) : Prop where
  pending : t.pending = s.pending
  rc : s.rc ≤ t.rc
  free : s.freeCtr ≤ t.freeCtr
  msix : s.out.msix <+: t.out.msix
  mgmt : s.out.mgmt <+: t.out.mgmt
  fabric : s.out.fabric <+: t.out.fabric
  mem : Memory.wf s.mem = true → Memory.wf t.mem = true
  ras : s.ras.ok → t.ras.ok

theorem Keeps.refl (s : State) : Keeps s s :=
  ⟨rfl, Nat.le_refl _, Nat.le_refl _, List.prefix_refl _, List.prefix_refl _, List.prefix_refl _, id, id⟩

theorem Keeps.trans {s t u : State} (h : Keeps s t) (k : Keeps t u) : Keeps s u :=
  ⟨k.pending.trans h.pending, Nat.le_trans h.rc k.rc, Nat.le_trans h.free k.free, h.msix.trans k.msix,
   h.mgmt.trans k.mgmt, h.fabric.trans k.fabric, k.mem ∘ h.mem, k.ras ∘ h.ras⟩

theorem Keeps.inv {s t : State} (h : Keeps s t) (hi : s.Inv) : t.Inv := ⟨h.mem hi.1, h.ras hi.2⟩

/-- A new state built with the old one's waiting commands. -/
theorem Keeps.set {s₀ s : State} (h : Keeps s₀ s)
    {rc freeCtr regs mem host frm hbm boot phys ras sec lnk col upd lup sts dsp} {out : OutState}
    (ht : s.rc ≤ rc) (hf : s.freeCtr ≤ freeCtr) (hm : Memory.wf s.mem = true → Memory.wf mem = true)
    (h1 : s.out.msix <+: out.msix) (h2 : s.out.mgmt <+: out.mgmt) (h3 : s.out.fabric <+: out.fabric)
    (hr : s.ras.ok → ras.ok) :
    Keeps s₀ ⟨s.pending, rc, freeCtr, regs, mem, host, frm, hbm, boot, phys, ras, sec, lnk, col, upd, lup, sts,
      dsp, out⟩ :=
  h.trans ⟨rfl, ht, hf, h1, h2, h3, hm, hr⟩

theorem RasState.ok_of_eq {r q : RasState} (hq : q.queue = r.queue) (hl : q.lastLoss = r.lastLoss) (h : r.ok) :
    q.ok := by
  unfold RasState.ok
  rw [hq, hl]; exact h

/-- A change of fields that the relation does not speak of; the RAS engine may change but for its queue and ring. -/
theorem Keeps.fields {s₀ s : State} (h : Keeps s₀ s) {regs host frm hbm boot phys ras sec lnk col upd lup sts dsp}
    (hq : ras.queue = s.ras.queue) (hl : ras.lastLoss = s.ras.lastLoss) :
    Keeps s₀ ⟨s.pending, s.rc, s.freeCtr, regs, s.mem, host, frm, hbm, boot, phys, ras, sec, lnk, col, upd, lup, sts,
      dsp, s.out⟩ :=
  h.set (Nat.le_refl _) (Nat.le_refl _) id (List.prefix_refl _) (List.prefix_refl _) (List.prefix_refl _) (RasState.ok_of_eq hq hl)

/-- The same with new memory that keeps the form. -/
theorem Keeps.withMem {s₀ s : State} (h : Keeps s₀ s) {regs mem host frm hbm boot phys ras sec lnk col upd lup sts dsp}
    (hm : Memory.wf s.mem = true → Memory.wf mem = true)
    (hq : ras.queue = s.ras.queue) (hl : ras.lastLoss = s.ras.lastLoss) :
    Keeps s₀ ⟨s.pending, s.rc, s.freeCtr, regs, mem, host, frm, hbm, boot, phys, ras, sec, lnk, col, upd, lup, sts,
      dsp, s.out⟩ :=
  h.set (Nat.le_refl _) (Nat.le_refl _) hm (List.prefix_refl _) (List.prefix_refl _) (List.prefix_refl _) (RasState.ok_of_eq hq hl)

/-- The same with more sent. -/
theorem Keeps.withOut {s₀ s : State} (h : Keeps s₀ s)
    {regs host frm hbm boot phys ras sec lnk col upd lup sts dsp} {out : OutState}
    (h1 : s.out.msix <+: out.msix) (h2 : s.out.mgmt <+: out.mgmt) (h3 : s.out.fabric <+: out.fabric)
    (hq : ras.queue = s.ras.queue) (hl : ras.lastLoss = s.ras.lastLoss) :
    Keeps s₀ ⟨s.pending, s.rc, s.freeCtr, regs, s.mem, host, frm, hbm, boot, phys, ras, sec, lnk, col, upd, lup, sts,
      dsp, out⟩ :=
  h.set (Nat.le_refl _) (Nat.le_refl _) id h1 h2 h3 (RasState.ok_of_eq hq hl)

/-- The same with other RAS lists. -/
theorem Keeps.withRas {s₀ s : State} (h : Keeps s₀ s) {regs host frm hbm boot phys ras sec lnk col upd lup sts dsp}
    (hr : s.ras.ok → ras.ok) :
    Keeps s₀ ⟨s.pending, s.rc, s.freeCtr, regs, s.mem, host, frm, hbm, boot, phys, ras, sec, lnk, col, upd, lup, sts,
      dsp, s.out⟩ :=
  h.set (Nat.le_refl _) (Nat.le_refl _) id (List.prefix_refl _) (List.prefix_refl _) (List.prefix_refl _) hr

/-- The same with free values used up and time gone on. -/
theorem Keeps.withTime {s₀ s : State} (h : Keeps s₀ s)
    {rc freeCtr regs host frm hbm boot phys ras sec lnk col upd lup sts dsp}
    (ht : s.rc ≤ rc) (hf : s.freeCtr ≤ freeCtr) (hq : ras.queue = s.ras.queue) (hl : ras.lastLoss = s.ras.lastLoss) :
    Keeps s₀ ⟨s.pending, rc, freeCtr, regs, s.mem, host, frm, hbm, boot, phys, ras, sec, lnk, col, upd, lup, sts,
      dsp, s.out⟩ :=
  h.set ht hf id (List.prefix_refl _) (List.prefix_refl _) (List.prefix_refl _) (RasState.ok_of_eq hq hl)

theorem Keeps.foldl {α : Type} {s₀ : State} {f : State → α → State} (hf : ∀ s a, Keeps s₀ s → Keeps s₀ (f s a))
    {s : State} (h : Keeps s₀ s) (xs : List α) : Keeps s₀ (xs.foldl f s) := by
  induction xs generalizing s with
  | nil => exact h
  | cons x xs ih => exact ih (hf s x h)

/-- A named intermediate state is dealt with first. -/
theorem Keeps.cut {s₀ s : State} {p : Prop} (h : Keeps s₀ s) (k : Keeps s₀ s → p) : p := k h

/-! ### The RAS lists -/

theorem rasBefore_asymm {a b : RasRecord} (h : rasBefore a b = true) : rasBefore b a = false := by
  simp only [rasBefore, Bool.or_eq_true, Bool.and_eq_true, decide_eq_true_eq, beq_iff_eq, Bool.or_eq_false_iff,
    Bool.and_eq_false_imp, decide_eq_false_iff_not] at h ⊢
  omega

theorem rasBefore_trans {a b c : RasRecord} (h : rasBefore a b = true) (k : rasBefore c b = false) :
    rasBefore c a = false := by
  simp only [rasBefore, Bool.or_eq_true, Bool.and_eq_true, decide_eq_true_eq, beq_iff_eq, Bool.or_eq_false_iff,
    Bool.and_eq_false_imp, decide_eq_false_iff_not] at h k ⊢
  omega

theorem mem_rasInsert {r c : RasRecord} {q : List RasRecord} (h : c ∈ rasInsert r q) : c = r ∨ c ∈ q := by
  induction q with
  | nil => simpa [rasInsert] using h
  | cons d q ih =>
    simp only [rasInsert] at h
    split at h
    · rcases List.mem_cons.1 h with h | h
      · exact .inl h
      · exact .inr h
    · rcases List.mem_cons.1 h with h | h
      · exact .inr (h ▸ List.mem_cons_self ..)
      · exact (ih h).imp id (List.mem_cons_of_mem _)

theorem rasInsert_sorted {r : RasRecord} {q : List RasRecord} (h : rasSorted q) : rasSorted (rasInsert r q) := by
  induction q with
  | nil => simp [rasInsert, rasSorted]
  | cons d q ih =>
    have hp := List.pairwise_cons.1 h
    simp only [rasInsert]
    split
    · next hb =>
      refine List.pairwise_cons.2 ⟨fun c hc => ?_, h⟩
      rcases List.mem_cons.1 hc with rfl | hc
      · exact rasBefore_asymm hb
      · exact rasBefore_trans hb (hp.1 c hc)
    · next hb =>
      refine List.pairwise_cons.2 ⟨fun c hc => ?_, ih hp.2⟩
      rcases mem_rasInsert hc with rfl | hc
      · simpa using hb
      · exact hp.1 c hc

theorem rasSorted_take {q : List RasRecord} (h : rasSorted q) (n : Nat) : rasSorted (q.take n) :=
  List.Pairwise.sublist (List.take_sublist n q) h

theorem rasSorted_drop {q : List RasRecord} (h : rasSorted q) (n : Nat) : rasSorted (q.drop n) :=
  List.Pairwise.sublist (List.drop_sublist n q) h

/-- The next record leaves the queue, or nothing changes but records still to come. -/
theorem rasBounds_drop {q l : List RasRecord} (h : rasBounds q l) : rasBounds (q.drop 1) l :=
  ⟨by have := h.1; rw [List.length_drop]; omega, rasSorted_drop h.2.1 1, h.2.2⟩

theorem rasBounds_clear {q l : List RasRecord} (h : rasBounds q l) : rasBounds q [] := ⟨h.1, h.2.1, by simp⟩

theorem rasBounds_ring {q l : List RasRecord} (h : rasBounds q l) (r : RasRecord) :
    rasBounds q ((l ++ [r]).drop ((l ++ [r]).length - 64)) :=
  ⟨h.1, h.2.1, by rw [List.length_drop]; omega⟩

theorem rasBounds_empty {q l : List RasRecord} (h : rasBounds q l) : rasBounds [] l :=
  ⟨by simp, List.Pairwise.nil, h.2.2⟩

theorem RasState.restart_ok {r : RasState} (h : r.ok) (cold : Bool) : (r.restart cold).ok := by
  unfold RasState.restart
  split
  · exact rasBounds_empty h
  · exact h

end Sys2Proof.Machine
end

