-- ==== Sys2Proof/Laws/KeepsShared.lean ====
section
/-! SUPPORT. That the operations of Machine/Ops.lean, Machine/Mem.lean, Machine/Welfy.lean, Machine/HostLink.lean, Machine/Flags.lean, Machine/Loupe.lean, Machine/Slots.lean keep what Laws/Keeps.lean says of every effect. -/

namespace Sys2Proof.Machine

section

set_option linter.unusedTactic false
set_option linter.unreachableTactic false

theorem State.putReg_keeps {s₀ s : State} (h : Keeps s₀ s) {off w} :
    Keeps s₀ (s.putReg off w) := by
  unfold State.putReg
  with_reducible repeat' first | assumption | fail_if_no_progress refine Keeps.fields ?_ rfl rfl

theorem State.bump_keeps {s₀ s : State} (h : Keeps s₀ s) {off n} :
    Keeps s₀ (s.bump off n) := by
  unfold State.bump
  with_reducible repeat'
    first
    | assumption | refine State.putReg_keeps ?_ | fail_if_no_progress refine Keeps.fields ?_ rfl rfl

theorem State.stick_keeps {s₀ s : State} (h : Keeps s₀ s) {off i} :
    Keeps s₀ (s.stick off i) := by
  unfold State.stick
  with_reducible repeat'
    first
    | assumption | refine State.putReg_keeps ?_ | fail_if_no_progress refine Keeps.fields ?_ rfl rfl

theorem State.sendVec_keeps {s₀ s : State} (h : Keeps s₀ s) {v} :
    Keeps s₀ (s.sendVec v) := by
  unfold State.sendVec
  repeat' split
  · exact h.fields rfl rfl
  · exact h.fields rfl rfl
  · exact h.withOut (List.prefix_append ..) (List.prefix_refl _) (List.prefix_refl _) rfl rfl

theorem State.notifyRas_keeps {s₀ s : State} (h : Keeps s₀ s) :
    Keeps s₀ (s.notifyRas) := by
  unfold State.notifyRas
  with_reducible repeat'
    first
    | assumption | refine State.sendVec_keeps ?_ | fail_if_no_progress refine Keeps.fields ?_ rfl rfl

theorem State.rasArrive_keeps {s₀ s : State} (h : Keeps s₀ s) {sev} :
    Keeps s₀ (s.rasArrive sev) := by
  unfold State.rasArrive
  with_reducible repeat'
    first
    | assumption | refine State.bump_keeps ?_ | refine State.stick_keeps ?_ | refine State.notifyRas_keeps ?_
    | lift_lets
    | (intro x; refine Keeps.cut (s₀ := s₀) (s := x) ?_ ?_; rotate_left; clear_value x; intro _; rotate_left; subst x) | fail_if_no_progress refine Keeps.fields ?_ rfl rfl | intro _ | split | (dsimp +zetaDelta only; split)

theorem State.writeLastLoss_keeps {s₀ s : State} (h : Keeps s₀ s) {r} :
    Keeps s₀ (s.writeLastLoss r) := by
  exact h.withRas fun k => rasBounds_ring k _

theorem State.restart_keeps {s₀ s : State} (h : Keeps s₀ s) {cold cause} :
    Keeps s₀ (s.restart cold cause) := by
  exact h.withRas fun k => RasState.restart_ok k cold

theorem State.doubleFatal_keeps {s₀ s : State} (h : Keeps s₀ s) {r} :
    Keeps s₀ (s.doubleFatal r) := by
  have h1 : Keeps s₀ (s.writeLastLoss { r with cls := RasClass.doubleFatal.code }) := State.writeLastLoss_keeps h
  unfold State.doubleFatal
  refine State.restart_keeps ?_
  generalize s.writeLastLoss { r with cls := RasClass.doubleFatal.code } = s1 at h1
  with_reducible refine h1.withRas ?_
  exact fun k => rasBounds_drop k

theorem State.rasAct_keeps {s₀ s : State} (h : Keeps s₀ s) {sev} :
    Keeps s₀ (s.rasAct sev) := by
  unfold State.rasAct
  with_reducible repeat' first | assumption | fail_if_no_progress refine Keeps.fields ?_ rfl rfl | split

theorem State.rasEnqueue_keeps {s₀ s : State} (h : Keeps s₀ s) {r} :
    Keeps s₀ (s.rasEnqueue r) := by
  unfold State.rasEnqueue
  dsimp only
  split
  · next hq => exact h.withRas fun k => ⟨hq, rasInsert_sorted k.2.1, k.2.2⟩
  · have h1 : Keeps s₀ { s with ras := { s.ras with queue := (rasInsert r s.ras.queue).take 15 } } :=
      h.withRas fun k => ⟨by show (List.take 15 _).length ≤ 15; rw [List.length_take]; omega,
        rasSorted_take (rasInsert_sorted k.2.1) 15, k.2.2⟩
    exact State.stick_keeps (State.bump_keeps h1)

theorem State.rasPlace_keeps {s₀ s : State} (h : Keeps s₀ s) {r} :
    Keeps s₀ (s.rasPlace r) := by
  unfold State.rasPlace
  with_reducible repeat'
    first
    | assumption | refine State.rasEnqueue_keeps ?_ | fail_if_no_progress refine Keeps.fields ?_ rfl rfl | split

theorem State.raiseFull_keeps {s₀ s : State} (h : Keeps s₀ s) {c u detail half} :
    Keeps s₀ (s.raiseFull c u detail half) := by
  unfold State.raiseFull
  with_reducible repeat'
    first
    | assumption | refine State.rasArrive_keeps ?_ | refine State.doubleFatal_keeps ?_
    | refine State.rasAct_keeps ?_ | refine State.rasPlace_keeps ?_
    | fail_if_no_progress refine Keeps.fields ?_ rfl rfl | split

theorem State.raise_keeps {s₀ s : State} (h : Keeps s₀ s) {c u detail} :
    Keeps s₀ (s.raise c u detail) := by
  unfold State.raise
  with_reducible repeat'
    first
    | assumption | refine State.raiseFull_keeps ?_ | fail_if_no_progress refine Keeps.fields ?_ rfl rfl

theorem State.frameEvent_keeps {s₀ s : State} (h : Keeps s₀ s) {i} :
    Keeps s₀ (s.frameEvent i) := by
  unfold State.frameEvent
  with_reducible repeat'
    first
    | assumption | refine State.sendVec_keeps ?_ | refine State.stick_keeps ?_
    | fail_if_no_progress refine Keeps.fields ?_ rfl rfl

theorem State.putPair_keeps {s₀ s : State} (h : Keeps s₀ s) {lo hi v} :
    Keeps s₀ (s.putPair lo hi v) := by
  unfold State.putPair
  with_reducible repeat'
    first
    | assumption | refine State.putReg_keeps ?_ | fail_if_no_progress refine Keeps.fields ?_ rfl rfl

theorem State.persist_keeps {s₀ s : State} (h : Keeps s₀ s) {f} :
    Keeps s₀ (s.persist f) := by
  unfold State.persist
  with_reducible repeat' first | assumption | fail_if_no_progress refine Keeps.fields ?_ rfl rfl

theorem State.journal_keeps {s₀ s : State} (h : Keeps s₀ s) {type status body} :
    Keeps s₀ (s.journal type status body) := by
  unfold State.journal
  with_reducible repeat'
    first
    | assumption | refine State.stage_keeps ?_ | refine State.persist_keeps ?_
    | fail_if_no_progress refine Keeps.fields ?_ rfl rfl

theorem State.halt_keeps {s₀ s : State} (h : Keeps s₀ s) {r} :
    Keeps s₀ (s.halt r) := by
  unfold State.halt
  with_reducible repeat' first | assumption | fail_if_no_progress refine Keeps.fields ?_ rfl rfl

theorem State.fresh_keeps {s₀ s : State} (h : Keeps s₀ s) :
    Keeps s₀ (s.fresh).2 := by
  exact h.withTime (Nat.le_refl _) (Nat.le_add_right _ _) rfl rfl

theorem State.noteMgmt_keeps {s₀ s : State} (h : Keeps s₀ s) {m} :
    Keeps s₀ (s.noteMgmt m) := by
  exact h.withOut (List.prefix_refl _) (List.prefix_append ..) (List.prefix_refl _) rfl rfl

theorem State.measChanged_keeps {s₀ s : State} (h : Keeps s₀ s) {i} :
    Keeps s₀ (s.measChanged i) := by
  unfold State.measChanged
  with_reducible repeat' first | assumption | fail_if_no_progress refine Keeps.fields ?_ rfl rfl

theorem State.clearRegs_keeps {s₀ s : State} (h : Keeps s₀ s) {x1} :
    Keeps s₀ (s.clearRegs x1) := by
  induction x1 generalizing s with
  | nil => exact h
  | cons y ys ih =>
    rw [State.clearRegs]
    with_reducible repeat'
      first
      | assumption | refine State.putReg_keeps ?_ | refine ih ?_
      | fail_if_no_progress refine Keeps.fields ?_ rfl rfl | split

theorem State.noteCooled_keeps {s₀ s : State} (h : Keeps s₀ s) {i from_} :
    Keeps s₀ (s.noteCooled i from_) := by
  unfold State.noteCooled
  with_reducible repeat' first | assumption | fail_if_no_progress refine Keeps.fields ?_ rfl rfl | split

theorem State.drainLine_keeps {s₀ s : State} (h : Keeps s₀ s) {w} :
    Keeps s₀ (s.drainLine w) := by
  unfold State.drainLine
  with_reducible repeat'
    first
    | assumption | refine State.bump_keeps ?_ | fail_if_no_progress refine Keeps.fields ?_ rfl rfl | split

theorem State.wcbWrite_keeps {s₀ s : State} (h : Keeps s₀ s) {w lo n} :
    Keeps s₀ (s.wcbWrite w lo n) := by
  unfold State.wcbWrite
  with_reducible repeat'
    first
    | assumption | refine State.drainLine_keeps ?_ | fail_if_no_progress refine Keeps.fields ?_ rfl rfl | split

theorem State.wcbRange_keeps {s₀ s : State} (h : Keeps s₀ s) {off n x3} :
    Keeps s₀ (s.wcbRange off n x3) := by
  induction x3 generalizing s with
  | nil => exact h
  | cons y ys ih =>
    rw [State.wcbRange]
    with_reducible repeat'
      first
      | assumption | refine State.wcbWrite_keeps ?_ | refine ih ?_
      | fail_if_no_progress refine Keeps.fields ?_ rfl rfl | split

theorem State.store_keeps {s₀ s : State} (h : Keeps s₀ s) {addr bs} :
    Keeps s₀ (s.store addr bs) := by
  unfold State.store
  lift_lets
  intro s1
  have h1 : Keeps s₀ s1 := by
    subst s1
    split
    · exact State.wcbRange_keeps h
    · exact h
  exact h1.withMem (fun k => Memory.wf_mwrites k _ _) rfl rfl

theorem State.stores_keeps {s₀ s : State} (h : Keeps s₀ s) {x1} :
    Keeps s₀ (s.stores x1) := by
  induction x1 generalizing s with
  | nil => exact h
  | cons y ys ih =>
    rw [State.stores]
    with_reducible repeat'
      first
      | assumption | refine State.store_keeps ?_ | refine ih ?_
      | fail_if_no_progress refine Keeps.fields ?_ rfl rfl | split

theorem State.noteFault_keeps {s₀ s : State} (h : Keeps s₀ s) {u addr} :
    Keeps s₀ (s.noteFault u addr) := by
  unfold State.noteFault
  with_reducible repeat'
    first
    | assumption | refine State.putPair_keeps ?_ | refine State.putReg_keeps ?_ | refine State.bump_keeps ?_
    | refine State.stick_keeps ?_ | lift_lets
    | (intro x; refine Keeps.cut (s₀ := s₀) (s := x) ?_ ?_; rotate_left; clear_value x; intro _; rotate_left; subst x) | fail_if_no_progress refine Keeps.fields ?_ rfl rfl | intro _ | split | (dsimp +zetaDelta only; split)

theorem State.addrFault_keeps {s₀ s : State} (h : Keeps s₀ s) {u addr} :
    Keeps s₀ (s.addrFault u addr) := by
  unfold State.addrFault
  with_reducible repeat'
    first
    | assumption | refine State.raise_keeps ?_ | refine State.noteFault_keeps ?_
    | fail_if_no_progress refine Keeps.fields ?_ rfl rfl

theorem State.deliverPoison_keeps {s₀ s : State} (h : Keeps s₀ s) {n} :
    Keeps s₀ (s.deliverPoison n) := by
  unfold State.deliverPoison
  with_reducible repeat'
    first
    | assumption | refine State.stick_keeps ?_ | refine State.bump_keeps ?_
    | fail_if_no_progress refine Keeps.fields ?_ rfl rfl | split

theorem State.zeroHbm_keeps {s₀ s : State} (h : Keeps s₀ s) :
    Keeps s₀ (s.zeroHbm) := by
  exact h.withMem (fun k => Memory.wf_mzero k _ _) rfl rfl

theorem State.drainLines_keeps {s₀ s : State} (h : Keeps s₀ s) {x1} :
    Keeps s₀ (s.drainLines x1) := by
  induction x1 generalizing s with
  | nil => exact h
  | cons y ys ih =>
    rw [State.drainLines]
    with_reducible repeat'
      first
      | assumption | refine State.drainLine_keeps ?_ | refine ih ?_
      | fail_if_no_progress refine Keeps.fields ?_ rfl rfl | split

theorem State.stage_keeps {s₀ s : State} (h : Keeps s₀ s) {off mask value} :
    Keeps s₀ (s.stage off mask value) := by
  unfold State.stage
  with_reducible repeat' first | assumption | fail_if_no_progress refine Keeps.fields ?_ rfl rfl | split

theorem State.bad_keeps {s₀ s : State} (h : Keeps s₀ s) {off} :
    Keeps s₀ (s.bad off).st := by
  exact h

theorem State.ok_keeps {s₀ s : State} (h : Keeps s₀ s) {data} :
    Keeps s₀ (s.ok data).st := by
  exact h

theorem State.putBox_keeps {s₀ s : State} (h : Keeps s₀ s) {m b} :
    Keeps s₀ (s.putBox m b) := by
  unfold State.putBox
  with_reducible repeat' first | assumption | fail_if_no_progress refine Keeps.fields ?_ rfl rfl

theorem State.complete_keeps {s₀ s : State} (h : Keeps s₀ s) {m x detail data} :
    Keeps s₀ (s.complete m x detail data) := by
  unfold State.complete
  with_reducible repeat'
    first
    | assumption | refine State.bump_keeps ?_ | refine State.putBox_keeps ?_ | refine State.sendVec_keeps ?_
    | lift_lets
    | (intro x; refine Keeps.cut (s₀ := s₀) (s := x) ?_ ?_; rotate_left; clear_value x; intro _; rotate_left; subst x) | fail_if_no_progress refine Keeps.fields ?_ rfl rfl | intro _ | split | (dsimp +zetaDelta only; split)

theorem State.headerCheck_keeps {s₀ s t : State} (h : Keeps s₀ s) {m : Nat} {x : Status} {d : Nat}
    (e : s.headerCheck m = some (x, d, t)) : Keeps s₀ t := by
  unfold State.headerCheck at e
  dsimp only at e
  split at e
  · cases e; exact State.fresh_keeps h
  · split at e
    · cases e; exact h
    · cases e

theorem State.answerUnknown_keeps {s₀ s : State} (h : Keeps s₀ s) :
    Keeps s₀ (s.answerUnknown) := by
  unfold State.answerUnknown
  refine Keeps.foldl (fun t m k => ?_) h _
  split
  · split
    · next e => exact State.complete_keeps (State.headerCheck_keeps k e)
    · exact k
  · exact k

theorem State.finish_keeps {s₀ s : State} (h : Keeps s₀ s) {m x detail data} :
    Keeps s₀ (s.finish m x detail data) := by
  unfold State.finish
  with_reducible repeat'
    first
    | assumption | refine State.answerUnknown_keeps ?_ | refine State.complete_keeps ?_ | lift_lets
    | (intro x; refine Keeps.cut (s₀ := s₀) (s := x) ?_ ?_; rotate_left; clear_value x; intro _; rotate_left; subst x) | fail_if_no_progress refine Keeps.fields ?_ rfl rfl | intro _ | split | (dsimp +zetaDelta only; split)

theorem State.no_keeps {s₀ s : State} (h : Keeps s₀ s) {x} :
    Keeps s₀ (s.no x).st := by
  exact h

theorem State.commandCheck_keeps {s₀ s : State} (h : Keeps s₀ s) {m op body} (hbody : ∀ y0 t, Keeps s₀ t → Keeps s₀ (body y0 t).st) :
    Keeps s₀ (s.commandCheck m op body).st := by
  unfold State.commandCheck
  dsimp only
  repeat' split
  all_goals first | exact h | exact hbody _ _ h

theorem State.welfy_keeps {s₀ s : State} (h : Keeps s₀ s) {op m body} (hbody : ∀ y0 t, Keeps s₀ t → Keeps s₀ (body y0 t).st) :
    Keeps s₀ (s.welfy op m body) := by
  unfold State.welfy
  dsimp only
  split
  · split
    · next e => exact State.finish_keeps (State.headerCheck_keeps h e)
    · split
      · exact State.commandCheck_keeps h hbody
      · exact State.finish_keeps (State.commandCheck_keeps h hbody)
  · exact h

theorem State.putRecord_keeps {s₀ s : State} (h : Keeps s₀ s) {i p} :
    Keeps s₀ (s.putRecord i p) := by
  unfold State.putRecord
  with_reducible repeat' first | assumption | fail_if_no_progress refine Keeps.fields ?_ rfl rfl

theorem State.finishRecord_keeps {s₀ s : State} (h : Keeps s₀ s) {i x} :
    Keeps s₀ (s.finishRecord i x) := by
  unfold State.finishRecord
  with_reducible repeat'
    first
    | assumption | refine State.putRecord_keeps ?_ | refine State.sendVec_keeps ?_
    | fail_if_no_progress refine Keeps.fields ?_ rfl rfl | split

theorem State.startLong_keeps {s₀ s : State} (h : Keeps s₀ s) {op mailbox total work} :
    Keeps s₀ (s.startLong op mailbox total work).st := by
  unfold State.startLong
  with_reducible repeat'
    first
    | assumption | refine State.no_keeps ?_ | refine State.putRecord_keeps ?_
    | fail_if_no_progress refine Keeps.fields ?_ rfl rfl | split

theorem State.lockRefuse_keeps {s₀ s : State} (h : Keeps s₀ s) {off} :
    Keeps s₀ (s.lockRefuse off) := by
  unfold State.lockRefuse
  with_reducible repeat'
    first
    | assumption | refine State.putReg_keeps ?_ | refine State.stick_keeps ?_
    | fail_if_no_progress refine Keeps.fields ?_ rfl rfl | split

theorem State.gateWrite_keeps {s₀ s : State} (h : Keeps s₀ s) {en} :
    Keeps s₀ (s.gateWrite en).2 := by
  unfold State.gateWrite
  with_reducible repeat'
    first
    | assumption | refine State.bump_keeps ?_ | refine State.stick_keeps ?_ | refine State.commandCheck_keeps ?_ ?_
    | refine State.refuse_keeps ?_ | refine State.persist_keeps ?_ | lift_lets
    | (intro x; refine Keeps.cut (s₀ := s₀) (s := x) ?_ ?_; rotate_left; clear_value x; intro _; rotate_left; subst x) | fail_if_no_progress refine Keeps.fields ?_ rfl rfl | intro _ | split | (dsimp +zetaDelta only; split)

theorem State.accCleared_keeps {s₀ s : State} (h : Keeps s₀ s) {off clear} :
    Keeps s₀ (s.accCleared off clear) := by
  unfold State.accCleared
  with_reducible repeat'
    first
    | assumption | refine State.putReg_keeps ?_ | lift_lets
    | (intro x; refine Keeps.cut (s₀ := s₀) (s := x) ?_ ?_; rotate_left; clear_value x; intro _; rotate_left; subst x) | fail_if_no_progress refine Keeps.fields ?_ rfl rfl | intro _ | split | (dsimp +zetaDelta only; split)

theorem State.regWrite_keeps {s₀ s : State} (h : Keeps s₀ s) {off mask value} :
    Keeps s₀ (s.regWrite off mask value).2 := by
  unfold State.regWrite
  with_reducible repeat'
    first
    | assumption | refine State.lockRefuse_keeps ?_ | refine State.gateWrite_keeps ?_
    | refine State.accCleared_keeps ?_ | refine State.putReg_keeps ?_ | refine State.stage_keeps ?_ | lift_lets
    | (intro x; refine Keeps.cut (s₀ := s₀) (s := x) ?_ ?_; rotate_left; clear_value x; intro _; rotate_left; subst x) | (intro x; refine Keeps.cut (s₀ := s₀) (s := x.2) ?_ ?_; rotate_left; clear_value x; intro _; rotate_left; subst x) | fail_if_no_progress refine Keeps.fields ?_ rfl rfl | intro _ | split | (dsimp +zetaDelta only; split)

theorem State.linkLeaves_keeps {s₀ s : State} (h : Keeps s₀ s) :
    Keeps s₀ (s.linkLeaves) := by
  unfold State.linkLeaves
  with_reducible repeat'
    first
    | assumption | refine State.raise_keeps ?_ | refine State.stick_keeps ?_
    | fail_if_no_progress refine Keeps.fields ?_ rfl rfl

theorem State.badDoorbell_keeps {s₀ s : State} (h : Keeps s₀ s) :
    Keeps s₀ (s.badDoorbell) := by
  unfold State.badDoorbell
  with_reducible repeat'
    first
    | assumption | refine State.stick_keeps ?_ | refine State.bump_keeps ?_
    | fail_if_no_progress refine Keeps.fields ?_ rfl rfl

theorem State.submitBox_keeps {s₀ s : State} (h : Keeps s₀ s) {m} :
    Keeps s₀ (s.submitBox m) := by
  unfold State.submitBox
  with_reducible repeat'
    first
    | assumption | refine State.stick_keeps ?_ | refine State.putBox_keeps ?_ | refine State.answerUnknown_keeps ?_
    | lift_lets
    | (intro x; refine Keeps.cut (s₀ := s₀) (s := x) ?_ ?_; rotate_left; clear_value x; intro _; rotate_left; subst x) | fail_if_no_progress refine Keeps.fields ?_ rfl rfl | intro _ | split | (dsimp +zetaDelta only; split)

theorem State.ackBox_keeps {s₀ s : State} (h : Keeps s₀ s) {m} :
    Keeps s₀ (s.ackBox m) := by
  unfold State.ackBox
  with_reducible repeat'
    first
    | assumption | refine State.putBox_keeps ?_ | lift_lets
    | (intro x; refine Keeps.cut (s₀ := s₀) (s := x) ?_ ?_; rotate_left; clear_value x; intro _; rotate_left; subst x) | fail_if_no_progress refine Keeps.fields ?_ rfl rfl | intro _ | split | (dsimp +zetaDelta only; split)

theorem State.mbxDb_keeps {s₀ s : State} (h : Keeps s₀ s) {m action width rsv} :
    Keeps s₀ (s.mbxDb m action width rsv) := by
  unfold State.mbxDb
  with_reducible repeat'
    first
    | assumption | refine State.badDoorbell_keeps ?_ | refine State.submitBox_keeps ?_
    | refine State.ackBox_keeps ?_ | lift_lets
    | (intro x; refine Keeps.cut (s₀ := s₀) (s := x) ?_ ?_; rotate_left; clear_value x; intro _; rotate_left; subst x) | fail_if_no_progress refine Keeps.fields ?_ rfl rfl | intro _ | split | (dsimp +zetaDelta only; split)

theorem State.trapRefused_keeps {s₀ s : State} (h : Keeps s₀ s) {off x} :
    Keeps s₀ (s.trapRefused off x) := by
  unfold State.trapRefused
  with_reducible repeat'
    first
    | assumption | refine State.putReg_keeps ?_ | refine State.stick_keeps ?_
    | fail_if_no_progress refine Keeps.fields ?_ rfl rfl | split

theorem State.countersReply_keeps {s₀ s : State} (h : Keeps s₀ s) {offs clear} :
    Keeps s₀ (s.countersReply offs clear).st := by
  unfold State.countersReply
  with_reducible repeat'
    first
    | assumption | refine State.ok_keeps ?_ | refine State.clearRegs_keeps ?_
    | fail_if_no_progress refine Keeps.fields ?_ rfl rfl | split

theorem State.setDecoder_keeps {s₀ s : State} (h : Keeps s₀ s) {decoder} :
    Keeps s₀ (s.setDecoder decoder) := by
  unfold State.setDecoder
  with_reducible repeat'
    first
    | assumption | lift_lets
    | (intro x; refine Keeps.cut (s₀ := s₀) (s := x) ?_ ?_; rotate_left; clear_value x; intro _; rotate_left; subst x) | fail_if_no_progress refine Keeps.fields ?_ rfl rfl | intro _ | split | (dsimp +zetaDelta only; split)

theorem State.hostReset_keeps {s₀ s : State} (h : Keeps s₀ s) :
    Keeps s₀ (s.hostReset) := by
  unfold State.hostReset
  with_reducible repeat'
    first
    | assumption | refine State.stick_keeps ?_ | refine State.bump_keeps ?_
    | fail_if_no_progress refine Keeps.fields ?_ rfl rfl

theorem State.sticks_keeps {s₀ s : State} (h : Keeps s₀ s) {x1} :
    Keeps s₀ (s.sticks x1) := by
  induction x1 generalizing s with
  | nil => exact h
  | cons y ys ih =>
    rw [State.sticks]
    with_reducible repeat'
      first
      | assumption | refine State.stick_keeps ?_ | refine ih ?_
      | fail_if_no_progress refine Keeps.fields ?_ rfl rfl | split

theorem State.bumps_keeps {s₀ s : State} (h : Keeps s₀ s) {x1} :
    Keeps s₀ (s.bumps x1) := by
  induction x1 generalizing s with
  | nil => exact h
  | cons y ys ih =>
    rw [State.bumps]
    with_reducible repeat'
      first
      | assumption | refine State.bump_keeps ?_ | refine ih ?_ | fail_if_no_progress refine Keeps.fields ?_ rfl rfl
      | split

theorem State.setLup_keeps {s₀ s : State} (h : Keeps s₀ s) {f} :
    Keeps s₀ (s.setLup f) := by
  unfold State.setLup
  with_reducible repeat' first | assumption | fail_if_no_progress refine Keeps.fields ?_ rfl rfl

theorem State.addReport_keeps {s₀ s : State} (h : Keeps s₀ s) {i r} :
    Keeps s₀ (s.addReport i r) := by
  unfold State.addReport
  with_reducible repeat'
    first
    | assumption | refine State.setLup_keeps ?_ | refine State.stick_keeps ?_ | lift_lets
    | (intro x; refine Keeps.cut (s₀ := s₀) (s := x) ?_ ?_; rotate_left; clear_value x; intro _; rotate_left; subst x) | fail_if_no_progress refine Keeps.fields ?_ rfl rfl | intro _ | split | (dsimp +zetaDelta only; split)

theorem State.loupeReport_keeps {s₀ s : State} (h : Keeps s₀ s) {r} :
    Keeps s₀ (s.loupeReport r) := by
  unfold State.loupeReport
  with_reducible repeat'
    first
    | assumption | refine State.bump_keeps ?_ | refine State.setLup_keeps ?_ | refine State.stick_keeps ?_
    | refine State.addReport_keeps ?_ | fail_if_no_progress refine Keeps.fields ?_ rfl rfl | split

theorem State.loupeReports_keeps {s₀ s : State} (h : Keeps s₀ s) {x1} :
    Keeps s₀ (s.loupeReports x1) := by
  induction x1 generalizing s with
  | nil => exact h
  | cons y ys ih =>
    rw [State.loupeReports]
    with_reducible repeat'
      first
      | assumption | refine State.loupeReport_keeps ?_ | refine ih ?_
      | fail_if_no_progress refine Keeps.fields ?_ rfl rfl | split

theorem State.showVerdict_keeps {s₀ s : State} (h : Keeps s₀ s) {r} :
    Keeps s₀ (s.showVerdict r) := by
  unfold State.showVerdict
  with_reducible repeat'
    first
    | assumption | refine State.putReg_keeps ?_ | fail_if_no_progress refine Keeps.fields ?_ rfl rfl | split

theorem State.countZero_keeps {s₀ s : State} (h : Keeps s₀ s) {es} :
    Keeps s₀ (s.countZero es) := by
  unfold State.countZero
  with_reducible repeat'
    first
    | assumption | refine State.bumps_keeps ?_ | lift_lets
    | (intro x; refine Keeps.cut (s₀ := s₀) (s := x) ?_ ?_; rotate_left; clear_value x; intro _; rotate_left; subst x) | fail_if_no_progress refine Keeps.fields ?_ rfl rfl | intro _ | split | (dsimp +zetaDelta only; split)

theorem State.takeVerdict_keeps {s₀ s : State} (h : Keeps s₀ s) {rec_ stats} :
    Keeps s₀ (s.takeVerdict rec_ stats) := by
  unfold State.takeVerdict
  with_reducible repeat'
    first
    | assumption | refine State.showVerdict_keeps ?_ | refine State.setLup_keeps ?_
    | refine State.countZero_keeps ?_ | fail_if_no_progress refine Keeps.fields ?_ rfl rfl | split

theorem State.putSsb_keeps {s₀ s : State} (h : Keeps s₀ s) {off bs} :
    Keeps s₀ (s.putSsb off bs) := by
  unfold State.putSsb
  with_reducible repeat'
    first
    | assumption | refine State.store_keeps ?_ | fail_if_no_progress refine Keeps.fields ?_ rfl rfl

theorem State.swapDesc_keeps {s₀ s : State} (h : Keeps s₀ s) {a b} :
    Keeps s₀ (s.swapDesc a b) := by
  unfold State.swapDesc
  with_reducible repeat'
    first
    | assumption | refine State.store_keeps ?_ | fail_if_no_progress refine Keeps.fields ?_ rfl rfl | split

theorem State.swapLayer_keeps {s₀ s : State} (h : Keeps s₀ s) {layer} :
    Keeps s₀ (s.swapLayer layer) := by
  unfold State.swapLayer
  with_reducible repeat'
    first
    | assumption | refine State.swapDesc_keeps ?_ | refine Keeps.foldl ?_ ?_ _ | lift_lets
    | (intro x; refine Keeps.cut (s₀ := s₀) (s := x) ?_ ?_; rotate_left; clear_value x; intro _; rotate_left; subst x) | fail_if_no_progress refine Keeps.fields ?_ rfl rfl | intro _ | split | (dsimp +zetaDelta only; split)

theorem State.fallbackReverse_keeps {s₀ s : State} (h : Keeps s₀ s) :
    Keeps s₀ (s.fallbackReverse) := by
  unfold State.fallbackReverse
  with_reducible repeat'
    first
    | assumption | refine State.putSsb_keeps ?_ | refine State.swapLayer_keeps ?_ | refine Keeps.foldl ?_ ?_ _
    | lift_lets
    | (intro x; refine Keeps.cut (s₀ := s₀) (s := x) ?_ ?_; rotate_left; clear_value x; intro _; rotate_left; subst x) | fail_if_no_progress refine Keeps.fields ?_ rfl rfl | intro _ | split | (dsimp +zetaDelta only; split)

theorem State.markCauses_keeps {s₀ s : State} (h : Keeps s₀ s) {cs} :
    Keeps s₀ (s.markCauses cs) := by
  unfold State.markCauses
  with_reducible repeat'
    first
    | assumption | refine State.putSsb_keeps ?_ | refine Keeps.foldl ?_ ?_ _ | lift_lets
    | (intro x; refine Keeps.cut (s₀ := s₀) (s := x) ?_ ?_; rotate_left; clear_value x; intro _; rotate_left; subst x) | fail_if_no_progress refine Keeps.fields ?_ rfl rfl | intro _ | split | (dsimp +zetaDelta only; split)

theorem State.putDescByte_keeps {s₀ s : State} (h : Keeps s₀ s) {addrs off b} :
    Keeps s₀ (s.putDescByte addrs off b) := by
  unfold State.putDescByte
  with_reducible repeat'
    first
    | assumption | refine State.store_keeps ?_ | refine Keeps.foldl ?_ ?_ _ | lift_lets
    | (intro x; refine Keeps.cut (s₀ := s₀) (s := x) ?_ ?_; rotate_left; clear_value x; intro _; rotate_left; subst x) | fail_if_no_progress refine Keeps.fields ?_ rfl rfl | intro _ | split | (dsimp +zetaDelta only; split)

theorem State.putTe_keeps {s₀ s : State} (h : Keeps s₀ s) {i te} :
    Keeps s₀ (s.putTe i te) := by
  unfold State.putTe
  with_reducible repeat'
    first
    | assumption | refine State.putDescByte_keeps ?_ | refine State.putSsb_keeps ?_
    | fail_if_no_progress refine Keeps.fields ?_ rfl rfl

theorem State.recompute_keeps {s₀ s : State} (h : Keeps s₀ s) {i cause} :
    Keeps s₀ (s.recompute i cause) := by
  unfold State.recompute
  with_reducible repeat'
    first
    | assumption | refine State.putTe_keeps ?_ | fail_if_no_progress refine Keeps.fields ?_ rfl rfl | split

theorem State.enlarge_keeps {s₀ s : State} (h : Keeps s₀ s) {i cause} :
    Keeps s₀ (s.enlarge i cause) := by
  unfold State.enlarge
  with_reducible repeat'
    first
    | assumption | refine State.putDescByte_keeps ?_ | refine State.putSsb_keeps ?_ | lift_lets
    | (intro x; refine Keeps.cut (s₀ := s₀) (s := x) ?_ ?_; rotate_left; clear_value x; intro _; rotate_left; subst x) | fail_if_no_progress refine Keeps.fields ?_ rfl rfl | intro _ | split | (dsimp +zetaDelta only; split)

theorem State.fallbackLayer_keeps {s₀ s : State} (h : Keeps s₀ s) {l} :
    Keeps s₀ (s.fallbackLayer l) := by
  unfold State.fallbackLayer
  with_reducible repeat'
    first
    | assumption | refine State.putSsb_keeps ?_ | refine State.swapLayer_keeps ?_ | lift_lets
    | (intro x; refine Keeps.cut (s₀ := s₀) (s := x) ?_ ?_; rotate_left; clear_value x; intro _; rotate_left; subst x) | fail_if_no_progress refine Keeps.fields ?_ rfl rfl | intro _ | split | (dsimp +zetaDelta only; split)

theorem State.rungActions_keeps {s₀ s : State} (h : Keeps s₀ s) {n rec_} :
    Keeps s₀ (s.rungActions n rec_) := by
  unfold State.rungActions
  with_reducible repeat'
    first
    | assumption | refine State.recompute_keeps ?_ | refine State.markCauses_keeps ?_
    | refine State.enlarge_keeps ?_ | refine State.fallbackLayer_keeps ?_ | refine Keeps.foldl ?_ ?_ _ | lift_lets
    | (intro x; refine Keeps.cut (s₀ := s₀) (s := x) ?_ ?_; rotate_left; clear_value x; intro _; rotate_left; subst x) | fail_if_no_progress refine Keeps.fields ?_ rfl rfl | intro _ | split | (dsimp +zetaDelta only; split)

theorem State.putHeader_keeps {s₀ s : State} (h : Keeps s₀ s) {t} :
    Keeps s₀ (s.putHeader t) := by
  unfold State.putHeader
  with_reducible repeat'
    first
    | assumption | refine State.putSsb_keeps ?_ | fail_if_no_progress refine Keeps.fields ?_ rfl rfl | split

theorem State.history_keeps {s₀ s : State} (h : Keeps s₀ s) {attempt rung rec_ endTick} :
    Keeps s₀ (s.history attempt rung rec_ endTick) := by
  unfold State.history
  with_reducible repeat'
    first
    | assumption | refine State.putSsb_keeps ?_ | fail_if_no_progress refine Keeps.fields ?_ rfl rfl | split

theorem State.updateRefs_keeps {s₀ s : State} (h : Keeps s₀ s) {i} :
    Keeps s₀ (s.updateRefs i) := by
  unfold State.updateRefs
  with_reducible repeat'
    first
    | assumption | refine State.putSsb_keeps ?_ | fail_if_no_progress refine Keeps.fields ?_ rfl rfl | split

theorem State.driftFix_keeps {s₀ s : State} (h : Keeps s₀ s) {i} :
    Keeps s₀ (s.driftFix i) := by
  unfold State.driftFix
  with_reducible repeat'
    first
    | assumption | refine State.recompute_keeps ?_ | lift_lets
    | (intro x; refine Keeps.cut (s₀ := s₀) (s := x) ?_ ?_; rotate_left; clear_value x; intro _; rotate_left; subst x) | fail_if_no_progress refine Keeps.fields ?_ rfl rfl | intro _ | split | (dsimp +zetaDelta only; split)

theorem State.rewriteShadow_keeps {s₀ s : State} (h : Keeps s₀ s) {i} :
    Keeps s₀ (s.rewriteShadow i) := by
  unfold State.rewriteShadow
  with_reducible repeat'
    first
    | assumption | refine State.putDescByte_keeps ?_ | lift_lets
    | (intro x; refine Keeps.cut (s₀ := s₀) (s := x) ?_ ?_; rotate_left; clear_value x; intro _; rotate_left; subst x) | fail_if_no_progress refine Keeps.fields ?_ rfl rfl | intro _ | split | (dsimp +zetaDelta only; split)

theorem State.loupeClear_keeps {s₀ s : State} (h : Keeps s₀ s) :
    Keeps s₀ (s.loupeClear) := by
  unfold State.loupeClear
  with_reducible repeat'
    first
    | assumption | refine State.updateRefs_keeps ?_ | refine State.driftFix_keeps ?_ | refine State.setLup_keeps ?_
    | refine State.fallbackReverse_keeps ?_ | refine State.putHeader_keeps ?_ | refine State.rewriteShadow_keeps ?_
    | refine Keeps.foldl ?_ ?_ _ | lift_lets
    | (intro x; refine Keeps.cut (s₀ := s₀) (s := x) ?_ ?_; rotate_left; clear_value x; intro _; rotate_left; subst x) | fail_if_no_progress refine Keeps.fields ?_ rfl rfl | intro _ | split | (dsimp +zetaDelta only; split)

theorem State.loupeTick_keeps {s₀ s : State} (h : Keeps s₀ s) :
    Keeps s₀ (s.loupeTick) := by
  unfold State.loupeTick
  with_reducible repeat'
    first
    | assumption | refine State.setLup_keeps ?_ | refine State.putPair_keeps ?_ | refine State.store_keeps ?_
    | lift_lets
    | (intro x; refine Keeps.cut (s₀ := s₀) (s := x) ?_ ?_; rotate_left; clear_value x; intro _; rotate_left; subst x) | fail_if_no_progress refine Keeps.fields ?_ rfl rfl | intro _ | split | (dsimp +zetaDelta only; split)

theorem State.loupeBegin_keeps {s₀ s : State} (h : Keeps s₀ s) :
    Keeps s₀ (s.loupeBegin) := by
  unfold State.loupeBegin
  with_reducible repeat'
    first
    | assumption | refine State.setLup_keeps ?_ | fail_if_no_progress refine Keeps.fields ?_ rfl rfl | split

theorem State.loupeClose_keeps {s₀ s : State} (h : Keeps s₀ s) {cover} :
    Keeps s₀ (s.loupeClose cover) := by
  unfold State.loupeClose
  with_reducible repeat'
    first
    | assumption | refine State.countZero_keeps ?_ | refine State.setLup_keeps ?_
    | refine State.takeVerdict_keeps ?_ | fail_if_no_progress refine Keeps.fields ?_ rfl rfl | split

theorem State.ssbRefuse_keeps {s₀ s : State} (h : Keeps s₀ s) {entries idx} :
    Keeps s₀ (s.ssbRefuse entries idx).st := by
  exact State.stick_keeps h

theorem State.setRun_keeps {s₀ s : State} (h : Keeps s₀ s) {ref f} :
    Keeps s₀ (s.setRun ref f) := by
  unfold State.setRun
  with_reducible repeat' first | assumption | fail_if_no_progress refine Keeps.fields ?_ rfl rfl | split

theorem State.keepFirst_keeps {s₀ s : State} (h : Keeps s₀ s) {t} :
    Keeps s₀ (s.keepFirst t) := by
  unfold State.keepFirst
  with_reducible repeat'
    first
    | assumption | refine State.putPair_keeps ?_ | refine State.putReg_keeps ?_
    | fail_if_no_progress refine Keeps.fields ?_ rfl rfl | split

theorem State.firstTile_keeps {s₀ s : State} (h : Keeps s₀ s) {t} :
    Keeps s₀ (s.firstTile t) := by
  unfold State.firstTile
  with_reducible repeat'
    first
    | assumption | refine State.keepFirst_keeps ?_ | refine State.notifyRas_keeps ?_ | refine State.stick_keeps ?_
    | fail_if_no_progress refine Keeps.fields ?_ rfl rfl | split

theorem State.applyEffects_keeps {s₀ s : State} (h : Keeps s₀ s) {rerun e} :
    Keeps s₀ (s.applyEffects rerun e) := by
  unfold State.applyEffects
  with_reducible repeat'
    first
    | assumption | refine State.stores_keeps ?_ | refine State.sticks_keeps ?_ | refine State.bumps_keeps ?_
    | refine State.firstTile_keeps ?_ | refine State.loupeReports_keeps ?_ | refine Keeps.foldl ?_ ?_ _ | lift_lets
    | (intro x; refine Keeps.cut (s₀ := s₀) (s := x) ?_ ?_; rotate_left; clear_value x; intro _; rotate_left; subst x) | fail_if_no_progress refine Keeps.fields ?_ rfl rfl | intro _ | split | (dsimp +zetaDelta only; split)

theorem State.charge_keeps {s₀ s : State} (h : Keeps s₀ s) {ref e} :
    Keeps s₀ (s.charge ref e) := by
  unfold State.charge
  with_reducible repeat'
    first
    | assumption | refine State.setRun_keeps ?_ | refine State.applyEffects_keeps ?_
    | fail_if_no_progress refine Keeps.fields ?_ rfl rfl | split

theorem State.failRun_keeps {s₀ s : State} (h : Keeps s₀ s) {ref} :
    Keeps s₀ (s.failRun ref) := by
  unfold State.failRun
  with_reducible repeat'
    first
    | assumption | refine State.charge_keeps ?_ | refine State.setRun_keeps ?_
    | fail_if_no_progress refine Keeps.fields ?_ rfl rfl | split

theorem State.countMeta_keeps {s₀ s : State} (h : Keeps s₀ s) {n} :
    Keeps s₀ (s.countMeta n) := by
  unfold State.countMeta
  with_reducible repeat'
    first
    | assumption | refine State.stick_keeps ?_ | refine State.bump_keeps ?_ | lift_lets
    | (intro x; refine Keeps.cut (s₀ := s₀) (s := x) ?_ ?_; rotate_left; clear_value x; intro _; rotate_left; subst x) | fail_if_no_progress refine Keeps.fields ?_ rfl rfl | intro _ | split | (dsimp +zetaDelta only; split)

theorem State.countRead_keeps {s₀ s : State} (h : Keeps s₀ s) {ref d bs} :
    Keeps s₀ (s.countRead ref d bs) := by
  unfold State.countRead
  with_reducible repeat'
    first
    | assumption | refine State.charge_keeps ?_ | refine State.countMeta_keeps ?_ | lift_lets
    | (intro x; refine Keeps.cut (s₀ := s₀) (s := x) ?_ ?_; rotate_left; clear_value x; intro _; rotate_left; subst x) | fail_if_no_progress refine Keeps.fields ?_ rfl rfl | intro _ | split | (dsimp +zetaDelta only; split)

theorem State.slotView_keeps {s₀ s : State} (h : Keeps s₀ s) {r} :
    Keeps s₀ (s.slotView r) := by
  unfold State.slotView
  with_reducible repeat'
    first
    | assumption | lift_lets
    | (intro x; refine Keeps.cut (s₀ := s₀) (s := x) ?_ ?_; rotate_left; clear_value x; intro _; rotate_left; subst x) | fail_if_no_progress refine Keeps.fields ?_ rfl rfl | intro _ | split | (dsimp +zetaDelta only; split)

theorem State.setCol_keeps {s₀ s : State} (h : Keeps s₀ s) {f} :
    Keeps s₀ (s.setCol f) := by
  unfold State.setCol
  with_reducible repeat' first | assumption | fail_if_no_progress refine Keeps.fields ?_ rfl rfl

theorem State.transientOf_keeps {s₀ s : State} (h : Keeps s₀ s) {u} :
    Keeps s₀ (s.transientOf u) := by
  unfold State.transientOf
  with_reducible repeat'
    first
    | assumption | refine State.setCol_keeps ?_ | refine State.stick_keeps ?_ | lift_lets
    | (intro x; refine Keeps.cut (s₀ := s₀) (s := x) ?_ ?_; rotate_left; clear_value x; intro _; rotate_left; subst x) | fail_if_no_progress refine Keeps.fields ?_ rfl rfl | intro _ | split | (dsimp +zetaDelta only; split)

theorem State.faultRun_keeps {s₀ s : State} (h : Keeps s₀ s) {ref} :
    Keeps s₀ (s.faultRun ref) := by
  unfold State.faultRun
  with_reducible repeat'
    first
    | assumption | refine State.charge_keeps ?_ | refine State.setRun_keeps ?_ | refine State.transientOf_keeps ?_
    | fail_if_no_progress refine Keeps.fields ?_ rfl rfl | split

theorem State.countPoison_keeps {s₀ s : State} (h : Keeps s₀ s) {acc} :
    Keeps s₀ (s.countPoison acc) := by
  unfold State.countPoison
  with_reducible repeat'
    first
    | assumption | refine State.deliverPoison_keeps ?_ | lift_lets
    | (intro x; refine Keeps.cut (s₀ := s₀) (s := x) ?_ ?_; rotate_left; clear_value x; intro _; rotate_left; subst x) | fail_if_no_progress refine Keeps.fields ?_ rfl rfl | intro _ | split | (dsimp +zetaDelta only; split)

theorem State.guarded_keeps {s₀ s : State} (h : Keeps s₀ s) {u ref acc work} (hwork : ∀ t, Keeps s₀ t → Keeps s₀ (work t)) :
    Keeps s₀ (s.guarded u ref acc work) := by
  unfold State.guarded
  with_reducible repeat'
    first
    | assumption | refine hwork _ ?_ | refine State.failRun_keeps ?_ | refine State.addrFault_keeps ?_
    | refine State.faultRun_keeps ?_ | refine State.countPoison_keeps ?_
    | fail_if_no_progress refine Keeps.fields ?_ rfl rfl | split

theorem State.inSlot_keeps {s₀ s : State} (h : Keeps s₀ s) {ref work} (hwork : ∀ t, Keeps s₀ t → Keeps s₀ (work t)) :
    Keeps s₀ (s.inSlot ref work) := by
  unfold State.inSlot
  with_reducible repeat'
    first
    | assumption | refine hwork _ ?_ | refine State.slotView_keeps ?_ | lift_lets
    | (intro x; refine Keeps.cut (s₀ := s₀) (s := x) ?_ ?_; rotate_left; clear_value x; intro _; rotate_left; subst x) | fail_if_no_progress refine Keeps.fields ?_ rfl rfl | intro _ | split | (dsimp +zetaDelta only; split)

theorem State.refuse_keeps {s₀ s : State} (h : Keeps s₀ s) {u x} :
    Keeps s₀ (s.refuse u x) := by
  unfold State.refuse
  with_reducible repeat'
    first
    | assumption | refine State.raise_keeps ?_ | fail_if_no_progress refine Keeps.fields ?_ rfl rfl

theorem State.refuseRun_keeps {s₀ s : State} (h : Keeps s₀ s) {u ref x} :
    Keeps s₀ (s.refuseRun u ref x) := by
  unfold State.refuseRun
  with_reducible repeat'
    first
    | assumption | refine State.failRun_keeps ?_ | refine State.refuse_keeps ?_
    | fail_if_no_progress refine Keeps.fields ?_ rfl rfl

end

end Sys2Proof.Machine
end

