-- ==== Sys2Proof/Laws/KeepsUnits.lean ====
section
/-! SUPPORT. That the operations of Machine/UpdProg.lean, Machine/Update.lean, Machine/Packets.lean, Machine/Boot.lean, Machine/Clocks.lean keep what Laws/Keeps.lean says of every effect. -/

namespace Sys2Proof.Machine

section

set_option linter.unusedTactic false
set_option linter.unreachableTactic false

theorem State.loadSupplied_keeps {s₀ s : State} (h : Keeps s₀ s) {component} :
    Keeps s₀ (s.loadSupplied component) := by
  unfold State.loadSupplied
  with_reducible repeat'
    first
    | assumption | refine Keeps.foldl ?_ ?_ _ | lift_lets
    | (intro x; refine Keeps.cut (s₀ := s₀) (s := x) ?_ ?_; rotate_left; clear_value x; intro _; rotate_left; subst x) | fail_if_no_progress refine Keeps.fields ?_ rfl rfl | intro _ | split | (dsimp +zetaDelta only; split)

theorem State.exchange_keeps {s₀ s : State} (h : Keeps s₀ s) :
    Keeps s₀ (s.exchange) := by
  unfold State.exchange
  with_reducible repeat'
    first
    | assumption | refine State.swapDesc_keeps ?_ | refine Keeps.foldl ?_ ?_ _ | lift_lets
    | (intro x; refine Keeps.cut (s₀ := s₀) (s := x) ?_ ?_; rotate_left; clear_value x; intro _; rotate_left; subst x) | fail_if_no_progress refine Keeps.fields ?_ rfl rfl | intro _ | split | (dsimp +zetaDelta only; split)

theorem State.putEngine_keeps {s₀ s : State} (h : Keeps s₀ s) {k e} :
    Keeps s₀ (s.putEngine k e) := by
  unfold State.putEngine
  with_reducible repeat' first | assumption | fail_if_no_progress refine Keeps.fields ?_ rfl rfl

theorem State.refuseJob_keeps {s₀ s : State} (h : Keeps s₀ s) {k ref full} :
    Keeps s₀ (s.refuseJob k ref full) := by
  unfold State.refuseJob
  with_reducible repeat'
    first
    | assumption | refine State.bump_keeps ?_ | refine State.stick_keeps ?_ | refine State.refuseRun_keeps ?_
    | fail_if_no_progress refine Keeps.fields ?_ rfl rfl | split

theorem State.addPairs_keeps {s₀ s : State} (h : Keeps s₀ s) {k j} :
    Keeps s₀ (s.addPairs k j) := by
  unfold State.addPairs
  with_reducible repeat' first | assumption | fail_if_no_progress refine Keeps.fields ?_ rfl rfl

theorem State.startJob_keeps {s₀ s : State} (h : Keeps s₀ s) {k ref j} :
    Keeps s₀ (s.startJob k ref j) := by
  unfold State.startJob
  with_reducible repeat'
    first
    | assumption | refine State.setRun_keeps ?_ | refine State.putEngine_keeps ?_ | refine State.addPairs_keeps ?_
    | fail_if_no_progress refine Keeps.fields ?_ rfl rfl

theorem State.updStep_keeps {s₀ s : State} (h : Keeps s₀ s) {k w f} (hf : ∀ y0 y1 y2 t, Keeps s₀ t → Keeps s₀ (f y0 y1 y2 t)) :
    Keeps s₀ (s.updStep k w f) := by
  unfold State.updStep
  with_reducible repeat'
    first
    | assumption | refine hf _ _ _ _ ?_ | lift_lets
    | (intro x; refine Keeps.cut (s₀ := s₀) (s := x) ?_ ?_; rotate_left; clear_value x; intro _; rotate_left; subst x) | fail_if_no_progress refine Keeps.fields ?_ rfl rfl | intro _ | split | (dsimp +zetaDelta only; split)

theorem State.scalarOp_keeps {s₀ s : State} (h : Keeps s₀ s) {k w d v} :
    Keeps s₀ (s.scalarOp k w d v) := by
  unfold State.scalarOp
  with_reducible repeat'
    first
    | assumption | refine State.updStep_keeps ?_ ?_ | refine State.putEngine_keeps ?_ | lift_lets
    | (intro x; refine Keeps.cut (s₀ := s₀) (s := x) ?_ ?_; rotate_left; clear_value x; intro _; rotate_left; subst x) | fail_if_no_progress refine Keeps.fields ?_ rfl rfl | intro _ | split | (dsimp +zetaDelta only; split)

theorem State.vectorOp_keeps {s₀ s : State} (h : Keeps s₀ s) {k w d v} :
    Keeps s₀ (s.vectorOp k w d v) := by
  unfold State.vectorOp
  with_reducible repeat'
    first
    | assumption | refine State.updStep_keeps ?_ ?_ | refine State.putEngine_keeps ?_ | lift_lets
    | (intro x; refine Keeps.cut (s₀ := s₀) (s := x) ?_ ?_; rotate_left; clear_value x; intro _; rotate_left; subst x) | fail_if_no_progress refine Keeps.fields ?_ rfl rfl | intro _ | split | (dsimp +zetaDelta only; split)

theorem State.markTiles_keeps {s₀ s : State} (h : Keeps s₀ s) {k shadow ts} :
    Keeps s₀ (s.markTiles k shadow ts) := by
  unfold State.markTiles
  with_reducible repeat' first | assumption | fail_if_no_progress refine Keeps.fields ?_ rfl rfl | split

theorem State.stWide_keeps {s₀ s : State} (h : Keeps s₀ s) {k r j e a i} :
    Keeps s₀ (s.stWide k r j e a i) := by
  unfold State.stWide
  with_reducible repeat'
    first
    | assumption | refine State.charge_keeps ?_ | refine State.putEngine_keeps ?_ | refine State.markTiles_keeps ?_
    | refine State.stores_keeps ?_ | fail_if_no_progress refine Keeps.fields ?_ rfl rfl

theorem State.stBlocked_keeps {s₀ s : State} (h : Keeps s₀ s) {k r j e k0 n0 i} :
    Keeps s₀ (s.stBlocked k r j e k0 n0 i) := by
  unfold State.stBlocked
  with_reducible repeat'
    first
    | assumption | refine State.charge_keeps ?_ | refine State.markTiles_keeps ?_ | refine State.stores_keeps ?_
    | refine State.countMeta_keeps ?_ | fail_if_no_progress refine Keeps.fields ?_ rfl rfl

theorem State.endSlab_keeps {s₀ s : State} (h : Keeps s₀ s) {k r j e k0 n0} :
    Keeps s₀ (s.endSlab k r j e k0 n0) := by
  unfold State.endSlab
  with_reducible repeat'
    first
    | assumption | refine State.stBlocked_keeps ?_ | refine Keeps.foldl ?_ ?_ _ | lift_lets
    | (intro x; refine Keeps.cut (s₀ := s₀) (s := x) ?_ ?_; rotate_left; clear_value x; intro _; rotate_left; subst x) | fail_if_no_progress refine Keeps.fields ?_ rfl rfl | intro _ | split | (dsimp +zetaDelta only; split)

theorem State.endTile_keeps {s₀ s : State} (h : Keeps s₀ s) {k r j e} :
    Keeps s₀ (s.endTile k r j e) := by
  unfold State.endTile
  with_reducible repeat'
    first
    | assumption | refine State.charge_keeps ?_ | refine State.putEngine_keeps ?_ | refine State.endSlab_keeps ?_
    | refine State.bumps_keeps ?_ | fail_if_no_progress refine Keeps.fields ?_ rfl rfl | split

theorem State.attachStep_keeps {s₀ s : State} (h : Keeps s₀ s) {b} :
    Keeps s₀ (s.attachStep b) := by
  unfold State.attachStep
  with_reducible repeat' first | assumption | fail_if_no_progress refine Keeps.fields ?_ rfl rfl | split

theorem State.stationLost_keeps {s₀ s : State} (h : Keeps s₀ s) {dst} :
    Keeps s₀ (s.stationLost dst) := by
  unfold State.stationLost
  with_reducible repeat'
    first
    | assumption | refine State.raise_keeps ?_ | refine State.stick_keeps ?_
    | fail_if_no_progress refine Keeps.fields ?_ rfl rfl | split

theorem State.notePlane_keeps {s₀ s : State} (h : Keeps s₀ s) {dst n} :
    Keeps s₀ (s.notePlane dst n) := by
  unfold State.notePlane
  with_reducible repeat'
    first
    | assumption | lift_lets
    | (intro x; refine Keeps.cut (s₀ := s₀) (s := x) ?_ ?_; rotate_left; clear_value x; intro _; rotate_left; subst x) | fail_if_no_progress refine Keeps.fields ?_ rfl rfl | intro _ | split | (dsimp +zetaDelta only; split)

theorem State.putPort_keeps {s₀ s : State} (h : Keeps s₀ s) {n p} :
    Keeps s₀ (s.putPort n p) := by
  unfold State.putPort
  with_reducible repeat' first | assumption | fail_if_no_progress refine Keeps.fields ?_ rfl rfl

theorem State.emit_keeps {s₀ s : State} (h : Keeps s₀ s) {port p} :
    Keeps s₀ (s.emit port p) := by
  exact h.withOut (List.prefix_refl _) (List.prefix_refl _) (List.prefix_append ..) rfl rfl

theorem State.sealPacket_keeps {s₀ s t : State} (h : Keeps s₀ s) {p q : Packet} {plane : Nat}
    (e : s.sealPacket p plane = some (q, t)) : Keeps s₀ t := by
  unfold State.sealPacket at e
  dsimp only at e
  split at e
  · cases e; exact h
  · split at e
    · cases e; exact h
    · split at e
      · cases e
      · cases e; exact h.fields rfl rfl

theorem State.transmit_keeps {s₀ s : State} (h : Keeps s₀ s) {n p} :
    Keeps s₀ (s.transmit n p) := by
  unfold State.transmit
  dsimp only
  split
  · exact h
  · next e => exact State.emit_keeps (State.putPort_keeps (State.sealPacket_keeps h e))

theorem State.linkSend_keeps {s₀ s : State} (h : Keeps s₀ s) {n p} :
    Keeps s₀ (s.linkSend n p) := by
  unfold State.linkSend
  dsimp only
  split
  · exact State.putPort_keeps h
  · exact State.transmit_keeps h

theorem State.keepSent_keeps {s₀ s : State} (h : Keeps s₀ s) {p} :
    Keeps s₀ (s.keepSent p) := by
  unfold State.keepSent
  with_reducible repeat'
    first
    | assumption | lift_lets
    | (intro x; refine Keeps.cut (s₀ := s₀) (s := x) ?_ ?_; rotate_left; clear_value x; intro _; rotate_left; subst x) | fail_if_no_progress refine Keeps.fields ?_ rfl rfl | intro _ | split | (dsimp +zetaDelta only; split)

theorem State.sendPacket_keeps {s₀ s : State} (h : Keeps s₀ s) {p} :
    Keeps s₀ (s.sendPacket p) := by
  unfold State.sendPacket
  dsimp only
  split
  · split
    · exact h
    · exact State.stationLost_keeps (State.notePlane_keeps h)
  · exact State.linkSend_keeps (State.keepSent_keeps (State.notePlane_keeps h))

theorem State.say_keeps {s₀ s : State} (h : Keeps s₀ s) {m} :
    Keeps s₀ (s.say m) := by
  unfold State.say
  split
  · exact State.sendPacket_keeps (State.noteMgmt_keeps h)
  · exact State.noteMgmt_keeps h

theorem State.sendPackets_keeps {s₀ s : State} (h : Keeps s₀ s) {x1} :
    Keeps s₀ (s.sendPackets x1) := by
  induction x1 generalizing s with
  | nil => exact h
  | cons y ys ih =>
    rw [State.sendPackets]
    with_reducible repeat'
      first
      | assumption | refine State.sendPacket_keeps ?_ | refine ih ?_
      | fail_if_no_progress refine Keeps.fields ?_ rfl rfl | split

theorem State.drainSome_keeps {s₀ s : State} (h : Keeps s₀ s) {n x2} :
    Keeps s₀ (s.drainSome n x2) := by
  induction x2 generalizing s with
  | zero => exact h
  | succ y ih =>
    rw [State.drainSome]
    with_reducible repeat'
      first
      | assumption | refine State.putPort_keeps ?_ | refine State.transmit_keeps ?_ | refine ih ?_ | lift_lets
      | (intro x; refine Keeps.cut (s₀ := s₀) (s := x) ?_ ?_; rotate_left; clear_value x; intro _; rotate_left; subst x) | fail_if_no_progress refine Keeps.fields ?_ rfl rfl | intro _ | split | (dsimp +zetaDelta only; split)

theorem State.drainWaiting_keeps {s₀ s : State} (h : Keeps s₀ s) {n} :
    Keeps s₀ (s.drainWaiting n) := by
  unfold State.drainWaiting
  with_reducible repeat'
    first
    | assumption | refine State.drainSome_keeps ?_ | lift_lets
    | (intro x; refine Keeps.cut (s₀ := s₀) (s := x) ?_ ?_; rotate_left; clear_value x; intro _; rotate_left; subst x) | fail_if_no_progress refine Keeps.fields ?_ rfl rfl | intro _ | split | (dsimp +zetaDelta only; split)

theorem State.sayOn_keeps {s₀ s : State} (h : Keeps s₀ s) {n dst m} :
    Keeps s₀ (s.sayOn n dst m) := by
  unfold State.sayOn
  with_reducible repeat'
    first
    | assumption | refine State.linkSend_keeps ?_ | refine State.noteMgmt_keeps ?_ | lift_lets
    | (intro x; refine Keeps.cut (s₀ := s₀) (s := x) ?_ ?_; rotate_left; clear_value x; intro _; rotate_left; subst x) | fail_if_no_progress refine Keeps.fields ?_ rfl rfl | intro _ | split | (dsimp +zetaDelta only; split)

theorem State.imageFailed_keeps {s₀ s : State} (h : Keeps s₀ s) {im x} :
    Keeps s₀ (s.imageFailed im x) := by
  unfold State.imageFailed
  with_reducible repeat'
    first
    | assumption | refine State.bump_keeps ?_ | refine State.stick_keeps ?_
    | fail_if_no_progress refine Keeps.fields ?_ rfl rfl | split

theorem State.mapOut_keeps {s₀ s : State} (h : Keeps s₀ s) {p reason} :
    Keeps s₀ (s.mapOut p reason) := by
  unfold State.mapOut
  with_reducible repeat'
    first
    | assumption | refine State.persist_keeps ?_ | refine State.stick_keeps ?_ | refine State.journal_keeps ?_
    | lift_lets
    | (intro x; refine Keeps.cut (s₀ := s₀) (s := x) ?_ ?_; rotate_left; clear_value x; intro _; rotate_left; subst x) | fail_if_no_progress refine Keeps.fields ?_ rfl rfl | intro _ | split | (dsimp +zetaDelta only; split)

theorem State.mapOuts_keeps {s₀ s : State} (h : Keeps s₀ s) {reason x2} :
    Keeps s₀ (s.mapOuts reason x2) := by
  induction x2 generalizing s with
  | nil => exact h
  | cons y ys ih =>
    rw [State.mapOuts]
    with_reducible repeat'
      first
      | assumption | refine State.persist_keeps ?_ | refine State.mapOut_keeps ?_ | refine ih ?_
      | fail_if_no_progress refine Keeps.fields ?_ rfl rfl | split

theorem State.excludeStack_keeps {s₀ s : State} (h : Keeps s₀ s) {st} :
    Keeps s₀ (s.excludeStack st) := by
  unfold State.excludeStack
  with_reducible repeat'
    first
    | assumption | refine State.journal_keeps ?_ | refine State.stick_keeps ?_ | refine State.persist_keeps ?_
    | fail_if_no_progress refine Keeps.fields ?_ rfl rfl

theorem State.excludeHung_keeps {s₀ s : State} (h : Keeps s₀ s) {f} :
    Keeps s₀ (s.excludeHung f) := by
  unfold State.excludeHung
  split
  · exact Keeps.foldl (fun _ _ h => State.excludeStack_keeps h) h _
  · exact h

theorem State.journalRule_keeps {s₀ s : State} (h : Keeps s₀ s) {f} :
    Keeps s₀ (s.journalRule f) := by
  unfold State.journalRule
  with_reducible repeat'
    first
    | assumption | refine State.persist_keeps ?_ | refine State.bad_keeps ?_ | lift_lets
    | (intro x; refine Keeps.cut (s₀ := s₀) (s := x) ?_ ?_; rotate_left; clear_value x; intro _; rotate_left; subst x) | fail_if_no_progress refine Keeps.fields ?_ rfl rfl | intro _ | split | (dsimp +zetaDelta only; split)

theorem State.beginStage_keeps {s₀ s : State} (h : Keeps s₀ s) {st} :
    Keeps s₀ (s.beginStage st) := by
  unfold State.beginStage
  with_reducible repeat'
    first
    | assumption | refine State.journal_keeps ?_ | refine State.stage_keeps ?_
    | fail_if_no_progress refine Keeps.fields ?_ rfl rfl

theorem State.readBlocks_keeps {s₀ s : State} (h : Keeps s₀ s) :
    Keeps s₀ s.readBlocks := by
  unfold State.readBlocks
  with_reducible repeat'
    first
    | assumption | refine State.bad_keeps ?_ | refine State.persist_keeps ?_ | lift_lets
    | (intro x; refine Keeps.cut (s₀ := s₀) (s := x) ?_ ?_; rotate_left; clear_value x; intro _; rotate_left; subst x) | fail_if_no_progress refine Keeps.fields ?_ rfl rfl | intro _ | split | (dsimp +zetaDelta only; split)

theorem State.beginStart_keeps {s₀ s : State} (h : Keeps s₀ s) :
    Keeps s₀ (s.beginStart) := by
  unfold State.beginStart
  with_reducible repeat'
    first
    | assumption | refine State.journalRule_keeps ?_ | refine State.persist_keeps ?_
    | refine State.journal_keeps ?_ | refine State.excludeHung_keeps ?_ | refine State.stick_keeps ?_
    | refine State.beginStage_keeps ?_ | lift_lets
    | (intro x; refine Keeps.cut (s₀ := s₀) (s := x) ?_ ?_; rotate_left; clear_value x; intro _; rotate_left; subst x) | fail_if_no_progress refine Keeps.fields ?_ rfl rfl | intro _ | split | (dsimp +zetaDelta only; split)

theorem State.closeStage_keeps {s₀ s : State} (h : Keeps s₀ s) {ms} :
    Keeps s₀ (s.closeStage ms) := by
  unfold State.closeStage
  with_reducible repeat'
    first
    | assumption | refine State.journal_keeps ?_ | fail_if_no_progress refine Keeps.fields ?_ rfl rfl

theorem State.lockDomains_keeps {s₀ s : State} (h : Keeps s₀ s) {ds} :
    Keeps s₀ (s.lockDomains ds) := by
  unfold State.lockDomains
  with_reducible repeat'
    first
    | assumption | refine Keeps.foldl ?_ ?_ _ | lift_lets
    | (intro x; refine Keeps.cut (s₀ := s₀) (s := x) ?_ ?_; rotate_left; clear_value x; intro _; rotate_left; subst x) | fail_if_no_progress refine Keeps.fields ?_ rfl rfl | intro _ | split | (dsimp +zetaDelta only; split)

theorem State.nextStage_keeps {s₀ s : State} (h : Keeps s₀ s) {ms st} :
    Keeps s₀ (s.nextStage ms st) := by
  unfold State.nextStage
  with_reducible repeat'
    first
    | assumption | refine State.lockDomains_keeps ?_ | refine State.beginStage_keeps ?_
    | refine State.closeStage_keeps ?_ | lift_lets
    | (intro x; refine Keeps.cut (s₀ := s₀) (s := x) ?_ ?_; rotate_left; clear_value x; intro _; rotate_left; subst x) | fail_if_no_progress refine Keeps.fields ?_ rfl rfl | intro _ | split | (dsimp +zetaDelta only; split)

theorem State.endHalted_keeps {s₀ s : State} (h : Keeps s₀ s) {r} :
    Keeps s₀ (s.endHalted r) := by
  unfold State.endHalted
  with_reducible repeat'
    first
    | assumption | refine State.halt_keeps ?_ | refine State.journal_keeps ?_
    | fail_if_no_progress refine Keeps.fields ?_ rfl rfl

theorem State.stageHalts_keeps {s₀ s : State} (h : Keeps s₀ s) {ms r} :
    Keeps s₀ (s.stageHalts ms r) := by
  unfold State.stageHalts
  with_reducible repeat'
    first
    | assumption | refine State.endHalted_keeps ?_ | refine State.closeStage_keeps ?_ | lift_lets
    | (intro x; refine Keeps.cut (s₀ := s₀) (s := x) ?_ ?_; rotate_left; clear_value x; intro _; rotate_left; subst x) | fail_if_no_progress refine Keeps.fields ?_ rfl rfl | intro _ | split | (dsimp +zetaDelta only; split)

theorem State.stageRom_keeps {s₀ s : State} (h : Keeps s₀ s) {ms} :
    Keeps s₀ (s.stageRom ms) := by
  unfold State.stageRom
  with_reducible repeat'
    first
    | assumption | refine State.stick_keeps ?_ | refine State.journal_keeps ?_ | refine State.nextStage_keeps ?_
    | refine State.ok_keeps ?_ | fail_if_no_progress refine Keeps.fields ?_ rfl rfl | split

theorem State.stageTwo_keeps {s₀ s : State} (h : Keeps s₀ s) {ms} :
    Keeps s₀ (s.stageTwo ms) := by
  unfold State.stageTwo
  with_reducible repeat'
    first
    | assumption | refine State.nextStage_keeps ?_ | refine State.journal_keeps ?_
    | refine State.imageFailed_keeps ?_ | lift_lets
    | (intro x; refine Keeps.cut (s₀ := s₀) (s := x) ?_ ?_; rotate_left; clear_value x; intro _; rotate_left; subst x) | fail_if_no_progress refine Keeps.fields ?_ rfl rfl | intro _ | split | (dsimp +zetaDelta only; split)

theorem State.stageShell_keeps {s₀ s : State} (h : Keeps s₀ s) {ms} :
    Keeps s₀ (s.stageShell ms) := by
  unfold State.stageShell
  with_reducible repeat'
    first
    | assumption | refine State.persist_keeps ?_ | refine State.stick_keeps ?_ | refine State.nextStage_keeps ?_
    | refine State.answerUnknown_keeps ?_ | refine State.loadSupplied_keeps ?_ | refine State.stageHalts_keeps ?_
    | refine State.imageFailed_keeps ?_ | refine State.welfy_keeps ?_ ?_ | refine State.bad_keeps ?_ | lift_lets
    | (intro x; refine Keeps.cut (s₀ := s₀) (s := x) ?_ ?_; rotate_left; clear_value x; intro _; rotate_left; subst x) | fail_if_no_progress refine Keeps.fields ?_ rfl rfl | intro _ | split | (dsimp +zetaDelta only; split)

theorem State.stageFuses_keeps {s₀ s : State} (h : Keeps s₀ s) {o ms} :
    Keeps s₀ (s.stageFuses o ms) := by
  unfold State.stageFuses
  with_reducible repeat'
    first
    | assumption | refine State.stageHalts_keeps ?_ | refine State.journal_keeps ?_ | refine State.stick_keeps ?_
    | refine State.nextStage_keeps ?_ | refine Keeps.foldl ?_ ?_ _ | lift_lets
    | (intro x; refine Keeps.cut (s₀ := s₀) (s := x) ?_ ?_; rotate_left; clear_value x; intro _; rotate_left; subst x) | fail_if_no_progress refine Keeps.fields ?_ rfl rfl | intro _ | split | (dsimp +zetaDelta only; split)

theorem State.stageClocks_keeps {s₀ s : State} (h : Keeps s₀ s) {o ms} :
    Keeps s₀ (s.stageClocks o ms) := by
  unfold State.stageClocks
  with_reducible repeat'
    first
    | assumption | refine State.stick_keeps ?_ | refine State.stageHalts_keeps ?_ | refine State.persist_keeps ?_
    | refine State.nextStage_keeps ?_ | refine Keeps.foldl ?_ ?_ _ | lift_lets
    | (intro x; refine Keeps.cut (s₀ := s₀) (s := x) ?_ ?_; rotate_left; clear_value x; intro _; rotate_left; subst x) | fail_if_no_progress refine Keeps.fields ?_ rfl rfl | intro _ | split | (dsimp +zetaDelta only; split)

theorem State.saveSettings_keeps {s₀ s : State} (h : Keeps s₀ s) {part} :
    Keeps s₀ (s.saveSettings part) := by
  unfold State.saveSettings
  with_reducible repeat'
    first
    | assumption | refine State.fresh_keeps ?_ | lift_lets
    | (intro x; refine Keeps.cut (s₀ := s₀) (s := x) ?_ ?_; rotate_left; clear_value x; intro _; rotate_left; subst x) | (intro x; refine Keeps.cut (s₀ := s₀) (s := x.2) ?_ ?_; rotate_left; clear_value x; intro _; rotate_left; subst x) | fail_if_no_progress refine Keeps.fields ?_ rfl rfl | intro _ | split | (dsimp +zetaDelta only; split)

theorem State.trainedFull_keeps {s₀ s : State} (h : Keeps s₀ s) {part good} :
    Keeps s₀ (s.trainedFull part good) := by
  unfold State.trainedFull
  with_reducible repeat'
    first
    | assumption | refine State.persist_keeps ?_ | refine State.stick_keeps ?_ | refine State.saveSettings_keeps ?_
    | fail_if_no_progress refine Keeps.fields ?_ rfl rfl | split

theorem State.excludePort_keeps {s₀ s : State} (h : Keeps s₀ s) {n} :
    Keeps s₀ (s.excludePort n) := by
  unfold State.excludePort
  with_reducible repeat'
    first
    | assumption | refine State.journal_keeps ?_ | refine State.stick_keeps ?_ | refine State.persist_keeps ?_
    | fail_if_no_progress refine Keeps.fields ?_ rfl rfl

theorem State.portEvent_keeps {s₀ s : State} (h : Keeps s₀ s) {n cause} :
    Keeps s₀ (s.portEvent n cause) := by
  unfold State.portEvent
  with_reducible repeat'
    first
    | assumption | refine State.say_keeps ?_ | fail_if_no_progress refine Keeps.fields ?_ rfl rfl

theorem State.portsCheck_keeps {s₀ s : State} (h : Keeps s₀ s) :
    Keeps s₀ (s.portsCheck) := by
  unfold State.portsCheck
  with_reducible repeat'
    first
    | assumption | refine State.raise_keeps ?_ | refine State.stick_keeps ?_ | refine State.portEvent_keeps ?_
    | lift_lets
    | (intro x; refine Keeps.cut (s₀ := s₀) (s := x) ?_ ?_; rotate_left; clear_value x; intro _; rotate_left; subst x) | fail_if_no_progress refine Keeps.fields ?_ rfl rfl | intro _ | split | (dsimp +zetaDelta only; split)

theorem State.portOut_keeps {s₀ s : State} (h : Keeps s₀ s) {n cause ph} :
    Keeps s₀ (s.portOut n cause ph) := by
  unfold State.portOut
  with_reducible repeat'
    first
    | assumption | refine State.putPort_keeps ?_ | refine State.journal_keeps ?_ | refine State.raise_keeps ?_
    | refine State.portEvent_keeps ?_ | refine State.stick_keeps ?_ | refine State.bump_keeps ?_ | lift_lets
    | (intro x; refine Keeps.cut (s₀ := s₀) (s := x) ?_ ?_; rotate_left; clear_value x; intro _; rotate_left; subst x) | fail_if_no_progress refine Keeps.fields ?_ rfl rfl | intro _ | split | (dsimp +zetaDelta only; split)

theorem State.portDown_keeps {s₀ s : State} (h : Keeps s₀ s) {n cause ph} :
    Keeps s₀ (s.portDown n cause ph) := by
  unfold State.portDown
  with_reducible repeat'
    first
    | assumption | refine State.portsCheck_keeps ?_ | refine State.portOut_keeps ?_ | lift_lets
    | (intro x; refine Keeps.cut (s₀ := s₀) (s := x) ?_ ?_; rotate_left; clear_value x; intro _; rotate_left; subst x) | fail_if_no_progress refine Keeps.fields ?_ rfl rfl | intro _ | split | (dsimp +zetaDelta only; split)

theorem State.trainStack_keeps {s₀ s : State} (h : Keeps s₀ s) {o st} :
    Keeps s₀ (s.trainStack o st) := by
  unfold State.trainStack
  with_reducible repeat'
    first
    | assumption | refine State.trainedFull_keeps ?_ | refine State.excludeStack_keeps ?_
    | refine State.persist_keeps ?_ | lift_lets
    | (intro x; refine Keeps.cut (s₀ := s₀) (s := x) ?_ ?_; rotate_left; clear_value x; intro _; rotate_left; subst x) | fail_if_no_progress refine Keeps.fields ?_ rfl rfl | intro _ | split | (dsimp +zetaDelta only; split)

theorem State.trainPort_keeps {s₀ s : State} (h : Keeps s₀ s) {o n} :
    Keeps s₀ (s.trainPort o n) := by
  unfold State.trainPort
  with_reducible repeat'
    first
    | assumption | refine State.putPort_keeps ?_ | refine State.journal_keeps ?_
    | refine State.trainedFull_keeps ?_ | refine State.portOut_keeps ?_ | refine State.excludePort_keeps ?_
    | refine State.persist_keeps ?_ | refine Keeps.foldl ?_ ?_ _ | lift_lets
    | (intro x; refine Keeps.cut (s₀ := s₀) (s := x) ?_ ?_; rotate_left; clear_value x; intro _; rotate_left; subst x) | fail_if_no_progress refine Keeps.fields ?_ rfl rfl | intro _ | split | (dsimp +zetaDelta only; split)

theorem State.hardRepair_keeps {s₀ s : State} (h : Keeps s₀ s) {o} :
    Keeps s₀ (s.hardRepair o) := by
  unfold State.hardRepair
  with_reducible repeat' first | assumption | fail_if_no_progress refine Keeps.fields ?_ rfl rfl | split

theorem State.trainAll_keeps {s₀ s : State} (h : Keeps s₀ s) {o} :
    Keeps s₀ (s.trainAll o) := by
  unfold State.trainAll
  with_reducible repeat'
    first
    | assumption | refine State.trainStack_keeps ?_ | refine State.hardRepair_keeps ?_
    | refine State.portsCheck_keeps ?_ | refine State.trainPort_keeps ?_ | refine Keeps.foldl ?_ ?_ _ | lift_lets
    | (intro x; refine Keeps.cut (s₀ := s₀) (s := x) ?_ ?_; rotate_left; clear_value x; intro _; rotate_left; subst x) | fail_if_no_progress refine Keeps.fields ?_ rfl rfl | intro _ | split | (dsimp +zetaDelta only; split)

theorem State.linkDomains_keeps {s₀ s : State} (h : Keeps s₀ s) :
    Keeps s₀ (s.linkDomains) := by
  unfold State.linkDomains
  with_reducible repeat'
    first
    | assumption | refine Keeps.foldl ?_ ?_ _ | fail_if_no_progress refine Keeps.fields ?_ rfl rfl | split

theorem State.fillDone_keeps {s₀ s : State} (h : Keeps s₀ s) :
    Keeps s₀ (s.fillDone) := by
  unfold State.fillDone
  with_reducible repeat'
    first
    | assumption | refine State.zeroHbm_keeps ?_ | fail_if_no_progress refine Keeps.fields ?_ rfl rfl

theorem State.afterTrain_keeps {s₀ s : State} (h : Keeps s₀ s) {ms} :
    Keeps s₀ (s.afterTrain ms) := by
  unfold State.afterTrain
  with_reducible repeat'
    first
    | assumption | refine State.stageHalts_keeps ?_ | refine State.nextStage_keeps ?_
    | refine State.persist_keeps ?_ | fail_if_no_progress refine Keeps.fields ?_ rfl rfl | split

theorem State.stageTrain_keeps {s₀ s : State} (h : Keeps s₀ s) {o ms} :
    Keeps s₀ (s.stageTrain o ms) := by
  unfold State.stageTrain
  with_reducible repeat'
    first
    | assumption | refine State.afterTrain_keeps ?_ | refine State.fillDone_keeps ?_
    | refine State.linkDomains_keeps ?_ | refine State.trainAll_keeps ?_
    | fail_if_no_progress refine Keeps.fields ?_ rfl rfl

theorem State.stageSeq_keeps {s₀ s : State} (h : Keeps s₀ s) {o ms} :
    Keeps s₀ (s.stageSeq o ms) := by
  unfold State.stageSeq
  with_reducible repeat'
    first
    | assumption | refine State.mapOuts_keeps ?_ | refine State.nextStage_keeps ?_ | refine State.bad_keeps ?_
    | refine State.persist_keeps ?_ | fail_if_no_progress refine Keeps.fields ?_ rfl rfl | split

theorem State.stageTest_keeps {s₀ s : State} (h : Keeps s₀ s) {o ms} :
    Keeps s₀ (s.stageTest o ms) := by
  unfold State.stageTest
  with_reducible repeat'
    first
    | assumption | refine State.stick_keeps ?_ | refine State.mapOuts_keeps ?_ | refine State.excludeStack_keeps ?_
    | refine State.stageHalts_keeps ?_ | refine State.nextStage_keeps ?_ | refine Keeps.foldl ?_ ?_ _ | lift_lets
    | (intro x; refine Keeps.cut (s₀ := s₀) (s := x) ?_ ?_; rotate_left; clear_value x; intro _; rotate_left; subst x) | fail_if_no_progress refine Keeps.fields ?_ rfl rfl | intro _ | split | (dsimp +zetaDelta only; split)

theorem State.failScp_keeps {s₀ s : State} (h : Keeps s₀ s) {scp} :
    Keeps s₀ (s.failScp scp) := by
  unfold State.failScp
  with_reducible repeat'
    first
    | assumption | lift_lets
    | (intro x; refine Keeps.cut (s₀ := s₀) (s := x) ?_ ?_; rotate_left; clear_value x; intro _; rotate_left; subst x) | fail_if_no_progress refine Keeps.fields ?_ rfl rfl | intro _ | split | (dsimp +zetaDelta only; split)

theorem State.moveRoles_keeps {s₀ s : State} (h : Keeps s₀ s) :
    Keeps s₀ (s.moveRoles) := by
  unfold State.moveRoles
  with_reducible repeat'
    first
    | assumption | refine State.measChanged_keeps ?_ | refine Keeps.foldl ?_ ?_ _ | lift_lets
    | (intro x; refine Keeps.cut (s₀ := s₀) (s := x) ?_ ?_; rotate_left; clear_value x; intro _; rotate_left; subst x) | fail_if_no_progress refine Keeps.fields ?_ rfl rfl | intro _ | split | (dsimp +zetaDelta only; split)

theorem State.readmitPort_keeps {s₀ s : State} (h : Keeps s₀ s) {n} :
    Keeps s₀ (s.readmitPort n) := by
  unfold State.readmitPort
  with_reducible repeat'
    first
    | assumption | refine State.persist_keeps ?_ | refine State.journal_keeps ?_ | lift_lets
    | (intro x; refine Keeps.cut (s₀ := s₀) (s := x) ?_ ?_; rotate_left; clear_value x; intro _; rotate_left; subst x) | fail_if_no_progress refine Keeps.fields ?_ rfl rfl | intro _ | split | (dsimp +zetaDelta only; split)

theorem State.readmitStack_keeps {s₀ s : State} (h : Keeps s₀ s) {i} :
    Keeps s₀ (s.readmitStack i) := by
  unfold State.readmitStack
  with_reducible repeat'
    first
    | assumption | refine State.persist_keeps ?_ | refine State.journal_keeps ?_ | lift_lets
    | (intro x; refine Keeps.cut (s₀ := s₀) (s := x) ?_ ?_; rotate_left; clear_value x; intro _; rotate_left; subst x) | fail_if_no_progress refine Keeps.fields ?_ rfl rfl | intro _ | split | (dsimp +zetaDelta only; split)

theorem State.sweepEnd_keeps {s₀ s : State} (h : Keeps s₀ s) {kind i good} :
    Keeps s₀ (s.sweepEnd kind i good) := by
  unfold State.sweepEnd
  lift_lets
  intro ports s1
  have h1 : Keeps s₀ s1 := by
    refine Keeps.foldl (fun t n k => ?_) h _
    have k1 : Keeps s₀ (t.trainedFull (8 + n) good) := State.trainedFull_keeps k
    dsimp only
    split
    · exact State.portEvent_keeps (State.readmitPort_keeps (State.putPort_keeps k1))
    · exact State.portOut_keeps (State.putPort_keeps k1)
  clear_value s1
  have h2 : Keeps s₀ ((s1.trainedFull i good).zeroHbm) := State.zeroHbm_keeps (State.trainedFull_keeps h1)
  dsimp only
  repeat' split
  · exact State.readmitStack_keeps h2
  · exact h2
  · exact State.excludeStack_keeps h2
  · exact State.portsCheck_keeps h1

theorem State.putDomain_keeps {s₀ s : State} (h : Keeps s₀ s) {d c} :
    Keeps s₀ (s.putDomain d c) := by
  unfold State.putDomain
  with_reducible repeat' first | assumption | fail_if_no_progress refine Keeps.fields ?_ rfl rfl

theorem State.windowFail_keeps {s₀ s : State} (h : Keeps s₀ s) {d} :
    Keeps s₀ (s.windowFail d) := by
  unfold State.windowFail
  with_reducible repeat'
    first
    | assumption | refine State.bump_keeps ?_ | refine State.stick_keeps ?_ | refine State.raise_keeps ?_
    | refine State.portDown_keeps ?_ | refine State.putDomain_keeps ?_ | refine State.linkLeaves_keeps ?_
    | lift_lets
    | (intro x; refine Keeps.cut (s₀ := s₀) (s := x) ?_ ?_; rotate_left; clear_value x; intro _; rotate_left; subst x) | fail_if_no_progress refine Keeps.fields ?_ rfl rfl | intro _ | split | (dsimp +zetaDelta only; split)

theorem State.apertureDone_keeps {s₀ s : State} (h : Keeps s₀ s) {x} :
    Keeps s₀ (s.apertureDone x) := by
  unfold State.apertureDone
  with_reducible repeat'
    first
    | assumption | refine State.finish_keeps ?_ | fail_if_no_progress refine Keeps.fields ?_ rfl rfl | split

theorem State.dieEnter_keeps {s₀ s : State} (h : Keeps s₀ s) {t} :
    Keeps s₀ (s.dieEnter t) := by
  unfold State.dieEnter
  with_reducible repeat'
    first
    | assumption | refine State.bump_keeps ?_ | refine State.stick_keeps ?_ | refine State.notifyRas_keeps ?_
    | refine State.raise_keeps ?_ | lift_lets
    | (intro x; refine Keeps.cut (s₀ := s₀) (s := x) ?_ ?_; rotate_left; clear_value x; intro _; rotate_left; subst x) | fail_if_no_progress refine Keeps.fields ?_ rfl rfl | intro _ | split | (dsimp +zetaDelta only; split)

theorem State.dieTo_keeps {s₀ s : State} (h : Keeps s₀ s) {t temp held} :
    Keeps s₀ (s.dieTo t temp held) := by
  unfold State.dieTo
  with_reducible repeat'
    first
    | assumption | refine State.dieEnter_keeps ?_ | lift_lets
    | (intro x; refine Keeps.cut (s₀ := s₀) (s := x) ?_ ?_; rotate_left; clear_value x; intro _; rotate_left; subst x) | fail_if_no_progress refine Keeps.fields ?_ rfl rfl | intro _ | split | (dsimp +zetaDelta only; split)

theorem State.useGuard_keeps {s₀ s : State} (h : Keeps s₀ s) {c} :
    Keeps s₀ (s.useGuard c) := by
  unfold State.useGuard
  with_reducible repeat' first | assumption | fail_if_no_progress refine Keeps.fields ?_ rfl rfl | split

theorem State.runningUse_keeps {s₀ s : State} (h : Keeps s₀ s) :
    Keeps s₀ (s.runningUse) := by
  unfold State.runningUse
  with_reducible repeat'
    first
    | assumption | refine State.useGuard_keeps ?_ | fail_if_no_progress refine Keeps.fields ?_ rfl rfl | split

theorem State.advance_keeps {s₀ s : State} (h : Keeps s₀ s) {n} :
    Keeps s₀ (s.advance n) := by
  have h1 : Keeps s₀ ({ s with rc := s.rc + (n - s.frm.phase), frm := { s.frm with
        phase := s.frm.phase + (n - s.frm.phase) } } : State) :=
    h.withTime (Nat.le_add_right _ _) (Nat.le_refl _) rfl rfl
  unfold State.advance
  dsimp only
  split
  · exact State.bump_keeps h1
  · exact h1

theorem State.freshWords_keeps {s₀ s : State} (h : Keeps s₀ s) {x1} :
    Keeps s₀ (s.freshWords x1).2 := by
  induction x1 generalizing s with
  | zero => exact h
  | succ n ih => exact ih (State.fresh_keeps h)

end

end Sys2Proof.Machine
end

