-- ==== Sys2Proof/Laws/KeepsLink.lean ====
section
/-! SUPPORT. That the operations of Machine/Link.lean, Machine/Fabric.lean, Machine/ArrayOps.lean, Machine/Quant.lean, Machine/VectorOps.lean keep what Laws/Keeps.lean says of every effect. -/

namespace Sys2Proof.Machine

section

set_option linter.unusedTactic false
set_option linter.unreachableTactic false

theorem State.abortFill_keeps {s₀ s : State} (h : Keeps s₀ s) :
    Keeps s₀ (s.abortFill) := by
  unfold State.abortFill
  with_reducible repeat'
    first
    | assumption | refine State.stick_keeps ?_ | refine State.finishRecord_keeps ?_ | lift_lets
    | (intro x; refine Keeps.cut (s₀ := s₀) (s := x) ?_ ?_; rotate_left; clear_value x; intro _; rotate_left; subst x) | fail_if_no_progress refine Keeps.fields ?_ rfl rfl | intro _ | split | (dsimp +zetaDelta only; split)

theorem State.armMiss_keeps {s₀ s : State} (h : Keeps s₀ s) {seen} :
    Keeps s₀ (s.armMiss seen) := by
  unfold State.armMiss
  with_reducible repeat'
    first
    | assumption | refine State.say_keeps ?_ | refine State.frameEvent_keeps ?_
    | fail_if_no_progress refine Keeps.fields ?_ rfl rfl

theorem State.fromManager_keeps {s₀ s : State} (h : Keeps s₀ s) {src k} (hk : ∀ t, Keeps s₀ t → Keeps s₀ (k t)) :
    Keeps s₀ (s.fromManager src k) := by
  unfold State.fromManager
  with_reducible repeat'
    first
    | assumption | refine hk _ ?_ | refine State.bump_keeps ?_ | fail_if_no_progress refine Keeps.fields ?_ rfl rfl
    | split

theorem State.epochDrop_keeps {s₀ s : State} (h : Keeps s₀ s) {n} :
    Keeps s₀ (s.epochDrop n) := by
  unfold State.epochDrop
  with_reducible repeat'
    first
    | assumption | refine State.stick_keeps ?_ | refine State.bump_keeps ?_
    | fail_if_no_progress refine Keeps.fields ?_ rfl rfl | split

theorem State.peerLost_keeps {s₀ s : State} (h : Keeps s₀ s) {dst} :
    Keeps s₀ (s.peerLost dst) := by
  unfold State.peerLost
  with_reducible repeat'
    first
    | assumption | refine State.stationLost_keeps ?_ | refine State.abortFill_keeps ?_ | lift_lets
    | (intro x; refine Keeps.cut (s₀ := s₀) (s := x) ?_ ?_; rotate_left; clear_value x; intro _; rotate_left; subst x) | fail_if_no_progress refine Keeps.fields ?_ rfl rfl | intro _ | split | (dsimp +zetaDelta only; split)

theorem State.keysTick_keeps {s₀ s : State} (h : Keeps s₀ s) :
    Keeps s₀ (s.keysTick) := by
  unfold State.keysTick
  with_reducible repeat'
    first
    | assumption | refine Keeps.foldl ?_ ?_ _ | fail_if_no_progress refine Keeps.fields ?_ rfl rfl | split

theorem State.peersTick_keeps {s₀ s : State} (h : Keeps s₀ s) :
    Keeps s₀ (s.peersTick) := by
  unfold State.peersTick
  with_reducible repeat' first | assumption | fail_if_no_progress refine Keeps.fields ?_ rfl rfl | split

theorem State.linkReply_keeps {s₀ s : State} (h : Keeps s₀ s) {n seq nak} :
    Keeps s₀ (s.linkReply n seq nak) := by
  unfold State.linkReply
  with_reducible repeat'
    first
    | assumption | refine State.emit_keeps ?_ | fail_if_no_progress refine Keeps.fields ?_ rfl rfl

theorem State.resend_keeps {s₀ s : State} (h : Keeps s₀ s) {n es} :
    Keeps s₀ (s.resend n es) := by
  unfold State.resend
  with_reducible repeat'
    first
    | assumption | refine State.bump_keeps ?_ | refine State.emit_keeps ?_ | refine State.putPort_keeps ?_
    | refine Keeps.foldl ?_ ?_ _ | lift_lets
    | (intro x; refine Keeps.cut (s₀ := s₀) (s := x) ?_ ?_; rotate_left; clear_value x; intro _; rotate_left; subst x) | fail_if_no_progress refine Keeps.fields ?_ rfl rfl | intro _ | split | (dsimp +zetaDelta only; split)

theorem State.linkCtl_keeps {s₀ s : State} (h : Keeps s₀ s) {n p} :
    Keeps s₀ (s.linkCtl n p) := by
  unfold State.linkCtl
  with_reducible repeat'
    first
    | assumption | refine State.drainWaiting_keeps ?_ | refine State.resend_keeps ?_
    | refine State.putPort_keeps ?_ | lift_lets
    | (intro x; refine Keeps.cut (s₀ := s₀) (s := x) ?_ ?_; rotate_left; clear_value x; intro _; rotate_left; subst x) | fail_if_no_progress refine Keeps.fields ?_ rfl rfl | intro _ | split | (dsimp +zetaDelta only; split)

theorem State.holdPacket_keeps {s₀ s : State} (h : Keeps s₀ s) {n p} :
    Keeps s₀ (s.holdPacket n p) := by
  have hk : Keeps s₀ (if 256 ≤ (s.holdOf n).length then s.epochDrop 1
      else { s with frm := { s.frm with hold := tset s.frm.hold n (s.holdOf n ++ [(0, p)]) } }) := by
    split
    · exact State.epochDrop_keeps h
    · exact Keeps.fields h rfl rfl
  unfold State.holdPacket
  dsimp only
  generalize (if 256 ≤ (s.holdOf n).length then s.epochDrop 1
      else { s with frm := { s.frm with hold := tset s.frm.hold n (s.holdOf n ++ [(0, p)]) } }) = x at hk ⊢
  split
  · exact hk
  · exact State.armMiss_keeps hk

theorem State.admitPacket_keeps {s₀ s : State} (h : Keeps s₀ s) {n p serve} (hserve : ∀ t, Keeps s₀ t → Keeps s₀ (serve t)) :
    Keeps s₀ (s.admitPacket n p serve) := by
  unfold State.admitPacket
  with_reducible repeat'
    first
    | assumption | refine hserve _ ?_ | refine State.epochDrop_keeps ?_ | refine State.holdPacket_keeps ?_
    | lift_lets
    | (intro x; refine Keeps.cut (s₀ := s₀) (s := x) ?_ ?_; rotate_left; clear_value x; intro _; rotate_left; subst x) | fail_if_no_progress refine Keeps.fields ?_ rfl rfl | intro _ | split | (dsimp +zetaDelta only; split)

theorem State.encDrop_keeps {s₀ s : State} (h : Keeps s₀ s) :
    Keeps s₀ (s.encDrop) := by
  unfold State.encDrop
  with_reducible repeat'
    first
    | assumption | refine State.stick_keeps ?_ | refine State.bump_keeps ?_
    | fail_if_no_progress refine Keeps.fields ?_ rfl rfl

theorem State.decrypt_keeps {s₀ s : State} (h : Keeps s₀ s) {n p k} (hk : ∀ y0 t, Keeps s₀ t → Keeps s₀ (k y0 t)) :
    Keeps s₀ (s.decrypt n p k) := by
  unfold State.decrypt
  with_reducible repeat'
    first
    | assumption | refine hk _ _ ?_ | refine State.encDrop_keeps ?_
    | fail_if_no_progress refine Keeps.fields ?_ rfl rfl | split

theorem State.linkReceive_keeps {s₀ s : State} (h : Keeps s₀ s) {n p k} (hk : ∀ t, Keeps s₀ t → Keeps s₀ (k t)) :
    Keeps s₀ (s.linkReceive n p k) := by
  unfold State.linkReceive
  with_reducible repeat'
    first
    | assumption | refine hk _ ?_ | refine State.linkReply_keeps ?_ | refine State.bump_keeps ?_
    | refine State.putPort_keeps ?_ | lift_lets
    | (intro x; refine Keeps.cut (s₀ := s₀) (s := x) ?_ ?_; rotate_left; clear_value x; intro _; rotate_left; subst x) | fail_if_no_progress refine Keeps.fields ?_ rfl rfl | intro _ | split | (dsimp +zetaDelta only; split)

theorem State.receive_keeps {s₀ s : State} (h : Keeps s₀ s) {n ty p serve} (hserve : ∀ y0 t, Keeps s₀ t → Keeps s₀ (serve y0 t)) :
    Keeps s₀ (s.receive n ty p serve) := by
  unfold State.receive
  with_reducible repeat'
    first
    | assumption | refine hserve _ _ ?_ | refine State.linkReceive_keeps ?_ ?_ | refine State.decrypt_keeps ?_ ?_
    | refine State.admitPacket_keeps ?_ ?_ | lift_lets
    | (intro x; refine Keeps.cut (s₀ := s₀) (s := x) ?_ ?_; rotate_left; clear_value x; intro _; rotate_left; subst x) | fail_if_no_progress refine Keeps.fields ?_ rfl rfl | intro _ | split | (dsimp +zetaDelta only; split)

theorem State.mgmtReceive_keeps {s₀ s : State} (h : Keeps s₀ s) {n code p serve} (hserve : ∀ t, Keeps s₀ t → Keeps s₀ (serve t)) :
    Keeps s₀ (s.mgmtReceive n code p serve) := by
  unfold State.mgmtReceive
  with_reducible repeat'
    first
    | assumption | refine hserve _ ?_ | refine State.linkReceive_keeps ?_ ?_ | lift_lets
    | (intro x; refine Keeps.cut (s₀ := s₀) (s := x) ?_ ?_; rotate_left; clear_value x; intro _; rotate_left; subst x) | fail_if_no_progress refine Keeps.fields ?_ rfl rfl | intro _ | split | (dsimp +zetaDelta only; split)

theorem State.respray_keeps {s₀ s : State} (h : Keeps s₀ s) {n} :
    Keeps s₀ (s.respray n) := by
  unfold State.respray
  with_reducible repeat'
    first
    | assumption | refine State.sendPackets_keeps ?_ | refine State.putPort_keeps ?_
    | fail_if_no_progress refine Keeps.fields ?_ rfl rfl

theorem State.lostSince_keeps {s₀ s old : State} (h : Keeps s₀ s) :
    Keeps s₀ (s.lostSince old) := by
  unfold State.lostSince
  exact Keeps.foldl (fun _ _ k => State.peerLost_keeps k) h _

theorem State.portSwaps_keeps {s₀ s : State} (h : Keeps s₀ s) {n q} :
    Keeps s₀ (s.portSwaps n q) := by
  exact State.lostSince_keeps (State.putPort_keeps h)

theorem State.portGone_keeps {s₀ s : State} (h : Keeps s₀ s) {n cause ph} :
    Keeps s₀ (s.portGone n cause ph) := by
  exact State.lostSince_keeps (State.respray_keeps (State.portDown_keeps h))

theorem State.swapEnd_keeps {s₀ s : State} (h : Keeps s₀ s) {n q} :
    Keeps s₀ (s.swapEnd n q) := by
  unfold State.swapEnd
  with_reducible repeat'
    first
    | assumption | refine State.drainWaiting_keeps ?_ | refine State.resend_keeps ?_
    | refine State.putPort_keeps ?_ | fail_if_no_progress refine Keeps.fields ?_ rfl rfl | split

theorem State.changeLaser_keeps {s₀ s : State} (h : Keeps s₀ s) {n} :
    Keeps s₀ (s.changeLaser n) := by
  unfold State.changeLaser
  with_reducible repeat'
    first
    | assumption | refine State.stick_keeps ?_ | refine State.bump_keeps ?_ | refine State.portSwaps_keeps ?_
    | lift_lets
    | (intro x; refine Keeps.cut (s₀ := s₀) (s := x) ?_ ?_; rotate_left; clear_value x; intro _; rotate_left; subst x) | fail_if_no_progress refine Keeps.fields ?_ rfl rfl | intro _ | split | (dsimp +zetaDelta only; split)

theorem State.portAction_keeps {s₀ s : State} (h : Keeps s₀ s) {n act lane} :
    Keeps s₀ (s.portAction n act lane).st := by
  unfold State.portAction
  with_reducible repeat'
    first
    | assumption | refine State.no_keeps ?_ | refine State.ok_keeps ?_ | refine State.portGone_keeps ?_
    | refine State.portEvent_keeps ?_ | refine State.putPort_keeps ?_ | refine State.bad_keeps ?_
    | refine State.portSwaps_keeps ?_ | refine State.changeLaser_keeps ?_ | refine State.takeSpare_keeps ?_
    | lift_lets
    | (intro x; refine Keeps.cut (s₀ := s₀) (s := x) ?_ ?_; rotate_left; clear_value x; intro _; rotate_left; subst x) | fail_if_no_progress refine Keeps.fields ?_ rfl rfl | (dsimp only; done) | intro _ | split | (dsimp +zetaDelta only; split)

theorem State.yieldBackground_keeps {s₀ s : State} (h : Keeps s₀ s) :
    Keeps s₀ (s.yieldBackground) := by
  unfold State.yieldBackground
  with_reducible repeat'
    first
    | assumption | lift_lets
    | (intro x; refine Keeps.cut (s₀ := s₀) (s := x) ?_ ?_; rotate_left; clear_value x; intro _; rotate_left; subst x) | fail_if_no_progress refine Keeps.fields ?_ rfl rfl | intro _ | split | (dsimp +zetaDelta only; split)

theorem State.sendTrans_keeps {s₀ s : State} (h : Keeps s₀ s) {t} :
    Keeps s₀ (s.sendTrans t) := by
  unfold State.sendTrans
  with_reducible repeat'
    first
    | assumption | refine State.sendPacket_keeps ?_ | fail_if_no_progress refine Keeps.fields ?_ rfl rfl

theorem State.request_keeps {s₀ s : State} (h : Keeps s₀ s) {type dst addr aux payload owner dest} :
    Keeps s₀ (s.request type dst addr aux payload owner dest) := by
  unfold State.request
  with_reducible repeat'
    first
    | assumption | refine State.yieldBackground_keeps ?_ | refine State.sendTrans_keeps ?_ | lift_lets
    | (intro x; refine Keeps.cut (s₀ := s₀) (s := x) ?_ ?_; rotate_left; clear_value x; intro _; rotate_left; subst x) | fail_if_no_progress refine Keeps.fields ?_ rfl rfl | intro _ | split | (dsimp +zetaDelta only; split)

theorem State.remoteWrite_keeps {s₀ s : State} (h : Keeps s₀ s) {owner dst off bs} :
    Keeps s₀ (s.remoteWrite owner dst off bs) := by
  unfold State.remoteWrite
  with_reducible repeat'
    first
    | assumption | refine State.request_keeps ?_ | refine Keeps.foldl ?_ ?_ _ | lift_lets
    | (intro x; refine Keeps.cut (s₀ := s₀) (s := x) ?_ ?_; rotate_left; clear_value x; intro _; rotate_left; subst x) | fail_if_no_progress refine Keeps.fields ?_ rfl rfl | intro _ | split | (dsimp +zetaDelta only; split)

theorem State.putOut_keeps {s₀ s : State} (h : Keeps s₀ s) {owner addr bs} :
    Keeps s₀ (s.putOut owner addr bs) := by
  unfold State.putOut
  with_reducible repeat'
    first
    | assumption | refine State.remoteWrite_keeps ?_ | refine State.store_keeps ?_
    | fail_if_no_progress refine Keeps.fields ?_ rfl rfl | split

theorem State.putsOut_keeps {s₀ s : State} (h : Keeps s₀ s) {ref ws} :
    Keeps s₀ (s.putsOut ref ws) := by
  unfold State.putsOut
  with_reducible repeat'
    first
    | assumption | refine State.putOut_keeps ?_ | refine State.stores_keeps ?_ | refine Keeps.foldl ?_ ?_ _
    | lift_lets
    | (intro x; refine Keeps.cut (s₀ := s₀) (s := x) ?_ ?_; rotate_left; clear_value x; intro _; rotate_left; subst x) | fail_if_no_progress refine Keeps.fields ?_ rfl rfl | intro _ | split | (dsimp +zetaDelta only; split)

theorem State.dropFetched_keeps {s₀ t u : State} (h : Keeps s₀ t) {ref} :
    Keeps s₀ (t.dropFetched u ref) := by
  unfold State.dropFetched
  dsimp only
  split
  · exact h
  · exact State.setRun_keeps h

theorem State.fetch_keeps {s₀ s : State} (h : Keeps s₀ s) {ref rs} :
    Keeps s₀ (s.fetch ref rs) := by
  unfold State.fetch
  with_reducible repeat'
    first
    | assumption | refine State.setRun_keeps ?_ | refine State.request_keeps ?_ | refine Keeps.foldl ?_ ?_ _
    | lift_lets
    | (intro x; refine Keeps.cut (s₀ := s₀) (s := x) ?_ ?_; rotate_left; clear_value x; intro _; rotate_left; subst x) | fail_if_no_progress refine Keeps.fields ?_ rfl rfl | intro _ | split | (dsimp +zetaDelta only; split)

theorem State.atHand_keeps {s₀ s : State} (h : Keeps s₀ s) {ref acc work} (hwork : ∀ t, Keeps s₀ t → Keeps s₀ (work t)) :
    Keeps s₀ (s.atHand ref acc work) := by
  unfold State.atHand
  with_reducible repeat'
    first
    | assumption | refine hwork _ ?_ | refine State.fetch_keeps ?_ | lift_lets
    | (intro x; refine Keeps.cut (s₀ := s₀) (s := x) ?_ ?_; rotate_left; clear_value x; intro _; rotate_left; subst x) | fail_if_no_progress refine Keeps.fields ?_ rfl rfl | intro _ | split | (dsimp +zetaDelta only; split)

theorem State.reach_keeps {s₀ s : State} (h : Keeps s₀ s) {u ref acc work} (hwork : ∀ t, Keeps s₀ t → Keeps s₀ (work t)) :
    Keeps s₀ (s.reach u ref acc work) := by
  unfold State.reach
  with_reducible repeat'
    first
    | assumption | refine hwork _ ?_ | refine State.guarded_keeps ?_ ?_ | refine State.atHand_keeps ?_ ?_
    | lift_lets
    | (intro x; refine Keeps.cut (s₀ := s₀) (s := x) ?_ ?_; rotate_left; clear_value x; intro _; rotate_left; subst x) | fail_if_no_progress refine Keeps.fields ?_ rfl rfl | intro _ | split | (dsimp +zetaDelta only; split)

theorem State.slotWork_keeps {s₀ s : State} (h : Keeps s₀ s) {u ref acc work} (hwork : ∀ t, Keeps s₀ t → Keeps s₀ (work t)) :
    Keeps s₀ (s.slotWork u ref acc work) := by
  exact State.dropFetched_keeps (State.reach_keeps h fun _ k => State.inSlot_keeps k hwork)

theorem State.reply_keeps {s₀ s : State} (h : Keeps s₀ s) {p type flags payload} :
    Keeps s₀ (s.reply p type flags payload) := by
  unfold State.reply
  with_reducible repeat'
    first
    | assumption | refine State.sendPacket_keeps ?_ | fail_if_no_progress refine Keeps.fields ?_ rfl rfl

theorem State.replyErr_keeps {s₀ s : State} (h : Keeps s₀ s) {p x} :
    Keeps s₀ (s.replyErr p x) := by
  unfold State.replyErr
  with_reducible repeat'
    first
    | assumption | refine State.reply_keeps ?_ | fail_if_no_progress refine Keeps.fields ?_ rfl rfl

theorem State.denied_keeps {s₀ s : State} (h : Keeps s₀ s) :
    Keeps s₀ (s.denied) := by
  unfold State.denied
  with_reducible repeat'
    first
    | assumption | refine State.stick_keeps ?_ | fail_if_no_progress refine Keeps.fields ?_ rfl rfl

theorem State.serveRequest_keeps {s₀ s : State} (h : Keeps s₀ s) {p n write mem work} (hwork : ∀ t, Keeps s₀ t → Keeps s₀ (work t)) :
    Keeps s₀ (s.serveRequest p n write mem work) := by
  unfold State.serveRequest
  with_reducible repeat'
    first
    | assumption | refine hwork _ ?_ | refine State.bump_keeps ?_ | refine State.noteFault_keeps ?_
    | refine State.replyErr_keeps ?_ | refine State.denied_keeps ?_
    | fail_if_no_progress refine Keeps.fields ?_ rfl rfl | split

theorem State.touchWindow_keeps {s₀ s : State} (h : Keeps s₀ s) {off n} :
    Keeps s₀ (s.touchWindow off n) := by
  unfold State.touchWindow
  with_reducible repeat' first | assumption | fail_if_no_progress refine Keeps.fields ?_ rfl rfl | split

theorem State.serveWrite_keeps {s₀ s : State} (h : Keeps s₀ s) {p} :
    Keeps s₀ (s.serveWrite p) := by
  unfold State.serveWrite
  with_reducible repeat'
    first
    | assumption | refine State.serveRequest_keeps ?_ ?_ | refine State.reply_keeps ?_
    | refine State.touchWindow_keeps ?_ | refine State.store_keeps ?_ | lift_lets
    | (intro x; refine Keeps.cut (s₀ := s₀) (s := x) ?_ ?_; rotate_left; clear_value x; intro _; rotate_left; subst x) | fail_if_no_progress refine Keeps.fields ?_ rfl rfl | intro _ | split | (dsimp +zetaDelta only; split)

theorem State.serveRead_keeps {s₀ s : State} (h : Keeps s₀ s) {p} :
    Keeps s₀ (s.serveRead p) := by
  unfold State.serveRead
  with_reducible repeat'
    first
    | assumption | refine State.serveRequest_keeps ?_ ?_ | refine State.reply_keeps ?_
    | refine State.deliverPoison_keeps ?_ | lift_lets
    | (intro x; refine Keeps.cut (s₀ := s₀) (s := x) ?_ ?_; rotate_left; clear_value x; intro _; rotate_left; subst x) | fail_if_no_progress refine Keeps.fields ?_ rfl rfl | intro _ | split | (dsimp +zetaDelta only; split)

theorem State.refill_keeps {s₀ s : State} (h : Keeps s₀ s) {x1} :
    Keeps s₀ (s.refill x1) := by
  induction x1 generalizing s with
  | zero => exact h
  | succ y ih =>
    rw [State.refill]
    with_reducible repeat'
      first
      | assumption | refine State.sendTrans_keeps ?_ | refine ih ?_
      | fail_if_no_progress refine Keeps.fields ?_ rfl rfl | split

theorem State.closeTrans_keeps {s₀ s : State} (h : Keeps s₀ s) {tag} :
    Keeps s₀ (s.closeTrans tag) := by
  unfold State.closeTrans
  with_reducible repeat'
    first
    | assumption | refine State.refill_keeps ?_ | fail_if_no_progress refine Keeps.fields ?_ rfl rfl

theorem State.clearTimeouts_keeps {s₀ s : State} (h : Keeps s₀ s) {dst plane} :
    Keeps s₀ (s.clearTimeouts dst plane) := by
  unfold State.clearTimeouts
  with_reducible repeat' first | assumption | fail_if_no_progress refine Keeps.fields ?_ rfl rfl

theorem State.transFails_keeps {s₀ s : State} (h : Keeps s₀ s) {t} :
    Keeps s₀ (s.transFails t) := by
  unfold State.transFails
  with_reducible repeat'
    first
    | assumption | refine State.faultRun_keeps ?_ | refine State.abortFill_keeps ?_
    | fail_if_no_progress refine Keeps.fields ?_ rfl rfl | split

theorem State.see_keeps {s₀ s : State} (h : Keeps s₀ s) {st off bs} :
    Keeps s₀ (s.see st off bs) := by
  exact h.withMem (fun k => Memory.wf_mwrites k _ _) rfl rfl

theorem State.serveReadResp_keeps {s₀ s : State} (h : Keeps s₀ s) {p} :
    Keeps s₀ (s.serveReadResp p) := by
  unfold State.serveReadResp
  with_reducible repeat'
    first
    | assumption | refine State.closeTrans_keeps ?_ | refine State.clearTimeouts_keeps ?_
    | refine State.transFails_keeps ?_ | refine State.see_keeps ?_ | refine State.putOut_keeps ?_
    | fail_if_no_progress refine Keeps.fields ?_ rfl rfl | split

theorem State.mirrorAcked_keeps {s₀ s : State} (h : Keeps s₀ s) {owner} :
    Keeps s₀ (s.mirrorAcked owner) := by
  unfold State.mirrorAcked
  with_reducible repeat'
    first
    | assumption | refine State.remoteWrite_keeps ?_ | lift_lets
    | (intro x; refine Keeps.cut (s₀ := s₀) (s := x) ?_ ?_; rotate_left; clear_value x; intro _; rotate_left; subst x) | fail_if_no_progress refine Keeps.fields ?_ rfl rfl | intro _ | split | (dsimp +zetaDelta only; split)

theorem State.serveWriteAck_keeps {s₀ s : State} (h : Keeps s₀ s) {p} :
    Keeps s₀ (s.serveWriteAck p) := by
  unfold State.serveWriteAck
  with_reducible repeat'
    first
    | assumption | refine State.serveReadResp_keeps ?_ | refine State.closeTrans_keeps ?_
    | refine State.clearTimeouts_keeps ?_ | refine State.mirrorAcked_keeps ?_ | refine State.see_keeps ?_
    | fail_if_no_progress refine Keeps.fields ?_ rfl rfl | split

theorem State.windowClosed_keeps {s₀ s : State} (h : Keeps s₀ s) {t x} :
    Keeps s₀ (s.windowClosed t x) := by
  unfold State.windowClosed
  with_reducible repeat'
    first
    | assumption | lift_lets
    | (intro x; refine Keeps.cut (s₀ := s₀) (s := x) ?_ ?_; rotate_left; clear_value x; intro _; rotate_left; subst x) | fail_if_no_progress refine Keeps.fields ?_ rfl rfl | intro _ | split | (dsimp +zetaDelta only; split)

theorem State.serveComplErr_keeps {s₀ s : State} (h : Keeps s₀ s) {p} :
    Keeps s₀ (s.serveComplErr p) := by
  unfold State.serveComplErr
  with_reducible repeat'
    first
    | assumption | refine State.serveReadResp_keeps ?_ | refine State.windowClosed_keeps ?_
    | refine State.closeTrans_keeps ?_ | refine State.clearTimeouts_keeps ?_ | refine State.failRun_keeps ?_
    | refine State.raise_keeps ?_ | refine State.transFails_keeps ?_ | lift_lets
    | (intro x; refine Keeps.cut (s₀ := s₀) (s := x) ?_ ?_; rotate_left; clear_value x; intro _; rotate_left; subst x) | fail_if_no_progress refine Keeps.fields ?_ rfl rfl | intro _ | split | (dsimp +zetaDelta only; split)

theorem State.signalCtr_keeps {s₀ s : State} (h : Keeps s₀ s) {i} :
    Keeps s₀ (s.signalCtr i) := by
  unfold State.signalCtr
  with_reducible repeat' first | assumption | fail_if_no_progress refine Keeps.fields ?_ rfl rfl

theorem State.countSignal_keeps {s₀ s : State} (h : Keeps s₀ s) {src qid ctr} :
    Keeps s₀ (s.countSignal src qid ctr) := by
  unfold State.countSignal
  with_reducible repeat'
    first
    | assumption | refine State.signalCtr_keeps ?_ | refine State.stick_keeps ?_
    | fail_if_no_progress refine Keeps.fields ?_ rfl rfl | split

theorem State.serveSignal_keeps {s₀ s : State} (h : Keeps s₀ s) {p} :
    Keeps s₀ (s.serveSignal p) := by
  unfold State.serveSignal
  with_reducible repeat'
    first
    | assumption | refine State.serveRequest_keeps ?_ ?_ | refine State.reply_keeps ?_
    | refine State.countSignal_keeps ?_ | lift_lets
    | (intro x; refine Keeps.cut (s₀ := s₀) (s := x) ?_ ?_; rotate_left; clear_value x; intro _; rotate_left; subst x) | fail_if_no_progress refine Keeps.fields ?_ rfl rfl | intro _ | split | (dsimp +zetaDelta only; split)

theorem State.dropTrans_keeps {s₀ s : State} (h : Keeps s₀ s) {owner} :
    Keeps s₀ (s.dropTrans owner) := by
  unfold State.dropTrans
  with_reducible repeat'
    first
    | assumption | refine State.refill_keeps ?_ | fail_if_no_progress refine Keeps.fields ?_ rfl rfl

theorem State.copyBytes_keeps {s₀ s : State} (h : Keeps s₀ s) {owner src dst n} :
    Keeps s₀ (s.copyBytes owner src dst n) := by
  unfold State.copyBytes
  with_reducible repeat'
    first
    | assumption | refine State.putOut_keeps ?_ | refine State.request_keeps ?_ | refine State.putOut_keeps ?_
    | refine Keeps.foldl ?_ ?_ _ | lift_lets
    | (intro x; refine Keeps.cut (s₀ := s₀) (s := x) ?_ ?_; rotate_left; clear_value x; intro _; rotate_left; subst x) | fail_if_no_progress refine Keeps.fields ?_ rfl rfl | intro _ | split | (dsimp +zetaDelta only; split)

theorem State.markUnreach_keeps {s₀ s : State} (h : Keeps s₀ s) {dst plane} :
    Keeps s₀ (s.markUnreach dst plane) := by
  unfold State.markUnreach
  with_reducible repeat'
    first
    | assumption | refine State.peerLost_keeps ?_ | lift_lets
    | (intro x; refine Keeps.cut (s₀ := s₀) (s := x) ?_ ?_; rotate_left; clear_value x; intro _; rotate_left; subst x) | fail_if_no_progress refine Keeps.fields ?_ rfl rfl | intro _ | split | (dsimp +zetaDelta only; split)

theorem State.resendTrans_keeps {s₀ s : State} (h : Keeps s₀ s) {t tries} :
    Keeps s₀ (s.resendTrans t tries) := by
  unfold State.resendTrans
  with_reducible repeat'
    first
    | assumption | refine State.sendTrans_keeps ?_ | fail_if_no_progress refine Keeps.fields ?_ rfl rfl

theorem State.resendReturned_keeps {s₀ s : State} (h : Keeps s₀ s) {b} :
    Keeps s₀ (s.resendReturned b) := by
  unfold State.resendReturned
  with_reducible repeat'
    first
    | assumption | refine State.sendPacket_keeps ?_ | refine State.resendTrans_keeps ?_ | lift_lets
    | (intro x; refine Keeps.cut (s₀ := s₀) (s := x) ?_ ?_; rotate_left; clear_value x; intro _; rotate_left; subst x) | fail_if_no_progress refine Keeps.fields ?_ rfl rfl | intro _ | split | (dsimp +zetaDelta only; split)

theorem State.countTimeout_keeps {s₀ s : State} (h : Keeps s₀ s) {dst plane} :
    Keeps s₀ (s.countTimeout dst plane) := by
  unfold State.countTimeout
  with_reducible repeat'
    first
    | assumption | refine State.markUnreach_keeps ?_ | lift_lets
    | (intro x; refine Keeps.cut (s₀ := s₀) (s := x) ?_ ?_; rotate_left; clear_value x; intro _; rotate_left; subst x) | fail_if_no_progress refine Keeps.fields ?_ rfl rfl | intro _ | split | (dsimp +zetaDelta only; split)

theorem State.takeStation_keeps {s₀ s : State} (h : Keeps s₀ s) {station manager} :
    Keeps s₀ (s.takeStation station manager) := by
  unfold State.takeStation
  with_reducible repeat'
    first
    | assumption | refine State.say_keeps ?_ | fail_if_no_progress refine Keeps.fields ?_ rfl rfl

theorem State.assignStation_keeps {s₀ s : State} (h : Keeps s₀ s) {station manager} :
    Keeps s₀ (s.assignStation station manager) := by
  unfold State.assignStation
  with_reducible repeat'
    first
    | assumption | refine State.takeStation_keeps ?_ | refine State.say_keeps ?_ | refine State.stick_keeps ?_
    | lift_lets
    | (intro x; refine Keeps.cut (s₀ := s₀) (s := x) ?_ ?_; rotate_left; clear_value x; intro _; rotate_left; subst x) | fail_if_no_progress refine Keeps.fields ?_ rfl rfl | intro _ | split | (dsimp +zetaDelta only; split)

theorem State.guardRelease_keeps {s₀ s : State} (h : Keeps s₀ s) :
    Keeps s₀ (s.guardRelease) := by
  unfold State.guardRelease
  with_reducible repeat'
    first
    | assumption | refine State.refill_keeps ?_ | lift_lets
    | (intro x; refine Keeps.cut (s₀ := s₀) (s := x) ?_ ?_; rotate_left; clear_value x; intro _; rotate_left; subst x) | fail_if_no_progress refine Keeps.fields ?_ rfl rfl | intro _ | split | (dsimp +zetaDelta only; split)

theorem State.claimHalf_keeps {s₀ s : State} (h : Keeps s₀ s) {ref half} :
    Keeps s₀ (s.claimHalf ref half) := by
  unfold State.claimHalf
  with_reducible repeat'
    first
    | assumption | refine State.setRun_keeps ?_ | fail_if_no_progress refine Keeps.fields ?_ rfl rfl | split

theorem State.prismRefused_keeps {s₀ s : State} (h : Keeps s₀ s) {a b} :
    Keeps s₀ (s.prismRefused a b) := by
  unfold State.prismRefused
  with_reducible repeat'
    first
    | assumption | refine State.putReg_keeps ?_ | refine State.bump_keeps ?_
    | fail_if_no_progress refine Keeps.fields ?_ rfl rfl | split

theorem State.endRefused_keeps {s₀ s : State} (h : Keeps s₀ s) {c half ref x} :
    Keeps s₀ (s.endRefused c half ref x) := by
  unfold State.endRefused
  with_reducible repeat'
    first
    | assumption | refine State.stick_keeps ?_ | refine State.failRun_keeps ?_ | refine State.raiseFull_keeps ?_
    | fail_if_no_progress refine Keeps.fields ?_ rfl rfl | split

theorem State.refuseOp_keeps {s₀ s : State} (h : Keeps s₀ s) {c half ref x} :
    Keeps s₀ (s.refuseOp c half ref x) := by
  unfold State.refuseOp
  with_reducible repeat'
    first
    | assumption | refine State.endRefused_keeps ?_ | refine State.bump_keeps ?_
    | fail_if_no_progress refine Keeps.fields ?_ rfl rfl

theorem State.refusePair_keeps {s₀ s : State} (h : Keeps s₀ s) {c half ref x} :
    Keeps s₀ (s.refusePair c half ref x) := by
  unfold State.refusePair
  with_reducible repeat'
    first
    | assumption | refine State.endRefused_keeps ?_ | refine State.stick_keeps ?_ | refine State.bump_keeps ?_
    | fail_if_no_progress refine Keeps.fields ?_ rfl rfl

theorem State.countOperands_keeps {s₀ s : State} (h : Keeps s₀ s) {ref p} :
    Keeps s₀ (s.countOperands ref p) := by
  unfold State.countOperands
  with_reducible repeat'
    first
    | assumption | refine State.countRead_keeps ?_ | fail_if_no_progress refine Keeps.fields ?_ rfl rfl

theorem State.countTimes_keeps {s₀ s : State} (h : Keeps s₀ s) {ts} :
    Keeps s₀ (s.countTimes ts) := by
  unfold State.countTimes
  with_reducible repeat'
    first
    | assumption | refine State.bumps_keeps ?_ | fail_if_no_progress refine Keeps.fields ?_ rfl rfl

theorem State.drained_keeps {s₀ s : State} (h : Keeps s₀ s) {ref d stall} :
    Keeps s₀ (s.drained ref d stall) := by
  unfold State.drained
  with_reducible repeat'
    first
    | assumption | refine State.charge_keeps ?_ | refine State.putsOut_keeps ?_ | refine State.bumps_keeps ?_
    | fail_if_no_progress refine Keeps.fields ?_ rfl rfl

theorem State.runProduct_keeps {s₀ s : State} (h : Keeps s₀ s) {core half ref p e} :
    Keeps s₀ (s.runProduct core half ref p e) := by
  unfold State.runProduct
  with_reducible repeat'
    first
    | assumption | refine State.drained_keeps ?_ | refine State.countTimes_keeps ?_
    | refine State.countOperands_keeps ?_ | fail_if_no_progress refine Keeps.fields ?_ rfl rfl

theorem State.arrayOp_keeps {s₀ s : State} (h : Keeps s₀ s) {c half desc mode} :
    Keeps s₀ (s.arrayOp c half desc mode) := by
  unfold State.arrayOp
  with_reducible repeat'
    first
    | assumption | refine State.slotView_keeps ?_ | refine State.slotWork_keeps ?_ ?_
    | refine State.claimHalf_keeps ?_ | refine State.prismRefused_keeps ?_ | refine State.refuseOp_keeps ?_
    | refine State.reach_keeps ?_ ?_ | refine State.runProduct_keeps ?_ | lift_lets
    | (intro x; refine Keeps.cut (s₀ := s₀) (s := x) ?_ ?_; rotate_left; clear_value x; intro _; rotate_left; subst x) | fail_if_no_progress refine Keeps.fields ?_ rfl rfl | intro _ | split | (dsimp +zetaDelta only; split)

theorem State.runPair_keeps {s₀ s : State} (h : Keeps s₀ s) {core ref b ex ew} :
    Keeps s₀ (s.runPair core ref b ex ew) := by
  unfold State.runPair
  with_reducible repeat'
    first
    | assumption | refine State.countTimes_keeps ?_ | refine State.countOperands_keeps ?_
    | refine State.drained_keeps ?_ | refine State.putsOut_keeps ?_
    | fail_if_no_progress refine Keeps.fields ?_ rfl rfl

theorem State.runGsum_keeps {s₀ s : State} (h : Keeps s₀ s) {ref g} :
    Keeps s₀ (s.runGsum ref g) := by
  unfold State.runGsum
  with_reducible repeat'
    first
    | assumption | refine State.charge_keeps ?_ | refine State.putsOut_keeps ?_ | refine State.bumps_keeps ?_
    | fail_if_no_progress refine Keeps.fields ?_ rfl rfl | split

theorem State.jobReads_keeps {s₀ s : State} (h : Keeps s₀ s) {ref j} :
    Keeps s₀ (s.jobReads ref j) := by
  unfold State.jobReads
  with_reducible repeat'
    first
    | assumption | refine State.countRead_keeps ?_ | fail_if_no_progress refine Keeps.fields ?_ rfl rfl

theorem State.runJob_keeps {s₀ s : State} (h : Keeps s₀ s) {ref j} :
    Keeps s₀ (s.runJob ref j).1 := by
  exact (State.charge_keeps (State.putsOut_keeps (State.jobReads_keeps h))).withTime (Nat.le_refl _)
    (Nat.le_add_right _ _) rfl rfl

theorem State.refuseQuant_keeps {s₀ s : State} (h : Keeps s₀ s) {ref} :
    Keeps s₀ (s.refuseQuant ref) := by
  unfold State.refuseQuant
  with_reducible repeat'
    first
    | assumption | refine State.failRun_keeps ?_ | refine State.stick_keeps ?_
    | fail_if_no_progress refine Keeps.fields ?_ rfl rfl

theorem State.quantRow_keeps {s₀ s : State} (h : Keeps s₀ s) {code desc op} :
    Keeps s₀ (s.quantRow code desc op) := by
  unfold State.quantRow
  with_reducible repeat'
    first
    | assumption | refine State.slotWork_keeps ?_ ?_ | refine State.refuseQuant_keeps ?_
    | refine State.reach_keeps ?_ ?_ | refine State.runJob_keeps ?_ | lift_lets
    | (intro x; refine Keeps.cut (s₀ := s₀) (s := x) ?_ ?_; rotate_left; clear_value x; intro _; rotate_left; subst x) | (intro x; refine Keeps.cut (s₀ := s₀) (s := x.1) ?_ ?_; rotate_left; clear_value x; intro _; rotate_left; subst x) | fail_if_no_progress refine Keeps.fields ?_ rfl rfl | intro _ | split | (dsimp +zetaDelta only; split)

theorem State.convertNo_keeps {s₀ s : State} (h : Keeps s₀ s) {x detail} :
    Keeps s₀ (s.convertNo x detail).st := by
  unfold State.convertNo
  with_reducible repeat'
    first
    | assumption | lift_lets
    | (intro x; refine Keeps.cut (s₀ := s₀) (s := x) ?_ ?_; rotate_left; clear_value x; intro _; rotate_left; subst x) | fail_if_no_progress refine Keeps.fields ?_ rfl rfl | (dsimp only; done) | intro _ | split | (dsimp +zetaDelta only; split)

theorem State.refuseDsp_keeps {s₀ s : State} (h : Keeps s₀ s) {u ref x} :
    Keeps s₀ (s.refuseDsp u ref x) := by
  unfold State.refuseDsp
  with_reducible repeat'
    first
    | assumption | refine State.refuseRun_keeps ?_ | refine State.stick_keeps ?_ | refine State.bump_keeps ?_
    | fail_if_no_progress refine Keeps.fields ?_ rfl rfl | split

theorem State.runRouter_keeps {s₀ s : State} (h : Keeps s₀ s) {ref d} :
    Keeps s₀ (s.runRouter ref d) := by
  unfold State.runRouter
  with_reducible repeat'
    first
    | assumption | refine State.charge_keeps ?_ | refine State.putsOut_keeps ?_ | refine State.bumps_keeps ?_
    | fail_if_no_progress refine Keeps.fields ?_ rfl rfl | split

theorem State.runDropout_keeps {s₀ s : State} (h : Keeps s₀ s) {ref S D stream p16 keep} :
    Keeps s₀ (s.runDropout ref S D stream p16 keep) := by
  unfold State.runDropout
  with_reducible repeat'
    first
    | assumption | refine State.putsOut_keeps ?_ | fail_if_no_progress refine Keeps.fields ?_ rfl rfl

end

end Sys2Proof.Machine
end

