-- ==== Sys2Proof/Laws/KeepsRecovery.lean ====
section
/-! SUPPORT. That the operations of Machine/Collective.lean, Machine/Queues.lean, Machine/Jobs.lean, Machine/Ras.lean, Machine/Mirror.lean, Machine/Flerra.lean keep what Laws/Keeps.lean says of every effect. -/

namespace Sys2Proof.Machine

section

set_option linter.unusedTactic false
set_option linter.unreachableTactic false

theorem State.colTx_keeps {s₀ s : State} (h : Keeps s₀ s) {n} :
    Keeps s₀ (s.colTx n) := by
  unfold State.colTx
  with_reducible repeat'
    first
    | assumption | refine State.bump_keeps ?_ | refine State.setCol_keeps ?_
    | fail_if_no_progress refine Keeps.fields ?_ rfl rfl

theorem State.colRx_keeps {s₀ s : State} (h : Keeps s₀ s) {n} :
    Keeps s₀ (s.colRx n) := by
  unfold State.colRx
  with_reducible repeat'
    first
    | assumption | refine State.bump_keeps ?_ | refine State.setCol_keeps ?_
    | fail_if_no_progress refine Keeps.fields ?_ rfl rfl

theorem State.colTransient_keeps {s₀ s : State} (h : Keeps s₀ s) :
    Keeps s₀ (s.colTransient) := by
  unfold State.colTransient
  with_reducible repeat'
    first
    | assumption | refine State.faultRun_keeps ?_ | refine State.setCol_keeps ?_ | refine State.stick_keeps ?_
    | fail_if_no_progress refine Keeps.fields ?_ rfl rfl

theorem State.colSend_keeps {s₀ s : State} (h : Keeps s₀ s) :
    Keeps s₀ (s.colSend) := by
  unfold State.colSend
  with_reducible repeat'
    first
    | assumption | refine State.setCol_keeps ?_ | refine State.colTx_keeps ?_ | refine State.sendPackets_keeps ?_
    | fail_if_no_progress refine Keeps.fields ?_ rfl rfl

theorem State.queueStream_keeps {s₀ s : State} (h : Keeps s₀ s) {r flags bs} :
    Keeps s₀ (s.queueStream r flags bs) := by
  unfold State.queueStream
  with_reducible repeat'
    first
    | assumption | refine State.setCol_keeps ?_ | fail_if_no_progress refine Keeps.fields ?_ rfl rfl

theorem State.grantTo_keeps {s₀ s : State} (h : Keeps s₀ s) {r copy upTo} :
    Keeps s₀ (s.grantTo r copy upTo) := by
  unfold State.grantTo
  with_reducible repeat'
    first
    | assumption | refine State.sendPacket_keeps ?_ | refine State.setCol_keeps ?_ | lift_lets
    | (intro x; refine Keeps.cut (s₀ := s₀) (s := x) ?_ ?_; rotate_left; clear_value x; intro _; rotate_left; subst x) | fail_if_no_progress refine Keeps.fields ?_ rfl rfl | intro _ | split | (dsimp +zetaDelta only; split)

theorem State.grantAll_keeps {s₀ s : State} (h : Keeps s₀ s) :
    Keeps s₀ (s.grantAll) := by
  unfold State.grantAll
  refine Keeps.foldl (fun t r k => ?_) h _
  dsimp only
  generalize (if s.curColl.reduces then cdiv (s.colItems s.colMe) 65536 else 0) = n
  have k1 : Keeps s₀ (if n = 0 then t
      else t.grantTo r false (Nat.min n (t.windowsDone 0 n + s.curColl.redWindows))) := by
    by_cases e : n = 0
    · rw [if_pos e]; exact k
    · rw [if_neg e]; exact State.grantTo_keeps k
  split
  · exact k1
  · exact State.grantTo_keeps k1

theorem State.addRecord_keeps {s₀ s : State} (h : Keeps s₀ s) {i r} :
    Keeps s₀ (s.addRecord i r) := by
  unfold State.addRecord
  with_reducible repeat'
    first
    | assumption | refine State.setCol_keeps ?_ | refine State.bump_keeps ?_ | refine State.stick_keeps ?_
    | lift_lets
    | (intro x; refine Keeps.cut (s₀ := s₀) (s := x) ?_ ?_; rotate_left; clear_value x; intro _; rotate_left; subst x) | fail_if_no_progress refine Keeps.fields ?_ rfl rfl | intro _ | split | (dsimp +zetaDelta only; split)

theorem State.addItem_keeps {s₀ s : State} (h : Keeps s₀ s) {k b n i q} :
    Keeps s₀ (s.addItem k b n i q) := by
  unfold State.addItem
  with_reducible repeat'
    first
    | assumption | refine State.setCol_keeps ?_ | refine State.addRecord_keeps ?_
    | fail_if_no_progress refine Keeps.fields ?_ rfl rfl | split

theorem State.addPayload_keeps {s₀ s : State} (h : Keeps s₀ s) {k b i n} :
    Keeps s₀ (s.addPayload k b i n) := by
  unfold State.addPayload
  with_reducible repeat'
    first
    | assumption | refine State.addItem_keeps ?_ | refine Keeps.foldl ?_ ?_ _ | lift_lets
    | (intro x; refine Keeps.cut (s₀ := s₀) (s := x) ?_ ?_; rotate_left; clear_value x; intro _; rotate_left; subst x) | fail_if_no_progress refine Keeps.fields ?_ rfl rfl | intro _ | split | (dsimp +zetaDelta only; split)

theorem State.colResults_keeps {s₀ s : State} (h : Keeps s₀ s) :
    Keeps s₀ (s.colResults) := by
  unfold State.colResults
  with_reducible repeat'
    first
    | assumption | refine State.setCol_keeps ?_ | refine State.charge_keeps ?_ | refine State.putsOut_keeps ?_
    | refine State.queueStream_keeps ?_ | refine Keeps.foldl ?_ ?_ _ | lift_lets
    | (intro x; refine Keeps.cut (s₀ := s₀) (s := x) ?_ ?_; rotate_left; clear_value x; intro _; rotate_left; subst x) | fail_if_no_progress refine Keeps.fields ?_ rfl rfl | intro _ | split | (dsimp +zetaDelta only; split)

theorem State.verdictRoot_keeps {s₀ s : State} (h : Keeps s₀ s) :
    Keeps s₀ (s.verdictRoot) := by
  unfold State.verdictRoot
  with_reducible repeat'
    first
    | assumption | refine State.queueStream_keeps ?_ | refine State.setCol_keeps ?_
    | refine State.takeVerdict_keeps ?_ | refine Keeps.foldl ?_ ?_ _ | lift_lets
    | (intro x; refine Keeps.cut (s₀ := s₀) (s := x) ?_ ?_; rotate_left; clear_value x; intro _; rotate_left; subst x) | fail_if_no_progress refine Keeps.fields ?_ rfl rfl | intro _ | split | (dsimp +zetaDelta only; split)

theorem State.verdictLeaf_keeps {s₀ s : State} (h : Keeps s₀ s) :
    Keeps s₀ (s.verdictLeaf) := by
  unfold State.verdictLeaf
  with_reducible repeat'
    first
    | assumption | refine State.setCol_keeps ?_ | refine State.takeVerdict_keeps ?_
    | fail_if_no_progress refine Keeps.fields ?_ rfl rfl

theorem State.colResolve_keeps {s₀ s : State} (h : Keeps s₀ s) :
    Keeps s₀ (s.colResolve) := by
  unfold State.colResolve
  repeat' split
  · exact h
  · exact State.inSlot_keeps h fun _ k => State.colResults_keeps k
  · exact h
  · exact State.verdictRoot_keeps h
  · exact State.verdictLeaf_keeps h
  · exact h
  · exact State.setCol_keeps h

theorem State.colFinish_keeps {s₀ s : State} (h : Keeps s₀ s) :
    Keeps s₀ (s.colFinish) := by
  unfold State.colFinish
  with_reducible repeat'
    first
    | assumption | refine State.setCol_keeps ?_ | refine State.bump_keeps ?_ | refine State.setRun_keeps ?_
    | fail_if_no_progress refine Keeps.fields ?_ rfl rfl | split

theorem State.colAdvance_keeps {s₀ s : State} (h : Keeps s₀ s) :
    Keeps s₀ (s.colAdvance) := by
  unfold State.colAdvance
  with_reducible repeat'
    first
    | assumption | refine State.colFinish_keeps ?_ | refine State.colSend_keeps ?_ | refine State.grantAll_keeps ?_
    | refine State.colResolve_keeps ?_ | fail_if_no_progress refine Keeps.fields ?_ rfl rfl

theorem State.colPlaces_keeps {s₀ s : State} (h : Keeps s₀ s) :
    Keeps s₀ (s.colPlaces) := by
  unfold State.colPlaces
  with_reducible repeat'
    first
    | assumption | refine State.setCol_keeps ?_ | fail_if_no_progress refine Keeps.fields ?_ rfl rfl | split

theorem State.contribute_keeps {s₀ s : State} (h : Keeps s₀ s) {d me c r} :
    Keeps s₀ (s.contribute d me c r) := by
  unfold State.contribute
  with_reducible repeat'
    first
    | assumption | refine State.charge_keeps ?_ | refine State.addPayload_keeps ?_ | refine State.setCol_keeps ?_
    | refine Keeps.foldl ?_ ?_ _ | lift_lets
    | (intro x; refine Keeps.cut (s₀ := s₀) (s := x) ?_ ?_; rotate_left; clear_value x; intro _; rotate_left; subst x) | fail_if_no_progress refine Keeps.fields ?_ rfl rfl | intro _ | split | (dsimp +zetaDelta only; split)

theorem State.contributeAll_keeps {s₀ s : State} (h : Keeps s₀ s) :
    Keeps s₀ (s.contributeAll) := by
  unfold State.contributeAll
  with_reducible repeat'
    first
    | assumption | refine State.contribute_keeps ?_ | refine Keeps.foldl ?_ ?_ _ | lift_lets
    | (intro x; refine Keeps.cut (s₀ := s₀) (s := x) ?_ ?_; rotate_left; clear_value x; intro _; rotate_left; subst x) | fail_if_no_progress refine Keeps.fields ?_ rfl rfl | intro _ | split | (dsimp +zetaDelta only; split)

theorem State.land_keeps {s₀ s : State} (h : Keeps s₀ s) {segs i bs} :
    Keeps s₀ (s.land segs i bs) := by
  unfold State.land
  with_reducible repeat'
    first
    | assumption | refine State.putsOut_keeps ?_ | fail_if_no_progress refine Keeps.fields ?_ rfl rfl | split

theorem State.copyAll_keeps {s₀ s : State} (h : Keeps s₀ s) :
    Keeps s₀ (s.copyAll) := by
  unfold State.copyAll
  with_reducible repeat'
    first
    | assumption | refine State.land_keeps ?_ | refine State.queueStream_keeps ?_ | refine State.putsOut_keeps ?_
    | refine Keeps.foldl ?_ ?_ _ | lift_lets
    | (intro x; refine Keeps.cut (s₀ := s₀) (s := x) ?_ ?_; rotate_left; clear_value x; intro _; rotate_left; subst x) | fail_if_no_progress refine Keeps.fields ?_ rfl rfl | intro _ | split | (dsimp +zetaDelta only; split)

theorem State.colBegin_keeps {s₀ s : State} (h : Keeps s₀ s) :
    Keeps s₀ (s.colBegin) := by
  unfold State.colBegin
  with_reducible repeat'
    first
    | assumption | refine State.contributeAll_keeps ?_ | refine State.queueStream_keeps ?_
    | refine State.copyAll_keeps ?_ | lift_lets
    | (intro x; refine Keeps.cut (s₀ := s₀) (s := x) ?_ ?_; rotate_left; clear_value x; intro _; rotate_left; subst x) | fail_if_no_progress refine Keeps.fields ?_ rfl rfl | intro _ | split | (dsimp +zetaDelta only; split)

theorem State.colLoad_keeps {s₀ s : State} (h : Keeps s₀ s) {k ref} :
    Keeps s₀ (s.colLoad k ref) := by
  unfold State.colLoad
  with_reducible repeat' first | assumption | fail_if_no_progress refine Keeps.fields ?_ rfl rfl | split

theorem State.colStart_keeps {s₀ s : State} (h : Keeps s₀ s) {k ref me} :
    Keeps s₀ (s.colStart k ref me) := by
  unfold State.colStart
  with_reducible repeat'
    first
    | assumption | refine State.setRun_keeps ?_ | refine State.colLoad_keeps ?_
    | refine State.colTransient_keeps ?_ | refine State.colAdvance_keeps ?_ | refine State.colBegin_keeps ?_
    | refine State.colPlaces_keeps ?_ | refine State.bad_keeps ?_
    | fail_if_no_progress refine Keeps.fields ?_ rfl rfl | split

theorem State.refuseCol_keeps {s₀ s : State} (h : Keeps s₀ s) {ref} :
    Keeps s₀ (s.refuseCol ref) := by
  unfold State.refuseCol
  with_reducible repeat'
    first
    | assumption | refine State.refuseRun_keeps ?_ | refine State.stick_keeps ?_
    | fail_if_no_progress refine Keeps.fields ?_ rfl rfl

theorem State.colTry_keeps {s₀ s : State} (h : Keeps s₀ s) {k ref} :
    Keeps s₀ (s.colTry k ref) := by
  unfold State.colTry
  with_reducible repeat'
    first
    | assumption | refine State.refuseCol_keeps ?_ | refine State.failRun_keeps ?_
    | refine State.addrFault_keeps ?_ | refine State.colStart_keeps ?_ | lift_lets
    | (intro x; refine Keeps.cut (s₀ := s₀) (s := x) ?_ ?_; rotate_left; clear_value x; intro _; rotate_left; subst x) | fail_if_no_progress refine Keeps.fields ?_ rfl rfl | intro _ | split | (dsimp +zetaDelta only; split)

theorem State.colRow_keeps {s₀ s : State} (h : Keeps s₀ s) {desc op refocus} :
    Keeps s₀ (s.colRow desc op refocus) := by
  unfold State.colRow
  with_reducible repeat'
    first
    | assumption | refine State.failRun_keeps ?_ | refine State.addrFault_keeps ?_
    | refine State.inSlot_keeps ?_ ?_ | refine State.colTry_keeps ?_ | lift_lets
    | (intro x; refine Keeps.cut (s₀ := s₀) (s := x) ?_ ?_; rotate_left; clear_value x; intro _; rotate_left; subst x) | fail_if_no_progress refine Keeps.fields ?_ rfl rfl | intro _ | split | (dsimp +zetaDelta only; split)

theorem State.colHeard_keeps {s₀ s : State} (h : Keeps s₀ s) {r} :
    Keeps s₀ (s.colHeard r) := by
  unfold State.colHeard
  with_reducible repeat'
    first
    | assumption | refine State.setCol_keeps ?_ | fail_if_no_progress refine Keeps.fields ?_ rfl rfl

theorem State.takeOnce_keeps {s₀ s : State} (h : Keeps s₀ s) {src win slot work} (hwork : ∀ t, Keeps s₀ t → Keeps s₀ (work t)) :
    Keeps s₀ (s.takeOnce src win slot work) := by
  unfold State.takeOnce
  with_reducible repeat'
    first
    | assumption | refine hwork _ ?_ | refine State.bump_keeps ?_ | refine State.setCol_keeps ?_
    | refine State.colAdvance_keeps ?_ | fail_if_no_progress refine Keeps.fields ?_ rfl rfl | split

theorem State.takeReduce_keeps {s₀ s : State} (h : Keeps s₀ s) {r p} :
    Keeps s₀ (s.takeReduce r p) := by
  unfold State.takeReduce
  with_reducible repeat'
    first
    | assumption | refine State.takeOnce_keeps ?_ ?_ | refine State.addPayload_keeps ?_ | lift_lets
    | (intro x; refine Keeps.cut (s₀ := s₀) (s := x) ?_ ?_; rotate_left; clear_value x; intro _; rotate_left; subst x) | fail_if_no_progress refine Keeps.fields ?_ rfl rfl | intro _ | split | (dsimp +zetaDelta only; split)

theorem State.takeCopy_keeps {s₀ s : State} (h : Keeps s₀ s) {r p} :
    Keeps s₀ (s.takeCopy r p) := by
  unfold State.takeCopy
  with_reducible repeat'
    first
    | assumption | refine State.takeOnce_keeps ?_ ?_ | refine State.setCol_keeps ?_ | refine State.land_keeps ?_
    | lift_lets
    | (intro x; refine Keeps.cut (s₀ := s₀) (s := x) ?_ ?_; rotate_left; clear_value x; intro _; rotate_left; subst x) | fail_if_no_progress refine Keeps.fields ?_ rfl rfl | intro _ | split | (dsimp +zetaDelta only; split)

theorem State.serveColData_keeps {s₀ s : State} (h : Keeps s₀ s) {p} :
    Keeps s₀ (s.serveColData p) := by
  unfold State.serveColData
  with_reducible repeat'
    first
    | assumption | refine State.bump_keeps ?_ | refine State.colRx_keeps ?_ | refine State.colHeard_keeps ?_
    | refine State.colTransient_keeps ?_ | refine State.takeCopy_keeps ?_ | refine State.takeReduce_keeps ?_
    | lift_lets
    | (intro x; refine Keeps.cut (s₀ := s₀) (s := x) ?_ ?_; rotate_left; clear_value x; intro _; rotate_left; subst x) | fail_if_no_progress refine Keeps.fields ?_ rfl rfl | intro _ | split | (dsimp +zetaDelta only; split)

theorem State.serveColCredit_keeps {s₀ s : State} (h : Keeps s₀ s) {p} :
    Keeps s₀ (s.serveColCredit p) := by
  unfold State.serveColCredit
  with_reducible repeat'
    first
    | assumption | refine State.serveColData_keeps ?_ | refine State.bump_keeps ?_
    | refine State.colAdvance_keeps ?_ | refine State.setCol_keeps ?_ | refine State.colHeard_keeps ?_
    | fail_if_no_progress refine Keeps.fields ?_ rfl rfl | split

theorem State.servePacket_keeps {s₀ s : State} (h : Keeps s₀ s) {p} :
    Keeps s₀ (s.servePacket p) := by
  unfold State.servePacket
  with_reducible repeat'
    first
    | assumption | refine State.serveWrite_keeps ?_ | refine State.serveRead_keeps ?_
    | refine State.serveReadResp_keeps ?_ | refine State.serveWriteAck_keeps ?_
    | refine State.serveComplErr_keeps ?_ | refine State.serveSignal_keeps ?_ | refine State.serveColData_keeps ?_
    | refine State.serveColCredit_keeps ?_ | lift_lets
    | (intro x; refine Keeps.cut (s₀ := s₀) (s := x) ?_ ?_; rotate_left; clear_value x; intro _; rotate_left; subst x) | fail_if_no_progress refine Keeps.fields ?_ rfl rfl | intro _ | split | (dsimp +zetaDelta only; split)

theorem State.evictQueue_keeps {s₀ s : State} (h : Keeps s₀ s) {keep} :
    Keeps s₀ (s.evictQueue keep) := by
  unfold State.evictQueue
  with_reducible repeat'
    first
    | assumption | refine State.store_keeps ?_ | fail_if_no_progress refine Keeps.fields ?_ rfl rfl | split

theorem State.cachePut_keeps {s₀ s : State} (h : Keeps s₀ s) {keep qid d} :
    Keeps s₀ (s.cachePut keep qid d) := by
  unfold State.cachePut
  with_reducible repeat'
    first
    | assumption | refine State.evictQueue_keeps ?_ | fail_if_no_progress refine Keeps.fields ?_ rfl rfl | split

theorem State.loadQueues_keeps {s₀ s : State} (h : Keeps s₀ s) {keep x2} :
    Keeps s₀ (s.loadQueues keep x2) := by
  induction x2 generalizing s with
  | nil => exact h
  | cons y ys ih =>
    rw [State.loadQueues]
    with_reducible repeat'
      first
      | assumption | refine State.bump_keeps ?_ | refine State.cachePut_keeps ?_ | refine ih ?_
      | fail_if_no_progress refine Keeps.fields ?_ rfl rfl | split

theorem State.cacheSet_keeps {s₀ s : State} (h : Keeps s₀ s) {qid d} :
    Keeps s₀ (s.cacheSet qid d) := by
  unfold State.cacheSet
  with_reducible repeat' first | assumption | fail_if_no_progress refine Keeps.fields ?_ rfl rfl | split

theorem State.queueInterrupt_keeps {s₀ s : State} (h : Keeps s₀ s) {d count} :
    Keeps s₀ (s.queueInterrupt d count) := by
  unfold State.queueInterrupt
  with_reducible repeat'
    first
    | assumption | refine State.sendVec_keeps ?_ | fail_if_no_progress refine Keeps.fields ?_ rfl rfl | split

theorem State.queueSignal_keeps {s₀ s : State} (h : Keeps s₀ s) {owner qid d} :
    Keeps s₀ (s.queueSignal owner qid d) := by
  unfold State.queueSignal
  with_reducible repeat'
    first
    | assumption | refine State.request_keeps ?_ | refine State.countSignal_keeps ?_
    | fail_if_no_progress refine Keeps.fields ?_ rfl rfl | split

theorem State.hostDoorbell_keeps {s₀ s : State} (h : Keeps s₀ s) {qid count d} :
    Keeps s₀ (s.hostDoorbell qid count d) := by
  unfold State.hostDoorbell
  with_reducible repeat'
    first
    | assumption | refine State.store_keeps ?_ | refine State.signalCtr_keeps ?_
    | refine State.queueInterrupt_keeps ?_ | refine State.bump_keeps ?_
    | fail_if_no_progress refine Keeps.fields ?_ rfl rfl | split

theorem State.addJob_keeps {s₀ s : State} (h : Keeps s₀ s) {j ref qs} :
    Keeps s₀ (s.addJob j ref qs) := by
  unfold State.addJob
  with_reducible repeat' first | assumption | fail_if_no_progress refine Keeps.fields ?_ rfl rfl

theorem State.runReuse_keeps {s₀ s : State} (h : Keeps s₀ s) {ref j qids} :
    Keeps s₀ (s.runReuse ref j qids) := by
  unfold State.runReuse
  with_reducible repeat'
    first
    | assumption | refine State.putOut_keeps ?_ | refine State.loadQueues_keeps ?_ | refine State.addJob_keeps ?_
    | refine Keeps.foldl ?_ ?_ _ | lift_lets
    | (intro x; refine Keeps.cut (s₀ := s₀) (s := x) ?_ ?_; rotate_left; clear_value x; intro _; rotate_left; subst x) | fail_if_no_progress refine Keeps.fields ?_ rfl rfl | intro _ | split | (dsimp +zetaDelta only; split)

theorem State.writeChoice_keeps {s₀ s : State} (h : Keeps s₀ s) {own j descs qs base c} :
    Keeps s₀ (s.writeChoice own j descs qs base c) := by
  unfold State.writeChoice
  with_reducible repeat'
    first
    | assumption | refine State.putOut_keeps ?_ | fail_if_no_progress refine Keeps.fields ?_ rfl rfl | split

theorem State.countChoices_keeps {s₀ s : State} (h : Keeps s₀ s) {j cs} :
    Keeps s₀ (s.countChoices j cs) := by
  unfold State.countChoices
  with_reducible repeat'
    first
    | assumption | refine State.bumps_keeps ?_ | refine State.notifyRas_keeps ?_ | refine State.stick_keeps ?_
    | lift_lets
    | (intro x; refine Keeps.cut (s₀ := s₀) (s := x) ?_ ?_; rotate_left; clear_value x; intro _; rotate_left; subst x) | fail_if_no_progress refine Keeps.fields ?_ rfl rfl | intro _ | split | (dsimp +zetaDelta only; split)

theorem State.writeDrops_keeps {s₀ s : State} (h : Keeps s₀ s) {own j base ds} :
    Keeps s₀ (s.writeDrops own j base ds) := by
  unfold State.writeDrops
  with_reducible repeat'
    first
    | assumption | refine State.putOut_keeps ?_ | refine Keeps.foldl ?_ ?_ _ | lift_lets
    | (intro x; refine Keeps.cut (s₀ := s₀) (s := x) ?_ ?_; rotate_left; clear_value x; intro _; rotate_left; subst x) | fail_if_no_progress refine Keeps.fields ?_ rfl rfl | intro _ | split | (dsimp +zetaDelta only; split)

theorem State.runDispatch_keeps {s₀ s : State} (h : Keeps s₀ s) {ref j qids} :
    Keeps s₀ (s.runDispatch ref j qids) := by
  unfold State.runDispatch
  with_reducible repeat'
    first
    | assumption | refine State.loadQueues_keeps ?_ | refine State.cacheSet_keeps ?_
    | refine State.tokenBase_keeps ?_ | refine State.writeChoice_keeps ?_ | refine State.countChoices_keeps ?_
    | refine State.writeDrops_keeps ?_ | refine State.addJob_keeps ?_ | refine Keeps.foldl ?_ ?_ _ | lift_lets
    | (intro x; refine Keeps.cut (s₀ := s₀) (s := x) ?_ ?_; rotate_left; clear_value x; intro _; rotate_left; subst x) | (intro x; refine Keeps.cut (s₀ := s₀) (s := x.2) ?_ ?_; rotate_left; clear_value x; intro _; rotate_left; subst x) | fail_if_no_progress refine Keeps.fields ?_ rfl rfl | intro _ | split | (dsimp +zetaDelta only; split)

theorem State.startDispatch_keeps {s₀ s : State} (h : Keeps s₀ s) {u ref j} :
    Keeps s₀ (s.startDispatch u ref j) := by
  unfold State.startDispatch
  with_reducible repeat'
    first
    | assumption | refine State.guarded_keeps ?_ ?_ | refine State.refuseDsp_keeps ?_
    | refine State.runReuse_keeps ?_ | refine State.runDispatch_keeps ?_ | lift_lets
    | (intro x; refine Keeps.cut (s₀ := s₀) (s := x) ?_ ?_; rotate_left; clear_value x; intro _; rotate_left; subst x) | fail_if_no_progress refine Keeps.fields ?_ rfl rfl | intro _ | split | (dsimp +zetaDelta only; split)

theorem State.startReturn_keeps {s₀ s : State} (h : Keeps s₀ s) {u ref j} :
    Keeps s₀ (s.startReturn u ref j) := by
  unfold State.startReturn
  with_reducible repeat'
    first
    | assumption | refine State.guarded_keeps ?_ ?_ | refine State.refuseDsp_keeps ?_
    | refine State.addJob_keeps ?_ | refine State.putOut_keeps ?_ | refine Keeps.foldl ?_ ?_ _ | lift_lets
    | (intro x; refine Keeps.cut (s₀ := s₀) (s := x) ?_ ?_; rotate_left; clear_value x; intro _; rotate_left; subst x) | fail_if_no_progress refine Keeps.fields ?_ rfl rfl | intro _ | split | (dsimp +zetaDelta only; split)

theorem State.startCombine_keeps {s₀ s : State} (h : Keeps s₀ s) {u ref j} :
    Keeps s₀ (s.startCombine u ref j) := by
  unfold State.startCombine
  with_reducible repeat'
    first
    | assumption | refine State.guarded_keeps ?_ ?_ | refine State.refuseDsp_keeps ?_
    | refine State.addJob_keeps ?_ | refine State.putsOut_keeps ?_ | lift_lets
    | (intro x; refine Keeps.cut (s₀ := s₀) (s := x) ?_ ?_; rotate_left; clear_value x; intro _; rotate_left; subst x) | fail_if_no_progress refine Keeps.fields ?_ rfl rfl | intro _ | split | (dsimp +zetaDelta only; split)

theorem State.startDspJob_keeps {s₀ s : State} (h : Keeps s₀ s) {ref addr} :
    Keeps s₀ (s.startDspJob ref addr) := by
  unfold State.startDspJob
  with_reducible repeat'
    first
    | assumption | refine State.guarded_keeps ?_ ?_ | refine State.refuseDsp_keeps ?_
    | refine State.startDispatch_keeps ?_ | refine State.startReturn_keeps ?_ | refine State.startCombine_keeps ?_
    | lift_lets
    | (intro x; refine Keeps.cut (s₀ := s₀) (s := x) ?_ ?_; rotate_left; clear_value x; intro _; rotate_left; subst x) | fail_if_no_progress refine Keeps.fields ?_ rfl rfl | intro _ | split | (dsimp +zetaDelta only; split)

theorem State.startWaiting_keeps {s₀ s : State} (h : Keeps s₀ s) {x1} :
    Keeps s₀ (State.startWaiting x1 s) := by
  induction x1 generalizing s with
  | zero => exact h
  | succ n ih =>
    rw [State.startWaiting]
    split
    · exact h
    · split
      · exact h
      · exact ih (State.startDspJob_keeps (h.fields rfl rfl))

theorem State.dropJobs_keeps {s₀ s : State} (h : Keeps s₀ s) {ref} :
    Keeps s₀ (s.dropJobs ref) := by
  unfold State.dropJobs
  with_reducible repeat'
    first
    | assumption | refine State.startWaiting_keeps ?_ | fail_if_no_progress refine Keeps.fields ?_ rfl rfl

theorem State.issueJob_keeps {s₀ s : State} (h : Keeps s₀ s) {core desc kind} :
    Keeps s₀ (s.issueJob core desc kind) := by
  unfold State.issueJob
  with_reducible repeat'
    first
    | assumption | refine State.startDspJob_keeps ?_ | refine State.startWaiting_keeps ?_ | lift_lets
    | (intro x; refine Keeps.cut (s₀ := s₀) (s := x) ?_ ?_; rotate_left; clear_value x; intro _; rotate_left; subst x) | fail_if_no_progress refine Keeps.fields ?_ rfl rfl | intro _ | split | (dsimp +zetaDelta only; split)

theorem State.sendHeader_keeps {s₀ s : State} (h : Keeps s₀ s) {own q} :
    Keeps s₀ (s.sendHeader own q) := by
  unfold State.sendHeader
  with_reducible repeat'
    first
    | assumption | refine State.putOut_keeps ?_ | fail_if_no_progress refine Keeps.fields ?_ rfl rfl

theorem State.closeQueue_keeps {s₀ s : State} (h : Keeps s₀ s) {own q} :
    Keeps s₀ (s.closeQueue own q) := by
  unfold State.closeQueue
  with_reducible repeat'
    first
    | assumption | refine State.queueInterrupt_keeps ?_ | refine State.queueSignal_keeps ?_
    | refine State.cacheSet_keeps ?_ | fail_if_no_progress refine Keeps.fields ?_ rfl rfl

theorem State.retireJob_keeps {s₀ s : State} (h : Keeps s₀ s) {desc ref} :
    Keeps s₀ (s.retireJob desc ref) := by
  unfold State.retireJob
  with_reducible repeat'
    first
    | assumption | refine State.startWaiting_keeps ?_ | fail_if_no_progress refine Keeps.fields ?_ rfl rfl

theorem State.setJob_keeps {s₀ s : State} (h : Keeps s₀ s) {desc ref f} :
    Keeps s₀ (s.setJob desc ref f) := by
  unfold State.setJob
  with_reducible repeat' first | assumption | fail_if_no_progress refine Keeps.fields ?_ rfl rfl | split

theorem State.endJob_keeps {s₀ s : State} (h : Keeps s₀ s) {j} :
    Keeps s₀ (s.endJob j) := by
  unfold State.endJob
  with_reducible repeat'
    first
    | assumption | refine State.setJob_keeps ?_ | refine State.sendHeader_keeps ?_
    | refine State.retireJob_keeps ?_ | refine State.closeQueue_keeps ?_ | refine Keeps.foldl ?_ ?_ _ | lift_lets
    | (intro x; refine Keeps.cut (s₀ := s₀) (s := x) ?_ ?_; rotate_left; clear_value x; intro _; rotate_left; subst x) | fail_if_no_progress refine Keeps.fields ?_ rfl rfl | intro _ | split | (dsimp +zetaDelta only; split)

theorem State.writeMapIn_keeps {s₀ s : State} (h : Keeps s₀ s) {l q} :
    Keeps s₀ (s.writeMapIn l q) := by
  unfold State.writeMapIn
  with_reducible repeat'
    first
    | assumption | refine State.persist_keeps ?_ | refine State.journal_keeps ?_
    | fail_if_no_progress refine Keeps.fields ?_ rfl rfl

theorem State.markFailed_keeps {s₀ s : State} (h : Keeps s₀ s) {l} :
    Keeps s₀ (s.markFailed l) := by
  unfold State.markFailed
  split
  · exact h
  · exact State.persist_keeps h

theorem State.mapInWith_keeps {s₀ s : State} (h : Keeps s₀ s) {l x2} :
    Keeps s₀ (s.mapInWith l x2) := by
  unfold State.mapInWith
  with_reducible repeat'
    first
    | assumption | refine State.writeMapIn_keeps ?_ | refine State.raise_keeps ?_ | refine State.markFailed_keeps ?_
    | fail_if_no_progress refine Keeps.fields ?_ rfl rfl | split

theorem State.takeSpare_keeps {s₀ s : State} (h : Keeps s₀ s) {l} :
    Keeps s₀ (s.takeSpare l) := by
  unfold State.takeSpare
  with_reducible repeat'
    first
    | assumption | refine State.mapInWith_keeps ?_ | fail_if_no_progress refine Keeps.fields ?_ rfl rfl

theorem State.resumeMapIns_keeps {s₀ s : State} (h : Keeps s₀ s) :
    Keeps s₀ (s.resumeMapIns) := by
  unfold State.resumeMapIns
  with_reducible repeat'
    first
    | assumption | refine State.takeSpare_keeps ?_ | refine Keeps.foldl ?_ ?_ _ | lift_lets
    | (intro x; refine Keeps.cut (s₀ := s₀) (s := x) ?_ ?_; rotate_left; clear_value x; intro _; rotate_left; subst x) | fail_if_no_progress refine Keeps.fields ?_ rfl rfl | intro _ | split | (dsimp +zetaDelta only; split)

theorem State.mapInsDue_keeps {s₀ s : State} (h : Keeps s₀ s) :
    Keeps s₀ (s.mapInsDue) := by
  unfold State.mapInsDue
  with_reducible repeat' first | assumption | fail_if_no_progress refine Keeps.fields ?_ rfl rfl | split

theorem State.dropWork_keeps {s₀ s : State} (h : Keeps s₀ s) {r} :
    Keeps s₀ (s.dropWork r) := by
  unfold State.dropWork
  with_reducible repeat'
    first
    | assumption | refine State.dropTrans_keeps ?_ | refine State.dropJobs_keeps ?_
    | refine State.putEngine_keeps ?_ | fail_if_no_progress refine Keeps.fields ?_ rfl rfl | split

theorem State.stopUnit_keeps {s₀ s : State} (h : Keeps s₀ s) {u} :
    Keeps s₀ (s.stopUnit u) := by
  unfold State.stopUnit
  with_reducible repeat'
    first
    | assumption | refine State.failRun_keeps ?_ | refine State.dropWork_keeps ?_ | refine Keeps.foldl ?_ ?_ _
    | lift_lets
    | (intro x; refine Keeps.cut (s₀ := s₀) (s := x) ?_ ?_; rotate_left; clear_value x; intro _; rotate_left; subst x) | fail_if_no_progress refine Keeps.fields ?_ rfl rfl | intro _ | split | (dsimp +zetaDelta only; split)

theorem State.idleCore_keeps {s₀ s : State} (h : Keeps s₀ s) {l} :
    Keeps s₀ (s.idleCore l) := by
  unfold State.idleCore
  with_reducible repeat'
    first
    | assumption | refine State.stopUnit_keeps ?_ | fail_if_no_progress refine Keeps.fields ?_ rfl rfl | split

theorem State.autoMapIn_keeps {s₀ s : State} (h : Keeps s₀ s) {l} :
    Keeps s₀ (s.autoMapIn l) := by
  unfold State.autoMapIn
  with_reducible repeat'
    first
    | assumption | refine State.idleCore_keeps ?_ | refine State.takeSpare_keeps ?_ | lift_lets
    | (intro x; refine Keeps.cut (s₀ := s₀) (s := x) ?_ ?_; rotate_left; clear_value x; intro _; rotate_left; subst x) | fail_if_no_progress refine Keeps.fields ?_ rfl rfl | intro _ | split | (dsimp +zetaDelta only; split)

theorem State.hardCore_keeps {s₀ s : State} (h : Keeps s₀ s) {l} :
    Keeps s₀ (s.hardCore l) := by
  unfold State.hardCore
  with_reducible repeat'
    first
    | assumption | refine State.idleCore_keeps ?_ | refine State.raise_keeps ?_ | refine State.autoMapIn_keeps ?_
    | lift_lets
    | (intro x; refine Keeps.cut (s₀ := s₀) (s := x) ?_ ?_; rotate_left; clear_value x; intro _; rotate_left; subst x) | fail_if_no_progress refine Keeps.fields ?_ rfl rfl | intro _ | split | (dsimp +zetaDelta only; split)

theorem State.noteFatal_keeps {s₀ s : State} (h : Keeps s₀ s) {l} :
    Keeps s₀ (s.noteFatal l) := by
  unfold State.noteFatal
  with_reducible repeat'
    first
    | assumption | refine State.hardCore_keeps ?_ | lift_lets
    | (intro x; refine Keeps.cut (s₀ := s₀) (s := x) ?_ ?_; rotate_left; clear_value x; intro _; rotate_left; subst x) | fail_if_no_progress refine Keeps.fields ?_ rfl rfl | intro _ | split | (dsimp +zetaDelta only; split)

theorem State.raiseNoted_keeps {s₀ s : State} (h : Keeps s₀ s) {c u detail half} :
    Keeps s₀ (s.raiseNoted c u detail half) := by
  unfold State.raiseNoted
  with_reducible repeat'
    first
    | assumption | refine State.raiseFull_keeps ?_ | refine State.noteFatal_keeps ?_
    | fail_if_no_progress refine Keeps.fields ?_ rfl rfl | split

theorem State.mapInGates_keeps {s₀ s : State} (h : Keeps s₀ s) {p q} :
    Keeps s₀ (s.mapInGates p q) := by
  unfold State.mapInGates
  with_reducible repeat' first | assumption | fail_if_no_progress refine Keeps.fields ?_ rfl rfl

theorem State.warnSpares_keeps {s₀ s : State} (h : Keeps s₀ s) {l} :
    Keeps s₀ (s.warnSpares l) := by
  unfold State.warnSpares
  with_reducible repeat'
    first
    | assumption | refine State.raise_keeps ?_ | lift_lets
    | (intro x; refine Keeps.cut (s₀ := s₀) (s := x) ?_ ?_; rotate_left; clear_value x; intro _; rotate_left; subst x) | fail_if_no_progress refine Keeps.fields ?_ rfl rfl | intro _ | split | (dsimp +zetaDelta only; split)

theorem State.takeMapIn_keeps {s₀ s : State} (h : Keeps s₀ s) {l q} :
    Keeps s₀ (s.takeMapIn l q) := by
  unfold State.takeMapIn
  generalize (0x008000000000 + l * 0x400000) = store
  dsimp only
  refine State.warnSpares_keeps (State.stick_keeps (State.bump_keeps (State.mapInGates_keeps ?_)))
  refine h.withMem (fun k => ?_) rfl rfl
  exact Memory.wf_mzero k _ _

theorem State.setMirror_keeps {s₀ s : State} (h : Keeps s₀ s) {f} :
    Keeps s₀ (s.setMirror f) := by
  unfold State.setMirror
  with_reducible repeat' first | assumption | fail_if_no_progress refine Keeps.fields ?_ rfl rfl

theorem State.dropMirror_keeps {s₀ s : State} (h : Keeps s₀ s) :
    Keeps s₀ (s.dropMirror) := by
  unfold State.dropMirror
  with_reducible repeat'
    first
    | assumption | refine State.dropTrans_keeps ?_ | refine State.setMirror_keeps ?_
    | fail_if_no_progress refine Keeps.fields ?_ rfl rfl

theorem State.mirrorLateCheck_keeps {s₀ s : State} (h : Keeps s₀ s) :
    Keeps s₀ (s.mirrorLateCheck) := by
  unfold State.mirrorLateCheck
  with_reducible repeat'
    first
    | assumption | refine State.raise_keeps ?_ | refine State.stick_keeps ?_ | refine State.bump_keeps ?_
    | refine State.dropMirror_keeps ?_ | fail_if_no_progress refine Keeps.fields ?_ rfl rfl | split

theorem State.takeOwn_keeps {s₀ s : State} (h : Keeps s₀ s) {x1} :
    Keeps s₀ (s.takeOwn x1) := by
  unfold State.takeOwn
  with_reducible repeat'
    first
    | assumption | refine State.setMirror_keeps ?_ | fail_if_no_progress refine Keeps.fields ?_ rfl rfl | split

theorem State.refreshOwn_keeps {s₀ s : State} (h : Keeps s₀ s) :
    Keeps s₀ (s.refreshOwn) := by
  unfold State.refreshOwn
  with_reducible repeat'
    first
    | assumption | refine State.takeOwn_keeps ?_ | fail_if_no_progress refine Keeps.fields ?_ rfl rfl

theorem State.pairStep_keeps {s₀ s : State} (h : Keeps s₀ s) :
    Keeps s₀ (s.pairStep) := by
  unfold State.pairStep
  with_reducible repeat'
    first
    | assumption | refine State.setMirror_keeps ?_ | refine State.stick_keeps ?_ | refine State.refreshOwn_keeps ?_
    | lift_lets
    | (intro x; refine Keeps.cut (s₀ := s₀) (s := x) ?_ ?_; rotate_left; clear_value x; intro _; rotate_left; subst x) | fail_if_no_progress refine Keeps.fields ?_ rfl rfl | intro _ | split | (dsimp +zetaDelta only; split)

theorem State.readPartner_keeps {s₀ s : State} (h : Keeps s₀ s) {off n} :
    Keeps s₀ (s.readPartner off n) := by
  unfold State.readPartner
  with_reducible repeat'
    first
    | assumption | refine State.request_keeps ?_ | refine Keeps.foldl ?_ ?_ _ | lift_lets
    | (intro x; refine Keeps.cut (s₀ := s₀) (s := x) ?_ ?_; rotate_left; clear_value x; intro _; rotate_left; subst x) | fail_if_no_progress refine Keeps.fields ?_ rfl rfl | intro _ | split | (dsimp +zetaDelta only; split)

theorem State.readRecord_keeps {s₀ s : State} (h : Keeps s₀ s) :
    Keeps s₀ (s.readRecord) := by
  unfold State.readRecord
  with_reducible repeat'
    first
    | assumption | refine State.readPartner_keeps ?_ | fail_if_no_progress refine Keeps.fields ?_ rfl rfl

theorem State.pairTick_keeps {s₀ s : State} (h : Keeps s₀ s) :
    Keeps s₀ (s.pairTick) := by
  unfold State.pairTick
  with_reducible repeat'
    first
    | assumption | refine State.pairStep_keeps ?_ | refine State.readRecord_keeps ?_ | lift_lets
    | (intro x; refine Keeps.cut (s₀ := s₀) (s := x) ?_ ?_; rotate_left; clear_value x; intro _; rotate_left; subst x) | fail_if_no_progress refine Keeps.fields ?_ rfl rfl | intro _ | split | (dsimp +zetaDelta only; split)

theorem State.startCopy_keeps {s₀ s : State} (h : Keeps s₀ s) {ssb} :
    Keeps s₀ (s.startCopy ssb) := by
  unfold State.startCopy
  with_reducible repeat'
    first
    | assumption | refine State.setMirror_keeps ?_ | refine State.refreshOwn_keeps ?_
    | refine State.remoteWrite_keeps ?_ | fail_if_no_progress refine Keeps.fields ?_ rfl rfl

theorem State.mirrorAttempt_keeps {s₀ s : State} (h : Keeps s₀ s) :
    Keeps s₀ (s.mirrorAttempt) := by
  unfold State.mirrorAttempt
  with_reducible repeat'
    first
    | assumption | refine State.startCopy_keeps ?_ | fail_if_no_progress refine Keeps.fields ?_ rfl rfl | split

theorem Keeps.foldlFst {α β : Type} {s₀ : State} {f : State × β → α → State × β}
    (hf : ∀ x a, Keeps s₀ x.1 → Keeps s₀ (f x a).1) {x : State × β} (h : Keeps s₀ x.1) (xs : List α) :
    Keeps s₀ (xs.foldl f x).1 := by
  induction xs generalizing x with
  | nil => exact h
  | cons a xs ih => exact ih (hf x a h)

theorem State.restoreTensor_keeps {s₀ s : State} (h : Keeps s₀ s) {d src} :
    Keeps s₀ (s.restoreTensor d src) := by
  unfold State.restoreTensor
  dsimp only
  refine State.store_keeps (State.store_keeps (Keeps.foldlFst (fun x p k => ?_) h _))
  dsimp only
  split
  · exact k
  · exact State.store_keeps k

theorem State.restoreEntries_keeps {s₀ s : State} (h : Keeps s₀ s) {src x2} :
    Keeps s₀ (s.restoreEntries src x2) := by
  induction x2 generalizing s src with
  | nil => exact h
  | cons e es ih =>
    rw [State.restoreEntries]
    refine ih ?_
    split
    · exact State.restoreTensor_keeps h
    · exact State.store_keeps h

theorem State.restoreImage_keeps {s₀ s : State} (h : Keeps s₀ s) {a} :
    Keeps s₀ (s.restoreImage a) := by
  unfold State.restoreImage
  with_reducible repeat'
    first
    | assumption | refine State.restoreEntries_keeps ?_ | refine State.setLup_keeps ?_
    | refine State.putPair_keeps ?_ | fail_if_no_progress refine Keeps.fields ?_ rfl rfl | split

theorem State.endRestore_keeps {s₀ s : State} (h : Keeps s₀ s) {rec_ a more} (hmore : ∀ t, Keeps s₀ t → Keeps s₀ (more t)) :
    Keeps s₀ (s.endRestore rec_ a more) := by
  unfold State.endRestore
  with_reducible repeat'
    first
    | assumption | refine hmore _ ?_ | refine State.finishRecord_keeps ?_ | refine State.stick_keeps ?_
    | refine State.bump_keeps ?_ | refine State.restoreImage_keeps ?_
    | fail_if_no_progress refine Keeps.fields ?_ rfl rfl | split

theorem State.beginPair_keeps {s₀ s : State} (h : Keeps s₀ s) {ps} :
    Keeps s₀ (s.beginPair ps) := by
  unfold State.beginPair
  with_reducible repeat'
    first
    | assumption | refine State.setMirror_keeps ?_ | refine State.pairStep_keeps ?_
    | refine State.readRecord_keeps ?_ | refine State.store_keeps ?_
    | fail_if_no_progress refine Keeps.fields ?_ rfl rfl

theorem State.clearHeld_keeps {s₀ s : State} (h : Keeps s₀ s) :
    Keeps s₀ (s.clearHeld) := by
  exact (State.store_keeps (State.store_keeps h)).withMem (fun k => Memory.wf_mzero k _ _) rfl rfl

theorem State.unpair_keeps {s₀ s : State} (h : Keeps s₀ s) :
    Keeps s₀ (s.unpair) := by
  unfold State.unpair
  with_reducible repeat'
    first
    | assumption | refine State.clearHeld_keeps ?_ | refine State.dropTrans_keeps ?_
    | refine State.setMirror_keeps ?_ | fail_if_no_progress refine Keeps.fields ?_ rfl rfl | split

theorem State.pairReply_keeps {s₀ s : State} (h : Keeps s₀ s) :
    Keeps s₀ (s.pairReply).st := by
  unfold State.pairReply
  with_reducible repeat'
    first
    | assumption | refine State.no_keeps ?_ | refine State.ok_keeps ?_
    | fail_if_no_progress refine Keeps.fields ?_ rfl rfl | split

theorem State.readImage_keeps {s₀ s : State} (h : Keeps s₀ s) {half} :
    Keeps s₀ (s.readImage half) := by
  unfold State.readImage
  with_reducible repeat'
    first
    | assumption | refine State.readPartner_keeps ?_ | fail_if_no_progress refine Keeps.fields ?_ rfl rfl

theorem State.setFilling_keeps {s₀ s : State} (h : Keeps s₀ s) :
    Keeps s₀ (s.setFilling) := by
  unfold State.setFilling
  with_reducible repeat'
    first
    | assumption | refine State.setMirror_keeps ?_ | fail_if_no_progress refine Keeps.fields ?_ rfl rfl

theorem Reply.thenDo_keeps {s₀ : State} {r : Reply} (h : Keeps s₀ r.st) {f : State → State}
    (hf : ∀ t, Keeps s₀ t → Keeps s₀ (f t)) : Keeps s₀ (r.thenDo f).st := by
  unfold Reply.thenDo
  split
  · exact hf _ h
  · exact h

theorem State.beginExport_keeps {s₀ s : State} (h : Keeps s₀ s) {mb source dst n t bytes} :
    Keeps s₀ (s.beginExport mb source dst n t bytes).st := by
  unfold State.beginExport
  split
  · exact h
  · exact Reply.thenDo_keeps (State.startLong_keeps h) fun _ k => State.putOut_keeps k

theorem State.readSource_keeps {s₀ s : State} (h : Keeps s₀ s) {src n} :
    Keeps s₀ (s.readSource src n) := by
  unfold State.readSource
  with_reducible repeat'
    first
    | assumption | refine State.request_keeps ?_ | refine Keeps.foldl ?_ ?_ _ | lift_lets
    | (intro x; refine Keeps.cut (s₀ := s₀) (s := x) ?_ ?_; rotate_left; clear_value x; intro _; rotate_left; subst x) | fail_if_no_progress refine Keeps.fields ?_ rfl rfl | intro _ | split | (dsimp +zetaDelta only; split)

theorem State.replayStep_keeps {s₀ s : State} (h : Keeps s₀ s) :
    Keeps s₀ (s.replayStep) := by
  unfold State.replayStep
  with_reducible repeat'
    first
    | assumption | refine State.putRecord_keeps ?_ | refine State.finishRecord_keeps ?_
    | fail_if_no_progress refine Keeps.fields ?_ rfl rfl | split

theorem State.hostCopy_keeps {s₀ s : State} (h : Keeps s₀ s) {t} :
    Keeps s₀ (s.hostCopy t) := by
  unfold State.hostCopy
  with_reducible repeat'
    first
    | assumption | refine State.store_keeps ?_ | fail_if_no_progress refine Keeps.fields ?_ rfl rfl | split

theorem State.hostCatchup_keeps {s₀ s : State} (h : Keeps s₀ s) :
    Keeps s₀ (s.hostCatchup) := by
  unfold State.hostCatchup
  with_reducible repeat'
    first
    | assumption | refine State.hostCopy_keeps ?_ | refine Keeps.foldl ?_ ?_ _ | lift_lets
    | (intro x; refine Keeps.cut (s₀ := s₀) (s := x) ?_ ?_; rotate_left; clear_value x; intro _; rotate_left; subst x) | fail_if_no_progress refine Keeps.fields ?_ rfl rfl | intro _ | split | (dsimp +zetaDelta only; split)

theorem State.hostLag_keeps {s₀ s : State} (h : Keeps s₀ s) {t} :
    Keeps s₀ (s.hostLag t) := by
  unfold State.hostLag
  with_reducible repeat'
    first
    | assumption | refine State.raise_keeps ?_ | refine State.stick_keeps ?_
    | fail_if_no_progress refine Keeps.fields ?_ rfl rfl | split

theorem State.logToHost_keeps {s₀ s : State} (h : Keeps s₀ s) {t} :
    Keeps s₀ (s.logToHost t) := by
  unfold State.logToHost
  with_reducible repeat'
    first
    | assumption | refine State.hostCopy_keeps ?_ | refine State.hostCatchup_keeps ?_
    | refine State.hostLag_keeps ?_ | fail_if_no_progress refine Keeps.fields ?_ rfl rfl | split

theorem State.logToPartner_keeps {s₀ s : State} (h : Keeps s₀ s) {t e} :
    Keeps s₀ (s.logToPartner t e) := by
  unfold State.logToPartner
  with_reducible repeat'
    first
    | assumption | refine State.remoteWrite_keeps ?_ | lift_lets
    | (intro x; refine Keeps.cut (s₀ := s₀) (s := x) ?_ ?_; rotate_left; clear_value x; intro _; rotate_left; subst x) | fail_if_no_progress refine Keeps.fields ?_ rfl rfl | intro _ | split | (dsimp +zetaDelta only; split)

theorem State.flerraCommit_keeps {s₀ s : State} (h : Keeps s₀ s) {tick} :
    Keeps s₀ (s.flerraCommit tick) := by
  unfold State.flerraCommit
  with_reducible repeat'
    first
    | assumption | refine State.replayStep_keeps ?_ | refine State.stick_keeps ?_ | refine State.store_keeps ?_
    | refine State.logToHost_keeps ?_ | refine State.logToPartner_keeps ?_
    | fail_if_no_progress refine Keeps.fields ?_ rfl rfl | split

theorem State.refreshFlerra_keeps {s₀ s : State} (h : Keeps s₀ s) :
    Keeps s₀ (s.refreshFlerra) := by
  unfold State.refreshFlerra
  with_reducible repeat'
    first
    | assumption | refine Keeps.foldl ?_ ?_ _ | fail_if_no_progress refine Keeps.fields ?_ rfl rfl | split

theorem State.restoreRing_keeps {s₀ s : State} (h : Keeps s₀ s) :
    Keeps s₀ (s.restoreRing) := by
  unfold State.restoreRing
  with_reducible repeat'
    first
    | assumption | refine State.refreshFlerra_keeps ?_ | refine State.store_keeps ?_
    | fail_if_no_progress refine Keeps.fields ?_ rfl rfl

end

end Sys2Proof.Machine
end

