-- ==== Sys2Proof/Laws/KeepsSteps.lean ====
section
/-! SUPPORT. That the operations of Machine/LongOps.lean, Machine/Programs.lean, Machine/Epoch.lean, Machine/Align.lean, Machine/Commit.lean, Machine/Hbm.lean, Machine/Dma.lean, Machine/Stash.lean keep what Laws/Keeps.lean says of every effect. -/

namespace Sys2Proof.Machine

section

set_option linter.unusedTactic false
set_option linter.unreachableTactic false

theorem State.endLayout_keeps {s₀ s : State} (h : Keeps s₀ s) {i p} :
    Keeps s₀ (s.endLayout i p) := by
  unfold State.endLayout
  with_reducible repeat'
    first
    | assumption | refine State.zeroHbm_keeps ?_ | refine State.finishRecord_keeps ?_
    | fail_if_no_progress refine Keeps.fields ?_ rfl rfl

theorem State.endUpdate_keeps {s₀ s : State} (h : Keeps s₀ s) {i isB im} :
    Keeps s₀ (s.endUpdate i isB im) := by
  unfold State.endUpdate
  with_reducible repeat'
    first
    | assumption | refine State.finishRecord_keeps ?_ | refine State.persist_keeps ?_
    | fail_if_no_progress refine Keeps.fields ?_ rfl rfl | split

theorem State.endFillWith_keeps {s₀ s : State} (h : Keeps s₀ s) {i x2} :
    Keeps s₀ (s.endFillWith i x2) := by
  cases x2 with
  | none => exact State.abortFill_keeps h
  | some i => exact State.endRestore_keeps (State.setMirror_keeps h) fun _ k => State.restoreRing_keeps k

theorem State.endFill_keeps {s₀ s : State} (h : Keeps s₀ s) {i t} :
    Keeps s₀ (s.endFill i t) := by
  unfold State.endFill
  with_reducible repeat'
    first
    | assumption | refine State.endFillWith_keeps ?_ | fail_if_no_progress refine Keeps.fields ?_ rfl rfl

theorem State.endPush_keeps {s₀ s : State} (h : Keeps s₀ s) {i} :
    Keeps s₀ (s.endPush i) := by
  unfold State.endPush
  with_reducible repeat'
    first
    | assumption | refine State.finishRecord_keeps ?_ | refine State.bump_keeps ?_
    | refine State.setMirror_keeps ?_ | fail_if_no_progress refine Keeps.fields ?_ rfl rfl

theorem State.endExport_keeps {s₀ s : State} (h : Keeps s₀ s) {i source t} :
    Keeps s₀ (s.endExport i source t) := by
  unfold State.endExport
  with_reducible repeat'
    first
    | assumption | refine State.finishRecord_keeps ?_ | fail_if_no_progress refine Keeps.fields ?_ rfl rfl | split

theorem State.longDone_keeps {s₀ s : State} (h : Keeps s₀ s) {i p} :
    Keeps s₀ (s.longDone i p) := by
  unfold State.longDone
  split
  case h_8 => split; exacts [h, State.endRestore_keeps h fun _ k => k]
  with_reducible repeat'
    first
    | assumption | refine State.finishRecord_keeps ?_ | refine State.endLayout_keeps ?_
    | refine State.endUpdate_keeps ?_ | refine State.sweepEnd_keeps ?_ | refine State.endFill_keeps ?_
    | refine State.endPush_keeps ?_ | refine State.endExport_keeps ?_ | refine State.endRestore_keeps ?_ ?_
    | fail_if_no_progress refine Keeps.fields ?_ rfl rfl | split

theorem State.longFailed_keeps {s₀ s : State} (h : Keeps s₀ s) {i p x} :
    Keeps s₀ (s.longFailed i p x) := by
  unfold State.longFailed
  with_reducible repeat'
    first
    | assumption | refine State.finishRecord_keeps ?_ | refine State.sweepEnd_keeps ?_
    | refine State.setMirror_keeps ?_ | refine State.dropMirror_keeps ?_ | refine State.stick_keeps ?_
    | fail_if_no_progress refine Keeps.fields ?_ rfl rfl | split

theorem State.loadReply_keeps {s₀ s : State} (h : Keeps s₀ s) {x id w} :
    Keeps s₀ (s.loadReply x id w).st := by
  exact h

theorem State.armMode_keeps {s₀ s : State} (h : Keeps s₀ s) {b e t} :
    Keeps s₀ (s.armMode b e t) := by
  unfold State.armMode
  with_reducible repeat' first | assumption | fail_if_no_progress refine Keeps.fields ?_ rfl rfl

theorem State.noteArm_keeps {s₀ s : State} (h : Keeps s₀ s) {b e t} :
    Keeps s₀ (s.noteArm b e t) := by
  unfold State.noteArm
  with_reducible repeat'
    first
    | assumption | lift_lets
    | (intro x; refine Keeps.cut (s₀ := s₀) (s := x) ?_ ?_; rotate_left; clear_value x; intro _; rotate_left; subst x) | fail_if_no_progress refine Keeps.fields ?_ rfl rfl | intro _ | split | (dsimp +zetaDelta only; split)

theorem State.armAgain_keeps {s₀ s : State} (h : Keeps s₀ s) {b e t} :
    Keeps s₀ (s.armAgain b e t) := by
  unfold State.armAgain
  with_reducible repeat'
    first
    | assumption | refine State.armMiss_keeps ?_ | lift_lets
    | (intro x; refine Keeps.cut (s₀ := s₀) (s := x) ?_ ?_; rotate_left; clear_value x; intro _; rotate_left; subst x) | fail_if_no_progress refine Keeps.fields ?_ rfl rfl | intro _ | split | (dsimp +zetaDelta only; split)

theorem State.arm_keeps {s₀ s : State} (h : Keeps s₀ s) {b e t} :
    Keeps s₀ (s.arm b e t).1 := by
  unfold State.arm
  with_reducible repeat'
    first
    | assumption | refine State.noteArm_keeps ?_ | refine State.armAgain_keeps ?_ | refine State.armMode_keeps ?_
    | fail_if_no_progress refine Keeps.fields ?_ rfl rfl | split

theorem State.fromFm_keeps {s₀ s : State} (h : Keeps s₀ s) {src k} (hk : ∀ t, Keeps s₀ t → Keeps s₀ (k t)) :
    Keeps s₀ (s.fromFm src k) := by
  unfold State.fromFm
  with_reducible repeat'
    first
    | assumption | refine hk _ ?_ | refine State.fromManager_keeps ?_ ?_
    | fail_if_no_progress refine Keeps.fields ?_ rfl rfl | split

theorem State.armMsg_keeps {s₀ s : State} (h : Keeps s₀ s) {b e t} :
    Keeps s₀ (s.armMsg b e t) := by
  have k := State.arm_keeps h (b := b) (e := e) (t := t)
  unfold State.armMsg
  split <;> next e => rw [e] at k; exact State.say_keeps k

theorem State.noteAbort_keeps {s₀ s : State} (h : Keeps s₀ s) {e} :
    Keeps s₀ (s.noteAbort e) := by
  unfold State.noteAbort
  with_reducible repeat' first | assumption | fail_if_no_progress refine Keeps.fields ?_ rfl rfl | split

theorem State.abortEpoch_keeps {s₀ s : State} (h : Keeps s₀ s) {e} :
    Keeps s₀ (s.abortEpoch e).1 := by
  unfold State.abortEpoch
  with_reducible repeat'
    first
    | assumption | refine State.noteAbort_keeps ?_ | fail_if_no_progress refine Keeps.fields ?_ rfl rfl | split

theorem State.abortMsg_keeps {s₀ s : State} (h : Keeps s₀ s) {e} :
    Keeps s₀ (s.abortMsg e) := by
  have k := State.abortEpoch_keeps h (e := e)
  unfold State.abortMsg
  split <;> next e => rw [e] at k; exact State.say_keeps k

theorem State.rollbackTo_keeps {s₀ s : State} (h : Keeps s₀ s) {e t} :
    Keeps s₀ (s.rollbackTo e t).1 := by
  unfold State.rollbackTo
  with_reducible repeat'
    first
    | assumption | refine State.armMiss_keeps ?_ | fail_if_no_progress refine Keeps.fields ?_ rfl rfl | split

theorem State.rollbackMsg_keeps {s₀ s : State} (h : Keeps s₀ s) {e t} :
    Keeps s₀ (s.rollbackMsg e t) := by
  have k := State.rollbackTo_keeps h (e := e) (t := t)
  unfold State.rollbackMsg
  split
  · next e => rw [e] at k; exact State.say_keeps k
  · next e => rw [e] at k; exact State.armMiss_keeps k
  · next e => rw [e] at k; exact State.say_keeps k

theorem State.swapBanks_keeps {s₀ s : State} (h : Keeps s₀ s) {prog plan} :
    Keeps s₀ (s.swapBanks prog plan) := by
  unfold State.swapBanks
  with_reducible repeat' first | assumption | fail_if_no_progress refine Keeps.fields ?_ rfl rfl | split

theorem State.leaveHold_keeps {s₀ s : State} (h : Keeps s₀ s) :
    Keeps s₀ (s.leaveHold) := by
  unfold State.leaveHold
  with_reducible repeat'
    first
    | assumption | refine State.setLup_keeps ?_ | fail_if_no_progress refine Keeps.fields ?_ rfl rfl | split

theorem State.takeMode_keeps {s₀ s : State} (h : Keeps s₀ s) {a} :
    Keeps s₀ (s.takeMode a) := by
  unfold State.takeMode
  with_reducible repeat'
    first
    | assumption | refine State.swapBanks_keeps ?_ | refine State.leaveHold_keeps ?_
    | fail_if_no_progress refine Keeps.fields ?_ rfl rfl | split

theorem State.failSwitch_keeps {s₀ s : State} (h : Keeps s₀ s) {a} :
    Keeps s₀ (s.failSwitch a) := by
  unfold State.failSwitch
  with_reducible repeat'
    first
    | assumption | refine State.say_keeps ?_ | refine State.frameEvent_keeps ?_
    | fail_if_no_progress refine Keeps.fields ?_ rfl rfl

theorem State.takeHeld_keeps {s₀ s : State} (h : Keeps s₀ s) {e} :
    Keeps s₀ (s.takeHeld e).2 := by
  unfold State.takeHeld
  with_reducible repeat' first | assumption | fail_if_no_progress refine Keeps.fields ?_ rfl rfl

theorem State.releaseHeld_keeps {s₀ s : State} (h : Keeps s₀ s) :
    Keeps s₀ (s.releaseHeld) := by
  unfold State.releaseHeld
  with_reducible repeat'
    first
    | assumption | refine State.takeHeld_keeps ?_ | refine State.servePacket_keeps ?_ | refine Keeps.foldl ?_ ?_ _
    | lift_lets
    | (intro x; refine Keeps.cut (s₀ := s₀) (s := x) ?_ ?_; rotate_left; clear_value x; intro _; rotate_left; subst x) | (intro x; refine Keeps.cut (s₀ := s₀) (s := x.2) ?_ ?_; rotate_left; clear_value x; intro _; rotate_left; subst x) | fail_if_no_progress refine Keeps.fields ?_ rfl rfl | intro _ | split | (dsimp +zetaDelta only; split)

theorem State.dropHeld_keeps {s₀ s : State} (h : Keeps s₀ s) {e} :
    Keeps s₀ (s.dropHeld e) := by
  unfold State.dropHeld
  with_reducible repeat'
    first
    | assumption | refine State.takeHeld_keeps ?_ | refine State.epochDrop_keeps ?_
    | fail_if_no_progress refine Keeps.fields ?_ rfl rfl

theorem State.restoreMode_keeps {s₀ s : State} (h : Keeps s₀ s) {r} :
    Keeps s₀ (s.restoreMode r) := by
  unfold State.restoreMode
  with_reducible repeat'
    first
    | assumption | refine State.swapBanks_keeps ?_ | fail_if_no_progress refine Keeps.fields ?_ rfl rfl | split

theorem State.takeRollback_keeps {s₀ s : State} (h : Keeps s₀ s) {rb} :
    Keeps s₀ (s.takeRollback rb) := by
  unfold State.takeRollback
  with_reducible repeat'
    first
    | assumption | refine State.restoreMode_keeps ?_ | refine State.releaseHeld_keeps ?_
    | refine State.dropHeld_keeps ?_ | fail_if_no_progress refine Keeps.fields ?_ rfl rfl | split

theorem State.loseTick_keeps {s₀ s : State} (h : Keeps s₀ s) :
    Keeps s₀ (s.loseTick) := by
  unfold State.loseTick
  with_reducible repeat'
    first
    | assumption | refine State.raise_keeps ?_ | refine State.frameEvent_keeps ?_
    | fail_if_no_progress refine Keeps.fields ?_ rfl rfl

theorem State.stepPhase_keeps {s₀ s : State} (h : Keeps s₀ s) {ofs} :
    Keeps s₀ (s.stepPhase ofs) := by
  unfold State.stepPhase
  with_reducible repeat' first | assumption | fail_if_no_progress refine Keeps.fields ?_ rfl rfl

theorem State.takeOffset_keeps {s₀ s : State} (h : Keeps s₀ s) {ofs} :
    Keeps s₀ (s.takeOffset ofs) := by
  unfold State.takeOffset
  with_reducible repeat'
    first
    | assumption | refine State.stepPhase_keeps ?_ | refine State.loseTick_keeps ?_
    | fail_if_no_progress refine Keeps.fields ?_ rfl rfl | split

theorem State.takeNumber_keeps {s₀ s : State} (h : Keeps s₀ s) {lost diff} :
    Keeps s₀ (s.takeNumber lost diff) := by
  unfold State.takeNumber
  with_reducible repeat'
    first
    | assumption | refine State.loseTick_keeps ?_ | fail_if_no_progress refine Keeps.fields ?_ rfl rfl | split

theorem State.closeRound_keeps {s₀ s : State} (h : Keeps s₀ s) :
    Keeps s₀ (s.closeRound) := by
  unfold State.closeRound
  with_reducible repeat'
    first
    | assumption | refine State.takeNumber_keeps ?_ | refine State.takeOffset_keeps ?_ | refine State.bump_keeps ?_
    | fail_if_no_progress refine Keeps.fields ?_ rfl rfl | split

theorem State.takeEcho_keeps {s₀ s : State} (h : Keeps s₀ s) {n t1 t2 t3 t4 tick since} :
    Keeps s₀ (s.takeEcho n t1 t2 t3 t4 tick since) := by
  unfold State.takeEcho
  with_reducible repeat'
    first
    | assumption | lift_lets
    | (intro x; refine Keeps.cut (s₀ := s₀) (s := x) ?_ ?_; rotate_left; clear_value x; intro _; rotate_left; subst x) | fail_if_no_progress refine Keeps.fields ?_ rfl rfl | intro _ | split | (dsimp +zetaDelta only; split)

theorem State.setTick_keeps {s₀ s : State} (h : Keeps s₀ s) {tick at_} :
    Keeps s₀ (s.setTick tick at_) := by
  unfold State.setTick
  with_reducible repeat' first | assumption | fail_if_no_progress refine Keeps.fields ?_ rfl rfl

theorem State.numberTick_keeps {s₀ s : State} (h : Keeps s₀ s) :
    Keeps s₀ (s.numberTick) := by
  unfold State.numberTick
  with_reducible repeat' first | assumption | fail_if_no_progress refine Keeps.fields ?_ rfl rfl | split

theorem State.trimFrame_keeps {s₀ s : State} (h : Keeps s₀ s) :
    Keeps s₀ (s.trimFrame) := by
  unfold State.trimFrame
  with_reducible repeat' first | assumption | fail_if_no_progress refine Keeps.fields ?_ rfl rfl | split

theorem State.setUpd_keeps {s₀ s : State} (h : Keeps s₀ s) {f} :
    Keeps s₀ (s.setUpd f) := by
  unfold State.setUpd
  with_reducible repeat' first | assumption | fail_if_no_progress refine Keeps.fields ?_ rfl rfl

theorem State.setFrm_keeps {s₀ s : State} (h : Keeps s₀ s) {f} :
    Keeps s₀ (s.setFrm f) := by
  unfold State.setFrm
  with_reducible repeat' first | assumption | fail_if_no_progress refine Keeps.fields ?_ rfl rfl

theorem State.notifyBeside_keeps {s₀ s : State} (h : Keeps s₀ s) :
    Keeps s₀ (s.notifyBeside) := by
  unfold State.notifyBeside
  with_reducible repeat'
    first
    | assumption | refine State.notifyRas_keeps ?_ | fail_if_no_progress refine Keeps.fields ?_ rfl rfl | split

theorem State.lateVerdict_keeps {s₀ s : State} (h : Keeps s₀ s) :
    Keeps s₀ (s.lateVerdict) := by
  unfold State.lateVerdict
  with_reducible repeat'
    first
    | assumption | refine State.bump_keeps ?_ | refine State.stick_keeps ?_ | refine State.setLup_keeps ?_
    | refine State.notifyBeside_keeps ?_ | refine State.raise_keeps ?_ | refine State.say_keeps ?_
    | refine State.setFrm_keeps ?_ | fail_if_no_progress refine Keeps.fields ?_ rfl rfl

theorem State.stopStep_keeps {s₀ s : State} (h : Keeps s₀ s) :
    Keeps s₀ (s.stopStep) := by
  unfold State.stopStep
  with_reducible repeat'
    first
    | assumption | refine State.stick_keeps ?_ | refine State.bump_keeps ?_ | refine State.fallbackReverse_keeps ?_
    | refine State.setLup_keeps ?_ | refine State.setFrm_keeps ?_ | refine State.notifyRas_keeps ?_ | lift_lets
    | (intro x; refine Keeps.cut (s₀ := s₀) (s := x) ?_ ?_; rotate_left; clear_value x; intro _; rotate_left; subst x) | fail_if_no_progress refine Keeps.fields ?_ rfl rfl | intro _ | split | (dsimp +zetaDelta only; split)

theorem State.numericTrouble_keeps {s₀ s : State} (h : Keeps s₀ s) {rec_} :
    Keeps s₀ (s.numericTrouble rec_) := by
  unfold State.numericTrouble
  with_reducible repeat'
    first
    | assumption | refine State.bump_keeps ?_ | refine State.stopStep_keeps ?_ | refine State.markCauses_keeps ?_
    | refine State.setLup_keeps ?_ | refine State.rungActions_keeps ?_ | lift_lets
    | (intro x; refine Keeps.cut (s₀ := s₀) (s := x) ?_ ?_; rotate_left; clear_value x; intro _; rotate_left; subst x) | fail_if_no_progress refine Keeps.fields ?_ rfl rfl | intro _ | split | (dsimp +zetaDelta only; split)

theorem State.otherTrouble_keeps {s₀ s : State} (h : Keeps s₀ s) :
    Keeps s₀ (s.otherTrouble) := by
  unfold State.otherTrouble
  with_reducible repeat'
    first
    | assumption | refine State.setLup_keeps ?_ | refine State.bump_keeps ?_ | refine State.stopStep_keeps ?_
    | lift_lets
    | (intro x; refine Keeps.cut (s₀ := s₀) (s := x) ?_ ?_; rotate_left; clear_value x; intro _; rotate_left; subst x) | fail_if_no_progress refine Keeps.fields ?_ rfl rfl | intro _ | split | (dsimp +zetaDelta only; split)

theorem State.troubled_keeps {s₀ s : State} (h : Keeps s₀ s) {rec_} :
    Keeps s₀ (s.troubled rec_) := by
  unfold State.troubled
  with_reducible repeat'
    first
    | assumption | refine State.stick_keeps ?_ | refine State.otherTrouble_keeps ?_
    | refine State.numericTrouble_keeps ?_ | refine State.putHeader_keeps ?_ | refine State.history_keeps ?_
    | fail_if_no_progress refine Keeps.fields ?_ rfl rfl | split

theorem State.cleared_keeps {s₀ s : State} (h : Keeps s₀ s) :
    Keeps s₀ (s.cleared) := by
  unfold State.cleared
  with_reducible repeat'
    first
    | assumption | refine State.setUpd_keeps ?_ | refine State.bump_keeps ?_ | refine State.loupeClear_keeps ?_
    | refine State.exchange_keeps ?_ | fail_if_no_progress refine Keeps.fields ?_ rfl rfl

theorem State.commitWork_keeps {s₀ s : State} (h : Keeps s₀ s) :
    Keeps s₀ (s.commitWork) := by
  unfold State.commitWork
  with_reducible repeat'
    first
    | assumption | refine State.bump_keeps ?_ | refine State.loupeClear_keeps ?_ | refine State.exchange_keeps ?_
    | lift_lets
    | (intro x; refine Keeps.cut (s₀ := s₀) (s := x) ?_ ?_; rotate_left; clear_value x; intro _; rotate_left; subst x) | fail_if_no_progress refine Keeps.fields ?_ rfl rfl | intro _ | split | (dsimp +zetaDelta only; split)

theorem State.putVerdict_keeps {s₀ s : State} (h : Keeps s₀ s) {r stats} :
    Keeps s₀ (s.putVerdict r stats) := by
  unfold State.putVerdict
  with_reducible repeat'
    first
    | assumption | refine State.showVerdict_keeps ?_ | refine State.setLup_keeps ?_
    | fail_if_no_progress refine Keeps.fields ?_ rfl rfl

theorem State.decideCommit_keeps {s₀ s : State} (h : Keeps s₀ s) :
    Keeps s₀ (s.decideCommit) := by
  unfold State.decideCommit
  with_reducible repeat'
    first
    | assumption | refine State.setUpd_keeps ?_ | refine State.mirrorLateCheck_keeps ?_
    | refine State.lateVerdict_keeps ?_ | refine State.putVerdict_keeps ?_ | refine State.cleared_keeps ?_
    | refine State.troubled_keeps ?_ | lift_lets
    | (intro x; refine Keeps.cut (s₀ := s₀) (s := x) ?_ ?_; rotate_left; clear_value x; intro _; rotate_left; subst x) | fail_if_no_progress refine Keeps.fields ?_ rfl rfl | intro _ | split | (dsimp +zetaDelta only; split)

theorem State.endCommitted_keeps {s₀ s : State} (h : Keeps s₀ s) {tick} :
    Keeps s₀ (s.endCommitted tick) := by
  unfold State.endCommitted
  with_reducible repeat'
    first
    | assumption | refine State.bump_keeps ?_ | refine State.flerraCommit_keeps ?_
    | refine State.setMirror_keeps ?_ | refine State.setUpd_keeps ?_
    | fail_if_no_progress refine Keeps.fields ?_ rfl rfl

theorem State.endDiscarded_keeps {s₀ s : State} (h : Keeps s₀ s) :
    Keeps s₀ (s.endDiscarded) := by
  unfold State.endDiscarded
  with_reducible repeat'
    first
    | assumption | refine State.setUpd_keeps ?_ | refine State.stick_keeps ?_ | refine State.bump_keeps ?_
    | fail_if_no_progress refine Keeps.fields ?_ rfl rfl | split

theorem State.closeAttempt_keeps {s₀ s : State} (h : Keeps s₀ s) :
    Keeps s₀ (s.closeAttempt) := by
  unfold State.closeAttempt
  with_reducible repeat'
    first
    | assumption | refine State.setUpd_keeps ?_ | refine State.setFrm_keeps ?_
    | fail_if_no_progress refine Keeps.fields ?_ rfl rfl

theorem State.endStep_keeps {s₀ s : State} (h : Keeps s₀ s) {tick} :
    Keeps s₀ (s.endStep tick) := by
  unfold State.endStep
  with_reducible repeat'
    first
    | assumption | refine State.decideCommit_keeps ?_ | refine State.closeAttempt_keeps ?_
    | refine State.endCommitted_keeps ?_ | refine State.commitWork_keeps ?_ | refine State.endDiscarded_keeps ?_
    | lift_lets
    | (intro x; refine Keeps.cut (s₀ := s₀) (s := x) ?_ ?_; rotate_left; clear_value x; intro _; rotate_left; subst x) | fail_if_no_progress refine Keeps.fields ?_ rfl rfl | intro _ | split | (dsimp +zetaDelta only; split)

theorem State.abandonAttempt_keeps {s₀ s : State} (h : Keeps s₀ s) :
    Keeps s₀ (s.abandonAttempt) := by
  unfold State.abandonAttempt
  with_reducible repeat'
    first
    | assumption | refine State.endDiscarded_keeps ?_ | refine State.setLup_keeps ?_
    | refine State.closeAttempt_keeps ?_ | refine State.setUpd_keeps ?_
    | fail_if_no_progress refine Keeps.fields ?_ rfl rfl | split

theorem State.putChan_keeps {s₀ s : State} (h : Keeps s₀ s) {c x} :
    Keeps s₀ (s.putChan c x) := by
  unfold State.putChan
  with_reducible repeat' first | assumption | fail_if_no_progress refine Keeps.fields ?_ rfl rfl

theorem State.queueRepair_keeps {s₀ s : State} (h : Keeps s₀ s) {lane channel bank row laneNo} :
    Keeps s₀ (s.queueRepair lane channel bank row laneNo) := by
  unfold State.queueRepair
  with_reducible repeat'
    first
    | assumption | lift_lets
    | (intro x; refine Keeps.cut (s₀ := s₀) (s := x) ?_ ?_; rotate_left; clear_value x; intro _; rotate_left; subst x) | fail_if_no_progress refine Keeps.fields ?_ rfl rfl | intro _ | split | (dsimp +zetaDelta only; split)

theorem State.addMark_keeps {s₀ s : State} (h : Keeps s₀ s) {ch w m} :
    Keeps s₀ (s.addMark ch w m) := by
  unfold State.addMark
  with_reducible repeat'
    first
    | assumption | refine State.notifyRas_keeps ?_ | refine State.stick_keeps ?_ | refine State.putChan_keeps ?_
    | refine State.queueRepair_keeps ?_ | refine State.raise_keeps ?_ | lift_lets
    | (intro x; refine Keeps.cut (s₀ := s₀) (s := x) ?_ ?_; rotate_left; clear_value x; intro _; rotate_left; subst x) | fail_if_no_progress refine Keeps.fields ?_ rfl rfl | intro _ | split | (dsimp +zetaDelta only; split)

theorem State.laneThreshold_keeps {s₀ s : State} (h : Keeps s₀ s) {ch w lane} :
    Keeps s₀ (s.laneThreshold ch w lane) := by
  unfold State.laneThreshold
  with_reducible repeat'
    first
    | assumption | refine State.putChan_keeps ?_ | refine State.addMark_keeps ?_ | lift_lets
    | (intro x; refine Keeps.cut (s₀ := s₀) (s := x) ?_ ?_; rotate_left; clear_value x; intro _; rotate_left; subst x) | fail_if_no_progress refine Keeps.fields ?_ rfl rfl | intro _ | split | (dsimp +zetaDelta only; split)

theorem State.rowThreshold_keeps {s₀ s : State} (h : Keeps s₀ s) {ch bank row} :
    Keeps s₀ (s.rowThreshold ch bank row) := by
  unfold State.rowThreshold
  with_reducible repeat'
    first
    | assumption | refine State.queueRepair_keeps ?_ | lift_lets
    | (intro x; refine Keeps.cut (s₀ := s₀) (s := x) ?_ ?_; rotate_left; clear_value x; intro _; rotate_left; subst x) | fail_if_no_progress refine Keeps.fields ?_ rfl rfl | intro _ | split | (dsimp +zetaDelta only; split)

theorem State.corrected_keeps {s₀ s : State} (h : Keeps s₀ s) {w lanes} :
    Keeps s₀ (s.corrected w lanes) := by
  unfold State.corrected
  with_reducible repeat'
    first
    | assumption | refine State.putChan_keeps ?_ | refine State.stick_keeps ?_ | refine State.bump_keeps ?_
    | refine State.rowThreshold_keeps ?_ | refine State.laneThreshold_keeps ?_ | refine State.bad_keeps ?_
    | refine Keeps.foldl ?_ ?_ _ | lift_lets
    | (intro x; refine Keeps.cut (s₀ := s₀) (s := x) ?_ ?_; rotate_left; clear_value x; intro _; rotate_left; subst x) | fail_if_no_progress refine Keeps.fields ?_ rfl rfl | intro _ | split | (dsimp +zetaDelta only; split)

theorem State.decodeWord_keeps {s₀ s : State} (h : Keeps s₀ s) {w first retry} :
    Keeps s₀ (s.decodeWord w first retry).1 := by
  unfold State.decodeWord
  with_reducible repeat'
    first
    | assumption | refine State.corrected_keeps ?_ | refine State.bump_keeps ?_ | refine State.queueRepair_keeps ?_
    | refine State.stick_keeps ?_ | lift_lets
    | (intro x; refine Keeps.cut (s₀ := s₀) (s := x) ?_ ?_; rotate_left; clear_value x; intro _; rotate_left; subst x) | fail_if_no_progress refine Keeps.fields ?_ rfl rfl | intro _ | split | (dsimp +zetaDelta only; split)

theorem State.readWord_keeps {s₀ s : State} (h : Keeps s₀ s) {w first retry} :
    Keeps s₀ (s.readWord w first retry).1 := by
  unfold State.readWord
  with_reducible repeat'
    first
    | assumption | refine State.deliverPoison_keeps ?_ | refine State.bump_keeps ?_
    | refine State.decodeWord_keeps ?_ | lift_lets
    | (intro x; refine Keeps.cut (s₀ := s₀) (s := x) ?_ ?_; rotate_left; clear_value x; intro _; rotate_left; subst x) | (intro x; refine Keeps.cut (s₀ := s₀) (s := x.1) ?_ ?_; rotate_left; clear_value x; intro _; rotate_left; subst x) | fail_if_no_progress refine Keeps.fields ?_ rfl rfl | intro _ | split | (dsimp +zetaDelta only; split)

theorem State.readWords_keeps {s₀ s : State} (h : Keeps s₀ s) {base faults x3} :
    Keeps s₀ (s.readWords base faults x3).1 := by
  induction x3 generalizing s with
  | nil => exact h
  | cons w ws ih => exact ih (State.readWord_keeps h)

theorem State.poisonWord_keeps {s₀ s : State} (h : Keeps s₀ s) {w} :
    Keeps s₀ (s.poisonWord w) := by
  exact h.withMem (fun k => Memory.wf_mwrites k _ _) rfl rfl

theorem State.writeBack_keeps {s₀ s : State} (h : Keeps s₀ s) {l first retry} :
    Keeps s₀ (s.writeBack l first retry) := by
  unfold State.writeBack
  with_reducible repeat'
    first
    | assumption | refine State.drainLine_keeps ?_ | refine State.decodeWord_keeps ?_
    | refine State.poisonWord_keeps ?_ | lift_lets
    | (intro x; refine Keeps.cut (s₀ := s₀) (s := x) ?_ ?_; rotate_left; clear_value x; intro _; rotate_left; subst x) | (intro x; refine Keeps.cut (s₀ := s₀) (s := x.1) ?_ ?_; rotate_left; clear_value x; intro _; rotate_left; subst x) | fail_if_no_progress refine Keeps.fields ?_ rfl rfl | intro _ | split | (dsimp +zetaDelta only; split)

theorem State.dropRepair_keeps {s₀ s : State} (h : Keeps s₀ s) {r} :
    Keeps s₀ (s.dropRepair r) := by
  unfold State.dropRepair
  with_reducible repeat' first | assumption | fail_if_no_progress refine Keeps.fields ?_ rfl rfl | split

theorem State.stepCounted_keeps {s₀ s : State} (h : Keeps s₀ s) {r} :
    Keeps s₀ (s.stepCounted r) := by
  unfold State.stepCounted
  with_reducible repeat' first | assumption | fail_if_no_progress refine Keeps.fields ?_ rfl rfl | split

theorem State.repairStep_keeps {s₀ s : State} (h : Keeps s₀ s) {r c pause} :
    Keeps s₀ (s.repairStep r c pause) := by
  unfold State.repairStep
  with_reducible repeat'
    first
    | assumption | refine State.drainLines_keeps ?_ | refine State.stepCounted_keeps ?_
    | refine State.dropRepair_keeps ?_ | refine State.putChan_keeps ?_ | refine State.stick_keeps ?_
    | refine State.bump_keeps ?_ | fail_if_no_progress refine Keeps.fields ?_ rfl rfl

theorem State.putStack_keeps {s₀ s : State} (h : Keeps s₀ s) {i x} :
    Keeps s₀ (s.putStack i x) := by
  unfold State.putStack
  with_reducible repeat' first | assumption | fail_if_no_progress refine Keeps.fields ?_ rfl rfl

theorem State.stackEnter_keeps {s₀ s : State} (h : Keeps s₀ s) {i t} :
    Keeps s₀ (s.stackEnter i t) := by
  unfold State.stackEnter
  with_reducible repeat'
    first
    | assumption | refine State.stick_keeps ?_ | refine State.raise_keeps ?_
    | fail_if_no_progress refine Keeps.fields ?_ rfl rfl | split

theorem State.zeroChannel_keeps {s₀ s : State} (h : Keeps s₀ s) {ch} :
    Keeps s₀ (s.zeroChannel ch) := by
  exact h.withMem (fun k => Memory.wf_filter k _) rfl rfl

theorem State.dmaDone_keeps {s₀ s : State} (h : Keeps s₀ s) {ref d} :
    Keeps s₀ (s.dmaDone ref d) := by
  unfold State.dmaDone
  with_reducible repeat'
    first
    | assumption | refine State.setRun_keeps ?_ | refine State.bump_keeps ?_
    | fail_if_no_progress refine Keeps.fields ?_ rfl rfl | split

theorem State.dmaCopy_keeps {s₀ s : State} (h : Keeps s₀ s) {ref d} :
    Keeps s₀ (s.dmaCopy ref d) := by
  unfold State.dmaCopy
  with_reducible repeat'
    first
    | assumption | refine State.copyBytes_keeps ?_ | refine Keeps.foldl ?_ ?_ _ | lift_lets
    | (intro x; refine Keeps.cut (s₀ := s₀) (s := x) ?_ ?_; rotate_left; clear_value x; intro _; rotate_left; subst x) | fail_if_no_progress refine Keeps.fields ?_ rfl rfl | intro _ | split | (dsimp +zetaDelta only; split)

theorem State.dmaFill_keeps {s₀ s : State} (h : Keeps s₀ s) {ref d} :
    Keeps s₀ (s.dmaFill ref d) := by
  unfold State.dmaFill
  with_reducible repeat'
    first
    | assumption | refine State.putOut_keeps ?_ | refine Keeps.foldl ?_ ?_ _ | lift_lets
    | (intro x; refine Keeps.cut (s₀ := s₀) (s := x) ?_ ?_; rotate_left; clear_value x; intro _; rotate_left; subst x) | fail_if_no_progress refine Keeps.fields ?_ rfl rfl | intro _ | split | (dsimp +zetaDelta only; split)

theorem State.dmaFlush_keeps {s₀ s : State} (h : Keeps s₀ s) {r} :
    Keeps s₀ (s.dmaFlush r) := by
  unfold State.dmaFlush
  with_reducible repeat'
    first
    | assumption | refine State.drainLines_keeps ?_ | fail_if_no_progress refine Keeps.fields ?_ rfl rfl | split

theorem State.refuseDma_keeps {s₀ s : State} (h : Keeps s₀ s) {u ref} :
    Keeps s₀ (s.refuseDma u ref) := by
  unfold State.refuseDma
  with_reducible repeat'
    first
    | assumption | refine State.refuseRun_keeps ?_ | refine State.stick_keeps ?_
    | fail_if_no_progress refine Keeps.fields ?_ rfl rfl

theorem State.dmaStep_keeps {s₀ s : State} (h : Keeps s₀ s) {engine desc op work} (hwork : ∀ y0 y1 t, Keeps s₀ t → Keeps s₀ (work y0 y1 t)) :
    Keeps s₀ (s.dmaStep engine desc op work) := by
  unfold State.dmaStep
  with_reducible repeat'
    first
    | assumption | refine hwork _ _ _ ?_ | refine State.guarded_keeps ?_ ?_ | refine State.refuseDma_keeps ?_
    | refine State.ok_keeps ?_ | lift_lets
    | (intro x; refine Keeps.cut (s₀ := s₀) (s := x) ?_ ?_; rotate_left; clear_value x; intro _; rotate_left; subst x) | fail_if_no_progress refine Keeps.fields ?_ rfl rfl | intro _ | split | (dsimp +zetaDelta only; split)

theorem State.takeSeed_keeps {s₀ s : State} (h : Keeps s₀ s) :
    Keeps s₀ (s.takeSeed) := by
  unfold State.takeSeed
  with_reducible repeat'
    first
    | assumption | refine State.stick_keeps ?_ | refine State.putPair_keeps ?_
    | fail_if_no_progress refine Keeps.fields ?_ rfl rfl | split

theorem State.takeStash_keeps {s₀ s : State} (h : Keeps s₀ s) :
    Keeps s₀ (s.takeStash) := by
  unfold State.takeStash
  with_reducible repeat' first | assumption | fail_if_no_progress refine Keeps.fields ?_ rfl rfl | split

theorem State.setGroup_keeps {s₀ s : State} (h : Keeps s₀ s) {i f} :
    Keeps s₀ (s.setGroup i f) := by
  unfold State.setGroup
  with_reducible repeat' first | assumption | fail_if_no_progress refine Keeps.fields ?_ rfl rfl | split

theorem State.toRecompute_keeps {s₀ s : State} (h : Keeps s₀ s) {i} :
    Keeps s₀ (s.toRecompute i) := by
  unfold State.toRecompute
  with_reducible repeat'
    first
    | assumption | refine State.setGroup_keeps ?_ | refine State.recompute_keeps ?_
    | fail_if_no_progress refine Keeps.fields ?_ rfl rfl

theorem State.switchGroup_keeps {s₀ s : State} (h : Keeps s₀ s) {i} :
    Keeps s₀ (s.switchGroup i) := by
  unfold State.switchGroup
  with_reducible repeat'
    first
    | assumption | refine State.setGroup_keeps ?_ | refine State.stick_keeps ?_ | refine State.bump_keeps ?_
    | fail_if_no_progress refine Keeps.fields ?_ rfl rfl | split

theorem State.loseTarget_keeps {s₀ s : State} (h : Keeps s₀ s) :
    Keeps s₀ (s.loseTarget) := by
  unfold State.loseTarget
  with_reducible repeat'
    first
    | assumption | refine State.stick_keeps ?_ | refine State.toRecompute_keeps ?_
    | refine State.switchGroup_keeps ?_ | refine Keeps.foldl ?_ ?_ _ | lift_lets
    | (intro x; refine Keeps.cut (s₀ := s₀) (s := x) ?_ ?_; rotate_left; clear_value x; intro _; rotate_left; subst x) | fail_if_no_progress refine Keeps.fields ?_ rfl rfl | intro _ | split | (dsimp +zetaDelta only; split)

theorem State.emptyStash_keeps {s₀ s : State} (h : Keeps s₀ s) :
    Keeps s₀ (s.emptyStash) := by
  unfold State.emptyStash
  with_reducible repeat'
    first
    | assumption | refine State.fresh_keeps ?_ | fail_if_no_progress refine Keeps.fields ?_ rfl rfl

theorem State.placeEntries_keeps {s₀ s : State} (h : Keeps s₀ s) {g base} :
    Keeps s₀ (s.placeEntries g base) := by
  unfold State.placeEntries
  with_reducible repeat'
    first
    | assumption | refine State.stores_keeps ?_ | fail_if_no_progress refine Keeps.fields ?_ rfl rfl

theorem State.placeTarget_keeps {s₀ s : State} (h : Keeps s₀ s) {i g} :
    Keeps s₀ (s.placeTarget i g) := by
  unfold State.placeTarget
  with_reducible repeat'
    first
    | assumption | refine State.stick_keeps ?_ | refine State.toRecompute_keeps ?_
    | refine State.switchGroup_keeps ?_ | refine State.setGroup_keeps ?_ | refine State.bump_keeps ?_
    | refine State.placeEntries_keeps ?_ | lift_lets
    | (intro x; refine Keeps.cut (s₀ := s₀) (s := x) ?_ ?_; rotate_left; clear_value x; intro _; rotate_left; subst x) | fail_if_no_progress refine Keeps.fields ?_ rfl rfl | intro _ | split | (dsimp +zetaDelta only; split)

theorem State.switchFrom_keeps {s₀ s : State} (h : Keeps s₀ s) {step i g} :
    Keeps s₀ (s.switchFrom step i g) := by
  unfold State.switchFrom
  with_reducible repeat'
    first
    | assumption | refine State.switchGroup_keeps ?_ | refine State.toRecompute_keeps ?_
    | refine Keeps.foldl ?_ ?_ _ | lift_lets
    | (intro x; refine Keeps.cut (s₀ := s₀) (s := x) ?_ ?_; rotate_left; clear_value x; intro _; rotate_left; subst x) | fail_if_no_progress refine Keeps.fields ?_ rfl rfl | intro _ | split | (dsimp +zetaDelta only; split)

theorem State.placeRing_keeps {s₀ s : State} (h : Keeps s₀ s) {step i g} :
    Keeps s₀ (s.placeRing step i g) := by
  unfold State.placeRing
  with_reducible repeat'
    first
    | assumption | refine State.switchFrom_keeps ?_ | refine State.setGroup_keeps ?_ | refine State.bump_keeps ?_
    | refine State.placeEntries_keeps ?_ | lift_lets
    | (intro x; refine Keeps.cut (s₀ := s₀) (s := x) ?_ ?_; rotate_left; clear_value x; intro _; rotate_left; subst x) | fail_if_no_progress refine Keeps.fields ?_ rfl rfl | intro _ | split | (dsimp +zetaDelta only; split)

theorem State.placeGroup_keeps {s₀ s : State} (h : Keeps s₀ s) {step i} :
    Keeps s₀ (s.placeGroup step i) := by
  unfold State.placeGroup
  with_reducible repeat'
    first
    | assumption | refine State.toRecompute_keeps ?_ | refine State.placeTarget_keeps ?_
    | refine State.placeRing_keeps ?_ | fail_if_no_progress refine Keeps.fields ?_ rfl rfl | split

theorem State.startOffload_keeps {s₀ s : State} (h : Keeps s₀ s) {i a} :
    Keeps s₀ (s.startOffload i a) := by
  unfold State.startOffload
  with_reducible repeat'
    first
    | assumption | refine State.putOut_keeps ?_ | refine State.setGroup_keeps ?_ | refine Keeps.foldl ?_ ?_ _
    | lift_lets
    | (intro x; refine Keeps.cut (s₀ := s₀) (s := x) ?_ ?_; rotate_left; clear_value x; intro _; rotate_left; subst x) | fail_if_no_progress refine Keeps.fields ?_ rfl rfl | intro _ | split | (dsimp +zetaDelta only; split)

theorem State.selectOffload_keeps {s₀ s : State} (h : Keeps s₀ s) {f x2} :
    Keeps s₀ (s.selectOffload f x2) := by
  induction x2 generalizing s with
  | zero => exact h
  | succ y ih =>
    rw [State.selectOffload]
    with_reducible repeat'
      first
      | assumption | refine State.stick_keeps ?_ | refine State.startOffload_keeps ?_ | refine ih ?_
      | fail_if_no_progress refine Keeps.fields ?_ rfl rfl | split

theorem State.highWater_keeps {s₀ s : State} (h : Keeps s₀ s) {f} :
    Keeps s₀ (s.highWater f) := by
  unfold State.highWater
  with_reducible repeat'
    first
    | assumption | refine State.stick_keeps ?_ | refine State.bump_keeps ?_ | refine State.selectOffload_keeps ?_
    | fail_if_no_progress refine Keeps.fields ?_ rfl rfl | split

theorem State.placeHalf_keeps {s₀ s : State} (h : Keeps s₀ s) {step i} :
    Keeps s₀ (s.placeHalf step i) := by
  unfold State.placeHalf
  with_reducible repeat'
    first
    | assumption | refine State.setGroup_keeps ?_ | refine State.bump_keeps ?_ | refine State.placeEntries_keeps ?_
    | fail_if_no_progress refine Keeps.fields ?_ rfl rfl | split

theorem State.giveReruns_keeps {s₀ s : State} (h : Keeps s₀ s) {f} :
    Keeps s₀ (s.giveReruns f) := by
  unfold State.giveReruns
  with_reducible repeat'
    first
    | assumption | refine State.bump_keeps ?_ | fail_if_no_progress refine Keeps.fields ?_ rfl rfl

theorem State.stashFrame_keeps {s₀ s : State} (h : Keeps s₀ s) {f} :
    Keeps s₀ (s.stashFrame f) := by
  unfold State.stashFrame
  with_reducible repeat'
    first
    | assumption | refine State.emptyStash_keeps ?_ | refine State.placeGroup_keeps ?_
    | refine State.highWater_keeps ?_ | refine State.placeHalf_keeps ?_ | refine State.giveReruns_keeps ?_
    | refine Keeps.foldl ?_ ?_ _ | lift_lets
    | (intro x; refine Keeps.cut (s₀ := s₀) (s := x) ?_ ?_; rotate_left; clear_value x; intro _; rotate_left; subst x) | fail_if_no_progress refine Keeps.fields ?_ rfl rfl | intro _ | split | (dsimp +zetaDelta only; split)

theorem State.stashTick_keeps {s₀ s : State} (h : Keeps s₀ s) {frame} :
    Keeps s₀ (s.stashTick frame) := by
  unfold State.stashTick
  with_reducible repeat'
    first
    | assumption | refine State.takeStash_keeps ?_ | refine State.loseTarget_keeps ?_
    | refine State.stashFrame_keeps ?_ | fail_if_no_progress refine Keeps.fields ?_ rfl rfl | split

end

end Sys2Proof.Machine
end

