-- ==== Sys2Proof/Laws/KeepsFrame.lean ====
section
/-! SUPPORT. That the operations of Machine/Frame.lean, Machine/SlotRows.lean, Machine/Trust.lean, Machine/Spdm.lean keep what Laws/Keeps.lean says of every effect. -/

namespace Sys2Proof.Machine

section

set_option linter.unusedTactic false
set_option linter.unreachableTactic false

theorem State.countFrame_keeps {s₀ s : State} (h : Keeps s₀ s) :
    Keeps s₀ (s.countFrame) := by
  unfold State.countFrame
  with_reducible repeat' first | assumption | fail_if_no_progress refine Keeps.fields ?_ rfl rfl | split

theorem State.countHeat_keeps {s₀ s : State} (h : Keeps s₀ s) :
    Keeps s₀ (s.countHeat) := by
  unfold State.countHeat
  with_reducible repeat'
    first
    | assumption | refine State.bumps_keeps ?_ | fail_if_no_progress refine Keeps.fields ?_ rfl rfl

theorem State.requestStretch_keeps {s₀ s : State} (h : Keeps s₀ s) {stack} :
    Keeps s₀ (s.requestStretch stack) := by
  unfold State.requestStretch
  with_reducible repeat'
    first
    | assumption | refine State.say_keeps ?_ | refine State.setFrm_keeps ?_
    | fail_if_no_progress refine Keeps.fields ?_ rfl rfl

theorem State.stretchTick_keeps {s₀ s : State} (h : Keeps s₀ s) :
    Keeps s₀ (s.stretchTick) := by
  unfold State.stretchTick
  with_reducible repeat'
    first
    | assumption | refine State.setFrm_keeps ?_ | refine State.requestStretch_keeps ?_ | refine Keeps.foldl ?_ ?_ _
    | lift_lets
    | (intro x; refine Keeps.cut (s₀ := s₀) (s := x) ?_ ?_; rotate_left; clear_value x; intro _; rotate_left; subst x) | fail_if_no_progress refine Keeps.fields ?_ rfl rfl | intro _ | split | (dsimp +zetaDelta only; split)

theorem State.ageTick_keeps {s₀ s : State} (h : Keeps s₀ s) :
    Keeps s₀ (s.ageTick) := by
  unfold State.ageTick
  with_reducible repeat'
    first
    | assumption | refine State.setFrm_keeps ?_ | refine State.setCol_keeps ?_
    | fail_if_no_progress refine Keeps.fields ?_ rfl rfl | split

theorem State.endIdling_keeps {s₀ s : State} (h : Keeps s₀ s) :
    Keeps s₀ (s.endIdling) := by
  unfold State.endIdling
  with_reducible repeat'
    first
    | assumption | refine State.guardRelease_keeps ?_ | fail_if_no_progress refine Keeps.fields ?_ rfl rfl | split

theorem State.portsJoin_keeps {s₀ s : State} (h : Keeps s₀ s) :
    Keeps s₀ (s.portsJoin) := by
  unfold State.portsJoin
  with_reducible repeat'
    first
    | assumption | lift_lets
    | (intro x; refine Keeps.cut (s₀ := s₀) (s := x) ?_ ?_; rotate_left; clear_value x; intro _; rotate_left; subst x) | fail_if_no_progress refine Keeps.fields ?_ rfl rfl | intro _ | split | (dsimp +zetaDelta only; split)

theorem State.dueTick_keeps {s₀ s : State} (h : Keeps s₀ s) :
    Keeps s₀ (s.dueTick) := by
  unfold State.dueTick
  with_reducible repeat'
    first
    | assumption | refine State.pairTick_keeps ?_ | refine State.answerUnknown_keeps ?_
    | refine State.moveRoles_keeps ?_ | refine State.portsJoin_keeps ?_ | refine State.keysTick_keeps ?_
    | refine State.peersTick_keeps ?_ | refine State.resumeMapIns_keeps ?_ | refine State.mapInsDue_keeps ?_
    | fail_if_no_progress refine Keeps.fields ?_ rfl rfl

theorem State.everyTick_keeps {s₀ s : State} (h : Keeps s₀ s) :
    Keeps s₀ (s.everyTick) := by
  unfold State.everyTick
  with_reducible repeat'
    first
    | assumption | refine State.setFrm_keeps ?_ | refine State.trimFrame_keeps ?_
    | refine State.numberTick_keeps ?_ | refine State.countHeat_keeps ?_ | refine State.countFrame_keeps ?_
    | refine State.dueTick_keeps ?_ | refine State.endIdling_keeps ?_ | refine State.ageTick_keeps ?_
    | refine State.stretchTick_keeps ?_ | fail_if_no_progress refine Keeps.fields ?_ rfl rfl

theorem State.skipReplay_keeps {s₀ s : State} (h : Keeps s₀ s) {u} :
    Keeps s₀ (s.skipReplay u) := by
  unfold State.skipReplay
  with_reducible repeat'
    first
    | assumption | refine State.raise_keeps ?_ | refine State.stick_keeps ?_
    | fail_if_no_progress refine Keeps.fields ?_ rfl rfl

theorem State.markMissed_keeps {s₀ s : State} (h : Keeps s₀ s) :
    Keeps s₀ (s.markMissed) := by
  unfold State.markMissed
  with_reducible repeat'
    first
    | assumption | refine State.skipReplay_keeps ?_ | fail_if_no_progress refine Keeps.fields ?_ rfl rfl | split

theorem State.frameFault_keeps {s₀ s : State} (h : Keeps s₀ s) {u} :
    Keeps s₀ (s.frameFault u) := by
  unfold State.frameFault
  with_reducible repeat'
    first
    | assumption | refine State.putReg_keeps ?_ | refine State.putPair_keeps ?_ | refine State.raise_keeps ?_
    | refine State.frameEvent_keeps ?_ | refine State.bump_keeps ?_
    | fail_if_no_progress refine Keeps.fields ?_ rfl rfl | split

theorem State.overrun_keeps {s₀ s : State} (h : Keeps s₀ s) {r} :
    Keeps s₀ (s.overrun r) := by
  unfold State.overrun
  with_reducible repeat'
    first
    | assumption | refine State.setCol_keeps ?_ | refine State.setRun_keeps ?_ | refine State.frameFault_keeps ?_
    | refine State.bump_keeps ?_ | refine State.stick_keeps ?_ | fail_if_no_progress refine Keeps.fields ?_ rfl rfl
    | split

theorem State.faultSlot_keeps {s₀ s : State} (h : Keeps s₀ s) {r} :
    Keeps s₀ (s.faultSlot r) := by
  unfold State.faultSlot
  with_reducible repeat'
    first
    | assumption | refine State.overrun_keeps ?_ | refine State.frameFault_keeps ?_ | refine State.failRun_keeps ?_
    | refine State.dropWork_keeps ?_ | fail_if_no_progress refine Keeps.fields ?_ rfl rfl | split

theorem State.faultSlots_keeps {s₀ s : State} (h : Keeps s₀ s) :
    Keeps s₀ (s.faultSlots) := by
  unfold State.faultSlots
  with_reducible repeat'
    first
    | assumption | refine State.faultSlot_keeps ?_ | refine Keeps.foldl ?_ ?_ _ | lift_lets
    | (intro x; refine Keeps.cut (s₀ := s₀) (s := x) ?_ ?_; rotate_left; clear_value x; intro _; rotate_left; subst x) | fail_if_no_progress refine Keeps.fields ?_ rfl rfl | intro _ | split | (dsimp +zetaDelta only; split)

theorem State.countGuard_keeps {s₀ s : State} (h : Keeps s₀ s) :
    Keeps s₀ (s.countGuard) := by
  unfold State.countGuard
  with_reducible repeat'
    first
    | assumption | refine State.bump_keeps ?_ | refine State.stick_keeps ?_
    | fail_if_no_progress refine Keeps.fields ?_ rfl rfl | split

theorem State.countReplayed_keeps {s₀ s : State} (h : Keeps s₀ s) :
    Keeps s₀ (s.countReplayed) := by
  unfold State.countReplayed
  with_reducible repeat' first | assumption | fail_if_no_progress refine Keeps.fields ?_ rfl rfl | split

theorem State.applyStaged_keeps {s₀ s : State} (h : Keeps s₀ s) :
    Keeps s₀ (s.applyStaged) := by
  unfold State.applyStaged
  with_reducible repeat'
    first
    | assumption | refine State.putReg_keeps ?_ | refine State.setFrm_keeps ?_ | refine Keeps.foldl ?_ ?_ _
    | lift_lets
    | (intro x; refine Keeps.cut (s₀ := s₀) (s := x) ?_ ?_; rotate_left; clear_value x; intro _; rotate_left; subst x) | fail_if_no_progress refine Keeps.fields ?_ rfl rfl | intro _ | split | (dsimp +zetaDelta only; split)

theorem State.clearFrame_keeps {s₀ s : State} (h : Keeps s₀ s) :
    Keeps s₀ (s.clearFrame) := by
  unfold State.clearFrame
  with_reducible repeat'
    first
    | assumption | refine State.setFrm_keeps ?_ | fail_if_no_progress refine Keeps.fields ?_ rfl rfl

theorem State.takePrograms_keeps {s₀ s : State} (h : Keeps s₀ s) :
    Keeps s₀ (s.takePrograms) := by
  unfold State.takePrograms
  with_reducible repeat'
    first
    | assumption | refine State.setUpd_keeps ?_ | refine State.measChanged_keeps ?_ | refine Keeps.foldl ?_ ?_ _
    | lift_lets
    | (intro x; refine Keeps.cut (s₀ := s₀) (s := x) ?_ ?_; rotate_left; clear_value x; intro _; rotate_left; subst x) | fail_if_no_progress refine Keeps.fields ?_ rfl rfl | intro _ | split | (dsimp +zetaDelta only; split)

theorem State.takeUpd_keeps {s₀ s : State} (h : Keeps s₀ s) :
    Keeps s₀ (s.takeUpd) := by
  unfold State.takeUpd
  with_reducible repeat'
    first
    | assumption | refine State.takePrograms_keeps ?_ | refine State.setMirror_keeps ?_
    | refine State.setUpd_keeps ?_ | lift_lets
    | (intro x; refine Keeps.cut (s₀ := s₀) (s := x) ?_ ?_; rotate_left; clear_value x; intro _; rotate_left; subst x) | fail_if_no_progress refine Keeps.fields ?_ rfl rfl | intro _ | split | (dsimp +zetaDelta only; split)

theorem State.nextFrame_keeps {s₀ s : State} (h : Keeps s₀ s) :
    Keeps s₀ (s.nextFrame) := by
  unfold State.nextFrame
  with_reducible repeat'
    first
    | assumption | refine State.setFrm_keeps ?_ | refine State.endStep_keeps ?_
    | fail_if_no_progress refine Keeps.fields ?_ rfl rfl | split

theorem State.endFrame_keeps {s₀ s : State} (h : Keeps s₀ s) :
    Keeps s₀ (s.endFrame) := by
  unfold State.endFrame
  with_reducible repeat'
    first
    | assumption | refine State.loupeTick_keeps ?_ | refine State.takeUpd_keeps ?_
    | refine State.clearFrame_keeps ?_ | refine State.applyStaged_keeps ?_ | refine State.nextFrame_keeps ?_
    | refine State.countReplayed_keeps ?_ | refine State.countGuard_keeps ?_ | refine State.faultSlots_keeps ?_
    | refine State.markMissed_keeps ?_ | fail_if_no_progress refine Keeps.fields ?_ rfl rfl

theorem State.takeDecision_keeps {s₀ s : State} (h : Keeps s₀ s) :
    Keeps s₀ (s.takeDecision) := by
  unfold State.takeDecision
  with_reducible repeat'
    first
    | assumption | refine State.decideCommit_keeps ?_ | fail_if_no_progress refine Keeps.fields ?_ rfl rfl | split

theorem State.openAttempt_keeps {s₀ s : State} (h : Keeps s₀ s) :
    Keeps s₀ (s.openAttempt) := by
  unfold State.openAttempt
  with_reducible repeat'
    first
    | assumption | refine State.setUpd_keeps ?_ | refine State.setFrm_keeps ?_ | refine State.bumps_keeps ?_
    | refine State.setCol_keeps ?_ | fail_if_no_progress refine Keeps.fields ?_ rfl rfl | split

theorem State.startAttempt_keeps {s₀ s : State} (h : Keeps s₀ s) :
    Keeps s₀ (s.startAttempt) := by
  unfold State.startAttempt
  with_reducible repeat'
    first
    | assumption | refine State.takeSeed_keeps ?_ | refine State.mirrorAttempt_keeps ?_
    | refine State.loupeBegin_keeps ?_ | refine State.openAttempt_keeps ?_ | refine State.setUpd_keeps ?_
    | fail_if_no_progress refine Keeps.fields ?_ rfl rfl | split

theorem State.beginAttempt_keeps {s₀ s : State} (h : Keeps s₀ s) :
    Keeps s₀ (s.beginAttempt) := by
  unfold State.beginAttempt
  with_reducible repeat'
    first
    | assumption | refine State.setFrm_keeps ?_ | refine State.startAttempt_keeps ?_ | lift_lets
    | (intro x; refine Keeps.cut (s₀ := s₀) (s := x) ?_ ?_; rotate_left; clear_value x; intro _; rotate_left; subst x) | fail_if_no_progress refine Keeps.fields ?_ rfl rfl | intro _ | split | (dsimp +zetaDelta only; split)

theorem State.closeStats_keeps {s₀ s : State} (h : Keeps s₀ s) :
    Keeps s₀ (s.closeStats) := by
  unfold State.closeStats
  with_reducible repeat'
    first
    | assumption | refine State.loupeClose_keeps ?_ | refine State.stick_keeps ?_
    | fail_if_no_progress refine Keeps.fields ?_ rfl rfl | split

theorem State.frameStart_keeps {s₀ s : State} (h : Keeps s₀ s) :
    Keeps s₀ (s.frameStart) := by
  unfold State.frameStart
  with_reducible repeat'
    first
    | assumption | refine State.closeStats_keeps ?_ | refine State.stashTick_keeps ?_
    | fail_if_no_progress refine Keeps.fields ?_ rfl rfl | split

theorem State.beginFrame_keeps {s₀ s : State} (h : Keeps s₀ s) :
    Keeps s₀ (s.beginFrame) := by
  unfold State.beginFrame
  with_reducible repeat'
    first
    | assumption | refine State.setFrm_keeps ?_ | refine State.frameStart_keeps ?_
    | refine State.beginAttempt_keeps ?_ | fail_if_no_progress refine Keeps.fields ?_ rfl rfl | split

theorem State.enterFrame_keeps {s₀ s : State} (h : Keeps s₀ s) :
    Keeps s₀ (s.enterFrame) := by
  unfold State.enterFrame
  with_reducible repeat'
    first
    | assumption | refine State.setFrm_keeps ?_ | refine State.beginFrame_keeps ?_
    | fail_if_no_progress refine Keeps.fields ?_ rfl rfl | split

theorem State.afterTick_keeps {s₀ s : State} (h : Keeps s₀ s) :
    Keeps s₀ (s.afterTick) := by
  unfold State.afterTick
  with_reducible repeat'
    first
    | assumption | refine State.setFrm_keeps ?_ | refine State.enterFrame_keeps ?_
    | fail_if_no_progress refine Keeps.fields ?_ rfl rfl | split

theorem State.countWaits_keeps {s₀ s : State} (h : Keeps s₀ s) :
    Keeps s₀ (s.countWaits) := by
  unfold State.countWaits
  with_reducible repeat'
    first
    | assumption | refine State.bumps_keeps ?_ | lift_lets
    | (intro x; refine Keeps.cut (s₀ := s₀) (s := x) ?_ ?_; rotate_left; clear_value x; intro _; rotate_left; subst x) | fail_if_no_progress refine Keeps.fields ?_ rfl rfl | intro _ | split | (dsimp +zetaDelta only; split)

theorem State.stopAll_keeps {s₀ s : State} (h : Keeps s₀ s) :
    Keeps s₀ (s.stopAll) := by
  unfold State.stopAll
  with_reducible repeat'
    first
    | assumption | refine State.dropWork_keeps ?_ | refine State.setCol_keeps ?_ | refine State.setFrm_keeps ?_
    | refine Keeps.foldl ?_ ?_ _ | lift_lets
    | (intro x; refine Keeps.cut (s₀ := s₀) (s := x) ?_ ?_; rotate_left; clear_value x; intro _; rotate_left; subst x) | fail_if_no_progress refine Keeps.fields ?_ rfl rfl | intro _ | split | (dsimp +zetaDelta only; split)

theorem State.cutAttempt_keeps {s₀ s : State} (h : Keeps s₀ s) :
    Keeps s₀ (s.cutAttempt) := by
  unfold State.cutAttempt
  with_reducible repeat'
    first
    | assumption | refine State.abandonAttempt_keeps ?_ | refine State.stopAll_keeps ?_
    | fail_if_no_progress refine Keeps.fields ?_ rfl rfl | split

theorem State.switchAt_keeps {s₀ s : State} (h : Keeps s₀ s) {a intact} :
    Keeps s₀ (s.switchAt a intact) := by
  unfold State.switchAt
  with_reducible repeat'
    first
    | assumption | refine State.cutAttempt_keeps ?_ | refine State.failSwitch_keeps ?_
    | refine State.releaseHeld_keeps ?_ | refine State.takeMode_keeps ?_ | lift_lets
    | (intro x; refine Keeps.cut (s₀ := s₀) (s := x) ?_ ?_; rotate_left; clear_value x; intro _; rotate_left; subst x) | fail_if_no_progress refine Keeps.fields ?_ rfl rfl | intro _ | split | (dsimp +zetaDelta only; split)

theorem State.noteProgram_keeps {s₀ s old : State} (h : Keeps s₀ s) :
    Keeps s₀ (s.noteProgram old) := by
  unfold State.noteProgram
  with_reducible repeat'
    first
    | assumption | refine State.measChanged_keeps ?_ | lift_lets
    | (intro x; refine Keeps.cut (s₀ := s₀) (s := x) ?_ ?_; rotate_left; clear_value x; intro _; rotate_left; subst x) | fail_if_no_progress refine Keeps.fields ?_ rfl rfl | intro _ | split | (dsimp +zetaDelta only; split)

theorem State.rollBack_keeps {s₀ s : State} (h : Keeps s₀ s) {rb} :
    Keeps s₀ (s.rollBack rb) := by
  unfold State.rollBack
  with_reducible repeat'
    first
    | assumption | refine State.takeRollback_keeps ?_ | refine State.abandonAttempt_keeps ?_
    | refine State.stopAll_keeps ?_ | fail_if_no_progress refine Keeps.fields ?_ rfl rfl | split

theorem State.unblock_keeps {s₀ s : State} (h : Keeps s₀ s) :
    Keeps s₀ (s.unblock) := by
  unfold State.unblock
  with_reducible repeat'
    first
    | assumption | refine State.beginFrame_keeps ?_ | refine State.setFrm_keeps ?_
    | fail_if_no_progress refine Keeps.fields ?_ rfl rfl | split

theorem State.timeTo_keeps {s₀ s : State} (h : Keeps s₀ s) {rc} :
    Keeps s₀ (s.timeTo rc) := by
  unfold State.timeTo
  with_reducible repeat'
    first
    | assumption | refine State.advance_keeps ?_ | refine State.runningUse_keeps ?_ | lift_lets
    | (intro x; refine Keeps.cut (s₀ := s₀) (s := x) ?_ ?_; rotate_left; clear_value x; intro _; rotate_left; subst x) | fail_if_no_progress refine Keeps.fields ?_ rfl rfl | intro _ | split | (dsimp +zetaDelta only; split)

theorem State.dropOldRun_keeps {s₀ s : State} (h : Keeps s₀ s) {ref} :
    Keeps s₀ (s.dropOldRun ref) := by
  unfold State.dropOldRun
  with_reducible repeat'
    first
    | assumption | refine State.setFrm_keeps ?_ | fail_if_no_progress refine Keeps.fields ?_ rfl rfl | split

theorem State.countHeld_keeps {s₀ s : State} (h : Keeps s₀ s) {d} :
    Keeps s₀ (s.countHeld d) := by
  unfold State.countHeld
  with_reducible repeat'
    first
    | assumption | refine State.setFrm_keeps ?_ | refine State.bump_keeps ?_ | lift_lets
    | (intro x; refine Keeps.cut (s₀ := s₀) (s := x) ?_ ?_; rotate_left; clear_value x; intro _; rotate_left; subst x) | fail_if_no_progress refine Keeps.fields ?_ rfl rfl | intro _ | split | (dsimp +zetaDelta only; split)

theorem State.beginSlot_keeps {s₀ s : State} (h : Keeps s₀ s) {ref d} :
    Keeps s₀ (s.beginSlot ref d) := by
  unfold State.beginSlot
  with_reducible repeat'
    first
    | assumption | refine State.countHeld_keeps ?_ | refine State.dropOldRun_keeps ?_
    | refine State.setFrm_keeps ?_ | refine State.putEngine_keeps ?_ | refine State.runningUse_keeps ?_ | lift_lets
    | (intro x; refine Keeps.cut (s₀ := s₀) (s := x) ?_ ?_; rotate_left; clear_value x; intro _; rotate_left; subst x) | fail_if_no_progress refine Keeps.fields ?_ rfl rfl | intro _ | split | (dsimp +zetaDelta only; split)

theorem State.noteHeld_keeps {s₀ s : State} (h : Keeps s₀ s) {d} :
    Keeps s₀ (s.noteHeld d) := by
  unfold State.noteHeld
  with_reducible repeat'
    first
    | assumption | refine State.setFrm_keeps ?_ | fail_if_no_progress refine Keeps.fields ?_ rfl rfl | split

theorem State.slotSignal_keeps {s₀ s : State} (h : Keeps s₀ s) {d} :
    Keeps s₀ (s.slotSignal d) := by
  unfold State.slotSignal
  with_reducible repeat'
    first
    | assumption | refine State.signalCtr_keeps ?_ | fail_if_no_progress refine Keeps.fields ?_ rfl rfl | split

theorem State.endOk_keeps {s₀ s : State} (h : Keeps s₀ s) {r d} :
    Keeps s₀ (s.endOk r d) := by
  unfold State.endOk
  with_reducible repeat'
    first
    | assumption | refine State.applyEffects_keeps ?_ | refine State.slotSignal_keeps ?_
    | refine State.setRun_keeps ?_ | fail_if_no_progress refine Keeps.fields ?_ rfl rfl

theorem State.markHalf_keeps {s₀ s : State} (h : Keeps s₀ s) {core cause half} :
    Keeps s₀ (s.markHalf core cause half) := by
  unfold State.markHalf
  with_reducible repeat'
    first
    | assumption | refine State.setFrm_keeps ?_ | fail_if_no_progress refine Keeps.fields ?_ rfl rfl | split

theorem State.errorMarks_keeps {s₀ s : State} (h : Keeps s₀ s) {u e} :
    Keeps s₀ (s.errorMarks u e) := by
  unfold State.errorMarks
  with_reducible repeat'
    first
    | assumption | refine State.transientOf_keeps ?_ | refine State.markHalf_keeps ?_ | refine State.stick_keeps ?_
    | refine State.bump_keeps ?_ | lift_lets
    | (intro x; refine Keeps.cut (s₀ := s₀) (s := x) ?_ ?_; rotate_left; clear_value x; intro _; rotate_left; subst x) | fail_if_no_progress refine Keeps.fields ?_ rfl rfl | intro _ | split | (dsimp +zetaDelta only; split)

theorem State.replayRun_keeps {s₀ s : State} (h : Keeps s₀ s) {r} :
    Keeps s₀ (s.replayRun r) := by
  unfold State.replayRun
  with_reducible repeat'
    first
    | assumption | refine State.setRun_keeps ?_ | refine State.setFrm_keeps ?_ | refine State.stick_keeps ?_
    | fail_if_no_progress refine Keeps.fields ?_ rfl rfl | split

theorem State.afterError_keeps {s₀ s : State} (h : Keeps s₀ s) {r d e touched} :
    Keeps s₀ (s.afterError r d e touched) := by
  unfold State.afterError
  with_reducible repeat'
    first
    | assumption | refine State.dropWork_keeps ?_ | refine State.failRun_keeps ?_ | refine State.hardCore_keeps ?_
    | refine State.replayRun_keeps ?_ | refine State.skipReplay_keeps ?_ | lift_lets
    | (intro x; refine Keeps.cut (s₀ := s₀) (s := x) ?_ ?_; rotate_left; clear_value x; intro _; rotate_left; subst x) | fail_if_no_progress refine Keeps.fields ?_ rfl rfl | intro _ | split | (dsimp +zetaDelta only; split)

theorem State.afterStruck_keeps {s₀ s : State} (h : Keeps s₀ s) {e touched x} :
    Keeps s₀ (s.afterStruck e touched x) := by
  unfold State.afterStruck
  with_reducible repeat'
    first
    | assumption | refine State.afterError_keeps ?_ | lift_lets
    | (intro x; refine Keeps.cut (s₀ := s₀) (s := x) ?_ ?_; rotate_left; clear_value x; intro _; rotate_left; subst x) | fail_if_no_progress refine Keeps.fields ?_ rfl rfl | intro _ | split | (dsimp +zetaDelta only; split)

theorem State.endError_keeps {s₀ s : State} (h : Keeps s₀ s) {r d e c touched} :
    Keeps s₀ (s.endError r d e c touched) := by
  unfold State.endError
  exact Keeps.foldl (fun _ _ k => State.afterStruck_keeps k) (State.afterError_keeps (State.raiseNoted_keeps (State.errorMarks_keeps h))) _

theorem State.csCorrected_keeps {s₀ s : State} (h : Keeps s₀ s) {n} :
    Keeps s₀ (s.csCorrected n) := by
  unfold State.csCorrected
  with_reducible repeat'
    first
    | assumption | refine State.stick_keeps ?_ | refine State.bump_keeps ?_ | lift_lets
    | (intro x; refine Keeps.cut (s₀ := s₀) (s := x) ?_ ?_; rotate_left; clear_value x; intro _; rotate_left; subst x) | fail_if_no_progress refine Keeps.fields ?_ rfl rfl | intro _ | split | (dsimp +zetaDelta only; split)

theorem State.signed_keeps {s₀ s : State} (h : Keeps s₀ s) {ctx msg} :
    Keeps s₀ (s.signed ctx msg).2 := by
  exact State.bump_keeps (h.withTime (Nat.le_refl _) (Nat.le_add_right _ _) rfl rfl)

theorem State.authFailed_keeps {s₀ s : State} (h : Keeps s₀ s) :
    Keeps s₀ (s.authFailed) := by
  unfold State.authFailed
  with_reducible repeat'
    first
    | assumption | refine State.stick_keeps ?_ | refine State.bump_keeps ?_
    | fail_if_no_progress refine Keeps.fields ?_ rfl rfl

theorem State.vendorUnlock_keeps {s₀ s : State} (h : Keeps s₀ s) :
    Keeps s₀ (s.vendorUnlock) := by
  unfold State.vendorUnlock
  with_reducible repeat' first | assumption | fail_if_no_progress refine Keeps.fields ?_ rfl rfl

theorem State.setSpdm_keeps {s₀ s : State} (h : Keeps s₀ s) {f} :
    Keeps s₀ (s.setSpdm f) := by
  unfold State.setSpdm
  with_reducible repeat' first | assumption | fail_if_no_progress refine Keeps.fields ?_ rfl rfl

theorem State.spdmFault_keeps {s₀ s : State} (h : Keeps s₀ s) {ver code rest} :
    Keeps s₀ (s.spdmFault ver code rest).2 := by
  unfold State.spdmFault
  with_reducible repeat'
    first
    | assumption | refine State.stick_keeps ?_ | refine State.bump_keeps ?_ | lift_lets
    | (intro x; refine Keeps.cut (s₀ := s₀) (s := x) ?_ ?_; rotate_left; clear_value x; intro _; rotate_left; subst x) | fail_if_no_progress refine Keeps.fields ?_ rfl rfl | intro _ | split | (dsimp +zetaDelta only; split)

theorem State.spdmError_keeps {s₀ s : State} (h : Keeps s₀ s) {ver code} :
    Keeps s₀ (s.spdmError ver code).2 := by
  unfold State.spdmError
  with_reducible repeat'
    first
    | assumption | refine State.spdmFault_keeps ?_ | fail_if_no_progress refine Keeps.fields ?_ rfl rfl

theorem State.spdmIf_keeps {s₀ s : State} (h : Keeps s₀ s) {r f} (hf : ∀ t, Keeps s₀ t → Keeps s₀ (f t).2) :
    Keeps s₀ (s.spdmIf r f).2 := by
  unfold State.spdmIf
  dsimp only
  repeat' split
  · exact State.spdmError_keeps h
  · exact hf _ h
  · exact State.spdmError_keeps h

theorem State.spdmSecured_keeps {s₀ s : State} (h : Keeps s₀ s) {r f} (hf : ∀ x t, Keeps s₀ t → Keeps s₀ (f x t).2) :
    Keeps s₀ (s.spdmSecured r f).2 := by
  unfold State.spdmSecured
  refine State.spdmIf_keeps h fun t k => ?_
  split
  · split
    · exact hf _ _ k
    · exact State.spdmError_keeps k
  · exact State.spdmError_keeps k

theorem State.dropLogs_keeps {s₀ s : State} (h : Keeps s₀ s) {cert meas} :
    Keeps s₀ (s.dropLogs cert meas) := by
  unfold State.dropLogs
  with_reducible repeat'
    first
    | assumption | refine State.setSpdm_keeps ?_ | lift_lets
    | (intro x; refine Keeps.cut (s₀ := s₀) (s := x) ?_ ?_; rotate_left; clear_value x; intro _; rotate_left; subst x) | fail_if_no_progress refine Keeps.fields ?_ rfl rfl | intro _ | split | (dsimp +zetaDelta only; split)

theorem State.endSession_keeps {s₀ s : State} (h : Keeps s₀ s) {id} :
    Keeps s₀ (s.endSession id) := by
  unfold State.endSession
  with_reducible repeat'
    first
    | assumption | refine State.setSpdm_keeps ?_ | lift_lets
    | (intro x; refine Keeps.cut (s₀ := s₀) (s := x) ?_ ?_; rotate_left; clear_value x; intro _; rotate_left; subst x) | fail_if_no_progress refine Keeps.fields ?_ rfl rfl | intro _ | split | (dsimp +zetaDelta only; split)

theorem spdmVersion_keeps {s₀ s : State} (h : Keeps s₀ s) {r} :
    Keeps s₀ (spdmVersion r s).2 := by
  unfold spdmVersion
  with_reducible repeat'
    first
    | assumption | refine State.setSpdm_keeps ?_ | lift_lets
    | (intro x; refine Keeps.cut (s₀ := s₀) (s := x) ?_ ?_; rotate_left; clear_value x; intro _; rotate_left; subst x) | fail_if_no_progress refine Keeps.fields ?_ rfl rfl | intro _ | split | (dsimp +zetaDelta only; split)

theorem spdmCapabilities_keeps {s₀ s : State} (h : Keeps s₀ s) {r} :
    Keeps s₀ (spdmCapabilities r s).2 := by
  unfold spdmCapabilities
  with_reducible repeat'
    first
    | assumption | refine State.spdmError_keeps ?_ | refine State.setSpdm_keeps ?_ | lift_lets
    | (intro x; refine Keeps.cut (s₀ := s₀) (s := x) ?_ ?_; rotate_left; clear_value x; intro _; rotate_left; subst x) | (intro x; refine Keeps.cut (s₀ := s₀) (s := x.2) ?_ ?_; rotate_left; clear_value x; intro _; rotate_left; subst x) | fail_if_no_progress refine Keeps.fields ?_ rfl rfl | intro _ | split | (dsimp +zetaDelta only; split)

theorem spdmAlgorithms_keeps {s₀ s : State} (h : Keeps s₀ s) {r} :
    Keeps s₀ (spdmAlgorithms r s).2 := by
  unfold spdmAlgorithms
  with_reducible repeat'
    first
    | assumption | refine State.spdmError_keeps ?_ | refine State.setSpdm_keeps ?_ | lift_lets
    | (intro x; refine Keeps.cut (s₀ := s₀) (s := x) ?_ ?_; rotate_left; clear_value x; intro _; rotate_left; subst x) | (intro x; refine Keeps.cut (s₀ := s₀) (s := x.2) ?_ ?_; rotate_left; clear_value x; intro _; rotate_left; subst x) | fail_if_no_progress refine Keeps.fields ?_ rfl rfl | intro _ | split | (dsimp +zetaDelta only; split)

theorem State.certSaid_keeps {s₀ s : State} (h : Keeps s₀ s) {r code m} :
    Keeps s₀ (s.certSaid r code m).2 := by
  unfold State.certSaid
  with_reducible repeat'
    first
    | assumption | refine State.setSpdm_keeps ?_ | lift_lets
    | (intro x; refine Keeps.cut (s₀ := s₀) (s := x) ?_ ?_; rotate_left; clear_value x; intro _; rotate_left; subst x) | fail_if_no_progress refine Keeps.fields ?_ rfl rfl | intro _ | split | (dsimp +zetaDelta only; split)

theorem spdmDigests_keeps {s₀ s : State} (h : Keeps s₀ s) {r} :
    Keeps s₀ (spdmDigests r s).2 := by
  unfold spdmDigests
  refine State.spdmIf_keeps h fun t k => ?_
  clear h
  with_reducible repeat'
    first
    | assumption | refine State.spdmIf_keeps ?_ | refine State.certSaid_keeps ?_ | lift_lets
    | (intro x; refine Keeps.cut (s₀ := s₀) (s := x) ?_ ?_; rotate_left; clear_value x; intro _; rotate_left; subst x) | (intro x; refine Keeps.cut (s₀ := s₀) (s := x.2) ?_ ?_; rotate_left; clear_value x; intro _; rotate_left; subst x) | fail_if_no_progress refine Keeps.fields ?_ rfl rfl | intro _ | split | (dsimp +zetaDelta only; split)

theorem spdmCertificate_keeps {s₀ s : State} (h : Keeps s₀ s) {r} :
    Keeps s₀ (spdmCertificate r s).2 := by
  unfold spdmCertificate
  refine State.spdmIf_keeps h fun t k => ?_
  clear h
  with_reducible repeat'
    first
    | assumption | refine State.spdmIf_keeps ?_ | refine State.spdmError_keeps ?_ | refine State.certSaid_keeps ?_
    | lift_lets
    | (intro x; refine Keeps.cut (s₀ := s₀) (s := x) ?_ ?_; rotate_left; clear_value x; intro _; rotate_left; subst x) | (intro x; refine Keeps.cut (s₀ := s₀) (s := x.2) ?_ ?_; rotate_left; clear_value x; intro _; rotate_left; subst x) | fail_if_no_progress refine Keeps.fields ?_ rfl rfl | intro _ | split | (dsimp +zetaDelta only; split)

theorem State.nonce_keeps {s₀ s : State} (h : Keeps s₀ s) :
    Keeps s₀ (s.nonce).2 := by
  exact h.withTime (Nat.le_refl _) (Nat.le_add_right _ _) rfl rfl

theorem spdmChallenge_keeps {s₀ s : State} (h : Keeps s₀ s) {r} :
    Keeps s₀ (spdmChallenge r s).2 := by
  unfold spdmChallenge
  refine State.spdmIf_keeps h fun t k => ?_
  clear h
  with_reducible repeat'
    first
    | assumption | refine State.spdmIf_keeps ?_ | refine State.spdmError_keeps ?_ | refine State.nonce_keeps ?_
    | refine State.signed_keeps ?_ | refine State.dropLogs_keeps ?_ | lift_lets
    | (intro x; refine Keeps.cut (s₀ := s₀) (s := x) ?_ ?_; rotate_left; clear_value x; intro _; rotate_left; subst x) | (intro x; refine Keeps.cut (s₀ := s₀) (s := x.2) ?_ ?_; rotate_left; clear_value x; intro _; rotate_left; subst x) | fail_if_no_progress refine Keeps.fields ?_ rfl rfl | intro _ | split | (dsimp +zetaDelta only; split)

theorem spdmMeasurements_keeps {s₀ s : State} (h : Keeps s₀ s) {r} :
    Keeps s₀ (spdmMeasurements r s).2 := by
  unfold spdmMeasurements
  refine State.spdmIf_keeps h fun t k => ?_
  clear h
  with_reducible repeat'
    first
    | assumption | refine State.spdmIf_keeps ?_ | refine State.spdmError_keeps ?_ | refine State.nonce_keeps ?_
    | refine State.signed_keeps ?_ | refine State.dropLogs_keeps ?_ | refine State.setSpdm_keeps ?_ | lift_lets
    | (intro x; refine Keeps.cut (s₀ := s₀) (s := x) ?_ ?_; rotate_left; clear_value x; intro _; rotate_left; subst x) | (intro x; refine Keeps.cut (s₀ := s₀) (s := x.2) ?_ ?_; rotate_left; clear_value x; intro _; rotate_left; subst x) | fail_if_no_progress refine Keeps.fields ?_ rfl rfl | intro _ | split | (dsimp +zetaDelta only; split)

theorem spdmKeyExchange_keeps {s₀ s : State} (h : Keeps s₀ s) {r} :
    Keeps s₀ (spdmKeyExchange r s).2 := by
  unfold spdmKeyExchange
  refine State.spdmIf_keeps h fun t k => ?_
  clear h
  with_reducible repeat'
    first
    | assumption | refine State.spdmIf_keeps ?_ | refine State.spdmError_keeps ?_ | refine State.nonce_keeps ?_
    | refine State.signed_keeps ?_ | refine State.setSpdm_keeps ?_ | refine State.dropLogs_keeps ?_ | lift_lets
    | (intro x; refine Keeps.cut (s₀ := s₀) (s := x) ?_ ?_; rotate_left; clear_value x; intro _; rotate_left; subst x) | (intro x; refine Keeps.cut (s₀ := s₀) (s := x.2) ?_ ?_; rotate_left; clear_value x; intro _; rotate_left; subst x) | fail_if_no_progress refine Keeps.fields ?_ rfl rfl | intro _ | split | (dsimp +zetaDelta only; split)
  exact k.withTime (Nat.le_refl _) (Nat.le_add_right _ _) rfl rfl

theorem spdmFinish_keeps {s₀ s : State} (h : Keeps s₀ s) {r} :
    Keeps s₀ (spdmFinish r s).2 := by
  unfold spdmFinish
  refine State.spdmIf_keeps h fun t k => ?_
  clear h
  with_reducible repeat'
    first
    | assumption | refine State.spdmIf_keeps ?_ | refine State.spdmError_keeps ?_ | refine State.setSpdm_keeps ?_
    | refine State.dropLogs_keeps ?_ | refine State.endSession_keeps ?_ | lift_lets
    | (intro x; refine Keeps.cut (s₀ := s₀) (s := x) ?_ ?_; rotate_left; clear_value x; intro _; rotate_left; subst x) | (intro x; refine Keeps.cut (s₀ := s₀) (s := x.2) ?_ ?_; rotate_left; clear_value x; intro _; rotate_left; subst x) | fail_if_no_progress refine Keeps.fields ?_ rfl rfl | intro _ | split | (dsimp +zetaDelta only; split)

theorem spdmEndSession_keeps {s₀ s : State} (h : Keeps s₀ s) {r} :
    Keeps s₀ (spdmEndSession r s).2 := by
  unfold spdmEndSession
  refine State.spdmSecured_keeps h fun x t k => ?_
  clear h
  with_reducible repeat'
    first
    | assumption | refine State.spdmSecured_keeps ?_ | refine State.endSession_keeps ?_
    | refine State.dropLogs_keeps ?_ | lift_lets
    | (intro x; refine Keeps.cut (s₀ := s₀) (s := x) ?_ ?_; rotate_left; clear_value x; intro _; rotate_left; subst x) | (intro x; refine Keeps.cut (s₀ := s₀) (s := x.2) ?_ ?_; rotate_left; clear_value x; intro _; rotate_left; subst x) | fail_if_no_progress refine Keeps.fields ?_ rfl rfl | intro _ | split | (dsimp +zetaDelta only; split)

theorem spdmHeartbeat_keeps {s₀ s : State} (h : Keeps s₀ s) {r} :
    Keeps s₀ (spdmHeartbeat r s).2 := by
  unfold spdmHeartbeat
  refine State.spdmSecured_keeps h fun x t k => ?_
  clear h
  with_reducible repeat'
    first
    | assumption | refine State.spdmSecured_keeps ?_ | refine State.dropLogs_keeps ?_ | lift_lets
    | (intro x; refine Keeps.cut (s₀ := s₀) (s := x) ?_ ?_; rotate_left; clear_value x; intro _; rotate_left; subst x) | (intro x; refine Keeps.cut (s₀ := s₀) (s := x.2) ?_ ?_; rotate_left; clear_value x; intro _; rotate_left; subst x) | fail_if_no_progress refine Keeps.fields ?_ rfl rfl | intro _ | split | (dsimp +zetaDelta only; split)

theorem spdmKeyUpdate_keeps {s₀ s : State} (h : Keeps s₀ s) {r} :
    Keeps s₀ (spdmKeyUpdate r s).2 := by
  unfold spdmKeyUpdate
  refine State.spdmSecured_keeps h fun x t k => ?_
  clear h
  with_reducible repeat'
    first
    | assumption | refine State.spdmSecured_keeps ?_ | refine State.spdmError_keeps ?_
    | refine State.dropLogs_keeps ?_ | lift_lets
    | (intro x; refine Keeps.cut (s₀ := s₀) (s := x) ?_ ?_; rotate_left; clear_value x; intro _; rotate_left; subst x) | (intro x; refine Keeps.cut (s₀ := s₀) (s := x.2) ?_ ?_; rotate_left; clear_value x; intro _; rotate_left; subst x) | fail_if_no_progress refine Keeps.fields ?_ rfl rfl | intro _ | split | (dsimp +zetaDelta only; split)

theorem spdmVendor_keeps {s₀ s : State} (h : Keeps s₀ s) {r} :
    Keeps s₀ (spdmVendor r s).2 := by
  unfold spdmVendor
  refine State.spdmSecured_keeps h fun x t k => ?_
  clear h
  with_reducible repeat'
    first
    | assumption | refine State.spdmSecured_keeps ?_ | refine State.spdmError_keeps ?_
    | refine State.dropLogs_keeps ?_ | lift_lets
    | (intro x; refine Keeps.cut (s₀ := s₀) (s := x) ?_ ?_; rotate_left; clear_value x; intro _; rotate_left; subst x) | (intro x; refine Keeps.cut (s₀ := s₀) (s := x.2) ?_ ?_; rotate_left; clear_value x; intro _; rotate_left; subst x) | fail_if_no_progress refine Keeps.fields ?_ rfl rfl | intro _ | split | (dsimp +zetaDelta only; split)

theorem spdmServe_keeps {s₀ s : State} (h : Keeps s₀ s) {code r} :
    Keeps s₀ (spdmServe code r s).2 := by
  unfold spdmServe
  with_reducible repeat'
    first
    | assumption | refine spdmVersion_keeps ?_ | refine spdmCapabilities_keeps ?_ | refine spdmAlgorithms_keeps ?_
    | refine spdmDigests_keeps ?_ | refine spdmCertificate_keeps ?_ | refine spdmChallenge_keeps ?_
    | refine spdmMeasurements_keeps ?_ | refine spdmKeyExchange_keeps ?_ | refine spdmFinish_keeps ?_
    | refine spdmEndSession_keeps ?_ | refine spdmHeartbeat_keeps ?_ | refine spdmKeyUpdate_keeps ?_
    | refine spdmVendor_keeps ?_ | refine State.spdmError_keeps ?_ | lift_lets
    | (intro x; refine Keeps.cut (s₀ := s₀) (s := x) ?_ ?_; rotate_left; clear_value x; intro _; rotate_left; subst x) | (intro x; refine Keeps.cut (s₀ := s₀) (s := x.2) ?_ ?_; rotate_left; clear_value x; intro _; rotate_left; subst x) | fail_if_no_progress refine Keeps.fields ?_ rfl rfl | intro _ | split | (dsimp +zetaDelta only; split)

theorem SpdmOut.fit_keeps {s₀ : State} {r : SpdmOut} (h : Keeps s₀ r.2) {ver : Nat} : Keeps s₀ (r.fit ver).2 := by
  unfold SpdmOut.fit
  dsimp only
  split
  · exact h
  · exact State.spdmFault_keeps (State.setSpdm_keeps h)

theorem SpdmOut.send_keeps {s₀ : State} {r : SpdmOut} (h : Keeps s₀ r.2) {ver : Nat} : Keeps s₀ (r.send ver) := by
  unfold SpdmOut.send
  exact State.setSpdm_keeps (SpdmOut.fit_keeps h)

theorem spdmChunkSend_keeps {s₀ s : State} (h : Keeps s₀ s) {r} :
    Keeps s₀ (spdmChunkSend r s).2 := by
  unfold spdmChunkSend
  refine State.spdmIf_keeps h fun t k => ?_
  clear h
  with_reducible repeat'
    first
    | assumption | refine State.spdmIf_keeps ?_ | refine State.setSpdm_keeps ?_ | refine State.spdmError_keeps ?_
    | refine spdmServe_keeps ?_ | lift_lets
    | (intro x; refine Keeps.cut (s₀ := s₀) (s := x) ?_ ?_; rotate_left; clear_value x; intro _; rotate_left; subst x) | (intro x; refine Keeps.cut (s₀ := s₀) (s := x.2) ?_ ?_; rotate_left; clear_value x; intro _; rotate_left; subst x) | fail_if_no_progress refine Keeps.fields ?_ rfl rfl | intro _ | split | (dsimp +zetaDelta only; split) | refine SpdmOut.fit_keeps ?_

theorem spdmChunkGet_keeps {s₀ s : State} (h : Keeps s₀ s) {r} :
    Keeps s₀ (spdmChunkGet r s).2 := by
  unfold spdmChunkGet
  refine State.spdmIf_keeps h fun t k => ?_
  clear h
  with_reducible repeat'
    first
    | assumption | refine State.spdmIf_keeps ?_ | refine State.spdmError_keeps ?_ | refine State.setSpdm_keeps ?_
    | lift_lets
    | (intro x; refine Keeps.cut (s₀ := s₀) (s := x) ?_ ?_; rotate_left; clear_value x; intro _; rotate_left; subst x) | (intro x; refine Keeps.cut (s₀ := s₀) (s := x.2) ?_ ?_; rotate_left; clear_value x; intro _; rotate_left; subst x) | fail_if_no_progress refine Keeps.fields ?_ rfl rfl | intro _ | split | (dsimp +zetaDelta only; split)

end

end Sys2Proof.Machine
end

