-- ==== Sys2Proof/Laws/State.lean ====
section
/-! SUPPORT. What each update of the state does to each part of it: one lemma per field per update, true by computation, and
the same for the accessors; with the laws of tables. -/

namespace Sys2Proof.Machine

/-! ### Tables -/

@[simp] theorem tget_tset_same {α : Type} (d : α) (t : Tab α) (k : Nat) (v : α) : tget d (tset t k v) k = v := by
  induction t with
  | nil => simp [tset, tget]
  | cons e t ih =>
    obtain ⟨j, w⟩ := e
    simp only [tset]
    split
    · simp [tget]
    · split
      · simp [tget]
      · simpa [tget, show ¬ j = k by omega] using ih

theorem tget_tset_other {α : Type} (d : α) (t : Tab α) {k n : Nat} (v : α) (h : n ≠ k) :
    tget d (tset t k v) n = tget d t n := by
  induction t with
  | nil => simp [tset, tget, h.symm]
  | cons e t ih =>
    obtain ⟨j, w⟩ := e
    simp only [tset]
    split
    · next hk => subst hk; simp [tget, h.symm]
    · split
      · simp [tget, h.symm]
      · simp [tget, ih]

/-! ### One lemma per field per update -/

@[simp] theorem State.putReg_pending (s : State) (off : Nat) (w : Word) : (s.putReg off w).pending = s.pending := rfl
@[simp] theorem State.putReg_rc (s : State) (off : Nat) (w : Word) : (s.putReg off w).rc = s.rc := rfl
@[simp] theorem State.putReg_freeCtr (s : State) (off : Nat) (w : Word) : (s.putReg off w).freeCtr = s.freeCtr := rfl
@[simp] theorem State.putReg_mem (s : State) (off : Nat) (w : Word) : (s.putReg off w).mem = s.mem := rfl
@[simp] theorem State.putReg_host (s : State) (off : Nat) (w : Word) : (s.putReg off w).host = s.host := rfl
@[simp] theorem State.putReg_frm (s : State) (off : Nat) (w : Word) : (s.putReg off w).frm = s.frm := rfl
@[simp] theorem State.putReg_hbm (s : State) (off : Nat) (w : Word) : (s.putReg off w).hbm = s.hbm := rfl
@[simp] theorem State.putReg_boot (s : State) (off : Nat) (w : Word) : (s.putReg off w).boot = s.boot := rfl
@[simp] theorem State.putReg_phys (s : State) (off : Nat) (w : Word) : (s.putReg off w).phys = s.phys := rfl
@[simp] theorem State.putReg_ras (s : State) (off : Nat) (w : Word) : (s.putReg off w).ras = s.ras := rfl
@[simp] theorem State.putReg_sec (s : State) (off : Nat) (w : Word) : (s.putReg off w).sec = s.sec := rfl
@[simp] theorem State.putReg_lnk (s : State) (off : Nat) (w : Word) : (s.putReg off w).lnk = s.lnk := rfl
@[simp] theorem State.putReg_col (s : State) (off : Nat) (w : Word) : (s.putReg off w).col = s.col := rfl
@[simp] theorem State.putReg_upd (s : State) (off : Nat) (w : Word) : (s.putReg off w).upd = s.upd := rfl
@[simp] theorem State.putReg_lup (s : State) (off : Nat) (w : Word) : (s.putReg off w).lup = s.lup := rfl
@[simp] theorem State.putReg_sts (s : State) (off : Nat) (w : Word) : (s.putReg off w).sts = s.sts := rfl
@[simp] theorem State.putReg_dsp (s : State) (off : Nat) (w : Word) : (s.putReg off w).dsp = s.dsp := rfl
@[simp] theorem State.putReg_out (s : State) (off : Nat) (w : Word) : (s.putReg off w).out = s.out := rfl
@[simp] theorem State.putReg_box (s : State) (off : Nat) (w : Word) (m' : Nat) : (s.putReg off w).box m' = s.box m' := rfl
@[simp] theorem State.putReg_record (s : State) (off : Nat) (w : Word) (i' : Nat) : (s.putReg off w).record i' = s.record i' := rfl
@[simp] theorem State.putReg_port (s : State) (off : Nat) (w : Word) (n' : Nat) : (s.putReg off w).port n' = s.port n' := rfl
@[simp] theorem State.putReg_stack (s : State) (off : Nat) (w : Word) (i' : Nat) : (s.putReg off w).stack i' = s.stack i' := rfl
@[simp] theorem State.putReg_chan (s : State) (off : Nat) (w : Word) (c' : Nat) : (s.putReg off w).chan c' = s.chan c' := rfl
@[simp] theorem State.putReg_domain (s : State) (off : Nat) (w : Word) (d' : Nat) : (s.putReg off w).domain d' = s.domain d' := rfl
@[simp] theorem State.putReg_engine (s : State) (off : Nat) (w : Word) (k' : Nat) : (s.putReg off w).engine k' = s.engine k' := rfl

@[simp] theorem State.stick_pending (s : State) (off i : Nat) : (s.stick off i).pending = s.pending := rfl
@[simp] theorem State.stick_rc (s : State) (off i : Nat) : (s.stick off i).rc = s.rc := rfl
@[simp] theorem State.stick_freeCtr (s : State) (off i : Nat) : (s.stick off i).freeCtr = s.freeCtr := rfl
@[simp] theorem State.stick_mem (s : State) (off i : Nat) : (s.stick off i).mem = s.mem := rfl
@[simp] theorem State.stick_host (s : State) (off i : Nat) : (s.stick off i).host = s.host := rfl
@[simp] theorem State.stick_frm (s : State) (off i : Nat) : (s.stick off i).frm = s.frm := rfl
@[simp] theorem State.stick_hbm (s : State) (off i : Nat) : (s.stick off i).hbm = s.hbm := rfl
@[simp] theorem State.stick_boot (s : State) (off i : Nat) : (s.stick off i).boot = s.boot := rfl
@[simp] theorem State.stick_phys (s : State) (off i : Nat) : (s.stick off i).phys = s.phys := rfl
@[simp] theorem State.stick_ras (s : State) (off i : Nat) : (s.stick off i).ras = s.ras := rfl
@[simp] theorem State.stick_sec (s : State) (off i : Nat) : (s.stick off i).sec = s.sec := rfl
@[simp] theorem State.stick_lnk (s : State) (off i : Nat) : (s.stick off i).lnk = s.lnk := rfl
@[simp] theorem State.stick_col (s : State) (off i : Nat) : (s.stick off i).col = s.col := rfl
@[simp] theorem State.stick_upd (s : State) (off i : Nat) : (s.stick off i).upd = s.upd := rfl
@[simp] theorem State.stick_lup (s : State) (off i : Nat) : (s.stick off i).lup = s.lup := rfl
@[simp] theorem State.stick_sts (s : State) (off i : Nat) : (s.stick off i).sts = s.sts := rfl
@[simp] theorem State.stick_dsp (s : State) (off i : Nat) : (s.stick off i).dsp = s.dsp := rfl
@[simp] theorem State.stick_out (s : State) (off i : Nat) : (s.stick off i).out = s.out := rfl
@[simp] theorem State.stick_box (s : State) (off i : Nat) (m' : Nat) : (s.stick off i).box m' = s.box m' := rfl
@[simp] theorem State.stick_record (s : State) (off i : Nat) (i' : Nat) : (s.stick off i).record i' = s.record i' := rfl
@[simp] theorem State.stick_port (s : State) (off i : Nat) (n' : Nat) : (s.stick off i).port n' = s.port n' := rfl
@[simp] theorem State.stick_stack (s : State) (off i : Nat) (i' : Nat) : (s.stick off i).stack i' = s.stack i' := rfl
@[simp] theorem State.stick_chan (s : State) (off i : Nat) (c' : Nat) : (s.stick off i).chan c' = s.chan c' := rfl
@[simp] theorem State.stick_domain (s : State) (off i : Nat) (d' : Nat) : (s.stick off i).domain d' = s.domain d' := rfl
@[simp] theorem State.stick_engine (s : State) (off i : Nat) (k' : Nat) : (s.stick off i).engine k' = s.engine k' := rfl

@[simp] theorem State.bump_pending (s : State) (off n : Nat) : (s.bump off n).pending = s.pending := rfl
@[simp] theorem State.bump_rc (s : State) (off n : Nat) : (s.bump off n).rc = s.rc := rfl
@[simp] theorem State.bump_freeCtr (s : State) (off n : Nat) : (s.bump off n).freeCtr = s.freeCtr := rfl
@[simp] theorem State.bump_mem (s : State) (off n : Nat) : (s.bump off n).mem = s.mem := rfl
@[simp] theorem State.bump_host (s : State) (off n : Nat) : (s.bump off n).host = s.host := rfl
@[simp] theorem State.bump_frm (s : State) (off n : Nat) : (s.bump off n).frm = s.frm := rfl
@[simp] theorem State.bump_hbm (s : State) (off n : Nat) : (s.bump off n).hbm = s.hbm := rfl
@[simp] theorem State.bump_boot (s : State) (off n : Nat) : (s.bump off n).boot = s.boot := rfl
@[simp] theorem State.bump_phys (s : State) (off n : Nat) : (s.bump off n).phys = s.phys := rfl
@[simp] theorem State.bump_ras (s : State) (off n : Nat) : (s.bump off n).ras = s.ras := rfl
@[simp] theorem State.bump_sec (s : State) (off n : Nat) : (s.bump off n).sec = s.sec := rfl
@[simp] theorem State.bump_lnk (s : State) (off n : Nat) : (s.bump off n).lnk = s.lnk := rfl
@[simp] theorem State.bump_col (s : State) (off n : Nat) : (s.bump off n).col = s.col := rfl
@[simp] theorem State.bump_upd (s : State) (off n : Nat) : (s.bump off n).upd = s.upd := rfl
@[simp] theorem State.bump_lup (s : State) (off n : Nat) : (s.bump off n).lup = s.lup := rfl
@[simp] theorem State.bump_sts (s : State) (off n : Nat) : (s.bump off n).sts = s.sts := rfl
@[simp] theorem State.bump_dsp (s : State) (off n : Nat) : (s.bump off n).dsp = s.dsp := rfl
@[simp] theorem State.bump_out (s : State) (off n : Nat) : (s.bump off n).out = s.out := rfl
@[simp] theorem State.bump_box (s : State) (off n : Nat) (m' : Nat) : (s.bump off n).box m' = s.box m' := rfl
@[simp] theorem State.bump_record (s : State) (off n : Nat) (i' : Nat) : (s.bump off n).record i' = s.record i' := rfl
@[simp] theorem State.bump_port (s : State) (off n : Nat) (n' : Nat) : (s.bump off n).port n' = s.port n' := rfl
@[simp] theorem State.bump_stack (s : State) (off n : Nat) (i' : Nat) : (s.bump off n).stack i' = s.stack i' := rfl
@[simp] theorem State.bump_chan (s : State) (off n : Nat) (c' : Nat) : (s.bump off n).chan c' = s.chan c' := rfl
@[simp] theorem State.bump_domain (s : State) (off n : Nat) (d' : Nat) : (s.bump off n).domain d' = s.domain d' := rfl
@[simp] theorem State.bump_engine (s : State) (off n : Nat) (k' : Nat) : (s.bump off n).engine k' = s.engine k' := rfl

@[simp] theorem State.putPair_pending (s : State) (lo hi v : Nat) : (s.putPair lo hi v).pending = s.pending := rfl
@[simp] theorem State.putPair_rc (s : State) (lo hi v : Nat) : (s.putPair lo hi v).rc = s.rc := rfl
@[simp] theorem State.putPair_freeCtr (s : State) (lo hi v : Nat) : (s.putPair lo hi v).freeCtr = s.freeCtr := rfl
@[simp] theorem State.putPair_mem (s : State) (lo hi v : Nat) : (s.putPair lo hi v).mem = s.mem := rfl
@[simp] theorem State.putPair_host (s : State) (lo hi v : Nat) : (s.putPair lo hi v).host = s.host := rfl
@[simp] theorem State.putPair_frm (s : State) (lo hi v : Nat) : (s.putPair lo hi v).frm = s.frm := rfl
@[simp] theorem State.putPair_hbm (s : State) (lo hi v : Nat) : (s.putPair lo hi v).hbm = s.hbm := rfl
@[simp] theorem State.putPair_boot (s : State) (lo hi v : Nat) : (s.putPair lo hi v).boot = s.boot := rfl
@[simp] theorem State.putPair_phys (s : State) (lo hi v : Nat) : (s.putPair lo hi v).phys = s.phys := rfl
@[simp] theorem State.putPair_ras (s : State) (lo hi v : Nat) : (s.putPair lo hi v).ras = s.ras := rfl
@[simp] theorem State.putPair_sec (s : State) (lo hi v : Nat) : (s.putPair lo hi v).sec = s.sec := rfl
@[simp] theorem State.putPair_lnk (s : State) (lo hi v : Nat) : (s.putPair lo hi v).lnk = s.lnk := rfl
@[simp] theorem State.putPair_col (s : State) (lo hi v : Nat) : (s.putPair lo hi v).col = s.col := rfl
@[simp] theorem State.putPair_upd (s : State) (lo hi v : Nat) : (s.putPair lo hi v).upd = s.upd := rfl
@[simp] theorem State.putPair_lup (s : State) (lo hi v : Nat) : (s.putPair lo hi v).lup = s.lup := rfl
@[simp] theorem State.putPair_sts (s : State) (lo hi v : Nat) : (s.putPair lo hi v).sts = s.sts := rfl
@[simp] theorem State.putPair_dsp (s : State) (lo hi v : Nat) : (s.putPair lo hi v).dsp = s.dsp := rfl
@[simp] theorem State.putPair_out (s : State) (lo hi v : Nat) : (s.putPair lo hi v).out = s.out := rfl
@[simp] theorem State.putPair_box (s : State) (lo hi v : Nat) (m' : Nat) : (s.putPair lo hi v).box m' = s.box m' := rfl
@[simp] theorem State.putPair_record (s : State) (lo hi v : Nat) (i' : Nat) : (s.putPair lo hi v).record i' = s.record i' := rfl
@[simp] theorem State.putPair_port (s : State) (lo hi v : Nat) (n' : Nat) : (s.putPair lo hi v).port n' = s.port n' := rfl
@[simp] theorem State.putPair_stack (s : State) (lo hi v : Nat) (i' : Nat) : (s.putPair lo hi v).stack i' = s.stack i' := rfl
@[simp] theorem State.putPair_chan (s : State) (lo hi v : Nat) (c' : Nat) : (s.putPair lo hi v).chan c' = s.chan c' := rfl
@[simp] theorem State.putPair_domain (s : State) (lo hi v : Nat) (d' : Nat) : (s.putPair lo hi v).domain d' = s.domain d' := rfl
@[simp] theorem State.putPair_engine (s : State) (lo hi v : Nat) (k' : Nat) : (s.putPair lo hi v).engine k' = s.engine k' := rfl

@[simp] theorem State.noteMgmt_pending (s : State) (x : MgmtOut) : (s.noteMgmt x).pending = s.pending := rfl
@[simp] theorem State.noteMgmt_rc (s : State) (x : MgmtOut) : (s.noteMgmt x).rc = s.rc := rfl
@[simp] theorem State.noteMgmt_freeCtr (s : State) (x : MgmtOut) : (s.noteMgmt x).freeCtr = s.freeCtr := rfl
@[simp] theorem State.noteMgmt_regs (s : State) (x : MgmtOut) : (s.noteMgmt x).regs = s.regs := rfl
@[simp] theorem State.noteMgmt_mem (s : State) (x : MgmtOut) : (s.noteMgmt x).mem = s.mem := rfl
@[simp] theorem State.noteMgmt_host (s : State) (x : MgmtOut) : (s.noteMgmt x).host = s.host := rfl
@[simp] theorem State.noteMgmt_frm (s : State) (x : MgmtOut) : (s.noteMgmt x).frm = s.frm := rfl
@[simp] theorem State.noteMgmt_hbm (s : State) (x : MgmtOut) : (s.noteMgmt x).hbm = s.hbm := rfl
@[simp] theorem State.noteMgmt_boot (s : State) (x : MgmtOut) : (s.noteMgmt x).boot = s.boot := rfl
@[simp] theorem State.noteMgmt_phys (s : State) (x : MgmtOut) : (s.noteMgmt x).phys = s.phys := rfl
@[simp] theorem State.noteMgmt_ras (s : State) (x : MgmtOut) : (s.noteMgmt x).ras = s.ras := rfl
@[simp] theorem State.noteMgmt_sec (s : State) (x : MgmtOut) : (s.noteMgmt x).sec = s.sec := rfl
@[simp] theorem State.noteMgmt_lnk (s : State) (x : MgmtOut) : (s.noteMgmt x).lnk = s.lnk := rfl
@[simp] theorem State.noteMgmt_col (s : State) (x : MgmtOut) : (s.noteMgmt x).col = s.col := rfl
@[simp] theorem State.noteMgmt_upd (s : State) (x : MgmtOut) : (s.noteMgmt x).upd = s.upd := rfl
@[simp] theorem State.noteMgmt_lup (s : State) (x : MgmtOut) : (s.noteMgmt x).lup = s.lup := rfl
@[simp] theorem State.noteMgmt_sts (s : State) (x : MgmtOut) : (s.noteMgmt x).sts = s.sts := rfl
@[simp] theorem State.noteMgmt_dsp (s : State) (x : MgmtOut) : (s.noteMgmt x).dsp = s.dsp := rfl
@[simp] theorem State.noteMgmt_reg (s : State) (x : MgmtOut) (off' : Nat) : (s.noteMgmt x).reg off' = s.reg off' := rfl
@[simp] theorem State.noteMgmt_box (s : State) (x : MgmtOut) (m' : Nat) : (s.noteMgmt x).box m' = s.box m' := rfl
@[simp] theorem State.noteMgmt_record (s : State) (x : MgmtOut) (i' : Nat) : (s.noteMgmt x).record i' = s.record i' := rfl
@[simp] theorem State.noteMgmt_port (s : State) (x : MgmtOut) (n' : Nat) : (s.noteMgmt x).port n' = s.port n' := rfl
@[simp] theorem State.noteMgmt_stack (s : State) (x : MgmtOut) (i' : Nat) : (s.noteMgmt x).stack i' = s.stack i' := rfl
@[simp] theorem State.noteMgmt_chan (s : State) (x : MgmtOut) (c' : Nat) : (s.noteMgmt x).chan c' = s.chan c' := rfl
@[simp] theorem State.noteMgmt_domain (s : State) (x : MgmtOut) (d' : Nat) : (s.noteMgmt x).domain d' = s.domain d' := rfl
@[simp] theorem State.noteMgmt_engine (s : State) (x : MgmtOut) (k' : Nat) : (s.noteMgmt x).engine k' = s.engine k' := rfl

@[simp] theorem State.setFrm_pending (s : State) (f : FrmState → FrmState) : (s.setFrm f).pending = s.pending := rfl
@[simp] theorem State.setFrm_rc (s : State) (f : FrmState → FrmState) : (s.setFrm f).rc = s.rc := rfl
@[simp] theorem State.setFrm_freeCtr (s : State) (f : FrmState → FrmState) : (s.setFrm f).freeCtr = s.freeCtr := rfl
@[simp] theorem State.setFrm_regs (s : State) (f : FrmState → FrmState) : (s.setFrm f).regs = s.regs := rfl
@[simp] theorem State.setFrm_mem (s : State) (f : FrmState → FrmState) : (s.setFrm f).mem = s.mem := rfl
@[simp] theorem State.setFrm_host (s : State) (f : FrmState → FrmState) : (s.setFrm f).host = s.host := rfl
@[simp] theorem State.setFrm_hbm (s : State) (f : FrmState → FrmState) : (s.setFrm f).hbm = s.hbm := rfl
@[simp] theorem State.setFrm_boot (s : State) (f : FrmState → FrmState) : (s.setFrm f).boot = s.boot := rfl
@[simp] theorem State.setFrm_phys (s : State) (f : FrmState → FrmState) : (s.setFrm f).phys = s.phys := rfl
@[simp] theorem State.setFrm_ras (s : State) (f : FrmState → FrmState) : (s.setFrm f).ras = s.ras := rfl
@[simp] theorem State.setFrm_sec (s : State) (f : FrmState → FrmState) : (s.setFrm f).sec = s.sec := rfl
@[simp] theorem State.setFrm_lnk (s : State) (f : FrmState → FrmState) : (s.setFrm f).lnk = s.lnk := rfl
@[simp] theorem State.setFrm_col (s : State) (f : FrmState → FrmState) : (s.setFrm f).col = s.col := rfl
@[simp] theorem State.setFrm_upd (s : State) (f : FrmState → FrmState) : (s.setFrm f).upd = s.upd := rfl
@[simp] theorem State.setFrm_lup (s : State) (f : FrmState → FrmState) : (s.setFrm f).lup = s.lup := rfl
@[simp] theorem State.setFrm_sts (s : State) (f : FrmState → FrmState) : (s.setFrm f).sts = s.sts := rfl
@[simp] theorem State.setFrm_dsp (s : State) (f : FrmState → FrmState) : (s.setFrm f).dsp = s.dsp := rfl
@[simp] theorem State.setFrm_out (s : State) (f : FrmState → FrmState) : (s.setFrm f).out = s.out := rfl
@[simp] theorem State.setFrm_reg (s : State) (f : FrmState → FrmState) (off' : Nat) : (s.setFrm f).reg off' = s.reg off' := rfl
@[simp] theorem State.setFrm_box (s : State) (f : FrmState → FrmState) (m' : Nat) : (s.setFrm f).box m' = s.box m' := rfl
@[simp] theorem State.setFrm_record (s : State) (f : FrmState → FrmState) (i' : Nat) : (s.setFrm f).record i' = s.record i' := rfl
@[simp] theorem State.setFrm_port (s : State) (f : FrmState → FrmState) (n' : Nat) : (s.setFrm f).port n' = s.port n' := rfl
@[simp] theorem State.setFrm_stack (s : State) (f : FrmState → FrmState) (i' : Nat) : (s.setFrm f).stack i' = s.stack i' := rfl
@[simp] theorem State.setFrm_chan (s : State) (f : FrmState → FrmState) (c' : Nat) : (s.setFrm f).chan c' = s.chan c' := rfl
@[simp] theorem State.setFrm_domain (s : State) (f : FrmState → FrmState) (d' : Nat) : (s.setFrm f).domain d' = s.domain d' := rfl
@[simp] theorem State.setFrm_engine (s : State) (f : FrmState → FrmState) (k' : Nat) : (s.setFrm f).engine k' = s.engine k' := rfl

@[simp] theorem State.setRun_pending (s : State) (r : SlotRef) (f : SlotRun → SlotRun) : (s.setRun r f).pending = s.pending := rfl
@[simp] theorem State.setRun_rc (s : State) (r : SlotRef) (f : SlotRun → SlotRun) : (s.setRun r f).rc = s.rc := rfl
@[simp] theorem State.setRun_freeCtr (s : State) (r : SlotRef) (f : SlotRun → SlotRun) : (s.setRun r f).freeCtr = s.freeCtr := rfl
@[simp] theorem State.setRun_regs (s : State) (r : SlotRef) (f : SlotRun → SlotRun) : (s.setRun r f).regs = s.regs := rfl
@[simp] theorem State.setRun_mem (s : State) (r : SlotRef) (f : SlotRun → SlotRun) : (s.setRun r f).mem = s.mem := rfl
@[simp] theorem State.setRun_host (s : State) (r : SlotRef) (f : SlotRun → SlotRun) : (s.setRun r f).host = s.host := rfl
@[simp] theorem State.setRun_hbm (s : State) (r : SlotRef) (f : SlotRun → SlotRun) : (s.setRun r f).hbm = s.hbm := rfl
@[simp] theorem State.setRun_boot (s : State) (r : SlotRef) (f : SlotRun → SlotRun) : (s.setRun r f).boot = s.boot := rfl
@[simp] theorem State.setRun_phys (s : State) (r : SlotRef) (f : SlotRun → SlotRun) : (s.setRun r f).phys = s.phys := rfl
@[simp] theorem State.setRun_ras (s : State) (r : SlotRef) (f : SlotRun → SlotRun) : (s.setRun r f).ras = s.ras := rfl
@[simp] theorem State.setRun_sec (s : State) (r : SlotRef) (f : SlotRun → SlotRun) : (s.setRun r f).sec = s.sec := rfl
@[simp] theorem State.setRun_lnk (s : State) (r : SlotRef) (f : SlotRun → SlotRun) : (s.setRun r f).lnk = s.lnk := rfl
@[simp] theorem State.setRun_col (s : State) (r : SlotRef) (f : SlotRun → SlotRun) : (s.setRun r f).col = s.col := rfl
@[simp] theorem State.setRun_upd (s : State) (r : SlotRef) (f : SlotRun → SlotRun) : (s.setRun r f).upd = s.upd := rfl
@[simp] theorem State.setRun_lup (s : State) (r : SlotRef) (f : SlotRun → SlotRun) : (s.setRun r f).lup = s.lup := rfl
@[simp] theorem State.setRun_sts (s : State) (r : SlotRef) (f : SlotRun → SlotRun) : (s.setRun r f).sts = s.sts := rfl
@[simp] theorem State.setRun_dsp (s : State) (r : SlotRef) (f : SlotRun → SlotRun) : (s.setRun r f).dsp = s.dsp := rfl
@[simp] theorem State.setRun_out (s : State) (r : SlotRef) (f : SlotRun → SlotRun) : (s.setRun r f).out = s.out := rfl
@[simp] theorem State.setRun_reg (s : State) (r : SlotRef) (f : SlotRun → SlotRun) (off' : Nat) : (s.setRun r f).reg off' = s.reg off' := rfl
@[simp] theorem State.setRun_box (s : State) (r : SlotRef) (f : SlotRun → SlotRun) (m' : Nat) : (s.setRun r f).box m' = s.box m' := rfl
@[simp] theorem State.setRun_record (s : State) (r : SlotRef) (f : SlotRun → SlotRun) (i' : Nat) : (s.setRun r f).record i' = s.record i' := rfl
@[simp] theorem State.setRun_port (s : State) (r : SlotRef) (f : SlotRun → SlotRun) (n' : Nat) : (s.setRun r f).port n' = s.port n' := rfl
@[simp] theorem State.setRun_stack (s : State) (r : SlotRef) (f : SlotRun → SlotRun) (i' : Nat) : (s.setRun r f).stack i' = s.stack i' := rfl
@[simp] theorem State.setRun_chan (s : State) (r : SlotRef) (f : SlotRun → SlotRun) (c' : Nat) : (s.setRun r f).chan c' = s.chan c' := rfl
@[simp] theorem State.setRun_domain (s : State) (r : SlotRef) (f : SlotRun → SlotRun) (d' : Nat) : (s.setRun r f).domain d' = s.domain d' := rfl
@[simp] theorem State.setRun_engine (s : State) (r : SlotRef) (f : SlotRun → SlotRun) (k' : Nat) : (s.setRun r f).engine k' = s.engine k' := rfl

@[simp] theorem State.setUpd_pending (s : State) (f : UpdState → UpdState) : (s.setUpd f).pending = s.pending := rfl
@[simp] theorem State.setUpd_rc (s : State) (f : UpdState → UpdState) : (s.setUpd f).rc = s.rc := rfl
@[simp] theorem State.setUpd_freeCtr (s : State) (f : UpdState → UpdState) : (s.setUpd f).freeCtr = s.freeCtr := rfl
@[simp] theorem State.setUpd_regs (s : State) (f : UpdState → UpdState) : (s.setUpd f).regs = s.regs := rfl
@[simp] theorem State.setUpd_mem (s : State) (f : UpdState → UpdState) : (s.setUpd f).mem = s.mem := rfl
@[simp] theorem State.setUpd_host (s : State) (f : UpdState → UpdState) : (s.setUpd f).host = s.host := rfl
@[simp] theorem State.setUpd_frm (s : State) (f : UpdState → UpdState) : (s.setUpd f).frm = s.frm := rfl
@[simp] theorem State.setUpd_hbm (s : State) (f : UpdState → UpdState) : (s.setUpd f).hbm = s.hbm := rfl
@[simp] theorem State.setUpd_boot (s : State) (f : UpdState → UpdState) : (s.setUpd f).boot = s.boot := rfl
@[simp] theorem State.setUpd_phys (s : State) (f : UpdState → UpdState) : (s.setUpd f).phys = s.phys := rfl
@[simp] theorem State.setUpd_ras (s : State) (f : UpdState → UpdState) : (s.setUpd f).ras = s.ras := rfl
@[simp] theorem State.setUpd_sec (s : State) (f : UpdState → UpdState) : (s.setUpd f).sec = s.sec := rfl
@[simp] theorem State.setUpd_lnk (s : State) (f : UpdState → UpdState) : (s.setUpd f).lnk = s.lnk := rfl
@[simp] theorem State.setUpd_col (s : State) (f : UpdState → UpdState) : (s.setUpd f).col = s.col := rfl
@[simp] theorem State.setUpd_lup (s : State) (f : UpdState → UpdState) : (s.setUpd f).lup = s.lup := rfl
@[simp] theorem State.setUpd_sts (s : State) (f : UpdState → UpdState) : (s.setUpd f).sts = s.sts := rfl
@[simp] theorem State.setUpd_dsp (s : State) (f : UpdState → UpdState) : (s.setUpd f).dsp = s.dsp := rfl
@[simp] theorem State.setUpd_out (s : State) (f : UpdState → UpdState) : (s.setUpd f).out = s.out := rfl
@[simp] theorem State.setUpd_reg (s : State) (f : UpdState → UpdState) (off' : Nat) : (s.setUpd f).reg off' = s.reg off' := rfl
@[simp] theorem State.setUpd_box (s : State) (f : UpdState → UpdState) (m' : Nat) : (s.setUpd f).box m' = s.box m' := rfl
@[simp] theorem State.setUpd_record (s : State) (f : UpdState → UpdState) (i' : Nat) : (s.setUpd f).record i' = s.record i' := rfl
@[simp] theorem State.setUpd_port (s : State) (f : UpdState → UpdState) (n' : Nat) : (s.setUpd f).port n' = s.port n' := rfl
@[simp] theorem State.setUpd_stack (s : State) (f : UpdState → UpdState) (i' : Nat) : (s.setUpd f).stack i' = s.stack i' := rfl
@[simp] theorem State.setUpd_chan (s : State) (f : UpdState → UpdState) (c' : Nat) : (s.setUpd f).chan c' = s.chan c' := rfl
@[simp] theorem State.setUpd_domain (s : State) (f : UpdState → UpdState) (d' : Nat) : (s.setUpd f).domain d' = s.domain d' := rfl

@[simp] theorem State.putEngine_pending (s : State) (k : Nat) (e : UpdEngine) : (s.putEngine k e).pending = s.pending := rfl
@[simp] theorem State.putEngine_rc (s : State) (k : Nat) (e : UpdEngine) : (s.putEngine k e).rc = s.rc := rfl
@[simp] theorem State.putEngine_freeCtr (s : State) (k : Nat) (e : UpdEngine) : (s.putEngine k e).freeCtr = s.freeCtr := rfl
@[simp] theorem State.putEngine_regs (s : State) (k : Nat) (e : UpdEngine) : (s.putEngine k e).regs = s.regs := rfl
@[simp] theorem State.putEngine_mem (s : State) (k : Nat) (e : UpdEngine) : (s.putEngine k e).mem = s.mem := rfl
@[simp] theorem State.putEngine_host (s : State) (k : Nat) (e : UpdEngine) : (s.putEngine k e).host = s.host := rfl
@[simp] theorem State.putEngine_frm (s : State) (k : Nat) (e : UpdEngine) : (s.putEngine k e).frm = s.frm := rfl
@[simp] theorem State.putEngine_hbm (s : State) (k : Nat) (e : UpdEngine) : (s.putEngine k e).hbm = s.hbm := rfl
@[simp] theorem State.putEngine_boot (s : State) (k : Nat) (e : UpdEngine) : (s.putEngine k e).boot = s.boot := rfl
@[simp] theorem State.putEngine_phys (s : State) (k : Nat) (e : UpdEngine) : (s.putEngine k e).phys = s.phys := rfl
@[simp] theorem State.putEngine_ras (s : State) (k : Nat) (e : UpdEngine) : (s.putEngine k e).ras = s.ras := rfl
@[simp] theorem State.putEngine_sec (s : State) (k : Nat) (e : UpdEngine) : (s.putEngine k e).sec = s.sec := rfl
@[simp] theorem State.putEngine_lnk (s : State) (k : Nat) (e : UpdEngine) : (s.putEngine k e).lnk = s.lnk := rfl
@[simp] theorem State.putEngine_col (s : State) (k : Nat) (e : UpdEngine) : (s.putEngine k e).col = s.col := rfl
@[simp] theorem State.putEngine_lup (s : State) (k : Nat) (e : UpdEngine) : (s.putEngine k e).lup = s.lup := rfl
@[simp] theorem State.putEngine_sts (s : State) (k : Nat) (e : UpdEngine) : (s.putEngine k e).sts = s.sts := rfl
@[simp] theorem State.putEngine_dsp (s : State) (k : Nat) (e : UpdEngine) : (s.putEngine k e).dsp = s.dsp := rfl
@[simp] theorem State.putEngine_out (s : State) (k : Nat) (e : UpdEngine) : (s.putEngine k e).out = s.out := rfl
@[simp] theorem State.putEngine_reg (s : State) (k : Nat) (e : UpdEngine) (off' : Nat) : (s.putEngine k e).reg off' = s.reg off' := rfl
@[simp] theorem State.putEngine_box (s : State) (k : Nat) (e : UpdEngine) (m' : Nat) : (s.putEngine k e).box m' = s.box m' := rfl
@[simp] theorem State.putEngine_record (s : State) (k : Nat) (e : UpdEngine) (i' : Nat) : (s.putEngine k e).record i' = s.record i' := rfl
@[simp] theorem State.putEngine_port (s : State) (k : Nat) (e : UpdEngine) (n' : Nat) : (s.putEngine k e).port n' = s.port n' := rfl
@[simp] theorem State.putEngine_stack (s : State) (k : Nat) (e : UpdEngine) (i' : Nat) : (s.putEngine k e).stack i' = s.stack i' := rfl
@[simp] theorem State.putEngine_chan (s : State) (k : Nat) (e : UpdEngine) (c' : Nat) : (s.putEngine k e).chan c' = s.chan c' := rfl
@[simp] theorem State.putEngine_domain (s : State) (k : Nat) (e : UpdEngine) (d' : Nat) : (s.putEngine k e).domain d' = s.domain d' := rfl

@[simp] theorem State.setLup_pending (s : State) (f : LupState → LupState) : (s.setLup f).pending = s.pending := rfl
@[simp] theorem State.setLup_rc (s : State) (f : LupState → LupState) : (s.setLup f).rc = s.rc := rfl
@[simp] theorem State.setLup_freeCtr (s : State) (f : LupState → LupState) : (s.setLup f).freeCtr = s.freeCtr := rfl
@[simp] theorem State.setLup_regs (s : State) (f : LupState → LupState) : (s.setLup f).regs = s.regs := rfl
@[simp] theorem State.setLup_mem (s : State) (f : LupState → LupState) : (s.setLup f).mem = s.mem := rfl
@[simp] theorem State.setLup_host (s : State) (f : LupState → LupState) : (s.setLup f).host = s.host := rfl
@[simp] theorem State.setLup_frm (s : State) (f : LupState → LupState) : (s.setLup f).frm = s.frm := rfl
@[simp] theorem State.setLup_hbm (s : State) (f : LupState → LupState) : (s.setLup f).hbm = s.hbm := rfl
@[simp] theorem State.setLup_boot (s : State) (f : LupState → LupState) : (s.setLup f).boot = s.boot := rfl
@[simp] theorem State.setLup_phys (s : State) (f : LupState → LupState) : (s.setLup f).phys = s.phys := rfl
@[simp] theorem State.setLup_ras (s : State) (f : LupState → LupState) : (s.setLup f).ras = s.ras := rfl
@[simp] theorem State.setLup_sec (s : State) (f : LupState → LupState) : (s.setLup f).sec = s.sec := rfl
@[simp] theorem State.setLup_lnk (s : State) (f : LupState → LupState) : (s.setLup f).lnk = s.lnk := rfl
@[simp] theorem State.setLup_col (s : State) (f : LupState → LupState) : (s.setLup f).col = s.col := rfl
@[simp] theorem State.setLup_upd (s : State) (f : LupState → LupState) : (s.setLup f).upd = s.upd := rfl
@[simp] theorem State.setLup_sts (s : State) (f : LupState → LupState) : (s.setLup f).sts = s.sts := rfl
@[simp] theorem State.setLup_dsp (s : State) (f : LupState → LupState) : (s.setLup f).dsp = s.dsp := rfl
@[simp] theorem State.setLup_out (s : State) (f : LupState → LupState) : (s.setLup f).out = s.out := rfl
@[simp] theorem State.setLup_reg (s : State) (f : LupState → LupState) (off' : Nat) : (s.setLup f).reg off' = s.reg off' := rfl
@[simp] theorem State.setLup_box (s : State) (f : LupState → LupState) (m' : Nat) : (s.setLup f).box m' = s.box m' := rfl
@[simp] theorem State.setLup_record (s : State) (f : LupState → LupState) (i' : Nat) : (s.setLup f).record i' = s.record i' := rfl
@[simp] theorem State.setLup_port (s : State) (f : LupState → LupState) (n' : Nat) : (s.setLup f).port n' = s.port n' := rfl
@[simp] theorem State.setLup_stack (s : State) (f : LupState → LupState) (i' : Nat) : (s.setLup f).stack i' = s.stack i' := rfl
@[simp] theorem State.setLup_chan (s : State) (f : LupState → LupState) (c' : Nat) : (s.setLup f).chan c' = s.chan c' := rfl
@[simp] theorem State.setLup_domain (s : State) (f : LupState → LupState) (d' : Nat) : (s.setLup f).domain d' = s.domain d' := rfl
@[simp] theorem State.setLup_engine (s : State) (f : LupState → LupState) (k' : Nat) : (s.setLup f).engine k' = s.engine k' := rfl

@[simp] theorem State.setCol_pending (s : State) (f : ColState → ColState) : (s.setCol f).pending = s.pending := rfl
@[simp] theorem State.setCol_rc (s : State) (f : ColState → ColState) : (s.setCol f).rc = s.rc := rfl
@[simp] theorem State.setCol_freeCtr (s : State) (f : ColState → ColState) : (s.setCol f).freeCtr = s.freeCtr := rfl
@[simp] theorem State.setCol_regs (s : State) (f : ColState → ColState) : (s.setCol f).regs = s.regs := rfl
@[simp] theorem State.setCol_mem (s : State) (f : ColState → ColState) : (s.setCol f).mem = s.mem := rfl
@[simp] theorem State.setCol_host (s : State) (f : ColState → ColState) : (s.setCol f).host = s.host := rfl
@[simp] theorem State.setCol_frm (s : State) (f : ColState → ColState) : (s.setCol f).frm = s.frm := rfl
@[simp] theorem State.setCol_hbm (s : State) (f : ColState → ColState) : (s.setCol f).hbm = s.hbm := rfl
@[simp] theorem State.setCol_boot (s : State) (f : ColState → ColState) : (s.setCol f).boot = s.boot := rfl
@[simp] theorem State.setCol_phys (s : State) (f : ColState → ColState) : (s.setCol f).phys = s.phys := rfl
@[simp] theorem State.setCol_ras (s : State) (f : ColState → ColState) : (s.setCol f).ras = s.ras := rfl
@[simp] theorem State.setCol_sec (s : State) (f : ColState → ColState) : (s.setCol f).sec = s.sec := rfl
@[simp] theorem State.setCol_lnk (s : State) (f : ColState → ColState) : (s.setCol f).lnk = s.lnk := rfl
@[simp] theorem State.setCol_upd (s : State) (f : ColState → ColState) : (s.setCol f).upd = s.upd := rfl
@[simp] theorem State.setCol_lup (s : State) (f : ColState → ColState) : (s.setCol f).lup = s.lup := rfl
@[simp] theorem State.setCol_sts (s : State) (f : ColState → ColState) : (s.setCol f).sts = s.sts := rfl
@[simp] theorem State.setCol_dsp (s : State) (f : ColState → ColState) : (s.setCol f).dsp = s.dsp := rfl
@[simp] theorem State.setCol_out (s : State) (f : ColState → ColState) : (s.setCol f).out = s.out := rfl
@[simp] theorem State.setCol_reg (s : State) (f : ColState → ColState) (off' : Nat) : (s.setCol f).reg off' = s.reg off' := rfl
@[simp] theorem State.setCol_box (s : State) (f : ColState → ColState) (m' : Nat) : (s.setCol f).box m' = s.box m' := rfl
@[simp] theorem State.setCol_record (s : State) (f : ColState → ColState) (i' : Nat) : (s.setCol f).record i' = s.record i' := rfl
@[simp] theorem State.setCol_port (s : State) (f : ColState → ColState) (n' : Nat) : (s.setCol f).port n' = s.port n' := rfl
@[simp] theorem State.setCol_stack (s : State) (f : ColState → ColState) (i' : Nat) : (s.setCol f).stack i' = s.stack i' := rfl
@[simp] theorem State.setCol_chan (s : State) (f : ColState → ColState) (c' : Nat) : (s.setCol f).chan c' = s.chan c' := rfl
@[simp] theorem State.setCol_domain (s : State) (f : ColState → ColState) (d' : Nat) : (s.setCol f).domain d' = s.domain d' := rfl
@[simp] theorem State.setCol_engine (s : State) (f : ColState → ColState) (k' : Nat) : (s.setCol f).engine k' = s.engine k' := rfl

@[simp] theorem State.setMirror_pending (s : State) (f : MirrorState → MirrorState) : (s.setMirror f).pending = s.pending := rfl
@[simp] theorem State.setMirror_rc (s : State) (f : MirrorState → MirrorState) : (s.setMirror f).rc = s.rc := rfl
@[simp] theorem State.setMirror_freeCtr (s : State) (f : MirrorState → MirrorState) : (s.setMirror f).freeCtr = s.freeCtr := rfl
@[simp] theorem State.setMirror_regs (s : State) (f : MirrorState → MirrorState) : (s.setMirror f).regs = s.regs := rfl
@[simp] theorem State.setMirror_mem (s : State) (f : MirrorState → MirrorState) : (s.setMirror f).mem = s.mem := rfl
@[simp] theorem State.setMirror_host (s : State) (f : MirrorState → MirrorState) : (s.setMirror f).host = s.host := rfl
@[simp] theorem State.setMirror_frm (s : State) (f : MirrorState → MirrorState) : (s.setMirror f).frm = s.frm := rfl
@[simp] theorem State.setMirror_hbm (s : State) (f : MirrorState → MirrorState) : (s.setMirror f).hbm = s.hbm := rfl
@[simp] theorem State.setMirror_boot (s : State) (f : MirrorState → MirrorState) : (s.setMirror f).boot = s.boot := rfl
@[simp] theorem State.setMirror_phys (s : State) (f : MirrorState → MirrorState) : (s.setMirror f).phys = s.phys := rfl
@[simp] theorem State.setMirror_sec (s : State) (f : MirrorState → MirrorState) : (s.setMirror f).sec = s.sec := rfl
@[simp] theorem State.setMirror_lnk (s : State) (f : MirrorState → MirrorState) : (s.setMirror f).lnk = s.lnk := rfl
@[simp] theorem State.setMirror_col (s : State) (f : MirrorState → MirrorState) : (s.setMirror f).col = s.col := rfl
@[simp] theorem State.setMirror_upd (s : State) (f : MirrorState → MirrorState) : (s.setMirror f).upd = s.upd := rfl
@[simp] theorem State.setMirror_lup (s : State) (f : MirrorState → MirrorState) : (s.setMirror f).lup = s.lup := rfl
@[simp] theorem State.setMirror_sts (s : State) (f : MirrorState → MirrorState) : (s.setMirror f).sts = s.sts := rfl
@[simp] theorem State.setMirror_dsp (s : State) (f : MirrorState → MirrorState) : (s.setMirror f).dsp = s.dsp := rfl
@[simp] theorem State.setMirror_out (s : State) (f : MirrorState → MirrorState) : (s.setMirror f).out = s.out := rfl
@[simp] theorem State.setMirror_reg (s : State) (f : MirrorState → MirrorState) (off' : Nat) : (s.setMirror f).reg off' = s.reg off' := rfl
@[simp] theorem State.setMirror_box (s : State) (f : MirrorState → MirrorState) (m' : Nat) : (s.setMirror f).box m' = s.box m' := rfl
@[simp] theorem State.setMirror_record (s : State) (f : MirrorState → MirrorState) (i' : Nat) : (s.setMirror f).record i' = s.record i' := rfl
@[simp] theorem State.setMirror_port (s : State) (f : MirrorState → MirrorState) (n' : Nat) : (s.setMirror f).port n' = s.port n' := rfl
@[simp] theorem State.setMirror_stack (s : State) (f : MirrorState → MirrorState) (i' : Nat) : (s.setMirror f).stack i' = s.stack i' := rfl
@[simp] theorem State.setMirror_chan (s : State) (f : MirrorState → MirrorState) (c' : Nat) : (s.setMirror f).chan c' = s.chan c' := rfl
@[simp] theorem State.setMirror_domain (s : State) (f : MirrorState → MirrorState) (d' : Nat) : (s.setMirror f).domain d' = s.domain d' := rfl
@[simp] theorem State.setMirror_engine (s : State) (f : MirrorState → MirrorState) (k' : Nat) : (s.setMirror f).engine k' = s.engine k' := rfl

@[simp] theorem State.setSpdm_pending (s : State) (f : SpdmState → SpdmState) : (s.setSpdm f).pending = s.pending := rfl
@[simp] theorem State.setSpdm_rc (s : State) (f : SpdmState → SpdmState) : (s.setSpdm f).rc = s.rc := rfl
@[simp] theorem State.setSpdm_freeCtr (s : State) (f : SpdmState → SpdmState) : (s.setSpdm f).freeCtr = s.freeCtr := rfl
@[simp] theorem State.setSpdm_regs (s : State) (f : SpdmState → SpdmState) : (s.setSpdm f).regs = s.regs := rfl
@[simp] theorem State.setSpdm_mem (s : State) (f : SpdmState → SpdmState) : (s.setSpdm f).mem = s.mem := rfl
@[simp] theorem State.setSpdm_host (s : State) (f : SpdmState → SpdmState) : (s.setSpdm f).host = s.host := rfl
@[simp] theorem State.setSpdm_frm (s : State) (f : SpdmState → SpdmState) : (s.setSpdm f).frm = s.frm := rfl
@[simp] theorem State.setSpdm_hbm (s : State) (f : SpdmState → SpdmState) : (s.setSpdm f).hbm = s.hbm := rfl
@[simp] theorem State.setSpdm_boot (s : State) (f : SpdmState → SpdmState) : (s.setSpdm f).boot = s.boot := rfl
@[simp] theorem State.setSpdm_phys (s : State) (f : SpdmState → SpdmState) : (s.setSpdm f).phys = s.phys := rfl
@[simp] theorem State.setSpdm_ras (s : State) (f : SpdmState → SpdmState) : (s.setSpdm f).ras = s.ras := rfl
@[simp] theorem State.setSpdm_lnk (s : State) (f : SpdmState → SpdmState) : (s.setSpdm f).lnk = s.lnk := rfl
@[simp] theorem State.setSpdm_col (s : State) (f : SpdmState → SpdmState) : (s.setSpdm f).col = s.col := rfl
@[simp] theorem State.setSpdm_upd (s : State) (f : SpdmState → SpdmState) : (s.setSpdm f).upd = s.upd := rfl
@[simp] theorem State.setSpdm_lup (s : State) (f : SpdmState → SpdmState) : (s.setSpdm f).lup = s.lup := rfl
@[simp] theorem State.setSpdm_sts (s : State) (f : SpdmState → SpdmState) : (s.setSpdm f).sts = s.sts := rfl
@[simp] theorem State.setSpdm_dsp (s : State) (f : SpdmState → SpdmState) : (s.setSpdm f).dsp = s.dsp := rfl
@[simp] theorem State.setSpdm_out (s : State) (f : SpdmState → SpdmState) : (s.setSpdm f).out = s.out := rfl
@[simp] theorem State.setSpdm_reg (s : State) (f : SpdmState → SpdmState) (off' : Nat) : (s.setSpdm f).reg off' = s.reg off' := rfl
@[simp] theorem State.setSpdm_box (s : State) (f : SpdmState → SpdmState) (m' : Nat) : (s.setSpdm f).box m' = s.box m' := rfl
@[simp] theorem State.setSpdm_record (s : State) (f : SpdmState → SpdmState) (i' : Nat) : (s.setSpdm f).record i' = s.record i' := rfl
@[simp] theorem State.setSpdm_port (s : State) (f : SpdmState → SpdmState) (n' : Nat) : (s.setSpdm f).port n' = s.port n' := rfl
@[simp] theorem State.setSpdm_stack (s : State) (f : SpdmState → SpdmState) (i' : Nat) : (s.setSpdm f).stack i' = s.stack i' := rfl
@[simp] theorem State.setSpdm_chan (s : State) (f : SpdmState → SpdmState) (c' : Nat) : (s.setSpdm f).chan c' = s.chan c' := rfl
@[simp] theorem State.setSpdm_domain (s : State) (f : SpdmState → SpdmState) (d' : Nat) : (s.setSpdm f).domain d' = s.domain d' := rfl
@[simp] theorem State.setSpdm_engine (s : State) (f : SpdmState → SpdmState) (k' : Nat) : (s.setSpdm f).engine k' = s.engine k' := rfl

@[simp] theorem State.putPort_pending (s : State) (n : Nat) (p : Port) : (s.putPort n p).pending = s.pending := rfl
@[simp] theorem State.putPort_rc (s : State) (n : Nat) (p : Port) : (s.putPort n p).rc = s.rc := rfl
@[simp] theorem State.putPort_freeCtr (s : State) (n : Nat) (p : Port) : (s.putPort n p).freeCtr = s.freeCtr := rfl
@[simp] theorem State.putPort_regs (s : State) (n : Nat) (p : Port) : (s.putPort n p).regs = s.regs := rfl
@[simp] theorem State.putPort_mem (s : State) (n : Nat) (p : Port) : (s.putPort n p).mem = s.mem := rfl
@[simp] theorem State.putPort_host (s : State) (n : Nat) (p : Port) : (s.putPort n p).host = s.host := rfl
@[simp] theorem State.putPort_frm (s : State) (n : Nat) (p : Port) : (s.putPort n p).frm = s.frm := rfl
@[simp] theorem State.putPort_hbm (s : State) (n : Nat) (p : Port) : (s.putPort n p).hbm = s.hbm := rfl
@[simp] theorem State.putPort_boot (s : State) (n : Nat) (p : Port) : (s.putPort n p).boot = s.boot := rfl
@[simp] theorem State.putPort_phys (s : State) (n : Nat) (p : Port) : (s.putPort n p).phys = s.phys := rfl
@[simp] theorem State.putPort_ras (s : State) (n : Nat) (p : Port) : (s.putPort n p).ras = s.ras := rfl
@[simp] theorem State.putPort_sec (s : State) (n : Nat) (p : Port) : (s.putPort n p).sec = s.sec := rfl
@[simp] theorem State.putPort_col (s : State) (n : Nat) (p : Port) : (s.putPort n p).col = s.col := rfl
@[simp] theorem State.putPort_upd (s : State) (n : Nat) (p : Port) : (s.putPort n p).upd = s.upd := rfl
@[simp] theorem State.putPort_lup (s : State) (n : Nat) (p : Port) : (s.putPort n p).lup = s.lup := rfl
@[simp] theorem State.putPort_sts (s : State) (n : Nat) (p : Port) : (s.putPort n p).sts = s.sts := rfl
@[simp] theorem State.putPort_dsp (s : State) (n : Nat) (p : Port) : (s.putPort n p).dsp = s.dsp := rfl
@[simp] theorem State.putPort_out (s : State) (n : Nat) (p : Port) : (s.putPort n p).out = s.out := rfl
@[simp] theorem State.putPort_reg (s : State) (n : Nat) (p : Port) (off' : Nat) : (s.putPort n p).reg off' = s.reg off' := rfl
@[simp] theorem State.putPort_box (s : State) (n : Nat) (p : Port) (m' : Nat) : (s.putPort n p).box m' = s.box m' := rfl
@[simp] theorem State.putPort_record (s : State) (n : Nat) (p : Port) (i' : Nat) : (s.putPort n p).record i' = s.record i' := rfl
@[simp] theorem State.putPort_stack (s : State) (n : Nat) (p : Port) (i' : Nat) : (s.putPort n p).stack i' = s.stack i' := rfl
@[simp] theorem State.putPort_chan (s : State) (n : Nat) (p : Port) (c' : Nat) : (s.putPort n p).chan c' = s.chan c' := rfl
@[simp] theorem State.putPort_domain (s : State) (n : Nat) (p : Port) (d' : Nat) : (s.putPort n p).domain d' = s.domain d' := rfl
@[simp] theorem State.putPort_engine (s : State) (n : Nat) (p : Port) (k' : Nat) : (s.putPort n p).engine k' = s.engine k' := rfl

@[simp] theorem State.putDomain_pending (s : State) (d : Nat) (c : ClockDomain) : (s.putDomain d c).pending = s.pending := rfl
@[simp] theorem State.putDomain_rc (s : State) (d : Nat) (c : ClockDomain) : (s.putDomain d c).rc = s.rc := rfl
@[simp] theorem State.putDomain_freeCtr (s : State) (d : Nat) (c : ClockDomain) : (s.putDomain d c).freeCtr = s.freeCtr := rfl
@[simp] theorem State.putDomain_regs (s : State) (d : Nat) (c : ClockDomain) : (s.putDomain d c).regs = s.regs := rfl
@[simp] theorem State.putDomain_mem (s : State) (d : Nat) (c : ClockDomain) : (s.putDomain d c).mem = s.mem := rfl
@[simp] theorem State.putDomain_host (s : State) (d : Nat) (c : ClockDomain) : (s.putDomain d c).host = s.host := rfl
@[simp] theorem State.putDomain_frm (s : State) (d : Nat) (c : ClockDomain) : (s.putDomain d c).frm = s.frm := rfl
@[simp] theorem State.putDomain_hbm (s : State) (d : Nat) (c : ClockDomain) : (s.putDomain d c).hbm = s.hbm := rfl
@[simp] theorem State.putDomain_boot (s : State) (d : Nat) (c : ClockDomain) : (s.putDomain d c).boot = s.boot := rfl
@[simp] theorem State.putDomain_ras (s : State) (d : Nat) (c : ClockDomain) : (s.putDomain d c).ras = s.ras := rfl
@[simp] theorem State.putDomain_sec (s : State) (d : Nat) (c : ClockDomain) : (s.putDomain d c).sec = s.sec := rfl
@[simp] theorem State.putDomain_lnk (s : State) (d : Nat) (c : ClockDomain) : (s.putDomain d c).lnk = s.lnk := rfl
@[simp] theorem State.putDomain_col (s : State) (d : Nat) (c : ClockDomain) : (s.putDomain d c).col = s.col := rfl
@[simp] theorem State.putDomain_upd (s : State) (d : Nat) (c : ClockDomain) : (s.putDomain d c).upd = s.upd := rfl
@[simp] theorem State.putDomain_lup (s : State) (d : Nat) (c : ClockDomain) : (s.putDomain d c).lup = s.lup := rfl
@[simp] theorem State.putDomain_sts (s : State) (d : Nat) (c : ClockDomain) : (s.putDomain d c).sts = s.sts := rfl
@[simp] theorem State.putDomain_dsp (s : State) (d : Nat) (c : ClockDomain) : (s.putDomain d c).dsp = s.dsp := rfl
@[simp] theorem State.putDomain_out (s : State) (d : Nat) (c : ClockDomain) : (s.putDomain d c).out = s.out := rfl
@[simp] theorem State.putDomain_reg (s : State) (d : Nat) (c : ClockDomain) (off' : Nat) : (s.putDomain d c).reg off' = s.reg off' := rfl
@[simp] theorem State.putDomain_box (s : State) (d : Nat) (c : ClockDomain) (m' : Nat) : (s.putDomain d c).box m' = s.box m' := rfl
@[simp] theorem State.putDomain_record (s : State) (d : Nat) (c : ClockDomain) (i' : Nat) : (s.putDomain d c).record i' = s.record i' := rfl
@[simp] theorem State.putDomain_port (s : State) (d : Nat) (c : ClockDomain) (n' : Nat) : (s.putDomain d c).port n' = s.port n' := rfl
@[simp] theorem State.putDomain_stack (s : State) (d : Nat) (c : ClockDomain) (i' : Nat) : (s.putDomain d c).stack i' = s.stack i' := rfl
@[simp] theorem State.putDomain_chan (s : State) (d : Nat) (c : ClockDomain) (c' : Nat) : (s.putDomain d c).chan c' = s.chan c' := rfl
@[simp] theorem State.putDomain_engine (s : State) (d : Nat) (c : ClockDomain) (k' : Nat) : (s.putDomain d c).engine k' = s.engine k' := rfl

@[simp] theorem State.putBox_pending (s : State) (m : Nat) (b : Mailbox) : (s.putBox m b).pending = s.pending := rfl
@[simp] theorem State.putBox_rc (s : State) (m : Nat) (b : Mailbox) : (s.putBox m b).rc = s.rc := rfl
@[simp] theorem State.putBox_freeCtr (s : State) (m : Nat) (b : Mailbox) : (s.putBox m b).freeCtr = s.freeCtr := rfl
@[simp] theorem State.putBox_regs (s : State) (m : Nat) (b : Mailbox) : (s.putBox m b).regs = s.regs := rfl
@[simp] theorem State.putBox_mem (s : State) (m : Nat) (b : Mailbox) : (s.putBox m b).mem = s.mem := rfl
@[simp] theorem State.putBox_frm (s : State) (m : Nat) (b : Mailbox) : (s.putBox m b).frm = s.frm := rfl
@[simp] theorem State.putBox_hbm (s : State) (m : Nat) (b : Mailbox) : (s.putBox m b).hbm = s.hbm := rfl
@[simp] theorem State.putBox_boot (s : State) (m : Nat) (b : Mailbox) : (s.putBox m b).boot = s.boot := rfl
@[simp] theorem State.putBox_phys (s : State) (m : Nat) (b : Mailbox) : (s.putBox m b).phys = s.phys := rfl
@[simp] theorem State.putBox_ras (s : State) (m : Nat) (b : Mailbox) : (s.putBox m b).ras = s.ras := rfl
@[simp] theorem State.putBox_sec (s : State) (m : Nat) (b : Mailbox) : (s.putBox m b).sec = s.sec := rfl
@[simp] theorem State.putBox_lnk (s : State) (m : Nat) (b : Mailbox) : (s.putBox m b).lnk = s.lnk := rfl
@[simp] theorem State.putBox_col (s : State) (m : Nat) (b : Mailbox) : (s.putBox m b).col = s.col := rfl
@[simp] theorem State.putBox_upd (s : State) (m : Nat) (b : Mailbox) : (s.putBox m b).upd = s.upd := rfl
@[simp] theorem State.putBox_lup (s : State) (m : Nat) (b : Mailbox) : (s.putBox m b).lup = s.lup := rfl
@[simp] theorem State.putBox_sts (s : State) (m : Nat) (b : Mailbox) : (s.putBox m b).sts = s.sts := rfl
@[simp] theorem State.putBox_dsp (s : State) (m : Nat) (b : Mailbox) : (s.putBox m b).dsp = s.dsp := rfl
@[simp] theorem State.putBox_out (s : State) (m : Nat) (b : Mailbox) : (s.putBox m b).out = s.out := rfl
@[simp] theorem State.putBox_reg (s : State) (m : Nat) (b : Mailbox) (off' : Nat) : (s.putBox m b).reg off' = s.reg off' := rfl
@[simp] theorem State.putBox_port (s : State) (m : Nat) (b : Mailbox) (n' : Nat) : (s.putBox m b).port n' = s.port n' := rfl
@[simp] theorem State.putBox_stack (s : State) (m : Nat) (b : Mailbox) (i' : Nat) : (s.putBox m b).stack i' = s.stack i' := rfl
@[simp] theorem State.putBox_chan (s : State) (m : Nat) (b : Mailbox) (c' : Nat) : (s.putBox m b).chan c' = s.chan c' := rfl
@[simp] theorem State.putBox_domain (s : State) (m : Nat) (b : Mailbox) (d' : Nat) : (s.putBox m b).domain d' = s.domain d' := rfl
@[simp] theorem State.putBox_engine (s : State) (m : Nat) (b : Mailbox) (k' : Nat) : (s.putBox m b).engine k' = s.engine k' := rfl

@[simp] theorem State.putRecord_pending (s : State) (i : Nat) (p : Progress) : (s.putRecord i p).pending = s.pending := rfl
@[simp] theorem State.putRecord_rc (s : State) (i : Nat) (p : Progress) : (s.putRecord i p).rc = s.rc := rfl
@[simp] theorem State.putRecord_freeCtr (s : State) (i : Nat) (p : Progress) : (s.putRecord i p).freeCtr = s.freeCtr := rfl
@[simp] theorem State.putRecord_regs (s : State) (i : Nat) (p : Progress) : (s.putRecord i p).regs = s.regs := rfl
@[simp] theorem State.putRecord_mem (s : State) (i : Nat) (p : Progress) : (s.putRecord i p).mem = s.mem := rfl
@[simp] theorem State.putRecord_frm (s : State) (i : Nat) (p : Progress) : (s.putRecord i p).frm = s.frm := rfl
@[simp] theorem State.putRecord_hbm (s : State) (i : Nat) (p : Progress) : (s.putRecord i p).hbm = s.hbm := rfl
@[simp] theorem State.putRecord_boot (s : State) (i : Nat) (p : Progress) : (s.putRecord i p).boot = s.boot := rfl
@[simp] theorem State.putRecord_phys (s : State) (i : Nat) (p : Progress) : (s.putRecord i p).phys = s.phys := rfl
@[simp] theorem State.putRecord_ras (s : State) (i : Nat) (p : Progress) : (s.putRecord i p).ras = s.ras := rfl
@[simp] theorem State.putRecord_sec (s : State) (i : Nat) (p : Progress) : (s.putRecord i p).sec = s.sec := rfl
@[simp] theorem State.putRecord_lnk (s : State) (i : Nat) (p : Progress) : (s.putRecord i p).lnk = s.lnk := rfl
@[simp] theorem State.putRecord_col (s : State) (i : Nat) (p : Progress) : (s.putRecord i p).col = s.col := rfl
@[simp] theorem State.putRecord_upd (s : State) (i : Nat) (p : Progress) : (s.putRecord i p).upd = s.upd := rfl
@[simp] theorem State.putRecord_lup (s : State) (i : Nat) (p : Progress) : (s.putRecord i p).lup = s.lup := rfl
@[simp] theorem State.putRecord_sts (s : State) (i : Nat) (p : Progress) : (s.putRecord i p).sts = s.sts := rfl
@[simp] theorem State.putRecord_dsp (s : State) (i : Nat) (p : Progress) : (s.putRecord i p).dsp = s.dsp := rfl
@[simp] theorem State.putRecord_out (s : State) (i : Nat) (p : Progress) : (s.putRecord i p).out = s.out := rfl
@[simp] theorem State.putRecord_reg (s : State) (i : Nat) (p : Progress) (off' : Nat) : (s.putRecord i p).reg off' = s.reg off' := rfl
@[simp] theorem State.putRecord_port (s : State) (i : Nat) (p : Progress) (n' : Nat) : (s.putRecord i p).port n' = s.port n' := rfl
@[simp] theorem State.putRecord_stack (s : State) (i : Nat) (p : Progress) (i' : Nat) : (s.putRecord i p).stack i' = s.stack i' := rfl
@[simp] theorem State.putRecord_chan (s : State) (i : Nat) (p : Progress) (c' : Nat) : (s.putRecord i p).chan c' = s.chan c' := rfl
@[simp] theorem State.putRecord_domain (s : State) (i : Nat) (p : Progress) (d' : Nat) : (s.putRecord i p).domain d' = s.domain d' := rfl
@[simp] theorem State.putRecord_engine (s : State) (i : Nat) (p : Progress) (k' : Nat) : (s.putRecord i p).engine k' = s.engine k' := rfl

@[simp] theorem State.putChan_pending (s : State) (c : Nat) (x : Channel) : (s.putChan c x).pending = s.pending := rfl
@[simp] theorem State.putChan_rc (s : State) (c : Nat) (x : Channel) : (s.putChan c x).rc = s.rc := rfl
@[simp] theorem State.putChan_freeCtr (s : State) (c : Nat) (x : Channel) : (s.putChan c x).freeCtr = s.freeCtr := rfl
@[simp] theorem State.putChan_regs (s : State) (c : Nat) (x : Channel) : (s.putChan c x).regs = s.regs := rfl
@[simp] theorem State.putChan_mem (s : State) (c : Nat) (x : Channel) : (s.putChan c x).mem = s.mem := rfl
@[simp] theorem State.putChan_host (s : State) (c : Nat) (x : Channel) : (s.putChan c x).host = s.host := rfl
@[simp] theorem State.putChan_frm (s : State) (c : Nat) (x : Channel) : (s.putChan c x).frm = s.frm := rfl
@[simp] theorem State.putChan_boot (s : State) (c : Nat) (x : Channel) : (s.putChan c x).boot = s.boot := rfl
@[simp] theorem State.putChan_phys (s : State) (c : Nat) (x : Channel) : (s.putChan c x).phys = s.phys := rfl
@[simp] theorem State.putChan_ras (s : State) (c : Nat) (x : Channel) : (s.putChan c x).ras = s.ras := rfl
@[simp] theorem State.putChan_sec (s : State) (c : Nat) (x : Channel) : (s.putChan c x).sec = s.sec := rfl
@[simp] theorem State.putChan_lnk (s : State) (c : Nat) (x : Channel) : (s.putChan c x).lnk = s.lnk := rfl
@[simp] theorem State.putChan_col (s : State) (c : Nat) (x : Channel) : (s.putChan c x).col = s.col := rfl
@[simp] theorem State.putChan_upd (s : State) (c : Nat) (x : Channel) : (s.putChan c x).upd = s.upd := rfl
@[simp] theorem State.putChan_lup (s : State) (c : Nat) (x : Channel) : (s.putChan c x).lup = s.lup := rfl
@[simp] theorem State.putChan_sts (s : State) (c : Nat) (x : Channel) : (s.putChan c x).sts = s.sts := rfl
@[simp] theorem State.putChan_dsp (s : State) (c : Nat) (x : Channel) : (s.putChan c x).dsp = s.dsp := rfl
@[simp] theorem State.putChan_out (s : State) (c : Nat) (x : Channel) : (s.putChan c x).out = s.out := rfl
@[simp] theorem State.putChan_reg (s : State) (c : Nat) (x : Channel) (off' : Nat) : (s.putChan c x).reg off' = s.reg off' := rfl
@[simp] theorem State.putChan_box (s : State) (c : Nat) (x : Channel) (m' : Nat) : (s.putChan c x).box m' = s.box m' := rfl
@[simp] theorem State.putChan_record (s : State) (c : Nat) (x : Channel) (i' : Nat) : (s.putChan c x).record i' = s.record i' := rfl
@[simp] theorem State.putChan_port (s : State) (c : Nat) (x : Channel) (n' : Nat) : (s.putChan c x).port n' = s.port n' := rfl
@[simp] theorem State.putChan_domain (s : State) (c : Nat) (x : Channel) (d' : Nat) : (s.putChan c x).domain d' = s.domain d' := rfl
@[simp] theorem State.putChan_engine (s : State) (c : Nat) (x : Channel) (k' : Nat) : (s.putChan c x).engine k' = s.engine k' := rfl

@[simp] theorem State.putStack_pending (s : State) (i : Nat) (x : StackTherm) : (s.putStack i x).pending = s.pending := rfl
@[simp] theorem State.putStack_rc (s : State) (i : Nat) (x : StackTherm) : (s.putStack i x).rc = s.rc := rfl
@[simp] theorem State.putStack_freeCtr (s : State) (i : Nat) (x : StackTherm) : (s.putStack i x).freeCtr = s.freeCtr := rfl
@[simp] theorem State.putStack_regs (s : State) (i : Nat) (x : StackTherm) : (s.putStack i x).regs = s.regs := rfl
@[simp] theorem State.putStack_mem (s : State) (i : Nat) (x : StackTherm) : (s.putStack i x).mem = s.mem := rfl
@[simp] theorem State.putStack_host (s : State) (i : Nat) (x : StackTherm) : (s.putStack i x).host = s.host := rfl
@[simp] theorem State.putStack_frm (s : State) (i : Nat) (x : StackTherm) : (s.putStack i x).frm = s.frm := rfl
@[simp] theorem State.putStack_boot (s : State) (i : Nat) (x : StackTherm) : (s.putStack i x).boot = s.boot := rfl
@[simp] theorem State.putStack_phys (s : State) (i : Nat) (x : StackTherm) : (s.putStack i x).phys = s.phys := rfl
@[simp] theorem State.putStack_ras (s : State) (i : Nat) (x : StackTherm) : (s.putStack i x).ras = s.ras := rfl
@[simp] theorem State.putStack_sec (s : State) (i : Nat) (x : StackTherm) : (s.putStack i x).sec = s.sec := rfl
@[simp] theorem State.putStack_lnk (s : State) (i : Nat) (x : StackTherm) : (s.putStack i x).lnk = s.lnk := rfl
@[simp] theorem State.putStack_col (s : State) (i : Nat) (x : StackTherm) : (s.putStack i x).col = s.col := rfl
@[simp] theorem State.putStack_upd (s : State) (i : Nat) (x : StackTherm) : (s.putStack i x).upd = s.upd := rfl
@[simp] theorem State.putStack_lup (s : State) (i : Nat) (x : StackTherm) : (s.putStack i x).lup = s.lup := rfl
@[simp] theorem State.putStack_sts (s : State) (i : Nat) (x : StackTherm) : (s.putStack i x).sts = s.sts := rfl
@[simp] theorem State.putStack_dsp (s : State) (i : Nat) (x : StackTherm) : (s.putStack i x).dsp = s.dsp := rfl
@[simp] theorem State.putStack_out (s : State) (i : Nat) (x : StackTherm) : (s.putStack i x).out = s.out := rfl
@[simp] theorem State.putStack_reg (s : State) (i : Nat) (x : StackTherm) (off' : Nat) : (s.putStack i x).reg off' = s.reg off' := rfl
@[simp] theorem State.putStack_box (s : State) (i : Nat) (x : StackTherm) (m' : Nat) : (s.putStack i x).box m' = s.box m' := rfl
@[simp] theorem State.putStack_record (s : State) (i : Nat) (x : StackTherm) (i' : Nat) : (s.putStack i x).record i' = s.record i' := rfl
@[simp] theorem State.putStack_port (s : State) (i : Nat) (x : StackTherm) (n' : Nat) : (s.putStack i x).port n' = s.port n' := rfl
@[simp] theorem State.putStack_domain (s : State) (i : Nat) (x : StackTherm) (d' : Nat) : (s.putStack i x).domain d' = s.domain d' := rfl
@[simp] theorem State.putStack_engine (s : State) (i : Nat) (x : StackTherm) (k' : Nat) : (s.putStack i x).engine k' = s.engine k' := rfl

@[simp] theorem State.setGroup_pending (s : State) (i : Nat) (f : StashGroup → StashGroup) : (s.setGroup i f).pending = s.pending := rfl
@[simp] theorem State.setGroup_rc (s : State) (i : Nat) (f : StashGroup → StashGroup) : (s.setGroup i f).rc = s.rc := rfl
@[simp] theorem State.setGroup_freeCtr (s : State) (i : Nat) (f : StashGroup → StashGroup) : (s.setGroup i f).freeCtr = s.freeCtr := rfl
@[simp] theorem State.setGroup_regs (s : State) (i : Nat) (f : StashGroup → StashGroup) : (s.setGroup i f).regs = s.regs := rfl
@[simp] theorem State.setGroup_mem (s : State) (i : Nat) (f : StashGroup → StashGroup) : (s.setGroup i f).mem = s.mem := rfl
@[simp] theorem State.setGroup_host (s : State) (i : Nat) (f : StashGroup → StashGroup) : (s.setGroup i f).host = s.host := rfl
@[simp] theorem State.setGroup_frm (s : State) (i : Nat) (f : StashGroup → StashGroup) : (s.setGroup i f).frm = s.frm := rfl
@[simp] theorem State.setGroup_hbm (s : State) (i : Nat) (f : StashGroup → StashGroup) : (s.setGroup i f).hbm = s.hbm := rfl
@[simp] theorem State.setGroup_boot (s : State) (i : Nat) (f : StashGroup → StashGroup) : (s.setGroup i f).boot = s.boot := rfl
@[simp] theorem State.setGroup_phys (s : State) (i : Nat) (f : StashGroup → StashGroup) : (s.setGroup i f).phys = s.phys := rfl
@[simp] theorem State.setGroup_ras (s : State) (i : Nat) (f : StashGroup → StashGroup) : (s.setGroup i f).ras = s.ras := rfl
@[simp] theorem State.setGroup_sec (s : State) (i : Nat) (f : StashGroup → StashGroup) : (s.setGroup i f).sec = s.sec := rfl
@[simp] theorem State.setGroup_lnk (s : State) (i : Nat) (f : StashGroup → StashGroup) : (s.setGroup i f).lnk = s.lnk := rfl
@[simp] theorem State.setGroup_col (s : State) (i : Nat) (f : StashGroup → StashGroup) : (s.setGroup i f).col = s.col := rfl
@[simp] theorem State.setGroup_upd (s : State) (i : Nat) (f : StashGroup → StashGroup) : (s.setGroup i f).upd = s.upd := rfl
@[simp] theorem State.setGroup_lup (s : State) (i : Nat) (f : StashGroup → StashGroup) : (s.setGroup i f).lup = s.lup := rfl
@[simp] theorem State.setGroup_dsp (s : State) (i : Nat) (f : StashGroup → StashGroup) : (s.setGroup i f).dsp = s.dsp := rfl
@[simp] theorem State.setGroup_out (s : State) (i : Nat) (f : StashGroup → StashGroup) : (s.setGroup i f).out = s.out := rfl
@[simp] theorem State.setGroup_reg (s : State) (i : Nat) (f : StashGroup → StashGroup) (off' : Nat) : (s.setGroup i f).reg off' = s.reg off' := rfl
@[simp] theorem State.setGroup_box (s : State) (i : Nat) (f : StashGroup → StashGroup) (m' : Nat) : (s.setGroup i f).box m' = s.box m' := rfl
@[simp] theorem State.setGroup_record (s : State) (i : Nat) (f : StashGroup → StashGroup) (i' : Nat) : (s.setGroup i f).record i' = s.record i' := rfl
@[simp] theorem State.setGroup_port (s : State) (i : Nat) (f : StashGroup → StashGroup) (n' : Nat) : (s.setGroup i f).port n' = s.port n' := rfl
@[simp] theorem State.setGroup_stack (s : State) (i : Nat) (f : StashGroup → StashGroup) (i' : Nat) : (s.setGroup i f).stack i' = s.stack i' := rfl
@[simp] theorem State.setGroup_chan (s : State) (i : Nat) (f : StashGroup → StashGroup) (c' : Nat) : (s.setGroup i f).chan c' = s.chan c' := rfl
@[simp] theorem State.setGroup_domain (s : State) (i : Nat) (f : StashGroup → StashGroup) (d' : Nat) : (s.setGroup i f).domain d' = s.domain d' := rfl
@[simp] theorem State.setGroup_engine (s : State) (i : Nat) (f : StashGroup → StashGroup) (k' : Nat) : (s.setGroup i f).engine k' = s.engine k' := rfl

/-! ### What an update sets, and what it leaves -/

@[simp] theorem State.putReg_reg_same (s : State) (off : Nat) (w : Word) : (s.putReg off w).reg off = w := tget_tset_same _ _ _ _
theorem State.putReg_reg_other (s : State) (off : Nat) (w : Word) (j : Nat) (h : j ≠ off) :
    (s.putReg off w).reg j = s.reg j := tget_tset_other _ _ _ h

@[simp] theorem State.putBox_box_same (s : State) (m : Nat) (b : Mailbox) : (s.putBox m b).box m = b := tget_tset_same _ _ _ _
theorem State.putBox_box_other (s : State) (m : Nat) (b : Mailbox) (j : Nat) (h : j ≠ m) :
    (s.putBox m b).box j = s.box j := tget_tset_other _ _ _ h

@[simp] theorem State.putRecord_record_same (s : State) (i : Nat) (p : Progress) : (s.putRecord i p).record i = p := tget_tset_same _ _ _ _
theorem State.putRecord_record_other (s : State) (i : Nat) (p : Progress) (j : Nat) (h : j ≠ i) :
    (s.putRecord i p).record j = s.record j := tget_tset_other _ _ _ h

@[simp] theorem State.putPort_port_same (s : State) (n : Nat) (p : Port) : (s.putPort n p).port n = p := tget_tset_same _ _ _ _
theorem State.putPort_port_other (s : State) (n : Nat) (p : Port) (j : Nat) (h : j ≠ n) :
    (s.putPort n p).port j = s.port j := tget_tset_other _ _ _ h

@[simp] theorem State.putDomain_domain_same (s : State) (d : Nat) (c : ClockDomain) : (s.putDomain d c).domain d = c := tget_tset_same _ _ _ _
theorem State.putDomain_domain_other (s : State) (d : Nat) (c : ClockDomain) (j : Nat) (h : j ≠ d) :
    (s.putDomain d c).domain j = s.domain j := tget_tset_other _ _ _ h

@[simp] theorem State.putChan_chan_same (s : State) (c : Nat) (x : Channel) : (s.putChan c x).chan c = x := tget_tset_same _ _ _ _
theorem State.putChan_chan_other (s : State) (c : Nat) (x : Channel) (j : Nat) (h : j ≠ c) :
    (s.putChan c x).chan j = s.chan j := tget_tset_other _ _ _ h

@[simp] theorem State.putStack_stack_same (s : State) (i : Nat) (x : StackTherm) : (s.putStack i x).stack i = x := tget_tset_same _ _ _ _
theorem State.putStack_stack_other (s : State) (i : Nat) (x : StackTherm) (j : Nat) (h : j ≠ i) :
    (s.putStack i x).stack j = s.stack j := tget_tset_other _ _ _ h

@[simp] theorem State.putEngine_engine_same (s : State) (k : Nat) (e : UpdEngine) : (s.putEngine k e).engine k = e := tget_tset_same _ _ _ _
theorem State.putEngine_engine_other (s : State) (k : Nat) (e : UpdEngine) (j : Nat) (h : j ≠ k) :
    (s.putEngine k e).engine j = s.engine j := tget_tset_other _ _ _ h

theorem State.putReg_reg (s : State) (off : Nat) (w : Word) (r : Nat) :
    (s.putReg off w).reg r = if r = off then w else s.reg r := by
  split
  · next h => subst h; simp
  · next h => exact s.putReg_reg_other off w r h

theorem State.bump_reg (s : State) (off n r : Nat) :
    (s.bump off n).reg r = if r = off then satAdd (s.reg off) n else s.reg r := s.putReg_reg off _ r

theorem State.stick_reg (s : State) (off i r : Nat) :
    (s.stick off i).reg r = if r = off then wordSet (s.reg off) i else s.reg r := s.putReg_reg off _ r

theorem wordSet_bit (w : Word) {i k : Nat} (hk : k < 32) : (wordSet w i).getLsbD k = (w.getLsbD k || decide (k = i)) := by
  simp only [wordSet, BitVec.getLsbD_or, BitVec.getLsbD_ofNat, Nat.testBit_two_pow, hk, decide_true, Bool.true_and]
  congr 1
  simp [eq_comm]

@[simp] theorem State.stick_regBit (s : State) (off : Nat) {i : Nat} (h : i < 32) : (s.stick off i).regBit off i = true := by
  simp [State.regBit, State.stick_reg, wordSet_bit _ h]

/-- A register outside the list keeps its value when a list of registers is cleared. -/
theorem State.clearRegs_reg (s : State) (l : List Nat) (r : Nat) :
    (s.clearRegs l).reg r = if r ∈ l then 0 else s.reg r := by
  induction l generalizing s with
  | nil => simp [State.clearRegs]
  | cons o l ih =>
    simp only [State.clearRegs, ih, State.putReg_reg, List.mem_cons]
    by_cases h : r ∈ l <;> by_cases k : r = o <;> simp [h, k]

/-- Clearing registers touches nothing but them. -/
theorem State.clearRegs_eq (s : State) (l : List Nat) : s.clearRegs l = { s with regs := (s.clearRegs l).regs } := by
  induction l generalizing s with
  | nil => rfl
  | cons o l ih => simp only [State.clearRegs]; rw [ih]; rfl

/-! ### Messages and completion -/

@[simp] theorem State.sendVec_pending (s : State) (v : Nat) : (s.sendVec v).pending = s.pending := by
  unfold State.sendVec; (repeat' split) <;> rfl
@[simp] theorem State.sendVec_rc (s : State) (v : Nat) : (s.sendVec v).rc = s.rc := by
  unfold State.sendVec; (repeat' split) <;> rfl
@[simp] theorem State.sendVec_freeCtr (s : State) (v : Nat) : (s.sendVec v).freeCtr = s.freeCtr := by
  unfold State.sendVec; (repeat' split) <;> rfl
@[simp] theorem State.sendVec_regs (s : State) (v : Nat) : (s.sendVec v).regs = s.regs := by
  unfold State.sendVec; (repeat' split) <;> rfl
@[simp] theorem State.sendVec_mem (s : State) (v : Nat) : (s.sendVec v).mem = s.mem := by
  unfold State.sendVec; (repeat' split) <;> rfl
@[simp] theorem State.sendVec_frm (s : State) (v : Nat) : (s.sendVec v).frm = s.frm := by
  unfold State.sendVec; (repeat' split) <;> rfl
@[simp] theorem State.sendVec_hbm (s : State) (v : Nat) : (s.sendVec v).hbm = s.hbm := by
  unfold State.sendVec; (repeat' split) <;> rfl
@[simp] theorem State.sendVec_boot (s : State) (v : Nat) : (s.sendVec v).boot = s.boot := by
  unfold State.sendVec; (repeat' split) <;> rfl
@[simp] theorem State.sendVec_phys (s : State) (v : Nat) : (s.sendVec v).phys = s.phys := by
  unfold State.sendVec; (repeat' split) <;> rfl
@[simp] theorem State.sendVec_ras (s : State) (v : Nat) : (s.sendVec v).ras = s.ras := by
  unfold State.sendVec; (repeat' split) <;> rfl
@[simp] theorem State.sendVec_sec (s : State) (v : Nat) : (s.sendVec v).sec = s.sec := by
  unfold State.sendVec; (repeat' split) <;> rfl
@[simp] theorem State.sendVec_lnk (s : State) (v : Nat) : (s.sendVec v).lnk = s.lnk := by
  unfold State.sendVec; (repeat' split) <;> rfl
@[simp] theorem State.sendVec_col (s : State) (v : Nat) : (s.sendVec v).col = s.col := by
  unfold State.sendVec; (repeat' split) <;> rfl
@[simp] theorem State.sendVec_upd (s : State) (v : Nat) : (s.sendVec v).upd = s.upd := by
  unfold State.sendVec; (repeat' split) <;> rfl
@[simp] theorem State.sendVec_lup (s : State) (v : Nat) : (s.sendVec v).lup = s.lup := by
  unfold State.sendVec; (repeat' split) <;> rfl
@[simp] theorem State.sendVec_sts (s : State) (v : Nat) : (s.sendVec v).sts = s.sts := by
  unfold State.sendVec; (repeat' split) <;> rfl
@[simp] theorem State.sendVec_dsp (s : State) (v : Nat) : (s.sendVec v).dsp = s.dsp := by
  unfold State.sendVec; (repeat' split) <;> rfl
@[simp] theorem State.sendVec_reg (s : State) (v : Nat) (off' : Nat) : (s.sendVec v).reg off' = s.reg off' := by
  unfold State.sendVec; (repeat' split) <;> rfl
@[simp] theorem State.sendVec_box (s : State) (v : Nat) (m' : Nat) : (s.sendVec v).box m' = s.box m' := by
  unfold State.sendVec; (repeat' split) <;> rfl
@[simp] theorem State.sendVec_record (s : State) (v : Nat) (i' : Nat) : (s.sendVec v).record i' = s.record i' := by
  unfold State.sendVec; (repeat' split) <;> rfl
@[simp] theorem State.sendVec_port (s : State) (v : Nat) (n' : Nat) : (s.sendVec v).port n' = s.port n' := by
  unfold State.sendVec; (repeat' split) <;> rfl
@[simp] theorem State.sendVec_stack (s : State) (v : Nat) (i' : Nat) : (s.sendVec v).stack i' = s.stack i' := by
  unfold State.sendVec; (repeat' split) <;> rfl
@[simp] theorem State.sendVec_chan (s : State) (v : Nat) (c' : Nat) : (s.sendVec v).chan c' = s.chan c' := by
  unfold State.sendVec; (repeat' split) <;> rfl
@[simp] theorem State.sendVec_domain (s : State) (v : Nat) (d' : Nat) : (s.sendVec v).domain d' = s.domain d' := by
  unfold State.sendVec; (repeat' split) <;> rfl
@[simp] theorem State.sendVec_engine (s : State) (v : Nat) (k' : Nat) : (s.sendVec v).engine k' = s.engine k' := by
  unfold State.sendVec; (repeat' split) <;> rfl
@[simp] theorem State.sendVec_host_records (s : State) (v : Nat) : (s.sendVec v).host.records = s.host.records := by
  unfold State.sendVec; (repeat' split) <;> rfl
@[simp] theorem State.sendVec_host_traps (s : State) (v : Nat) : (s.sendVec v).host.traps = s.host.traps := by
  unfold State.sendVec; (repeat' split) <;> rfl
@[simp] theorem State.sendVec_host_msix (s : State) (v : Nat) : (s.sendVec v).host.msix = s.host.msix := by
  unfold State.sendVec; (repeat' split) <;> rfl
@[simp] theorem State.sendVec_host_hdmBase (s : State) (v : Nat) : (s.sendVec v).host.hdmBase = s.host.hdmBase := by
  unfold State.sendVec; (repeat' split) <;> rfl
@[simp] theorem State.sendVec_host_hdmUnits (s : State) (v : Nat) : (s.sendVec v).host.hdmUnits = s.host.hdmUnits := by
  unfold State.sendVec; (repeat' split) <;> rfl
@[simp] theorem State.sendVec_host_hdmDecoder (s : State) (v : Nat) : (s.sendVec v).host.hdmDecoder = s.host.hdmDecoder := by
  unfold State.sendVec; (repeat' split) <;> rfl
@[simp] theorem State.sendVec_host_hostLimit (s : State) (v : Nat) : (s.sendVec v).host.hostLimit = s.host.hostLimit := by
  unfold State.sendVec; (repeat' split) <;> rfl
@[simp] theorem State.sendVec_host_boxes (s : State) (v : Nat) : (s.sendVec v).host.boxes = s.host.boxes := by
  unfold State.sendVec; (repeat' split) <;> rfl
@[simp] theorem State.sendVec_host_submits (s : State) (v : Nat) : (s.sendVec v).host.submits = s.host.submits := by
  unfold State.sendVec; (repeat' split) <;> rfl
@[simp] theorem State.sendVec_host_memoryActive (s : State) (v : Nat) : (s.sendVec v).host.memoryActive = s.host.memoryActive := by
  unfold State.sendVec; (repeat' split) <;> rfl
@[simp] theorem State.sendVec_host_vecBox (s : State) (v : Nat) : (s.sendVec v).host.vecBox = s.host.vecBox := by
  unfold State.sendVec; (repeat' split) <;> rfl
@[simp] theorem State.sendVec_host_vecRas (s : State) (v : Nat) : (s.sendVec v).host.vecRas = s.host.vecRas := by
  unfold State.sendVec; (repeat' split) <;> rfl
@[simp] theorem State.sendVec_host_vecProgress (s : State) (v : Nat) : (s.sendVec v).host.vecProgress = s.host.vecProgress := by
  unfold State.sendVec; (repeat' split) <;> rfl
@[simp] theorem State.sendVec_host_vecFrame (s : State) (v : Nat) : (s.sendVec v).host.vecFrame = s.host.vecFrame := by
  unfold State.sendVec; (repeat' split) <;> rfl
@[simp] theorem State.sendVec_host_linkWidth (s : State) (v : Nat) : (s.sendVec v).host.linkWidth = s.host.linkWidth := by
  unfold State.sendVec; (repeat' split) <;> rfl
@[simp] theorem State.sendVec_host_linkRate (s : State) (v : Nat) : (s.sendVec v).host.linkRate = s.host.linkRate := by
  unfold State.sendVec; (repeat' split) <;> rfl
@[simp] theorem State.sendVec_host_linkActive (s : State) (v : Nat) : (s.sendVec v).host.linkActive = s.host.linkActive := by
  unfold State.sendVec; (repeat' split) <;> rfl
@[simp] theorem State.sendVec_out_mgmt (s : State) (v : Nat) : (s.sendVec v).out.mgmt = s.out.mgmt := by
  unfold State.sendVec; (repeat' split) <;> rfl
@[simp] theorem State.sendVec_out_fabric (s : State) (v : Nat) : (s.sendVec v).out.fabric = s.out.fabric := by
  unfold State.sendVec; (repeat' split) <;> rfl

/-! ### The updates of the decoder, the measurements and the start's fault -/

@[simp] theorem State.setDecoder_pending (s : State) (d : Option (BitVec 52)) : (s.setDecoder d).pending = s.pending := rfl
@[simp] theorem State.setDecoder_rc (s : State) (d : Option (BitVec 52)) : (s.setDecoder d).rc = s.rc := rfl
@[simp] theorem State.setDecoder_freeCtr (s : State) (d : Option (BitVec 52)) : (s.setDecoder d).freeCtr = s.freeCtr := rfl
@[simp] theorem State.setDecoder_regs (s : State) (d : Option (BitVec 52)) : (s.setDecoder d).regs = s.regs := rfl
@[simp] theorem State.setDecoder_mem (s : State) (d : Option (BitVec 52)) : (s.setDecoder d).mem = s.mem := rfl
@[simp] theorem State.setDecoder_host (s : State) (d : Option (BitVec 52)) :
    (s.setDecoder d).host = { s.host with hdmDecoder := d.map (fun x => x.toNat) } := rfl
@[simp] theorem State.setDecoder_frm (s : State) (d : Option (BitVec 52)) : (s.setDecoder d).frm = s.frm := rfl
@[simp] theorem State.setDecoder_hbm (s : State) (d : Option (BitVec 52)) : (s.setDecoder d).hbm = s.hbm := rfl
@[simp] theorem State.setDecoder_boot (s : State) (d : Option (BitVec 52)) : (s.setDecoder d).boot = s.boot := rfl
@[simp] theorem State.setDecoder_phys (s : State) (d : Option (BitVec 52)) : (s.setDecoder d).phys = s.phys := rfl
@[simp] theorem State.setDecoder_ras (s : State) (d : Option (BitVec 52)) : (s.setDecoder d).ras = s.ras := rfl
@[simp] theorem State.setDecoder_sec (s : State) (d : Option (BitVec 52)) : (s.setDecoder d).sec = s.sec := rfl
@[simp] theorem State.setDecoder_lnk (s : State) (d : Option (BitVec 52)) : (s.setDecoder d).lnk = s.lnk := rfl
@[simp] theorem State.setDecoder_col (s : State) (d : Option (BitVec 52)) : (s.setDecoder d).col = s.col := rfl
@[simp] theorem State.setDecoder_upd (s : State) (d : Option (BitVec 52)) : (s.setDecoder d).upd = s.upd := rfl
@[simp] theorem State.setDecoder_lup (s : State) (d : Option (BitVec 52)) : (s.setDecoder d).lup = s.lup := rfl
@[simp] theorem State.setDecoder_sts (s : State) (d : Option (BitVec 52)) : (s.setDecoder d).sts = s.sts := rfl
@[simp] theorem State.setDecoder_dsp (s : State) (d : Option (BitVec 52)) : (s.setDecoder d).dsp = s.dsp := rfl
@[simp] theorem State.setDecoder_out (s : State) (d : Option (BitVec 52)) : (s.setDecoder d).out = s.out := rfl
@[simp] theorem State.setDecoder_reg (s : State) (d : Option (BitVec 52)) (off' : Nat) : (s.setDecoder d).reg off' = s.reg off' := rfl
@[simp] theorem State.setDecoder_port (s : State) (d : Option (BitVec 52)) (n' : Nat) : (s.setDecoder d).port n' = s.port n' := rfl
@[simp] theorem State.measChanged_pending (s : State) (i : Nat) : (s.measChanged i).pending = s.pending := rfl
@[simp] theorem State.measChanged_rc (s : State) (i : Nat) : (s.measChanged i).rc = s.rc := rfl
@[simp] theorem State.measChanged_freeCtr (s : State) (i : Nat) : (s.measChanged i).freeCtr = s.freeCtr := rfl
@[simp] theorem State.measChanged_regs (s : State) (i : Nat) : (s.measChanged i).regs = s.regs := rfl
@[simp] theorem State.measChanged_mem (s : State) (i : Nat) : (s.measChanged i).mem = s.mem := rfl
@[simp] theorem State.measChanged_host (s : State) (i : Nat) : (s.measChanged i).host = s.host := rfl
@[simp] theorem State.measChanged_frm (s : State) (i : Nat) : (s.measChanged i).frm = s.frm := rfl
@[simp] theorem State.measChanged_hbm (s : State) (i : Nat) : (s.measChanged i).hbm = s.hbm := rfl
@[simp] theorem State.measChanged_boot (s : State) (i : Nat) : (s.measChanged i).boot = s.boot := rfl
@[simp] theorem State.measChanged_phys (s : State) (i : Nat) : (s.measChanged i).phys = s.phys := rfl
@[simp] theorem State.measChanged_ras (s : State) (i : Nat) : (s.measChanged i).ras = s.ras := rfl
@[simp] theorem State.measChanged_sec (s : State) (i : Nat) :
    (s.measChanged i).sec = { s.sec with measChanges := tmod 0 s.sec.measChanges i (· + 1) } := rfl
@[simp] theorem State.measChanged_lnk (s : State) (i : Nat) : (s.measChanged i).lnk = s.lnk := rfl
@[simp] theorem State.measChanged_col (s : State) (i : Nat) : (s.measChanged i).col = s.col := rfl
@[simp] theorem State.measChanged_upd (s : State) (i : Nat) : (s.measChanged i).upd = s.upd := rfl
@[simp] theorem State.measChanged_lup (s : State) (i : Nat) : (s.measChanged i).lup = s.lup := rfl
@[simp] theorem State.measChanged_sts (s : State) (i : Nat) : (s.measChanged i).sts = s.sts := rfl
@[simp] theorem State.measChanged_dsp (s : State) (i : Nat) : (s.measChanged i).dsp = s.dsp := rfl
@[simp] theorem State.measChanged_out (s : State) (i : Nat) : (s.measChanged i).out = s.out := rfl
@[simp] theorem State.measChanged_reg (s : State) (i : Nat) (off' : Nat) : (s.measChanged i).reg off' = s.reg off' := rfl
@[simp] theorem State.measChanged_port (s : State) (i : Nat) (n' : Nat) : (s.measChanged i).port n' = s.port n' := rfl
@[simp] theorem State.measChanged_box (s : State) (i : Nat) (m' : Nat) : (s.measChanged i).box m' = s.box m' := rfl
@[simp] theorem State.noteHang_pending (s : State) (h : StageHang) : (s.noteHang h).pending = s.pending := rfl
@[simp] theorem State.noteHang_rc (s : State) (h : StageHang) : (s.noteHang h).rc = s.rc := rfl
@[simp] theorem State.noteHang_freeCtr (s : State) (h : StageHang) : (s.noteHang h).freeCtr = s.freeCtr := rfl
@[simp] theorem State.noteHang_regs (s : State) (h : StageHang) : (s.noteHang h).regs = s.regs := rfl
@[simp] theorem State.noteHang_mem (s : State) (h : StageHang) : (s.noteHang h).mem = s.mem := rfl
@[simp] theorem State.noteHang_host (s : State) (h : StageHang) : (s.noteHang h).host = s.host := rfl
@[simp] theorem State.noteHang_frm (s : State) (h : StageHang) : (s.noteHang h).frm = s.frm := rfl
@[simp] theorem State.noteHang_hbm (s : State) (h : StageHang) : (s.noteHang h).hbm = s.hbm := rfl
@[simp] theorem State.noteHang_boot (s : State) (h : StageHang) :
    (s.noteHang h).boot = { s.boot with hang := h, badCopies := h.badCopies } := rfl
@[simp] theorem State.noteHang_phys (s : State) (h : StageHang) : (s.noteHang h).phys = s.phys := rfl
@[simp] theorem State.noteHang_ras (s : State) (h : StageHang) : (s.noteHang h).ras = s.ras := rfl
@[simp] theorem State.noteHang_sec (s : State) (h : StageHang) : (s.noteHang h).sec = s.sec := rfl
@[simp] theorem State.noteHang_lnk (s : State) (h : StageHang) : (s.noteHang h).lnk = s.lnk := rfl
@[simp] theorem State.noteHang_col (s : State) (h : StageHang) : (s.noteHang h).col = s.col := rfl
@[simp] theorem State.noteHang_upd (s : State) (h : StageHang) : (s.noteHang h).upd = s.upd := rfl
@[simp] theorem State.noteHang_lup (s : State) (h : StageHang) : (s.noteHang h).lup = s.lup := rfl
@[simp] theorem State.noteHang_sts (s : State) (h : StageHang) : (s.noteHang h).sts = s.sts := rfl
@[simp] theorem State.noteHang_dsp (s : State) (h : StageHang) : (s.noteHang h).dsp = s.dsp := rfl
@[simp] theorem State.noteHang_out (s : State) (h : StageHang) : (s.noteHang h).out = s.out := rfl
@[simp] theorem State.noteHang_reg (s : State) (h : StageHang) (off' : Nat) : (s.noteHang h).reg off' = s.reg off' := rfl
@[simp] theorem State.noteHang_port (s : State) (h : StageHang) (n' : Nat) : (s.noteHang h).port n' = s.port n' := rfl
@[simp] theorem State.noteHang_box (s : State) (h : StageHang) (m' : Nat) : (s.noteHang h).box m' = s.box m' := rfl

/-- The state after completion, before its message. -/
def State.withResponse (s : State) (m : Nat) (x : Status) (detail : Nat) (data : List Byte) : State :=
  let b := s.box m
  let b' := { b with
    ext := slice (data.drop 48) 0 3840,
    resp := responsePage (u16At b.captured 0) x.code (u32At b.captured 4) data.length detail data,
    st := .done }
  let s1 := (s.putBox m b').bump Reg.MBX_CNT_CMDS 1
  if x = .success ∨ x = .opStarted then s1 else s1.bump Reg.MBX_CNT_REFUSED 1

theorem State.complete_eq (s : State) (m : Nat) (x : Status) (detail : Nat) (data : List Byte) :
    s.complete m x detail data = if bit (u8At (s.box m).captured 2) 0 then
      (s.withResponse m x detail data).sendVec (s.boxVec m) else s.withResponse m x detail data := by
  unfold State.complete State.withResponse
  simp only

end Sys2Proof.Machine
end

