-- ==== Sys2Proof/Laws/Store.lean ====
section
/-! SUPPORT. What a store does: the bytes it writes, and the bookkeeping of the write-combining buffers beside them. -/

namespace Sys2Proof.Machine

/-- The state with other write-combining lines, poison words and a drained-line count, and nothing else. -/
structure Combined (s t : State) : Prop where
  eq : t = { s with regs := t.regs, hbm := { s.hbm with wcb := t.hbm.wcb, poison := t.hbm.poison } }
  reg : ∀ r, r ≠ Reg.HBM_CNT_WCB_RMW → t.reg r = s.reg r

theorem Combined.refl (s : State) : Combined s s := ⟨rfl, fun _ _ => rfl⟩

theorem Combined.trans {s t u : State} (h : Combined s t) (k : Combined t u) : Combined s u :=
  ⟨by rw [k.eq, h.eq], fun r hr => (k.reg r hr).trans (h.reg r hr)⟩

theorem Combined.withHbm {s t : State} (h : Combined s t) (w : List WcbLine) (p : List Nat) :
    Combined s { t with hbm := { t.hbm with wcb := w, poison := p } } :=
  ⟨by rw [h.eq], h.reg⟩

theorem State.drainLine_combined (s : State) (w : Nat) : Combined s (s.drainLine w) := by
  unfold State.drainLine
  split
  · exact .refl s
  · next l _ =>
    have h := (Combined.refl s).withHbm (s.hbm.wcb.filter (fun l => l.word != w)) s.hbm.poison
    simp only
    split
    · exact h
    · exact h.trans ⟨rfl, fun r hr => by rw [State.bump_reg, if_neg hr]⟩

theorem State.drainLines_combined (s : State) (ws : List Nat) : Combined s (s.drainLines ws) := by
  induction ws generalizing s with
  | nil => exact .refl s
  | cons w ws ih => exact (s.drainLine_combined w).trans (ih _)

theorem State.wcbWrite_combined (s : State) (w lo n : Nat) : Combined s (s.wcbWrite w lo n) := by
  unfold State.wcbWrite
  split
  · exact (Combined.refl s).withHbm _ s.hbm.poison
  · refine Combined.withHbm ?_ _ _
    (repeat' split) <;> first | exact .refl s | exact s.drainLine_combined _

theorem State.wcbRange_combined (s : State) (off n : Nat) (ws : List Nat) : Combined s (s.wcbRange off n ws) := by
  induction ws generalizing s with
  | nil => exact .refl s
  | cons w ws ih =>
    unfold State.wcbRange
    refine Combined.trans ?_ (ih _)
    split
    · exact (s.wcbWrite_combined _ _ _).withHbm _ _
    · exact s.wcbWrite_combined _ _ _

/-- A store writes its bytes, and of the rest changes only what `Combined` says. -/
theorem State.store_eq (s : State) (addr : Nat) (bs : List Byte) :
    ∃ u, Combined s u ∧ s.store addr bs = { u with mem := mwrites s.mem (s.key addr) bs } := by
  unfold State.store
  simp only
  split
  · next off _ =>
    have h := s.wcbRange_combined off bs.length (wordsOf off bs.length)
    refine ⟨_, h, ?_⟩
    rw [h.eq]
  · exact ⟨s, .refl s, rfl⟩

@[simp] theorem State.store_mem (s : State) (addr : Nat) (bs : List Byte) :
    (s.store addr bs).mem = mwrites s.mem (s.key addr) bs := by
  obtain ⟨u, -, h⟩ := s.store_eq addr bs
  rw [h]

theorem State.store_reg (s : State) (addr : Nat) (bs : List Byte) {r : Nat} (hr : r ≠ Reg.HBM_CNT_WCB_RMW) :
    (s.store addr bs).reg r = s.reg r := by
  obtain ⟨u, hu, h⟩ := s.store_eq addr bs
  rw [h]
  exact hu.reg r hr

end Sys2Proof.Machine
end

