-- ==== Sys2Proof/Laws/Welfy.lean ====
section
/-! SUPPORT. What running a mailbox command comes to (R414 to R416): one lemma for a command that is admitted, one for a
command whose turn has not come, and one for each check that refuses it. -/

namespace Sys2Proof.Machine

/-- What a reply leaves: the command finished, or still running where it answers IN_PROGRESS. -/
def Reply.settle (r : Reply) (m : Nat) : State :=
  if r.status = .inProgress then r.st else r.st.finish m r.status r.detail r.data

theorem State.admits_iff (s : State) (op : Nat) (m : BitVec 6) :
    s.admits op m = true ↔ s.mayStart m.toNat = true ∧ u16At (s.box m.toNat).captured 0 = op ∧
      s.headerCheck m.toNat = none ∧ ∃ c, cmdInfo op = some c ∧ (c.admin && m.toNat != 0) = false ∧
        stateAdmits s.boot.dev op m.toNat = true ∧ badParamByte c (s.params m) = none := by
  unfold State.admits
  cases h : cmdInfo op with
  | none => simp
  | some c => cases ha : c.admin <;> simp [ha, and_assoc]

/-- A command that passes the checks 3 to 5 runs its own part. -/
theorem State.commandCheck_pass {s : State} {op : Nat} {m : BitVec 6} {c : CmdInfo} (hc : cmdInfo op = some c)
    (ha : (c.admin && m.toNat != 0) = false) (hs : stateAdmits s.boot.dev op m.toNat = true)
    (hb : badParamByte c (s.params m) = none) (body : List Byte → State → Reply) :
    s.commandCheck m.toNat op body = body (s.params m) s := by
  have hb' : badParamByte c (slice (s.box m.toNat).captured 16 48) = none := hb
  simp only [State.commandCheck, hc, ha, hs, hb', State.params, Bool.not_true, Bool.false_eq_true, if_false]

/-- An admitted command runs its own part, and its reply settles it. -/
theorem State.welfy_admitted {s : State} {op : Nat} {m : BitVec 6} (h : s.admits op m = true)
    (body : List Byte → State → Reply) : s.welfy op m body = (body (s.params m) s).settle m.toNat := by
  obtain ⟨h1, h2, h3, c, hc, ha, hs, hb⟩ := (s.admits_iff op m).1 h
  simp only [State.welfy, h1, h2, h3, beq_self_eq_true, Bool.and_self, if_true,
    State.commandCheck_pass hc ha hs hb, Reply.settle]

/-- A command whose turn has not come, or a mailbox that holds another one: nothing happens. -/
theorem State.welfy_idle {s : State} {op : Nat} {m : BitVec 6}
    (h : s.mayStart m.toNat = false ∨ u16At (s.box m.toNat).captured 0 ≠ op) (body : List Byte → State → Reply) :
    s.welfy op m body = s := by
  unfold State.welfy
  rcases h with h | h
  · simp [h]
  · simp [h]

@[simp] theorem Reply.settle_ok (s : State) (data : List Byte) (m : Nat) :
    (s.ok data).settle m = s.finish m .success 0 data := rfl

@[simp] theorem Reply.settle_bad (s : State) (off m : Nat) : (s.bad off).settle m = s.finish m .badParam off [] := rfl

theorem Reply.settle_no {s : State} {x : Status} (m : Nat) (h : x ≠ .inProgress) :
    (s.no x).settle m = s.finish m x 0 [] := if_neg h

/-- The three ways in which a command's own part ends, as the statements name them. -/
theorem Reply.settle_answer (s : State) (m : BitVec 6) (d : List Byte) : (s.ok d).settle m.toNat = s.answer m d := rfl

theorem Reply.settle_refusal (s : State) (m : BitVec 6) {x : Status} (h : x ≠ .inProgress) :
    (s.no x).settle m.toNat = s.refusal m x := Reply.settle_no _ h

theorem Reply.settle_refusalAt (s : State) (m : BitVec 6) (off : Nat) : (s.bad off).settle m.toNat = s.refusalAt m off := rfl

end Sys2Proof.Machine
end

