-- ==== Sys2Proof/WellFormed.lean ====
section
/-! DEFINITION. Which commands are well formed: operands whose types allow more than the hardware's bus or unit can
present. The meanings are total and do not rest on it. -/

namespace Sys2Proof

/-- Lane numbers of a 72-lane channel, each named once. -/
def lanesOk (l : List (BitVec 7)) : Bool := l.all (fun x => decide (x.toNat < 72)) && decide l.Nodup

/-- Physical core numbers, 0 to 543. -/
def coresOk (l : List (BitVec 10)) : Bool := l.all (fun x => decide (x.toNat < 544))

/-- What a stage reports names lanes and cores that exist. -/
def StageOut.ok (o : StageOut) : Bool :=
  o.lanesBad.all (fun x => decide (x.2.toNat < 18)) && coresOk o.rowsBad && coresOk o.digestBad && coresOk o.testBad

/-- A packet carries at most 512 bytes (Table 12.4). -/
def Packet.fits (p : Packet) : Bool := decide (p.payload.length ≤ 512)

/-- A command is well formed. -/
def Instr.wellFormed : Instr → Bool
  | .submit _ _ store => store.action != 2
  | .commandAreaStore _ off data => decide (0 < data.length) && decide (off.toNat + data.length ≤ 64)
  | .hbmMargin _ margins => decide (margins.length ≤ 74)
  | .remoteProbe _ times => decide (times.length ≤ 24)
  | .loupeReport r => decide (r.counts.length = 7)
  | .hbmRead _ addr len faults =>
    decide (0 < len.toNat) && decide (addr.toNat + len.toNat ≤ 2 ^ 39) && faults.all (fun f => lanesOk f.first && lanesOk f.retry)
  | .hbmWrite _ addr data => decide (0 < data.length) && decide (addr.toNat + data.length ≤ 2 ^ 39)
  | .patrolScrub _ first retry => lanesOk first && lanesOk retry
  | .wcbWriteback w => lanesOk w.first && lanesOk w.retry
  | .dieSample readings => decide (readings.map (fun r => r.1)).Nodup
  | .stageEnd out _ => out.ok
  | .hdmAccess _ hpa _ data => decide (0 < data.length) && decide (hpa.toNat + data.length ≤ 2 ^ 52)
  | .fecWindow _ symbols _ => decide (symbols.length ≤ 18)
  | .linkCtl _ p => p.fits
  | .write _ p => p.fits
  | .readReq _ p => p.fits
  | .signal _ p => p.fits
  | .readResp _ p => p.fits
  | .writeAck _ p => p.fits
  | .completionErr _ p => p.fits
  | .unreach _ p => p.fits
  | .colData _ p => p.fits
  | .colCredit _ p => p.fits
  | _ => true

end Sys2Proof
end

