-- ==== Sys2Proof/Tests/Slice0.lean ====
section
/-! SUPPORT. Tests: an ill-formed term for each check of WellFormed, and for the statements of Obligations a state and operands
that meet their hypotheses, one theorem a statement, its clauses joined by `and`, at the ends of their ranges. -/

namespace Sys2Proof.Tests

open Sys2Proof Sys2Proof.Machine

set_option Elab.async false

/-! ### Small states -/

/-- A device in service. -/
def ready : State :=
  { State.reset with boot := { State.reset.boot with dev := .ready, stage := 9, welfy := true, result := .ready } }

/-- Mailbox `m` waits with a command and its parameters. -/
def asked (m op : Nat) (ps : List Byte) (s : State) : State :=
  let b := { s.box m with captured := toLe 2 op ++ List.replicate 14 0 ++ slice ps 0 48, st := .busy }
  { s with host := { s.host with boxes := tset s.host.boxes m b } }

/-- Mailbox 0 of a device in service waits with a command. -/
def ask (op : Nat) (ps : List Byte) : State := asked 0 op ps ready

/-- An address of the device's own HBM. -/
def own (off : Nat) : Nat := 0xFFFF000000000000 + off

/-- The cells that bytes from an address fill. -/
def cells (a : Nat) : List Byte → List Host.Cell
  | [] => []
  | b :: bs => if b = 0 then cells (a + 1) bs else (a, b) :: cells (a + 1) bs

/-- Bytes in memory, before any running slot started. -/
def holds (addr : Nat) (bs : List Byte) (s : State) : State :=
  let a := s.key addr
  let m := s.mem.filter (fun c => decide (c.1 < a)) ++ (cells a bs ++ s.mem.filter (fun c => decide (a + bs.length ≤ c.1)))
  { s with mem := m, frm := { s.frm with slots := s.frm.slots.map (fun r => { r with seen := m }) } }

/-- A program of one frame with one slot, which its unit runs under epoch 1. -/
def working (u : UnitId) (kind addr : Nat) (s : State) : State :=
  let d : SlotDesc :=
    { unit := u, kind := kind, flags := 4, start := 0, endNom := 6000, endThr := 6500, descAddr := addr,
      waitCtr := 0xFF, signalCtr := 0, waitVal := 0, wrrNoc := 0, wrrUpd := 0, energy := 0 }
  let p : Program :=
    { lenExp := 13, guard := 8, progId := 1, planId := 0, aperture := s.boot.running, digest := [],
      frames := [⟨0, 1, true, false, 0, 0⟩], slots := [d], step := none }
  { s with frm := { s.frm with curProg := some p, slots := [freshRun (.prog 0) u 0 s.mem 0 0], epoch := 1, ticking := true, begun := true },
           upd := { s.upd with commit := .running } }

/-- A request with nothing wrong in it. -/
def packet (ty : Nat) (bs : List Byte) : Packet :=
  let p : Packet :=
    { seq := 0, vc := 0, linkRsv := 0, lcrcOk := true, type := BitVec.ofNat 8 ty, flags := 0, epoch := 0, dst := 5, src := 7,
      length := BitVec.ofNat 16 bs.length, inst := 0, tag := 0, addr := 0, aux := 0, payload := bs, trailer := [], ecrc := 0 }
  { p with ecrc := packetCrc p }

/-- Port 0 is up, the device is station 5, and station 7 is a peer. -/
def linked (s : State) : State :=
  { s with lnk := { s.lnk with station := some 5, peers := BitVec.ofNat 65536 (2 ^ 7),
                               ports := tset s.lnk.ports 0 { s.port 0 with phase := .up } } }

/-! ### Ill-formed commands -/

theorem test_ill_commandAreaStore : (Instr.commandAreaStore 0 60 [1, 2, 3, 4, 5]).wellFormed = false ∧
    (Instr.commandAreaStore 0 60 []).wellFormed = false ∧ (Instr.commandAreaStore 0 60 [1, 2, 3, 4]).wellFormed = true := by decide +kernel
theorem test_ill_hbmMargin : (Instr.hbmMargin 0 (List.replicate 75 (0, 0))).wellFormed = false := by decide +kernel
theorem test_ill_remoteProbe : (Instr.remoteProbe 0 (List.replicate 25 0)).wellFormed = false := by decide +kernel
theorem test_ill_loupeReport : (Instr.loupeReport ⟨0, false, 0, [], 0, [0, 0, 0, 0, 0, 0], false⟩).wellFormed = false := by decide +kernel
theorem test_ill_hbmRead : (Instr.hbmRead 0 0 0 []).wellFormed = false ∧ (Instr.hbmRead 0 0x7FFFFFFFFF 2 []).wellFormed = false ∧
    (Instr.hbmRead 0 0 64 [⟨0, [72], []⟩]).wellFormed = false ∧ (Instr.hbmRead 0 0 64 [⟨0, [], [3, 3]⟩]).wellFormed = false := by decide +kernel
theorem test_ill_hbmWrite : (Instr.hbmWrite 0 0 []).wellFormed = false ∧
    (Instr.hbmWrite 0 0x7FFFFFFFFF [1, 2]).wellFormed = false := by decide +kernel
theorem test_ill_patrolScrub : (Instr.patrolScrub 0 [72] []).wellFormed = false ∧
    (Instr.patrolScrub 0 [1] [5, 5]).wellFormed = false := by decide +kernel
theorem test_ill_dieSample : (Instr.dieSample [(3, 40), (3, 41)]).wellFormed = false := by decide +kernel

/-- Findings of a stage in which nothing failed. -/
def allGood : StageOut :=
  { fuseApertureOk := true, fuseMapOk := true, rowsBad := [], calOk := true, stackSavedBad := 0, stackBad := 0,
    portSavedBad := 0, portFails := [], lanesBad := [], repairsBad := [], digestBad := [], testBad := [], updBad := 0,
    unitsBad := 0, rngBad := false, firstFailed := false }

theorem test_ill_stageEnd : (Instr.stageEnd { allGood with lanesBad := [(0, 18)] } 0).wellFormed = false ∧
    (Instr.stageEnd { allGood with rowsBad := [544] } 0).wellFormed = false ∧
    (Instr.stageEnd { allGood with digestBad := [544] } 0).wellFormed = false ∧
    (Instr.stageEnd { allGood with testBad := [544] } 0).wellFormed = false ∧
    (Instr.stageEnd allGood 0).wellFormed = true := by decide +kernel
theorem test_ill_hdmAccess : (Instr.hdmAccess (some 0) 0 true []).wellFormed = false ∧
    (Instr.hdmAccess none 0xFFFFFFFFFFFFF true [1, 2]).wellFormed = false := by decide +kernel
theorem test_ill_submit : (Instr.submit 0 .w32 ⟨2, 0⟩).wellFormed = false ∧ (Instr.submit 63 .w32 ⟨3, 0⟩).wellFormed = true := by
  decide +kernel
theorem test_ill_wcbWriteback : (Instr.wcbWriteback ⟨0, [72], []⟩).wellFormed = false ∧
    (Instr.wcbWriteback ⟨0, [1], [5, 5]⟩).wellFormed = false := by decide +kernel
theorem test_ill_fecWindow : (Instr.fecWindow 0 (List.replicate 19 0) 0).wellFormed = false := by decide +kernel

/-- A packet whose payload exceeds 512 bytes. -/
def tooLong : Packet := { packet 0x10 [] with payload := List.replicate 513 0 }

theorem test_ill_packet : [Instr.linkCtl 0 tooLong, .write 0 tooLong, .readReq 0 tooLong, .signal 0 tooLong,
    .readResp 0 tooLong, .writeAck 0 tooLong, .completionErr 0 tooLong, .unreach 0 tooLong, .colData 0 tooLong,
    .colCredit 0 tooLong].all (fun i => !i.wellFormed) = true := by decide +kernel

/-! ### Hypotheses that are met: mailboxes and the host's commands -/

/-- Every opcode of the command index, with parameters of zeros, is admitted on the admin mailbox of a device in service. -/
theorem test_met_commands_admitted : cmdTable.all (fun c => (ask c.opcode []).admits c.opcode 0) = true := by decide +kernel

/-- Mailbox 0 in state `x`. -/
def box0 (x : BoxState) (cmd : List Byte) : State :=
  let b := { ready.box 0 with st := x, cmd := slice cmd 0 64 }
  { ready with host := { ready.host with boxes := [(0, b)] } }

theorem test_met_MailboxStores : ((box0 .busy []).box 0).st = .busy ∧
    (((box0 .idle [0x06, 0x01]).box 0).st ≠ .busy ∧ (cmdInfo (u16At ((box0 .idle [0x06, 0x01]).box 0).cmd 0)).isSome = true ∧
      ∀ e ∈ (box0 .idle [0x06, 0x01]).host.boxes, e.2.st = .busy → (cmdInfo (u16At e.2.captured 0)).isSome = true) ∧
    (((box0 .idle [0xFF, 0x01]).box 0).st ≠ .busy ∧ cmdInfo (u16At ((box0 .idle [0xFF, 0x01]).box 0).cmd 0) = none ∧
      u8At ((box0 .idle [0xFF, 0x01]).box 0).cmd 2 / 2 = 0 ∧ u8At ((box0 .idle [0xFF, 0x01]).box 0).cmd 3 = 0 ∧
      zeroBytes ((box0 .idle [0xFF, 0x01]).box 0).cmd 8 8 = true ∧
      (∀ e ∈ (box0 .idle [0xFF, 0x01]).host.boxes, e.2.st ≠ .busy) ∧ (box0 .idle [0xFF, 0x01]).boot.welfy = true ∧
      ((box0 .idle [0xFF, 0x01]).scp 0).moving = false ∧ (box0 .idle [0xFF, 0x01]).phys.apSelect = none) ∧
    ((box0 .done []).box 0).st = .done ∧ ((box0 .idle []).box 0).st ≠ .done ∧
    ((State.reset.box 63).cmd.length = 64 ∧ 60 + [1, 2, 3, (4 : Byte)].length ≤ 64 ∧ ((box0 .busy []).box 0).cmd.length = 64) := by
  decide +kernel

theorem test_met_BadDoorbellCounts : (3 : BitVec 2) = 3 ∧ Width.w16 ≠ Width.w32 ∧ (1 : BitVec 24) ≠ 0 ∧ bits (2 ^ 20) 20 31 ≠ 0 := by decide +kernel

theorem test_met_CompletionWritesResponse : (List.replicate 3888 (0 : Byte)).length ≤ 3888 :=
  Nat.le_of_eq List.length_replicate

/-- Mailbox 0 of `s` with a header byte set. -/
def headed (s : State) (i : Nat) (x : Byte) : State :=
  let b := s.box 0
  let c := b.captured.take i ++ [x] ++ b.captured.drop (i + 1)
  { s with host := { s.host with boxes := [(0, { b with captured := c })] } }

theorem test_met_ChecksInOrder : (Instr.echo 0).mailboxCommand = some (0x0106, 0) ∧ (Instr.deviceReset 1).mailboxCommand = some (0x0105, 1) ∧
    ((headed (ask 0x0106 []) 2 2).mayStart 0 = true ∧ u8At ((headed (ask 0x0106 []) 2 2).box 0).captured 2 / 2 ≠ 0) ∧
    u8At ((headed (ask 0x0106 []) 3 1).box 0).captured 3 ≠ 0 ∧ zeroBytes ((headed (ask 0x0106 []) 15 1).box 0).captured 8 8 = false ∧
    ((asked 1 0x0105 [] ready).mayStart 1 = true ∧ u16At ((asked 1 0x0105 [] ready).box 1).captured 0 = 0x0105 ∧
      ((cmdInfo 0x0105).map (fun c => c.admin)) = some true) ∧
    ((asked 0 0x0401 [] { ready with boot := { ready.boot with dev := .halted } }).mayStart 0 = true ∧
      stateAdmits DevState.halted 0x0401 0 = false) ∧
    ((ask 0x0102 [0, 1]).mayStart 0 = true ∧
      ((cmdInfo 0x0102).bind (fun c => badParamByte c ((ask 0x0102 [0, 1]).params 0))) = some 1) := by decide +kernel

/-- Mailboxes 0 and 1 wait with commands of one group, mailbox 1's the earlier. -/
def twoWait : State :=
  let s := asked 1 0x0106 [] (ask 0x0106 [])
  { s with host := { s.host with boxes := s.host.boxes.map (fun e => (e.1, { e.2 with order := 1 - e.1 })) } }

theorem test_met_CommandWaitsItsTurn : (Instr.echo 0).mailboxCommand = some (0x0106, 0) ∧
    u16At ((ask 0x0107 []).box 0).captured 0 ≠ 0x0106 ∧ ((box0 .done []).box 0).st ≠ .busy ∧
    ((1, twoWait.box 1) ∈ twoWait.host.boxes ∧ (1 : Nat) ≠ 0 ∧ (twoWait.box 1).st = .busy ∧
      (twoWait.box 1).order < (twoWait.box 0).order ∧
      cmdGroup (u16At (twoWait.box 1).captured 0) = cmdGroup (u16At (twoWait.box 0).captured 0)) ∧
    ((1 : BitVec 6) ≠ 0 ∧ ((ask 0x0106 []).box 0).st = .busy ∧ (ask 0x0106 []).groupWaits 0 = false) := by decide +kernel

/-- A device whose progress record 15 holds sequence 3. -/
def recorded : State :=
  (ask 0x0103 (toLe 4 (3 * 256 + 15))).putRecord 15 { Progress.reset with used := true, seq := 3 }

theorem test_met_HostQueriesAnswer : recorded.admits 0x0103 0 = true ∧ u32At (recorded.params 0) 0 = 3 * 256 + 15 ∧
    (recorded.record 15).used = true ∧ (recorded.record 15).seq = 3 ∧ ((ask 0x0103 [15, 3]).record 15).seq ≠ 3 := by decide +kernel

theorem test_met_HostConfigurationCommands : (ask 0x0104 [0, 63, 63]).admits 0x0104 0 = true ∧
    (ask 0x0104 [3, 0, 63]).admits 0x0104 0 = true ∧ (ask 0x0104 [4]).admits 0x0104 0 = true ∧
    (ask 0x0104 [0, 64]).admits 0x0104 0 = true ∧ (ask 0x0104 [1, 1]).admits 0x0104 0 = true ∧
    (ask 0x0104 [3, 0, 64]).admits 0x0104 0 = true ∧
    ((ask 0x0202 (toLe 8 (2 ^ 39 - 2 ^ 36) ++ toLe 8 (2 ^ 36))).admits 0x0202 0 = true ∧
      u64At ((ask 0x0202 (toLe 8 (2 ^ 39 - 2 ^ 36) ++ toLe 8 (2 ^ 36))).params 0) 8 = 2 ^ 36) ∧
    (u64At ((ask 0x0202 (toLe 8 (2 ^ 39))).params 0) 0 = 2 ^ 39 ∧ (ask 0x0202 (toLe 8 1)).admits 0x0202 0 = true ∧
      (ask 0x0202 (toLe 8 0 ++ toLe 8 1)).admits 0x0202 0 = true) ∧
    ((ask 0x0203 (toLe 8 (2 ^ 46))).admits 0x0203 0 = true ∧ u64At ((ask 0x0203 (toLe 8 (2 ^ 46))).params 0) 0 = 2 ^ 46) := by decide +kernel

/-- REG_WRITE on mailbox 0. -/
def write (off mask v : Nat) : State := ask 0x0201 (toLe 4 off ++ toLe 4 mask ++ toLe 4 v)

theorem test_met_RegWriteByFieldClass :
    (let s := write Reg.LNK_CFG 0xF0 0xF0
     s.admits 0x0201 0 = true ∧ Reg.LNK_CFG % 4 = 0 ∧ Reg.LNK_CFG < 0x80000 ∧ Reg.LNK_CFG ≠ Reg.CLK_GATE) ∧
    (ready.rangesOk Reg.MBX_CNT_CMDS 1 0 = true ∧ (1 : Word) &&& ~~~writableMask Reg.MBX_CNT_CMDS ≠ 0) ∧
    (ready.rangesOk Reg.RAS_CFG 1 1 = true ∧ (1 : Word) &&& ~~~writableMask Reg.RAS_CFG = 0 ∧
      (1 : Word) &&& classMask Reg.RAS_CFG .ta = 0 ∧
      ((1 : Word) &&& classMask Reg.RAS_CFG .lk = 0 ∨ (ready.lockOf Reg.RAS_CFG).2 = false)) := by decide +kernel

theorem test_met_MbxAbortEndsAWaitingCommand : (asked 63 0x0106 [] (ask 0x0102 [63])).admits 0x0102 0 = true ∧
    u8At ((asked 63 0x0106 [] (ask 0x0102 [63])).params 0) 0 = 63 ∧ ((asked 63 0x0106 [] (ask 0x0102 [63])).box 63).st = .busy ∧
    (asked 63 0x0106 [] (ask 0x0102 [63])).started 63 = false ∧ ((ask 0x0102 [1]).box 1).st ≠ .busy ∧
    u8At ((ask 0x0102 [64]).params 0) 0 = 64 ∧ (ask 0x0102 [0]).admits 0x0102 0 = true := by decide +kernel

theorem test_met_DeviceResetWarmStarts : (ask 0x0105 []).admits 0x0105 0 = true ∧ (ask 0x0105 []).upd.commit = .idle ∧
    (let s : State := { ask 0x0105 [] with upd := { ready.upd with commit := .running } }
     s.admits 0x0105 0 = true ∧ s.upd.commit ≠ .idle ∧ s.lup.phase ≠ .hold ∧ s.lup.phase ≠ .stopped ∧ s.boot.dev ≠ .halted ∧
      bit (u8At (s.params 0) 0) 0 = false) := by decide +kernel

/-! ### Hypotheses that are met: frames, modes and slots -/

/-- A change of the frame timer. -/
def framed (f : FrmState → FrmState) (s : State) : State := s.setFrm f

/-- A mode that keeps program, plan and length. -/
def same : Mode := { progId := 0, planId := 0, lenExp := 13, guard := 8, stretchAmt := 0, stretchCnt := 0 }

/-- A mode armed for epoch 1 and tick 10. -/
def armed1 (s : State) : State := framed (fun f => { f with armed := some ⟨same, 1, 10⟩ }) s

/-- MODE_ARM and MODE_ROLLBACK of epoch `e` at tick `t`. -/
def askArm (e t : Nat) : State := ask 0x0303 (same.bytes ++ toLe 2 e ++ List.replicate 6 0 ++ toLe 8 t)
def askBack (e t : Nat) : State := ask 0x0305 (toLe 2 e ++ List.replicate 6 0 ++ toLe 8 t)

/-- A management packet of a code, with its check. -/
def mgmt (code : Nat) (bs : List Byte) : Packet :=
  let p : Packet := { packet tyMgmt bs with tag := BitVec.ofNat 32 code }
  { p with ecrc := packetCrc p }

/-- Port 0 takes the packet as a message of its code, from whoever manages the fabric. -/
def takes (code : Nat) (p : Packet) (s : State) : Prop :=
  s.boot.dev = .ready ∧ s.lnk.manager = none ∧ s.mgmtTakes 0 code p

/-- The packets of ARM and ROLLBACK of epoch `e` at tick `t`, and of ABORT of epoch 1. -/
def modeBits (m : Mode) : BitVec 128 := BitVec.ofNat 128 (leNat m.bytes)
def armMsgOf (m : Mode) (e t : Nat) : Packet :=
  armPacket (mgmt 0x0020 (m.bytes ++ toLe 2 e ++ toLe 8 t)) (modeBits m) (BitVec.ofNat 16 e) (BitVec.ofNat 64 t)
def abortMsg1 : Packet := carrying (mgmt 0x0024 [1, 0]) (toLe 2 (1 : BitVec 16).toNat)
def backMsgOf (e t : Nat) : Packet :=
  rollbackPacket (mgmt 0x0028 (toLe 2 e ++ toLe 8 t)) (BitVec.ofNat 16 e) (BitVec.ofNat 64 t)

/-- A device on the fabric that runs a program under epoch 1 and may take the mode that follows. -/
def next1 : Mode := { same with progId := 1 }
def runsMode (s : State) : State := (working ⟨1, 0⟩ 1 0 (linked s)).stick Reg.LUP_CFG 1

theorem test_met_ModeCommandsMatchMessages :
    (takes 0x0020 (armMsgOf same 1 10) (linked (askArm 1 10)) ∧
      (let v := (linked (askArm 1 10)).linkTaken 0
       v.admits 0x0303 0 = true ∧ slice (v.params 0) 0 16 = toLe 16 (modeBits same).toNat ∧ u16At (v.params 0) 16 = 1 ∧
        u64At (v.params 0) 24 = 10)) ∧
    (takes 0x0024 abortMsg1 (linked (ask 0x0304 [1, 0])) ∧ ((linked (ask 0x0304 [1, 0])).linkTaken 0).admits 0x0304 0 = true) ∧
    (takes 0x0028 (backMsgOf 1 14) (linked (askBack 1 14)) ∧
      (let v := (linked (askBack 1 14)).linkTaken 0
       v.admits 0x0305 0 = true ∧ u16At (v.params 0) 0 = 1 ∧ u64At (v.params 0) 8 = 14)) := by
  refine ⟨⟨⟨rfl, rfl, ?_⟩, ?_⟩, ⟨⟨rfl, rfl, ?_⟩, ?_⟩, ⟨rfl, rfl, ?_⟩, ?_⟩ <;> (try unfold State.mgmtTakes) <;> decide +kernel

theorem test_met_ModeCommandsMatchMessages_done :
    (takes 0x0020 (armMsgOf next1 2 2) (runsMode ready) ∧
      (runsMode ready).armedAlready (toLe 16 (modeBits next1).toNat) 2 2 = false ∧
      (runsMode ready).armFail (toLe 16 (modeBits next1).toNat) 2 2 = none) ∧
    (takes 0x0024 abortMsg1 (armed1 (linked ready)) ∧ (armed1 (linked ready)).frm.armed = some ⟨same, 1, 10⟩ ∧
      (armed1 (linked ready)).frm.lastAborted = none) ∧
    (takes 0x0028 (backMsgOf 1 14) (armed1 (linked ready)) ∧ (armed1 (linked ready)).tickOf 1 = some 10 ∧ (14 : Nat) ≤ 10 + 4 ∧
      (armed1 (linked ready)).frm.tick.toNat + 1 ≤ 14) := by
  refine ⟨⟨⟨rfl, rfl, ?_⟩, ?_⟩, ⟨⟨rfl, rfl, ?_⟩, ?_⟩, ⟨rfl, rfl, ?_⟩, ?_⟩ <;> (try unfold State.mgmtTakes) <;> decide +kernel

theorem test_met_ModeCommands :
    ((armed1 (askArm 1 10)).admits 0x0303 0 = true ∧ (armed1 (askArm 1 10)).armedAlready same.bytes 1 10 = true) ∧
    (let s := runsMode (ask 0x0303 (next1.bytes ++ toLe 2 2 ++ List.replicate 6 0 ++ toLe 8 2))
     s.admits 0x0303 0 = true ∧ s.armedAlready next1.bytes 2 2 = false ∧ s.armFail next1.bytes 2 2 = none) ∧
    ((askArm 0 10).armedAlready same.bytes 0 10 = false ∧ modeFail same.bytes = none ∧
      (askArm 0 10).armFail same.bytes 0 10 = some .epochStale) ∧
    (modeFail ({ same with guard := 0 } : Mode).bytes).isSome = true ∧
    ((armed1 (ask 0x0304 [1, 0])).admits 0x0304 0 = true ∧ (armed1 (ask 0x0304 [1, 0])).frm.lastAborted = none) ∧
    (let s := framed (fun f => { f with epoch := 1 }) (ask 0x0304 [1, 0])
     s.admits 0x0304 0 = true ∧ s.frm.armed = none ∧ s.frm.epoch = 1 ∧ s.frm.lastAborted ≠ some 1) ∧
    (let s := armed1 (askBack 1 14)
     s.admits 0x0305 0 = true ∧ s.tickOf 1 = some 10 ∧ (14 : Nat) ≤ 10 + 4 ∧ s.frm.tick.toNat + 1 ≤ 14) ∧
    ((armed1 (askBack 1 15)).admits 0x0305 0 = true ∧ 10 + 4 < (15 : Nat)) ∧ (ask 0x0306 []).admits 0x0306 0 = true := by
  decide +kernel

/-- A program of one frame without slots, and a plan of one shard. -/
def progBytes (digest : List Byte) : List Byte :=
  toLe 4 0x47525046 ++ toLe 2 1 ++ [13, 8] ++ toLe 4 1 ++ toLe 4 0 ++ toLe 4 1 ++ toLe 4 0 ++ [BitVec.ofNat 8 ready.boot.running]
    ++ List.replicate 7 0 ++ digest ++ List.replicate 16 0
def planBytes (digest : List Byte) : List Byte :=
  toLe 4 0x4E4C504C ++ toLe 2 1 ++ [0, 0] ++ toLe 4 1 ++ toLe 4 1 ++ List.replicate 16 0 ++ digest
    ++ (toLe 4 1 ++ [0, 0] ++ toLe 2 9 ++ toLe 8 0 ++ toLe 8 64 ++ toLe 8 0)

/-- Bytes at the device's own address 0x1000, and a command that names them with their length. -/
def named (op : Nat) (bs : List Byte) : State := holds (own 0x1000) bs (ask op (toLe 8 (own 0x1000) ++ toLe 4 bs.length))

theorem test_met_ProgramAndPlanLoads :
    (let s := named 0x0301 (progBytes (sha256 (List.replicate 16 0)))
     let h := s.load (own 0x1000) 64
     let b := s.load (own 0x1000) 80
     s.admits 0x0301 0 = true ∧ s.loadsHeld = false ∧ s.paramOk (own 0x1000) 64 false = true ∧ s.paramOk (own 0x1000) 80 false = true ∧ progFieldsOk h = true ∧
      progLength h = 80 ∧ sha256 (b.drop 64) = slice b 32 32 ∧ u8At b 24 = s.boot.running ∧ progFramesFail b (u8At b 24) = none) ∧
    (let s := named 0x0301 (progBytes (List.replicate 32 0))
     let b := s.load (own 0x1000) 80
     sha256 (b.drop 64) ≠ slice b 32 32) ∧ (armed1 (ask 0x0301 [])).loadsHeld = true := by decide +kernel

theorem test_met_ProgramAndPlanLoads_plan :
    (let s := named 0x0302 (planBytes (sha256 (toLe 4 1 ++ [0, 0] ++ toLe 2 9 ++ toLe 8 0 ++ toLe 8 64 ++ toLe 8 0)))
     let b := s.load (own 0x1000) 96
     s.admits 0x0302 0 = true ∧ s.loadsHeld = false ∧ s.paramOk (own 0x1000) 64 false = true ∧ s.paramOk (own 0x1000) 96 false = true ∧
      planHeaderOk (s.load (own 0x1000) 64) 96 = true ∧ sha256 (b.drop 64) = slice b 32 32 ∧ s.planFail (planEntries b) = none) ∧
    (let s := named 0x0302 (planBytes (List.replicate 32 0))
     let b := s.load (own 0x1000) 96
     planHeaderOk (s.load (own 0x1000) 64) 96 = true ∧ sha256 (b.drop 64) ≠ slice b 32 32) := by decide +kernel

theorem test_met_StagedConfigurationCommands :
    (ask 0x0308 [0, 0, 16]).admits 0x0308 0 = true ∧ (ask 0x0308 [0, 0, 24]).admits 0x0308 0 = true ∧
    (ask 0x0308 []).beforeCutoff = true ∧ (framed (fun f => { f with phase := 2 ^ 13 - 63 }) ready).beforeCutoff = false ∧
    (ask 0x0A06 [50, 1]).admits 0x0A06 0 = true ∧ (ask 0x0A06 [100, 8]).admits 0x0A06 0 = true ∧
    ((ask 0x0307 (toLe 8 5 ++ toLe 8 6)).admits 0x0307 0 = true ∧ u64At ((ask 0x0307 (toLe 8 5 ++ toLe 8 6)).params 0) 8 = 6 ∧
      ready.frm.epoch = 0) ∧
    (let s := framed (fun f => { f with epoch := 1 }) (ask 0x0307 [])
     s.frm.epoch ≠ 0 ∧ s.regBit Reg.FRM_STATUS 7 = false ∧ s.admits 0x0307 0 = true) ∧
    takes 0x0012 (tickSetPacket (mgmt 0x0012 (toLe 8 5 ++ toLe 8 6)) 5 6) (linked ready) := by
  refine ⟨?_, ?_, ?_, ?_, ?_, ?_, ?_, ?_, rfl, rfl, ?_⟩ <;> (try unfold State.mgmtTakes) <;> decide +kernel

theorem test_met_StagedWritesTakeEffectTogether : (framed (fun f => { f with staged := [(Reg.FRM_STRETCH, 0xFF, 1), (Reg.PWR_CFG, 0x7F, 60)] }) ready).frm.staged
      = [(Reg.FRM_STRETCH, 0xFF, 1)] ++ (Reg.PWR_CFG, 0x7F, 60) :: [] ∧
    ∀ e ∈ [((Reg.FRM_STRETCH : Nat), (0xFF : Word), (1 : Word))], e.1 ≠ Reg.PWR_CFG := by decide +kernel

/-- A device whose die is at the throttle state, with 8 stretched frames left. -/
def hot : State := { framed (fun f => { f with stretchLeft := 8 }) ready with phys := { ready.phys with die := .throttle } }

theorem test_met_TicksAndExpiries : ready.frm.tickNext = none ∧ (4 : BitVec 64).toNat ≤ (ready.frm.tick + 4 : BitVec 64).toNat ∧
    (let s := working ⟨1, 0⟩ 1 0 ready
     s.frm.ticking = true ∧ s.frm.begun = true ∧ s.midPair = false ∧ s.frm.phase ≤ s.frameLen) ∧
    ready.frm.ticking = false ∧
    (let s := framed (fun f => { f with retained := some ⟨1, 0, 13, 8, 0, 0, false, false⟩, framesSinceSwitch := 4 }) ready
     s.frm.retained ≠ none ∧ s.frm.halted = false ∧ s.frm.rollback = none ∧ 4 ≤ s.frm.framesSinceSwitch) ∧
    ready.frm.framesSinceSwitch < 4 ∧ ready.frm.stretchLeft = 0 ∧
    (hot.hotParts = 8 :: [] ∧ hot.frm.stretchLeft = 8 ∧ hot.stretchArmed = false ∧ hot.frm.stretchRequested = false) ∧
    (framed (fun f => { f with armed := some ⟨{ same with stretchAmt := 1 }, 1, 10⟩ }) ready).stretchArmed = true := by decide +kernel

/-- A device that aligns itself to root station 5 over port 0, and the root itself. -/
def aligning (station : Nat) : State :=
  let s := (framed (fun f => { f with ticking := true, alignOpen := true }) (linked ready)).putReg Reg.FRM_ALIGN_CFG (5 + 20 * 65536)
  { s with lnk := { s.lnk with station := some station } }

/-- The root's answer: the four times' first three, its tick number and the cycles since it. -/
def echo5 : Packet :=
  let p : Packet := { mgmt 0x0011 (toLe 8 100 ++ toLe 8 120 ++ toLe 8 121 ++ toLe 8 7 ++ toLe 4 5) with src := 5 }
  { p with ecrc := packetCrc p }

theorem test_met_AlignmentExchange : (aligning 6).aligns = true ∧ (aligning 5).aligns = false ∧
    ((aligning 5).frm.ticking = true ∧ (aligning 5).isRoot = true ∧
      (aligning 5).mgmtTakes 0 0x0010 (carrying (mgmt 0x0010 (toLe 8 100)) (toLe 8 (100 : BitVec 64).toNat))) ∧
    ((aligning 6).frm.alignOpen = true ∧ (echo5 : Packet).src.toNat = (aligning 6).rootStation ∧
      (aligning 6).mgmtTakes 0 0x0011 (echoPacket echo5 100 120 121 7 5) ∧ ∀ a ∈ (aligning 6).frm.alignAnswers, a.plane ≠ 0) ∧
    (aligning 6).frm.alignAnswers.length < 3 := by
  unfold State.mgmtTakes
  decide +kernel

/-- Between a tick and the switch that is due at it. -/
def due (m : Mode) : State :=
  framed (fun f => { f with armed := some ⟨m, 1, 0⟩, ticking := true, begun := false }) ready

/-- Between a tick and the rollback that is due at it. -/
def backDue : State := framed (fun f => { f with rollback := some ⟨1, 0⟩, ticking := true, begun := false }) ready

theorem test_met_SwitchAndRollback :
    ((due same).frm.armed = some ⟨same, 1, 0⟩ ∧ (due same).frm.ticking = true ∧ (due same).frm.begun = false ∧
      (due same).rollbackDue = false ∧ (0 : BitVec 64).toNat ≤ (due same).frm.tick.toNat) ∧
    (due same).changes same = false ∧ (due { same with progId := 2 }).changes { same with progId := 2 } = true ∧
    ready.frm.armed = none ∧ ready.switchDue = false ∧
    (backDue.frm.rollback = some ⟨1, 0⟩ ∧ backDue.frm.ticking = true ∧ backDue.frm.begun = false ∧
      (0 : BitVec 64).toNat ≤ backDue.frm.tick.toNat) ∧ ready.frm.rollback = none := by decide +kernel

/-- A frame whose one slot has not started. -/
def waits (u : UnitId) : State := framed (fun f => { f with slots := [] }) (working u 1 0 ready)

theorem test_met_SlotStart :
    (let s := waits ⟨1, 511⟩
     ∀ d, s.descOf (refOf (.prog 0)) = some d → s.mayStart48 (refOf (.prog 0)) d = true ∧ d.start ≤ Nat.max 0 s.slotTime ∧
      s.inTime 0 = true ∧ s.inTime (2 ^ 13) = true ∧ (s.timeTo 0).held209 d = false) ∧
    ((waits ⟨1, 511⟩).descOf (refOf (.prog 0))).isSome = true ∧
    ((working ⟨1, 511⟩ 1 0 ready).unitFree ⟨1, 511⟩ = false ∧ (waits ⟨1, 511⟩).inFrame (.prog 1) = false) := by
  refine ⟨?_, by decide +kernel, by decide +kernel⟩
  intro s d h
  have : d = ((waits ⟨1, 511⟩).descOf (refOf (.prog 0))).getD (rerunDesc 0) := by rw [h]; rfl
  subst this
  decide +kernel

/-- A frame whose slot of a core runs. -/
def runs1 : State := working ⟨1, 0⟩ 1 0 ready

theorem test_met_SlotEndAndReplay :
    ((runs1.run (refOf (.prog 0))) = some (freshRun (.prog 0) ⟨1, 0⟩ 0 [] 0 0) ∧ (runs1.descOf (refOf (.prog 0))).isSome = true ∧
      runs1.inTime 100 = true ∧ runs1.slotDone (freshRun (.prog 0) ⟨1, 0⟩ 0 [] 0 0) = true) ∧
    (working ⟨2, 0⟩ 2 0 ready).slotDone (freshRun (.prog 0) ⟨2, 0⟩ 0 [] 0 0) = false ∧ endClass (.csUe none) = some .csUe ∧
    tget 0 runs1.frm.events 0 < 0xFFFF ∧ (runs1.dropWork (freshRun (.prog 0) ⟨1, 0⟩ 0 [] 0 0)).unitIdle ⟨1, 0⟩ = false ∧
    endFixed (.csUe none) = false ∧
    (∀ d, runs1.descOf (.prog 0) = some d → bit d.flags 2 = true ∧
      { d with flags := 1 }.replayable = true ∧ d.replayable = false ∧
      (runs1.dropWork (freshRun (.prog 0) ⟨1, 0⟩ 0 [] 0 0)).replayFits d 0 = true ∧
      (runs1.dropWork (freshRun (.prog 0) ⟨1, 0⟩ 0 [] 0 0)).replayFits { d with endNom := 8193 } 0 = false) := by
  refine ⟨by decide +kernel, by decide +kernel, rfl, by decide +kernel, by decide +kernel, rfl, ?_⟩
  intro d h
  have : d = (runs1.descOf (.prog 0)).getD (rerunDesc 0) := by rw [h]; rfl
  subst this
  decide +kernel

theorem test_met_WorkAndCommitWindows : runs1.frm.ticking = true ∧ runs1.frm.double = false ∧
    (runs1.advance runs1.workEnd).runningUse.phys.sum ≤ (runs1.advance runs1.workEnd).runningUse.guardLimit * 10000000 ∧
    (let s : State := { runs1 with phys := { runs1.phys with samples := List.replicate 1000 600000000 } }
     let u := (s.advance s.workEnd).runningUse
     u.guardLimit * 10000000 < u.phys.sum) ∧
    ready.frm.ticking = false ∧ (runs1.frm.begun = true ∧ runs1.upd.commit = .running ∧ runs1.lastFrame = true) ∧
    ready.upd.commit ≠ .running := by decide +kernel

theorem test_met_ClearAndDiscardedSteps :
    (let s : State := { ready with upd := { ready.upd with commit := .window, clear := true } }
     s.upd.commit ≠ .running ∧ s.upd.commit ≠ .idle ∧ s.upd.clear = true) ∧
    (let s : State := { ready with upd := { ready.upd with commit := .window } }
     s.upd.commit ≠ .running ∧ s.upd.commit ≠ .idle ∧ s.upd.clear = false) := by decide +kernel

/-! ### Hypotheses that are met: mailbox commands of the units -/

theorem test_met_TelemetryAndMemoryCommands :
    u8At ((ask 0x0A01 [0x80]).params 0) 0 % 4 = 0 ∧ u8At ((ask 0x0A01 [2]).params 0) 0 = 2 ∧
    ((ask 0x0A04 [36]).admits 0x0A04 0 = true ∧ u8At ((ask 0x0A04 [36]).params 0) 0 ≤ 36) ∧
    ((ask 0x0A04 [37]).admits 0x0A04 0 = true ∧ 36 < u8At ((ask 0x0A04 [37]).params 0) 0) ∧
    (ask 0x0A05 [36]).admits 0x0A05 0 = true ∧ (ask 0x0A05 [32]).admits 0x0A05 0 = true ∧
    (ask 0x0A05 [26]).admits 0x0A05 0 = true ∧ (ask 0x0A01 [1]).admits 0x0A01 0 = true ∧
    (ask 0x0A01 [2]).admits 0x0A01 0 = true ∧
    (let s := ask 0x0403 (toLe 8 (own 0x7FFFFFFFFF))
     s.admits 0x0403 0 = true ∧ s.region (u64At (s.params 0) 0) = .hbm 0x7FFFFFFFFF) ∧
    (let s := ask 0x0403 (toLe 8 (own 0x00807FC00000))
     s.admits 0x0403 0 = true ∧ s.region (u64At (s.params 0) 0) = .core 511 0) ∧
    ((framed (fun f => { f with epoch := 1 }) (ask 0x0408 [0])).admits 0x0408 0 = true ∧
      (framed (fun f => { f with epoch := 1 }) (ask 0x0408 [0])).frm.epoch ≠ 0) ∧
    (let s := ask 0x0408 ([255] ++ List.replicate 7 0 ++ toLe 8 (own 0))
     s.admits 0x0408 0 = true ∧ s.frm.epoch = 0 ∧ s.stationCount ≤ 8 ∧ s.isHbm (u64At (s.params 0) 8) = true ∧
      s.accessOk (u64At (s.params 0) 8) 296 true = true ∧
      ∀ w ∈ wordsOf (u64At (s.params 0) 8 % 2 ^ 48) 296, (s.wordPlace w).stack ≠ 7) := by decide +kernel

/-- PORT_CONTROL of port `n`, with 23 ports up, or `k` of them. -/
def portAct (k n act lane : Nat) (ph : PortPhase) : State :=
  let s := ask 0x0504 [BitVec.ofNat 8 n, BitVec.ofNat 8 act, BitVec.ofNat 8 lane]
  let up := (List.range k).map (fun i => (i, { s.port i with phase := .up }))
  { s with lnk := { s.lnk with ports := tset up n { s.port n with phase := ph } } }

/-- A device with key handle 1. -/
def keyed (s : State) : State := { s with sec := { s.sec with handles := [(1, List.replicate 32 0)] } }

/-- Index, peer, planes, flags and handle of DRESKA_KEY_SET. -/
def keySet (i h : Nat) : List Byte := toLe 2 i ++ toLe 2 7 ++ [0xFF, 0xFF, 0xFF, 1] ++ toLe 8 h

theorem test_met_FabricCommands :
    (let s := ask 0x0502 (toLe 8 (own (2 ^ 39 - 8192)))
     s.admits 0x0502 0 = true ∧ s.accessOk (u64At (s.params 0) 0) 8192 false = true) ∧
    ((ask 0x0503 [23]).admits 0x0503 0 = true ∧ u8At ((ask 0x0503 [23]).params 0) 0 ≤ 23) ∧
    (let s := portAct 22 0 0 0 .up
     s.admits 0x0504 0 = true ∧ (s.port 0).phase ≠ .disabled ∧ s.livePorts - (if s.portLive 0 then 1 else 0) < 22) ∧
    (let s := portAct 23 22 0 0 .up
     s.admits 0x0504 0 = true ∧ (s.port 22).phase ≠ .disabled ∧ 22 ≤ s.livePorts - (if s.portLive 22 then 1 else 0)) ∧
    ((portAct 22 23 1 0 .disabled).admits 0x0504 0 = true ∧ ((portAct 22 23 1 0 .disabled).port 23).phase = .disabled) ∧
    (let s := portAct 24 23 2 15 .up
     s.admits 0x0504 0 = true ∧ ((s.port 23).carries 15).isSome = true ∧ (s.port 23).phase = .up ∧ ((s.port 23).takeSpare 15).isSome = true) ∧
    ((portAct 24 0 3 0 .up).admits 0x0504 0 = true ∧ ((portAct 24 0 3 0 .up).port 0).phase = .up) ∧
    ((portAct 24 0 3 0 .down).admits 0x0504 0 = true ∧ ((portAct 24 0 3 0 .down).port 0).phase ≠ .up) ∧
    (let s := keyed (ask 0x0505 (keySet 1023 1))
     s.admits 0x0505 0 = true ∧ u16At (s.params 0) 0 ≤ 1023 ∧ s.keysStaged = [] ∧
      s.sec.handles.any (fun e => e.1 == u64At (s.params 0) 8) = true) ∧
    (let s := keyed (ask 0x0505 (keySet 0 2))
     s.admits 0x0505 0 = true ∧ s.keysStaged = [] ∧ s.sec.handles.any (fun e => e.1 == u64At (s.params 0) 8) = false) ∧
    ((ask 0x0506 (toLe 2 1023)).admits 0x0506 0 = true ∧ u16At ((ask 0x0506 (toLe 2 1023)).params 0) 0 ≤ 1023) := by decide +kernel

/-- A tensor descriptor: identifier, format, flags, element and scale plane, 64 by 64. -/
def tensor (i fmt flags ea sa : Nat) : List Byte :=
  toLe 4 i ++ [BitVec.ofNat 8 fmt, BitVec.ofNat 8 flags, 0, 0] ++ toLe 8 ea ++ toLe 8 sa ++ List.replicate 24 0
    ++ toLe 4 64 ++ toLe 4 64 ++ List.replicate 8 0

/-- A wide tensor at the device's own 0x1000, an E4M3 one at 0x1040 and an FP4 one at 0x1080. -/
def withTensors (s : State) : State :=
  holds (own 0x1000) (tensor 1 7 0 (own 0x10000) 0 ++ tensor 2 3 0 (own 0x20000) (own 0x30000)
    ++ tensor 3 1 0 (own 0x40000) (own 0x50000)) s

/-- A quantize job: op, source, auxiliary and destinations. -/
def qjob (op src aux a b : Nat) : List Byte :=
  [BitVec.ofNat 8 op, 0, 0, 0] ++ List.replicate 12 0 ++ toLe 8 src ++ toLe 8 aux ++ toLe 8 a ++ toLe 8 b ++ List.replicate 16 0

theorem test_met_ArrayAndQuantizerCommands :
    (ask 0x0628 (toLe 2 543)).admits 0x0628 0 = true ∧ u16At ((ask 0x0628 (toLe 2 543)).params 0) 0 < 544 ∧
    bit (u8At ((ask 0x0631 [1]).params 0) 0) 0 = true ∧
    (u64At ((ask 0x0622 (List.replicate 8 0 ++ toLe 8 128)).params 0) 8 % 128 = 0 ∧
      u64At ((ask 0x0622 (List.replicate 8 0 ++ toLe 8 127)).params 0) 8 % 128 ≠ 0 ∧
      (ask 0x0622 (List.replicate 8 0 ++ toLe 8 127)).admits 0x0622 0 = true) ∧
    (let s := working ⟨1, 511⟩ 1 0 (ask 0x0620 (toLe 8 (own 0x2000) ++ toLe 2 511))
     s.admits 0x0620 0 = true ∧ convertUnit (u16At (s.params 0) 8) = some ⟨1, 511⟩ ∧ s.slotInFrame ⟨1, 511⟩ = true) ∧
    (let a := own 0x2000
     let s := holds a (qjob 1 (own 0x1000) 0 (own 0x1040) 0) (withTensors (ask 0x0620 (toLe 8 a ++ toLe 2 0xFFFF)))
     s.admits 0x0620 0 = true ∧ convertUnit (u16At (s.params 0) 8) = some ⟨3, 0⟩ ∧ u64At (s.params 0) 0 = a ∧
      s.slotInFrame ⟨3, 0⟩ = false ∧ a % 64 = 0 ∧ s.accessOk a 64 false = true ∧ s.jobCheck (s.qjob a) false = none ∧
      s.firstBad (s.jobAccess (s.qjob a)) = none ∧ s.accessFault (s.jobAccess (s.qjob a)) = false) := by decide +kernel

/-- A device whose program has five frames without slots. -/
def fiveFrames (s : State) : State :=
  framed (fun f => { f with curProg := some {
      lenExp := 13, guard := 8, progId := 1, planId := 0, aperture := ready.boot.running, digest := [],
      frames := (List.range 5).map (fun i => ⟨0, 0, i == 4, false, 0, 0⟩), slots := [], step := none } }) s

/-- A step descriptor of one round whose backward pass begins in frame 3. -/
def stepBytes : List Byte :=
  toLe 4 0x50455453 ++ toLe 2 1 ++ [1, 0] ++ toLe 4 1 ++ toLe 4 3 ++ List.replicate 48 0 ++ (toLe 4 0 ++ toLe 4 3)
    ++ List.replicate 120 0

/-- An update program: prologue END, body LD v0 from stream 0, ST of it to stream 0, END. -/
def updBytes : List Byte :=
  toLe 4 0x47504455 ++ toLe 2 1 ++ toLe 2 3 ++ [1, 1] ++ List.replicate 6 0
    ++ [0, updWord 0x20 0 0 0 0 0, updWord 0x21 0 0 0 0 0, 0].flatMap (toLe 4)

theorem test_met_TrainingCommands :
    (let s := holds (own 0x1000) stepBytes (fiveFrames (ask 0x0640 (toLe 8 (own 0x1000) ++ toLe 4 192)))
     s.admits 0x0640 0 = true ∧ s.accessOk (u64At (s.params 0) 0) 192 false = true ∧
      s.stepFail (s.load (u64At (s.params 0) 0) 192) (u32At (s.params 0) 8) = none) ∧
    (let s := holds (own 0x1000) stepBytes (ask 0x0640 (toLe 8 (own 0x1000) ++ toLe 4 192))
     s.admits 0x0640 0 = true ∧ s.stepFail (s.load (u64At (s.params 0) 0) 192) (u32At (s.params 0) 8) = some 0xFFFFFFFF) ∧
    ((ask 0x0641 []).upd.commit = .idle ∧ (working ⟨1, 0⟩ 1 0 (ask 0x0641 [])).upd.commit ≠ .idle ∧
      (working ⟨1, 0⟩ 1 0 (ask 0x0641 [])).admits 0x0641 0 = true) ∧
    ((ask 0x0642 (List.replicate 8 0 ++ [3])).admits 0x0642 0 = true ∧ (ask 0x0642 (List.replicate 8 0 ++ [3])).unitInFrame 4 = false) ∧
    (let s := holds (own 0x1000) updBytes (ask 0x0642 (toLe 8 (own 0x1000) ++ [15]))
     s.admits 0x0642 0 = true ∧ s.unitInFrame 4 = false ∧ u8At (s.params 0) 8 = 15 ∧ s.accessOk (own 0x1000) 16 false = true ∧
      progHeaderOk (s.load (own 0x1000) 16) = true ∧
      16 + 4 * (imagePrologue (s.load (own 0x1000) 16) + imageBody (s.load (own 0x1000) 16)) = 32 ∧
      s.accessOk (own 0x1000) 32 false = true ∧ progFail (s.load (own 0x1000) 32) = none) := by decide +kernel

/-- A scale state block of one entry. -/
def ssbHead : List Byte :=
  toLe 4 0x534C4353 ++ toLe 2 1 ++ toLe 2 1 ++ List.replicate 10 0 ++ toLe 2 1 ++ List.replicate 44 0
    ++ (List.replicate 16 ([1, 1, 82, 0, 82, 0, 8, 1] ++ List.replicate 24 (0 : Byte))).flatten
def ssbEntry : List Byte := toLe 4 0 ++ toLe 4 5 ++ List.replicate 6 0 ++ [0xFF, 0xFF] ++ List.replicate 17 0
    ++ [0x42, 0x86, 0x42] ++ List.replicate 28 0
def ssbBytes : List Byte := ssbHead ++ List.replicate 2560 0 ++ ssbEntry

/-- A device whose block of the last tick is the one above. -/
def snapped (s : State) : State := { s with lup := { s.lup with snap := ssbBytes } }

/-- LOUPE_LOAD of the block at 0x1000 to 0x2000. -/
def askLoad : State := ask 0x0650 (toLe 8 (own 0x1000) ++ toLe 8 (own 0x2000))

theorem region_own (s : State) (off : Nat) (h : off < 2 ^ 39) : s.region (own off) = .hbm off := by
  have e1 : own off / 2 ^ 48 % 2 ^ 16 = 0xFFFF := by unfold own; omega
  have e2 : own off % 2 ^ 48 = off := by unfold own; omega
  unfold State.region localRegion
  simp only [e1, e2]
  rw [if_pos (by simp [State.isOwn]), if_pos (by simpa using h)]

theorem key_own (s : State) (off : Nat) (h : off < 2 ^ 39) : s.key (own off) = off := by
  have e1 : own off / 2 ^ 48 % 2 ^ 16 = 0xFFFF := by unfold own; omega
  have e2 : own off % 2 ^ 48 = off := by unfold own; omega
  unfold State.key
  simp only [e1, e2]
  rw [if_pos (by simp [State.isOwn])]

theorem cells_above (a : Nat) (bs : List Byte) : ∀ c ∈ cells a bs, a ≤ c.1 := by
  induction bs generalizing a with
  | nil => intro c h; cases h
  | cons b bs ih =>
    intro c h
    unfold cells at h
    split at h
    · have := ih _ c h; omega
    · rcases List.mem_cons.1 h with h | h
      · subst h; exact Nat.le_refl _
      · have := ih _ c h; omega

theorem mread_cons (c : Host.Cell) (m : List Host.Cell) (k : Nat) : mread (c :: m) k = if c.1 = k then c.2 else mread m k :=
  rfl

theorem mread_skip (x m : List Host.Cell) (k : Nat) (h : ∀ c ∈ x, c.1 ≠ k) : mread (x ++ m) k = mread m k := by
  induction x with
  | nil => rfl
  | cons c x ih =>
    rw [List.cons_append, mread_cons, if_neg (h c (by simp)), ih (fun d hd => h d (by simp [hd]))]

theorem cells_read (m : List Host.Cell) (a : Nat) (bs : List Byte) (i : Nat) (h : i < bs.length) :
    mread (m.filter (fun c => decide (c.1 < a)) ++ (cells a bs ++ m.filter (fun c => decide (a + bs.length ≤ c.1)))) (a + i)
      = byteAt bs i := by
  rw [mread_skip _ _ _ (fun c hc => by have := (List.mem_filter.1 hc).2; simp at this; omega)]
  have tail : ∀ k, k < a + bs.length → ∀ c ∈ m.filter (fun c => decide (a + bs.length ≤ c.1)), c.1 ≠ k := fun k hk c hc => by
    have := (List.mem_filter.1 hc).2; simp at this; omega
  generalize m.filter (fun c => decide (a + bs.length ≤ c.1)) = r at tail
  clear m
  induction bs generalizing a i with
  | nil => simp at h
  | cons b bs ih =>
    simp only [List.length_cons] at h tail
    have nil : ∀ k, k ≤ a → mread (cells (a + 1) bs ++ r) k = 0 := fun k hk => mread_absent fun c hc => by
      rcases List.mem_append.1 hc with hc | hc
      · have := cells_above _ _ c hc; omega
      · exact tail k (by omega) c hc
    cases i with
    | zero =>
      unfold cells
      split
      · next h0 => rw [nil _ (by omega), h0]; rfl
      · rw [List.cons_append, mread_cons, if_pos (by rfl)]; rfl
    | succ i =>
      have := ih (a + 1) i (by omega) (fun k hk => tail k (by omega))
      rw [show a + (i + 1) = a + 1 + i by omega]
      unfold cells
      split
      · rw [this]; simp [byteAt]
      · rw [List.cons_append, mread_cons, if_neg (by show ¬ a = _; omega), this]; simp [byteAt]

/-- What a state holds is what it loads. -/
theorem load_held (off k : Nat) (bs : List Byte) (s : State) (h : k ≤ bs.length) (h1 : off + bs.length ≤ 2 ^ 39) :
    (holds (own off) bs s).load (own off) k = bs.take k := by
  by_cases hk : k = 0
  · subst hk; rfl
  have key := key_own s off (by omega)
  have one : ∀ i, i < bs.length → (holds (own off) bs s).loadByte (own off + i) = byteAt bs i := by
    intro i hi
    have e : own off + i = own (off + i) := by unfold own; omega
    unfold State.loadByte
    rw [e, region_own _ _ (by omega), key_own _ _ (by omega)]
    show mread (s.mem.filter (fun c => decide (c.1 < s.key (own off))) ++ (cells (s.key (own off)) bs ++ s.mem.filter
      (fun c => decide (s.key (own off) + bs.length ≤ c.1)))) (off + i) = _
    rw [key]
    exact cells_read _ _ _ _ hi
  apply List.ext_getElem
  · simp [State.load]; omega
  · intro i h2 h3
    have hi : i < bs.length := by simp at h3; omega
    simp only [State.load, List.getElem_map, List.getElem_range, List.getElem_take]
    rw [one i hi]
    simp [byteAt, hi]

theorem ssb_layers : (List.range 1024).all (fun l => decide (u8At ssbBytes (layerOff l) < 2)) = true := by
  apply List.all_eq_true.2
  intro l h
  have h := List.mem_range.1 h
  have : ∀ i, 0x240 ≤ i → i < 0x240 + 2560 → byteAt ssbBytes i = 0 := by
    intro i h1 h2
    have ha : ssbHead.length = 0x240 := by decide +kernel
    show (ssbHead ++ List.replicate 2560 0 ++ ssbEntry).getD i 0 = 0
    have e : (ssbHead ++ List.replicate 2560 0 ++ ssbEntry)[i]? = some 0 := by
      rw [List.getElem?_append_left (by rw [List.length_append, List.length_replicate]; omega), List.getElem?_append_right (by omega), List.getElem?_replicate,
        if_pos (by omega)]
    rw [List.getD_eq_getElem?_getD, e]
    rfl
  unfold u8At
  rw [this _ (by unfold layerOff; omega) (by unfold layerOff; omega)]
  rfl

theorem ssb_good : imageOk ssbBytes = true := by
  have a1 : headerOk ssbBytes = true := by decide +kernel
  have a2 : (List.range 16).all (fun c => classOk (slice ssbBytes (classOff c) 32)) = true := by decide +kernel
  have a3 : (List.range 16).all (fun h => zeroBytes ssbBytes (0xA40 + 32 * h + 18) 6) = true := by decide +kernel
  unfold imageOk
  rw [a1, a2, a3, ssb_layers]
  rfl

theorem test_met_LoupeCommands_load (s : State) (hs : s = holds (own 0x1000) ssbBytes askLoad) :
    s.admits 0x0650 0 = true ∧ s.upd.commit = .idle ∧ s.accessOk (own 0x1000) (ssbSize 1) false = true ∧
    s.isHbm (own 0x2000) = true ∧ s.accessOk (own 0x2000) (ssbSize 1) true = true ∧
    s.load (own 0x1000) 64 = ssbBytes.take 64 ∧ headerOk (ssbBytes.take 64) = true ∧ s.load (own 0x1000) (ssbSize 1) = ssbBytes ∧
    imageOk ssbBytes = true ∧ s.firstBadEntry ssbBytes = none := by
  have e : ssbBytes.length = ssbSize 1 := by decide +kernel
  have e4 : ssbSize 1 = 3200 := by decide
  have h1 := load_held 0x1000 64 ssbBytes askLoad (by omega) (by omega)
  have h2 := load_held 0x1000 (ssbSize 1) ssbBytes askLoad (by omega) (by omega)
  rw [← e, List.take_length] at h2
  rw [← hs] at h1 h2
  have h3 : s.admits 0x0650 0 = true ∧ s.upd.commit = .idle ∧ s.accessOk (own 0x1000) (ssbSize 1) false = true ∧
    s.isHbm (own 0x2000) = true ∧ s.accessOk (own 0x2000) (ssbSize 1) true = true := by rw [hs]; decide +kernel
  have h4 : headerOk (ssbBytes.take 64) = true := by decide +kernel
  have h5 : s.firstBadEntry ssbBytes = none := by rw [hs]; decide +kernel
  rw [← e]
  exact ⟨h3.1, h3.2.1, e ▸ h3.2.2.1, h3.2.2.2.1, e ▸ h3.2.2.2.2, h1, h4, h2, ssb_good, h5⟩

theorem test_met_LoupeCommands :
    (let s := working ⟨1, 0⟩ 1 0 (ask 0x0650 [])
     s.admits 0x0650 0 = true ∧ s.upd.commit ≠ .idle ∧ s.lup.phase ≠ .hold ∧ s.lup.phase ≠ .stopped) ∧
    (let s := ask 0x0650 (toLe 8 (own 0x1000))
     s.admits 0x0650 0 = true ∧ s.upd.commit = .idle ∧ s.accessOk (own 0x1000) 64 false = true ∧
      headerOk (s.load (own 0x1000) 64) = false) ∧
    ((ask 0x0651 []).lup.snap = [] ∧ (snapped (ask 0x0651 (toLe 8 (own 0)))).lup.snap ≠ [] ∧
      (snapped (ask 0x0651 (toLe 8 (own 0)))).accessOk (own 0) ssbBytes.length true = true ∧
      (snapped (ask 0x0651 (toLe 8 (own 0)))).admits 0x0651 0 = true) ∧
    ((snapped (ask 0x0652 [0, 0, 1])).admits 0x0652 0 = true ∧ 0xC40 + 64 * (0 + 1) ≤ (snapped (ask 0x0652 [0, 0, 1])).lup.snap.length ∧
      (snapped (ask 0x0652 [1, 0])).lup.snap.length < 0xC40 + 64 * (1 + 1)) ∧
    (let s := (holds (own 0x1000) (ssbBytes.take 8) (ask 0x0653 []))
     let s : State := { s with lup := { s.lup with addr := own 0x1000, phase := .hold } }
     s.admits 0x0653 0 = true ∧ 0 < s.ssbEntries) ∧
    ((ask 0x0654 [15]).admits 0x0654 0 = true ∧ u8At ((ask 0x0654 [15]).params 0) 0 ≤ 15) := by decide +kernel

/-! ### Hypotheses that are met: stash, queues, recovery, trust, boot and long operations -/

/-- A program whose step is attached. -/
def stepped (s : State) : State :=
  framed (fun f => { f with curProg := f.curProg.map (fun p => { p with step := some ⟨1, stepBytes⟩ }) }) (fiveFrames s)

/-- A stash descriptor of one group at 0x3000, with a ring and a recompute area of 64 KiB and 128 KiB, and no target. -/
def stashBytes : List Byte :=
  toLe 4 0x48535453 ++ toLe 2 1 ++ toLe 2 1 ++ toLe 8 (own 0x100000) ++ toLe 8 0x10000 ++ toLe 8 (own 0x200000) ++ toLe 8 0x20000
    ++ List.replicate 16 0 ++ toLe 8 (own 0x3000) ++ toLe 4 1 ++ List.replicate 60 0

/-- A group of two tensors: written in frame 1, run again in frame 3 and released in it. -/
def groupBytes : List Byte :=
  toLe 2 0 ++ [0, 2] ++ toLe 4 1 ++ toLe 4 1 ++ toLe 4 3 ++ toLe 4 3 ++ List.replicate 4 0 ++ toLe 8 (own 0x4000)
    ++ List.replicate 32 0 ++ toLe 8 (own 0x1000) ++ toLe 8 (own 0x1040) ++ List.replicate 48 0

/-- FARSTASH_WINDOW of window 15. -/
def window (size : Nat) : State := ask 0x0661 ([15] ++ List.replicate 7 0 ++ toLe 8 (own 0x1000) ++ toLe 8 size ++ toLe 2 9)

/-- A valid queue descriptor, HOST or not. -/
def queueBytes (flags : Nat) : List Byte :=
  [BitVec.ofNat 8 flags, 0] ++ toLe 2 1 ++ toLe 4 1 ++ toLe 8 (own 0x8000) ++ toLe 4 1 ++ List.replicate 44 0

/-- DSP_QUEUE_CONFIG of a queue. -/
def queue (qid flags : Nat) : State :=
  holds (own 0x1000) (queueBytes flags) (ask 0x0671 (toLe 4 qid ++ List.replicate 4 0 ++ toLe 8 (own 0x1000)))

/-- A dispatch job of a slot with one queue. -/
def oneJob (qid : Nat) : DspJob :=
  { desc := own 0x2000, raw := [], ref := .prog 0, queues := [⟨qid, 0, 0, 0⟩], headers := false }

theorem test_met_StashSeedAndQueueCommands :
    ((working ⟨1, 0⟩ 1 0 (ask 0x0660 [])).stepRuns = true ∧ (working ⟨1, 0⟩ 1 0 (ask 0x0660 [])).admits 0x0660 0 = true) ∧
    (let s := holds (own 0x3000) groupBytes (holds (own 0x2000) stashBytes (withTensors (stepped (ask 0x0660 (toLe 8 (own 0x2000))))))
     s.admits 0x0660 0 = true ∧ s.stepRuns = false ∧ s.accessOk (own 0x2000) 128 false = true ∧
      s.stashFail (own 0x2000) (s.load (own 0x2000) 128) = none) ∧
    (let s := window 0
     s.admits 0x0661 0 = true ∧ u8At (s.params 0) 0 ≤ 15 ∧ (tget ⟨0, 0, 0, false⟩ s.sts.windows 15).used = false ∧
      u64At (s.params 0) 16 = 0) ∧
    (let s := window 4096
     s.admits 0x0661 0 = true ∧ u64At (s.params 0) 16 ≠ 0 ∧ s.isHbm (own 0x1000) = true ∧ s.accessOk (own 0x1000) 4096 true = true) ∧
    (let s : State := { ask 0x0662 [0, 0] with sts := { ready.sts with snap := [StashGroup.ofBytes groupBytes] } }
     s.admits 0x0662 0 = true ∧ s.sts.snap[u16At (s.params 0) 0]? = some (StashGroup.ofBytes groupBytes)) ∧
    (ready.stepRuns = false ∧ (working ⟨1, 0⟩ 1 0 (ask 0x0668 [])).admits 0x0668 0 = true) ∧
    (let s := ask 0x0670 (toLe 8 (own 0x100))
     s.admits 0x0670 0 = true ∧ s.dspBusy = false ∧ u64At (s.params 0) 0 % 256 = 0 ∧ s.isHbm (own 0x100) = true ∧
      s.accessOk (own 0x100) (2 ^ 26) true = true) ∧
    ({ ready with dsp := { ready.dsp with jobs := [oneJob 5] } } : State).dspBusy = true ∧
    (let s : State := { queue 5 1 with dsp := { ready.dsp with jobs := [oneJob 5] } }
     s.admits 0x0671 0 = true ∧ s.accessOk (own 0x1000) 64 false = true ∧ s.queueRuns 5 = true) ∧
    (let s := queue (2 ^ 20 - 1) 0x21
     s.admits 0x0671 0 = true ∧ u32At (s.params 0) 0 = 2 ^ 20 - 1 ∧ s.queueRuns (2 ^ 20 - 1) = false ∧
      s.queueOk (s.load (own 0x1000) 64) = true ∧ s.pinnedOthers (2 ^ 20 - 1) < 8192) ∧
    ((ask 0x0672 (toLe 4 (2 ^ 20))).admits 0x0672 0 = true ∧ 2 ^ 20 ≤ u32At ((ask 0x0672 (toLe 4 (2 ^ 20))).params 0) 0) := by
  decide +kernel

/-- A manifest of one region, with a log ring of 256 entries and one batch record. -/
def manBytes : List Byte :=
  toLe 4 0x5252494D ++ toLe 2 1 ++ toLe 2 1 ++ toLe 8 (own 0x10000) ++ toLe 4 256 ++ toLe 4 1 ++ toLe 8 (own 0x20000)
    ++ List.replicate 32 0 ++ ([2, 0, 0, 0] ++ toLe 4 256 ++ toLe 8 (own 0x30000))

/-- A device whose Mirror is in a phase, with the manifest above at 0x1000. -/
def mirrored (ph : MirrorPhase) (s : State) : State :=
  holds (own 0x1000) manBytes { s with ras := { s.ras with mirror := { s.ras.mirror with phase := ph, manifest := own 0x1000 } } }

/-- A device with cores 0 to 511 in place and spares after them. -/
def coredTo (n : Nat) (s : State) : State :=
  { s with boot := { s.boot with logical := (List.range 512).map (fun i => (i, i)),
                                 persist := { s.boot.persist with mappedOut := (List.range 544).drop n } } }
def cored (s : State) : State := coredTo 544 s

/-- MIRROR_PAIR with station 9. -/
def pair (flags : Nat) : List Byte :=
  toLe 2 9 ++ toLe 2 flags ++ toLe 4 1 ++ toLe 8 (own 0x1000) ++ toLe 8 (own 0x100000) ++ toLe 8 0x10000 ++ toLe 8 0

theorem test_met_RecoveryCommands :
    (u8At ((ask 0x0701 [0, 0]).params 0) 0 = 0 ∧ u8At ((ask 0x0701 [1, 1]).params 0) 0 = 1 ∧
      (ask 0x0701 [2]).admits 0x0701 0 = true ∧ 1 < u8At ((ask 0x0701 [2]).params 0) 0) ∧
    ((mirrored .paired (ask 0x0702 [1])).admits 0x0702 0 = true ∧ (ask 0x0702 [1]).ras.mirror.phase ≠ .pending ∧
      (ask 0x0702 [1]).ras.mirror.phase ≠ .paired) ∧
    ((ask 0x0703 (pair 2)).admits 0x0703 0 = true ∧ (ask 0x0703 (pair 2)).ras.mirror.phase ≠ .filling ∧
      bit (u8At ((ask 0x0703 (pair 2)).params 0) 2) 1 = true) ∧
    (let s := holds (own 0x1000) manBytes (ask 0x0703 (pair 0))
     s.admits 0x0703 0 = true ∧ bit (u8At (s.params 0) 2) 1 = false ∧ s.pairFail (s.params 0) = none) ∧
    (let s := cored (ask 0x0705 [0xFF, 1, 0xFF, 0xFF])
     s.admits 0x0705 0 = true ∧ u16At (s.params 0) 0 = 511 ∧ s.boot.pendingMapIn = [] ∧ s.recoveryActions < 4 ∧
      (nearest ((s.physOf 511).getD 0) s.mapInSpares).isSome = true) ∧
    (let s := coredTo 512 (ask 0x0705 [0, 0, 0xFF, 0xFF])
     s.admits 0x0705 0 = true ∧ s.mapInSpares = [] ∧ u16At (s.params 0) 2 = 0xFFFF) ∧
    (let s := cored (ask 0x0705 [0, 0, 0x1F, 2])
     s.admits 0x0705 0 = true ∧ s.namedSpare 543 = true ∧ u16At (s.params 0) 2 = 543) ∧
    (let s := mirrored .paired (ask 0x0706 (toLe 8 0 ++ toLe 4 0 ++ List.replicate 4 0 ++ toLe 8 (own 0x40000)))
     s.admits 0x0706 0 = true ∧ s.manifestOk s.ras.mirror.manifest = true ∧ u64At (s.params 0) 16 ≠ 0 ∧
      s.accessOk (u64At (s.params 0) 16) (128 * (s.logFrom 0 0).length) true = true) := by decide +kernel


/-- A challenge of level `l`. -/
def challenged (l : Nat) (ps : List Byte) : State :=
  let s := ask 0x0806 ps
  { s with sec := { s.sec with challenge := some ⟨l, List.replicate 32 0, 0⟩ } }

/-- A device with an owner's key. -/
def owned (s : State) : State := { s with sec := { s.sec with ownerKey := some (List.replicate 32 1) } }

/-- OWNER_KEY_ENROL of a key, and of none, with no bank valid. -/
def enrol (b : Byte) : State :=
  let s := ask 0x0804 (List.replicate 32 b ++ toLe 8 (own 0))
  { s with boot := { s.boot with persist := { s.boot.persist with aValid := false, bValid := false } } }

theorem test_met_TrustCommands :
    ((ask 0x0801 (List.replicate 32 0 ++ toLe 8 (own 0))).admits 0x0801 0 = true ∧
      (ask 0x0801 (List.replicate 32 0 ++ toLe 8 (own 0))).paramOk (own 0) 17616 true = true) ∧
    ((ask 0x0802 (toLe 8 (own 0))).admits 0x0802 0 = true ∧
      (ask 0x0802 (toLe 8 (own 0))).paramOk (own 0) (ask 0x0802 (toLe 8 (own 0))).shownChain.length true = true) ∧
    ((ask 0x0803 [0xFF]).admits 0x0803 0 = true ∧ (ask 0x0803 [1]).admits 0x0803 0 = true ∧ (ask 0x0803 [10]).admits 0x0803 0 = true) ∧
    ((enrol 0).admits 0x0804 0 = true ∧ (enrol 0).sec.ownerKey = none ∧ (enrol 0).frm.epoch = 0 ∧
      zeroBytes (slice ((enrol 0).params 0) 0 32) 0 32 = true) ∧
    ((enrol 1).admits 0x0804 0 = true ∧ (enrol 1).ownerAuthorised (slice ((enrol 1).params 0) 0 32) [] = true ∧
      (enrol 1).banksSigned (slice ((enrol 1).params 0) 0 32) = true ∧ (owned (enrol 1)).paramOk (own 0) 7856 false = true) ∧
    ((ask 0x0805 [1]).admits 0x0805 0 = true ∧ (ask 0x0805 [2]).admits 0x0805 0 = true) ∧
    (let s := challenged 2 ([2] ++ List.replicate 7 0 ++ toLe 8 (own 0))
     s.admits 0x0806 0 = true ∧ u8At (s.params 0) 0 = 2 ∧ s.paramOk (own 0) 7856 false = true ∧ s.sec.debug < 2 ∧ s.frm.epoch = 0) ∧
    (let s := owned (challenged 1 ([1] ++ List.replicate 7 0 ++ toLe 8 (own 0)))
     s.admits 0x0806 0 = true ∧ s.sec.debug < 1 ∧ s.sec.ownerKey.isSome = true) ∧
    ((ask 0x0807 []).admits 0x0807 0 = true ∧ u32At ((ask 0x0807 []).params 0) 0 = 0 ∧ (ask 0x0807 []).sec.handles.length < 1024) ∧
    (let s := keyed (ask 0x0807 [1])
     u32At (s.params 0) 0 ≠ 0 ∧ zeroBytes (s.params 0) 16 32 = true ∧ s.sec.handles.any (fun e => e.1 == 1) = true ∧
      s.handleNamed 1 = false ∧ { s.lnk with keys := [(0, some ⟨7, 0, false, 1, []⟩)] }.keys ≠ []) ∧
    (challenged 1 []).sec.challenge.any (fun c => (challenged 1 []).rc < c.rc + 60000000000) = true ∧
    ({ challenged 1 [] with rc := 60000000000 } : State).sec.challenge.any (fun c => c.rc + 60000000000 ≤ 60000000000) = true := by
  decide +kernel

/-- A key that the enrolled owner has not signed is refused. -/
theorem test_met_TrustCommands_unauthorised (sig : List Byte)
    (no : slhVerify slhSmall (List.replicate 32 1) (asciiBytes "V9T-OWN")
      (slice ((owned (enrol 1)).params 0) 0 32 ++ (owned (enrol 1)).identity ++ toLe 4 ((owned (enrol 1)).sec.ownerCounter + 1)) sig
        = false) :
    (owned (enrol 1)).ownerAuthorised (slice ((owned (enrol 1)).params 0) 0 32) sig = false := no

theorem test_met_TrustCommands_keyNamed :
    (let s := keyed (ask 0x0807 [1])
     let s : State := { s with lnk := { s.lnk with keys := [(0, some ⟨7, 0, false, 1, []⟩)] } }
     s.handleNamed 1 = true ∧ s.admits 0x0807 0 = true) := by decide +kernel

/-- A device whose banks A and B are both valid. -/
def banked (s : State) : State :=
  { s with boot := { s.boot with persist := { s.boot.persist with aValid := true, bValid := true } } }

/-- A device that runs at aperture 26 and may run at up to 36, its ARITH domain on its PLL. -/
def arith (s : State) : State :=
  let t := { s with boot := { s.boot with fuses := { s.boot.fuses with aperture := 36 } } }
  t.putDomain 2 { t.domain 2 with phase := .onPll }

theorem test_met_BootCommands :
    ((banked (ask 0x0902 [1])).admits 0x0902 0 = true ∧ (banked (ask 0x0902 [1])).boot.persist.bValid = true ∧
      (banked (ask 0x0902 [0])).boot.persist.aValid = true ∧ ready.boot.persist.bValid = false) ∧
    ((ask 0x0903 [0, 0, 0, 0, 0xFF, 0xFF, 0xFF, 0xFF]).admits 0x0903 0 = true ∧
      (ask 0x0903 ([1] ++ List.replicate 15 0 ++ toLe 8 (own 0))).paramOk (own 0) 4096 true = true ∧
      (ask 0x0903 (List.replicate 16 0 ++ toLe 8 (own 0))).paramOk (own 0) 0 true = true) ∧
    (let s : State := { ask 0x0904 [36] with boot := { ready.boot with fuses := { ready.boot.fuses with aperture := 32 } } }
     s.admits 0x0904 0 = true ∧ s.boot.fuses.aperture < 36) ∧
    (let s := arith (ask 0x0904 [36])
     s.admits 0x0904 0 = true ∧ 36 ≤ s.boot.fuses.aperture ∧ s.frm.epoch = 0 ∧ s.longRunning = false ∧ (s.domain 2).phase = .onPll) ∧
    ((ask 0x0905 [0xFF, 0xFF]).admits 0x0905 0 = true ∧ u16At ((ask 0x0905 [0x1F, 2]).params 0) 0 = 543) ∧
    (let s := banked (ask 0x0906 [3, 1])
     s.admits 0x0906 0 = true ∧ (∀ j, j < 4 → (s.scp j).swapTo = none) ∧ s.boot.persist.bValid = true ∧
      u16At (s.bankImage true) 16 = u16At (s.bankImage (s.scp 3).bankB) 16 ∧
      u16At (s.bankImage true) 18 = u16At (s.bankImage (s.scp 3).bankB) 18) := by decide +kernel

/-- The least image: its header and component table, the rest zeros, and four components without bytes. -/
def imHead : List Byte :=
  toLe 4 0x4D495746 ++ toLe 2 1 ++ toLe 2 63 ++ List.replicate 20 0 ++ toLe 4 4 ++ List.replicate 32 0
    ++ ([1, 2, 3, 4] : List Nat).flatMap (fun k => [BitVec.ofNat 8 k] ++ List.replicate 7 0 ++ toLe 4 16384 ++ toLe 4 0
        ++ sha256 [])
def image (sig : List Byte) : List Byte := imHead ++ (sig ++ List.replicate 8272 0)

/-- A signature of the vendor's for the image. -/
structure VendorSig (sig : List Byte) : Prop where
  size : sig.length = 7856
  verifies : slhVerify slhSmall Config.firmwareKey (asciiBytes "V9T-FW") (slice imHead 0 256) sig = true

theorem imHead_length : imHead.length = 256 := by decide +kernel

theorem image_length {sig : List Byte} (h : sig.length = 7856) : (image sig).length = 16384 := by
  unfold image
  rw [List.length_append, List.length_append, List.length_replicate, imHead_length, h]

theorem image_head (sig : List Byte) (i n : Nat) (h : i + n ≤ 256) : slice (image sig) i n = slice imHead i n := by
  unfold slice image
  rw [List.drop_append_of_le_length (by rw [imHead_length]; omega),
    List.take_append_of_le_length (by rw [List.length_drop, imHead_length]; omega)]

theorem image_sig {sig : List Byte} (h : sig.length = 7856) : slice (image sig) 256 7856 = sig := by
  unfold slice image
  rw [List.drop_append, List.drop_eq_nil_of_le (Nat.le_of_eq imHead_length), imHead_length, List.nil_append, Nat.sub_self,
    List.drop_zero, List.take_append_of_le_length (by omega), List.take_of_length_le (by omega)]
  show sig ++ List.replicate (7856 - sig.length) 0 = sig
  rw [h, Nat.sub_self, List.replicate_zero, List.append_nil]

theorem image_tail {sig : List Byte} (h : sig.length = 7856) : zeroBytes (image sig) 15968 416 = true := by
  have e : (image sig).drop 15968 = List.replicate 416 0 := by
    unfold image
    rw [List.drop_append, List.drop_eq_nil_of_le (by rw [imHead_length]; omega), List.nil_append, imHead_length, List.drop_append,
      List.drop_eq_nil_of_le (by omega), List.nil_append, List.drop_replicate, h]
  unfold zeroBytes slice
  rw [e]
  decide +kernel

theorem image_part (sig : List Byte) (i : Nat) (h : i < 4) : imageComponent (image sig) i = imageComponent imHead i := by
  unfold imageComponent
  rw [image_head sig _ _ (by omega)]

theorem image_components (sig : List Byte) (k : Nat) (hk : k ∈ [1, 2, 3, 4]) : componentOk (image sig) k = true := by
  have f : (List.range 4).find? (fun i => (imageComponent (image sig) i).1 == k)
      = (List.range 4).find? (fun i => (imageComponent imHead i).1 == k) := by
    simp only [List.range_succ, List.range_zero, List.nil_append, List.cons_append, List.find?_cons, List.find?_nil,
      image_part sig 0 (by omega), image_part sig 1 (by omega), image_part sig 2 (by omega), image_part sig 3 (by omega)]
  have g : ∀ k ∈ [1, 2, 3, 4], ∀ i, (List.range 4).find? (fun i => (imageComponent imHead i).1 == k) = some i → i < 4 ∧
      (imageComponent imHead i).2.2.1 = 0 ∧ (imageComponent imHead i).2.2.2 = sha256 [] := by decide +kernel
  have some : ∀ k ∈ [1, 2, 3, 4], ((List.range 4).find? (fun i => (imageComponent imHead i).1 == k)).isSome = true := by
    decide +kernel
  obtain ⟨i, hi⟩ := Option.isSome_iff_exists.1 (some k hk)
  obtain ⟨h4, hl, hd⟩ := g k hk i hi
  unfold componentOk componentBytes componentDigest
  rw [f, hi]
  simp only [image_part sig i h4, hl, hd]
  simp [slice]

theorem image_formed {sig : List Byte} (h : sig.length = 7856) : imageMalformed (image sig) = false := by
  unfold imageMalformed
  rw [image_tail h, image_length h]
  simp only [u32At, u16At, zeroBytes, image_head sig 0 4 (by omega), image_head sig 4 2 (by omega), image_head sig 6 2 (by omega),
    image_head sig 28 4 (by omega), image_head sig 32 32 (by omega), List.range_succ, List.range_zero, List.nil_append,
    List.cons_append, List.any_cons, List.any_nil, image_part sig 0 (by omega), image_part sig 1 (by omega),
    image_part sig 2 (by omega), image_part sig 3 (by omega), image_head sig (64 + 48 * 0 + 1) 7 (by omega),
    image_head sig (64 + 48 * 1 + 1) 7 (by omega), image_head sig (64 + 48 * 2 + 1) 7 (by omega),
    image_head sig (64 + 48 * 3 + 1) 7 (by omega)]
  decide +kernel

theorem image_good (s : State) (sig : List Byte) (v : VendorSig sig) (ks : List Nat) (hk : ∀ k ∈ ks, k ∈ [1, 2, 3, 4])
    (h : s.sec.ownerMacOk = true ∧ s.sec.ownerCounter = s.sec.ownerFuse ∧ s.sec.ownerKey = none ∧ s.sec.svnFloor ≤ 63) :
    s.imageVerdict (image sig) ks = none := by
  have n : u16At (image sig) 6 = 63 := by
    unfold u16At
    rw [image_head sig _ _ (by omega)]
    decide +kernel
  have y : s.imageSigned (image sig) = true := by
    unfold State.imageSigned
    rw [image_head sig 0 256 (by omega), image_sig v.size, v.verifies, h.1, h.2.1, h.2.2.1]
    simp
  unfold State.imageVerdict
  rw [image_formed v.size, y, n]
  simp only [Bool.false_eq_true, Bool.not_true, if_false]
  rw [if_neg (by omega), if_neg]
  simp only [List.any_eq_true, not_exists, not_and]
  intro k hx
  rw [image_components sig k (hk k hx)]
  decide

/-- The image header of this device for step `t`, made from the manifest above, of `n` bytes. -/
def imageHead (n : Nat) : List Byte :=
  slice (toLe 4 0x474D494D ++ toLe 2 1 ++ toLe 2 0 ++ toLe 8 0 ++ toLe 8 0 ++ toLe 4 2 ++ toLe 4 0 ++ List.replicate 32 0
    ++ sha256 manBytes ++ toLe 8 n) 0 256

/-- A log entry for step 0. -/
def logEntry : List Byte := List.replicate 120 0 ++ (sha256 (List.replicate 120 0)).take 8

/-- A device whose 16 progress records all run. -/
def allRun (s : State) : State :=
  { s with host := { s.host with records := (List.range 16).map (fun i => (i, { Progress.reset with running := true, used := true })) } }

/-- A running record 3 of a total of 100. -/
def runsOp (op : LongOp) : State :=
  ready.putRecord 3 { Progress.reset with running := true, used := true, total := 100, position := 40, op := op }

theorem test_met_LongOperations :
    ((ask 0x0401 [64]).admits 0x0401 0 = true ∧ u8At ((ask 0x0401 [64]).params 0) 0 ≤ 64 ∧ (ask 0x0401 [64]).frm.epoch = 0 ∧
      (ask 0x0401 [64]).freeRecord = some 0) ∧
    ((allRun (ask 0x0401 [64])).freeRecord = none ∧ (allRun (ask 0x0401 [64])).admits 0x0401 0 = true) ∧
    (let s := ask 0x0406 [0, 255, 63, 71, 0xFF, 0x3F]
     let r : Repair := { lane := false, channel := 255, bank := 63, row := 16383, laneNo := 71, id := s.hbm.nextRepair }
     s.admits 0x0406 0 = true ∧ s.hbm.current = none ∧ (s.repaired r).isSome = true) ∧
    (let s := ask 0x0406 [1, 255, 0, 71]
     let r : Repair := { lane := true, channel := 255, bank := 0, row := 0, laneNo := 71, id := s.hbm.nextRepair }
     s.admits 0x0406 0 = true ∧ (s.repaired r).isSome = true) ∧
    (let s := ask 0x0907 [0, 23]
     s.admits 0x0907 0 = true ∧ u8At (s.params 0) 1 = 23 ∧ (s.port 23).phase = .down ∧ s.recoveryActions < 4) ∧
    ((ask 0x0907 [2, 7]).admits 0x0907 0 = true ∧ (ask 0x0907 [2, 7]).frm.epoch = 0 ∧ u8At ((ask 0x0907 [2, 7]).params 0) 0 = 2) ∧
    (let s := mirrored .paired (ask 0x0704 [1])
     s.admits 0x0704 0 = true ∧ s.fillAdmitted = true ∧ s.ras.mirror.phase = .paired ∧ s.recoveryActions < 4 ∧
      u8At (s.params 0) 0 = 1) ∧
    (let s := mirrored .paired (ask 0x0704 [0])
     let s := holds (s.onPartner (s.ras.mirror.halfAt 0)) (imageHead 512) s
     s.admits 0x0704 0 = true ∧ s.ras.mirror.phase = .paired ∧ s.fillHalf 0 = some 0) ∧
    (mirrored .paired (ask 0x0704 [0])).fillHalf 0 = none ∧
    (let s := mirrored .unpaired (ask 0x0707 ([0] ++ List.replicate 7 0 ++ toLe 8 (own 0x50000)))
     s.admits 0x0707 0 = true ∧ s.fillAdmitted = true ∧ s.recoveryActions < 4 ∧ s.manifestOk s.ras.mirror.manifest = true ∧
      s.accessOk (own 0x50000) (s.imageSize s.ras.mirror.manifest) true = true ∧ u64At (s.params 0) 8 = own 0x50000) ∧
    (let s := holds (own 0x50000) (imageHead 512) (mirrored .unpaired (ask 0x0708 (toLe 8 (own 0x50000))))
     s.admits 0x0708 0 = true ∧ s.fillAdmitted = true ∧ s.recoveryActions < 4 ∧ s.accessOk (own 0x50000) 256 false = true ∧
      s.importOk (s.load (own 0x50000) 256) = true ∧ s.accessOk (own 0x50000) 512 false = true ∧
      u64At (s.load (own 0x50000) 256) 96 = 512) ∧
    (let s := holds (own 0x60000) logEntry (ask 0x0709 (toLe 8 1 ++ toLe 8 (own 0x60000) ++ toLe 4 1))
     s.admits 0x0709 0 = true ∧ s.ras.replayTo = none ∧ s.accessOk (own 0x60000) 128 false = true ∧
      s.logWhole (s.replayRing (own 0x60000) 1) 1 = true ∧ s.upd.t.toNat < 1) ∧
    ((runsOp .none).record 3).running = true ∧ ((runsOp .none).record 3).position ≤ 100 ∧ (ready.record 15).running = false ∧
    ((runsOp (.layout 64)).record 3).op = .layout 64 ∧ ((runsOp (.fwUpdate true [])).record 3).op = .fwUpdate true [] := by
  decide +kernel

/-- FW_UPDATE of bank B with an image of 16 KiB at 0x1000. -/
def askFw : State := ask 0x0901 (toLe 8 (own 0x1000) ++ toLe 4 16384 ++ [1])

theorem askFw_runs (m : List Host.Cell) (f : FrmState) (s : State) (hs : s = { askFw with mem := m, frm := f }) :
    s.admits 0x0901 0 = true ∧ s.boot.startedB ≠ true ∧ (∀ j, j < 4 → (s.scp j).bankB ≠ true) ∧ s.freeRecord = some 0 ∧
      s.paramOk (own 0x1000) 16384 false = true ∧ u64At (s.params 0) 0 = own 0x1000 ∧ u32At (s.params 0) 8 = 16384 ∧
      s.sec.ownerMacOk = true ∧ s.sec.ownerCounter = s.sec.ownerFuse ∧ s.sec.ownerKey = none ∧ s.sec.svnFloor ≤ 63 := by
  have e0 : s.mayStart 0 = askFw.mayStart 0 ∧ s.box 0 = askFw.box 0 ∧ s.boot.dev = askFw.boot.dev := by
    rw [hs]; exact ⟨rfl, rfl, rfl⟩
  have e1 : s.admits 0x0901 0 = true := by
    have h : (s.headerCheck 0).isNone = true := by
      unfold State.headerCheck
      simp only [e0.2.1]
      rw [if_neg (by decide +kernel), if_neg (by decide +kernel)]
      rfl
    have e6 : s.params 0 = askFw.params 0 := by unfold State.params; rw [show (0 : BitVec 6).toNat = 0 from rfl, e0.2.1]
    unfold State.admits
    rw [e6]
    show (s.mayStart 0 && u16At (s.box 0).captured 0 == 0x0901 && (s.headerCheck 0).isNone && _) = true
    rw [h, e0.1, e0.2.1, e0.2.2]
    decide +kernel
  have e2 : s.boot = askFw.boot ∧ s.sec = askFw.sec ∧ s.host = askFw.host := by rw [hs]; exact ⟨rfl, rfl, rfl⟩
  have e3 : ∀ j, s.scp j = askFw.scp j := fun j => by unfold State.scp; rw [e2.1]
  have e4 : s.freeRecord = askFw.freeRecord := by unfold State.freeRecord State.record; rw [e2.2.2]
  have e5 : s.paramOk (own 0x1000) 16384 false = askFw.paramOk (own 0x1000) 16384 false := by rw [hs]; rfl
  have e6 : s.params 0 = askFw.params 0 := by unfold State.params State.box; rw [e2.2.2]
  rw [e2.1, e2.2.1, e4, e5, e6]
  refine ⟨e1, by decide +kernel, fun j hj => ?_, by decide +kernel⟩
  rw [e3]
  revert j
  decide +kernel

theorem test_met_LongOperations_fwUpdate (s : State) (sig : List Byte) (v : VendorSig sig)
    (hs : s = holds (own 0x1000) (image sig) askFw) :
    s.admits 0x0901 0 = true ∧ s.boot.startedB ≠ true ∧ (∀ j, j < 4 → (s.scp j).bankB ≠ true) ∧ s.freeRecord = some 0 ∧
      s.paramOk (u64At (s.params 0) 0) (u32At (s.params 0) 8) false = true ∧
      s.imageVerdict (s.load (u64At (s.params 0) 0) (u32At (s.params 0) 8)) [1, 2, 3, 4] = none := by
  have e3 : s.load (own 0x1000) 16384 = image sig := by
    have := load_held 0x1000 16384 (image sig) askFw
      (Nat.le_of_eq (image_length v.size).symm) (by rw [image_length v.size]; decide)
    rw [← image_length v.size, List.take_length, image_length v.size] at this
    rw [hs, this]
  obtain ⟨h1, h2, h3, h4, h5, h6, h7, h8⟩ := askFw_runs s.mem s.frm s (by rw [hs]; rfl)
  rw [h6, h7, e3]
  exact ⟨h1, h2, h3, h4, h5, image_good s sig v _ (fun k h => h) h8⟩

/-! ### Hypotheses that are met: the host's link and the work of slots -/

/-- Waiting stores. -/
def trapped (l : List (Nat × Word)) (s : State) : State := { s with host := { s.host with traps := l } }

/-- A doorbell of a valid HOST queue. -/
def bell (flags : Nat) : State := holds (own 64) (queueBytes flags) ready

theorem test_met_DoorbellsAndTrappedStores :
    (bits (2 ^ 32 + 1) 20 31 = 0 ∧ queueValid ((bell 5).queueDesc 1) = true ∧ queueHost ((bell 5).queueDesc 1) = true ∧
      queueIrq ((bell 5).queueDesc 1) = false ∧ queueValid (ready.queueDesc 1) = false) ∧
    ((Reg.RAS_CFG % 4 = 0 ∧ regFields Reg.RAS_CFG ≠ []) ∧ ready.host.traps.length < 64 ∧
      64 ≤ (trapped (List.replicate 64 (Reg.RAS_CFG, 0)) ready).host.traps.length ∧ regFields 0x7FFFC = []) ∧
    (let s := trapped [(Reg.RAS_CFG, 1)] ready
     s.boot.welfy = true ∧ (s.scp 0).moving = false ∧ (State.regWrite ready Reg.RAS_CFG (writableMask Reg.RAS_CFG) 1).1 = .success) ∧
    ((State.regWrite ready 4140 (writableMask 4140) 0xFFFFFFFF).1 ≠ .success ∧
      (State.regWrite ready 4140 (writableMask 4140) 0xFFFFFFFF).2.regBit Reg.MBX_STATUS 0 = false) := by decide +kernel

/-- A device whose host link is up, with an interrupt vector 63 that pends or is spaced. -/
def hosted (pba spaced covered : BitVec 64) : State :=
  { ready with host := { ready.host with linkActive := true, ideIo := true, memoryActive := true, pba := pba, spaced := spaced,
                                         covered := covered } }

theorem test_met_HostEvents :
    ((0 : BitVec 128).getLsbD 96 = false ∧ (hosted (2 ^ 63) 0 0).host.pba.getLsbD 63 = true ∧
      (hosted (2 ^ 63) 0 0).host.spaced.getLsbD 63 = false ∧ ready.host.pba.getLsbD 0 = false) ∧
    ((hosted 0 (2 ^ 63) 0).host.spaced.getLsbD 63 = true ∧ (hosted 0 (2 ^ 63) 0).host.covered.getLsbD 63 = false) ∧
    (let s := hosted 0 (2 ^ 63) (2 ^ 63)
     let s : State := { s with host := { s.host with msix := [(63, ⟨0, 0, false⟩)] } }
     s.host.covered.getLsbD 63 = true ∧ (s.msixEntry 63).masked = false ∧ s.host.spaced.getLsbD 63 = true) ∧
    ({ ready with phys := { ready.phys with refPresent := true } } : State).phys.refPresent = true ∧
    ((2 : BitVec 4).toNat ∈ [8, 4, 2] ∧ (32 : BitVec 8).toNat ∈ [64, 32] ∧ ready.phys.refPresent ≠ true) ∧
    ((hosted 0 0 0).host.linkActive = true ∧ ((hosted 0 0 0).host.ideIo || (hosted 0 0 0).host.ideCm) = true ∧
      ready.host.linkActive = false ∧ (ready.host.ideIo || ready.host.ideCm) = false) ∧
    (let s := hosted 0 0 0
     let s1 : State := { s with host := { s.host with hdmDecoder := some 0 } }
     s.host.linkActive = true ∧ s.host.memoryActive = true ∧ 64 * 2 ^ 28 - 64 + 64 ≤ 0 + s.host.hdmUnits * 2 ^ 28 ∧
      s1.accessOk (0xFFFF * 2 ^ 48 + (s.host.hdmBase + (64 * 2 ^ 28 - 64 - 0))) 64 true = true) := by decide +kernel

/-- A tensor descriptor with dimensions. -/
def tensorOf (i fmt flags ea sa d0 d1 : Nat) : List Byte :=
  toLe 4 i ++ [BitVec.ofNat 8 fmt, BitVec.ofNat 8 flags, 0, 0] ++ toLe 8 ea ++ toLe 8 sa ++ List.replicate 24 0
    ++ toLe 4 d0 ++ toLe 4 d1 ++ List.replicate 8 0

/-- An array operation over 64 by 64 by 64, of operands at 0x1000 and 0x1040 and the epilogue at 0x1100. -/
def aopBytes (op flags stat : Nat) : List Byte :=
  [BitVec.ofNat 8 op, BitVec.ofNat 8 flags] ++ List.replicate 6 0 ++ toLe 8 (own stat) ++ toLe 8 (own 0x1040) ++ toLe 8 (own 0x1100)
    ++ [0, 64, 0, 64, 0, 64].flatMap (toLe 4) ++ List.replicate 8 0

/-- An epilogue that stores FP32 to a tensor. -/
def epiBytes (out : Nat) : List Byte := [7] ++ List.replicate 7 0 ++ toLe 8 (own out) ++ List.replicate 48 0

/-- E4M3 tensors on axis 0 at 0x1000, 0x1040 and on axis 1 at 0x1080, an FP32 one at 0x10C0, and an epilogue into it. -/
def products : List Byte :=
  tensor 1 3 0 (own 0x20000) (own 0x30000) ++ tensor 2 3 0 (own 0x40000) (own 0x50000)
    ++ tensor 3 3 1 (own 0x60000) (own 0x70000) ++ tensor 4 7 0 (own 0x80000) 0 ++ epiBytes 0x10C0

/-- Core 511 runs a slot over those, with an operation at 0x2000. -/
def coreOp (bs : List Byte) : State := holds (own 0x2000) bs (holds (own 0x1000) products (working ⟨1, 511⟩ 1 0 ready))

/-- A core's row of a running slot whose tables are read as they were at its start: `good` of the state so viewed. -/
def coreRow (s : State) (half : Option Bool) (good : State → State → Bool) : Bool :=
  match s.coreRun 511 half with
  | none => false
  | some r =>
    let s1 := s.claimHalf r.ref half
    match s1.run r.ref with
    | none => false
    | some r1 => r1.fetched.isEmpty && r1.seen == r.seen && good s1 (s1.slotView r1)

/-- Every check of an array operation passes. -/
def opRuns (s : State) (half : Option Bool) : Bool :=
  coreRow s half fun s1 v =>
    let a := v.aop (own 0x2000)
    let p := v.opProduct a
    let e := v.epi (u64At a.raw 24)
    s1.reaches [(own 0x2000, 64, false)] && a.forHalf half && (v.opCheck 511 a p e).isNone
      && v.reaches (p.access ++ v.epiAccess p e)

/-- The four operands of a backward pair, its two epilogues and their two outputs. -/
def pairTensors : List Byte :=
  tensorOf 1 3 1 (own 0x100000) (own 0x200000) 256 256 ++ tensorOf 2 3 0 (own 0x300000) (own 0x400000) 256 128
    ++ tensorOf 3 3 0 (own 0x500000) (own 0x600000) 128 256 ++ tensorOf 4 3 0 (own 0x700000) (own 0x800000) 128 256
    ++ epiBytes 0x3180 ++ epiBytes 0x31C0 ++ tensorOf 5 7 0 (own 0x900000) 0 128 256 ++ tensorOf 6 7 0 (own 0xA00000) 0 256 256

/-- The store of core 511. -/
def store511 : Nat := 0x008000000000 + 511 * 0x400000

/-- Core 511 runs a backward pair of 128 tokens by 256 by 256, with its scratch in its store. -/
def pairState : State :=
  holds (own 0x2000) ([0x11] ++ List.replicate 7 0 ++ [own 0x3000, own 0x3040, own 0x3080, own 0x30C0, own 0x3100, own 0x3140,
      own store511].flatMap (toLe 8) ++ [0, 128, 0, 0].flatMap (toLe 4) ++ List.replicate 48 0)
    (holds (own 0x3000) pairTensors (working ⟨1, 511⟩ 1 0 ready))

/-- A sum of two lists of 16,384 raw records. -/
def gsumBytes : List Byte :=
  [0x12, 2, 0x0F, 0] ++ toLe 4 0 ++ toLe 4 16384 ++ List.replicate 4 0 ++ toLe 8 (own 0x300000) ++ List.replicate 40 0
    ++ toLe 8 (own 0x100000) ++ toLe 8 (own 0x200000) ++ List.replicate 48 0

/-- A router of 4 experts and 2 choices over logits in the core's store. -/
def routerBytes : List Byte :=
  [0x20, 2, 0, 0] ++ toLe 2 4 ++ List.replicate 10 0 ++ toLe 8 (own 0x3000) ++ toLe 8 (own 0x100000) ++ List.replicate 32 0

theorem test_met_CoreOperations :
    opRuns (coreOp (aopBytes 1 0 0x1000)) none = true ∧ opRuns (coreOp (aopBytes 2 3 0x1080)) (some true) = true ∧
    coreRow (coreOp (aopBytes 1 0 0x1080)) none (fun s1 v =>
      let a := v.aop (own 0x2000)
      s1.reaches [(own 0x2000, 64, false)] && a.forHalf none
        && (v.opCheck 511 a (v.opProduct a) (v.epi (u64At a.raw 24))).any (fun x => x.status == .layoutMismatch)) = true ∧
    coreRow (working ⟨1, 511⟩ 1 0 ready) none (fun s1 v => !s1.accessOk (own 0x400000000000) 64 false
      && (v.aop (own 0x400000000000)).op == 0) = true ∧
    coreRow pairState none (fun s1 v =>
      let b := v.backPair (own 0x2000)
      let ex := v.epi (u64At b.raw 40)
      let ew := v.epi (u64At b.raw 48)
      s1.reaches [(own 0x2000, 128, false)] && (v.pairCheck 511 (own 0x2000) b ex ew).isNone
        && v.reaches (b.dx.access ++ b.dw.access ++ v.epiAccess b.dx ex ++ v.epiAccess b.dw ew ++ [(b.scratch, 2 ^ 20, true)])) = true ∧
    coreRow (coreOp gsumBytes) none (fun s1 v =>
      let g : GSum := ⟨own 0x2000, v.descLoad (own 0x2000) 128⟩
      s1.reaches [(own 0x2000, 128, false)] && v.gsumOk g
        && v.reaches (g.ins.map (fun x => (x, 16 * g.records, false)) ++ (v.gsumOut g).map (fun o => (o.1, o.2, true)))) = true ∧
    coreRow (holds (own 0x3000) (tensorOf 1 7 0 (own store511) 0 64 4) (coreOp routerBytes)) none (fun s1 v =>
      let d : RDesc := ⟨own 0x2000, v.descLoad (own 0x2000) 64⟩
      let L := v.tdesc d.logits
      s1.reaches [(own 0x2000, 64, false)] && v.routerOk 511 d
        && v.reaches (L.planes.map (fun x => (x.1, x.2, false)) ++ [(d.routeAddr, 64 * L.dim0, true)]
          ++ (if d.histAddr = 0 then [] else [(d.histAddr, 4 * d.experts, true)]))) = true ∧
    coreRow (coreOp (tensor 9 7 0 (own 0x90000) 0)) none (fun s1 v =>
      let S := v.tdesc (own 0x10C0)
      let D := v.tdesc (own 0x2000)
      s1.reaches [(own 0x10C0, 64, false), (own 0x2000, 64, false)] && v.tdescOk (own 0x10C0) && v.tdescOk (own 0x2000)
        && !S.fmt.blocked && S.fmt == D.fmt && S.dim0 == D.dim0 && S.dim1 == D.dim1 && decide (S.dim0 * S.dim1 ≤ 2 ^ 43)
        && v.reaches (S.planes.map (fun x => (x.1, x.2, false)) ++ D.planes.map (fun x => (x.1, x.2, true)))) = true := by
  decide +kernel

/-- A quantizer's row in a running slot of its unit: `good` of the state and the view of its job. -/
def jobRow (bs : List Byte) (good : State → QJob → Bool) : Bool :=
  let s := holds (own 0x2000) bs (withTensors (working ⟨3, 0⟩ 1 0 ready))
  match s.runOf (unitOf 0x3000) with
  | none => false
  | some r => (unitOf 0x3000).quantizes && s.run r.ref == some r && r.fetched.isEmpty
      && s.reaches [(own 0x2000, 64, false)] && good (s.slotView r) ((s.slotView r).qjob (own 0x2000))

/-- Every check of a quantize job of an operation passes. -/
def jobRuns (op : Nat) (bs : List Byte) : Bool :=
  jobRow bs fun v j => j.op == op && (v.jobCheck j false).isNone && v.reaches (v.jobAccess j)

theorem test_met_QuantizerJobs :
    jobRuns 1 (qjob 1 (own 0x1000) 0 (own 0x1040) 0) = true ∧ jobRuns 3 (qjob 3 (own 0x1040) 0 (own 0x1000) 0) = true ∧
    jobRuns 4 (qjob 4 (own 0x60000) (own 0x70000) (own 0x1080) 0) = true ∧
    jobRuns 5 (qjob 5 (own 0x1080) 0 (own 0x60000) (own 0x70000)) = true ∧
    jobRow (qjob 1 0 0 (own 0x1040) 0) (fun v j => j.op == 1 && (v.jobCheck j false).isSome) = true ∧
    jobRow (qjob 6 (own 0x1000) 0 (own 0x1040) 0) (fun v j => j.op == 6 && (v.jobCheck j false).isSome) = true ∧
    jobRow (qjob 0 (own 0x1000) 0 (own 0x1040) 0) (fun v j => j.op == 0 && (v.jobCheck j false).isSome) = true ∧
    (let s := holds (own 0x2000) (qjob 2 (own 0x3000) 0 (own 0x3040) (own 0x3080)) (holds (own 0x3000)
        (tensor 1 7 0 (own 0x10000) 0 ++ tensor 2 3 0 (own 0x20000) (own 0x30000) ++ tensor 3 3 1 (own 0x40000) (own 0x50000)) ready)
     s.jobCheck (s.qjob (own 0x2000)) false = none) := by decide +kernel

/-- A job of the engine of stack 7 with one word in its prologue. -/
def oneWord (w : Nat) : UpdJob :=
  { addr := 0, raw := [], entries := [], descs := [], lives := [], params := [], sched := 0, prologue := [w], body := [], slabs := [] }

/-- The engine of stack 7 runs that job. -/
def engine7 (j : UpdJob) (inBody : Bool) : State :=
  let s := working (updUnit 7) 4 0 ready
  s.putEngine 7 { UpdEngine.reset with job := some j, inBody := inBody }

theorem test_met_ScalarAndVectorInstructions (w : Nat) : (engine7 (oneWord w) false).executes 7 (oneWord w) w ∧
    (-128 ≤ (0xFFFFFF80 : BitVec 32).toInt ∧ (127 : BitVec 32).toInt ≤ 127) := by
  refine ⟨⟨rfl, rfl, rfl⟩, by decide⟩

/-- An update job of one stream from 0x3000 into the shadow 0x3040 of 0x3080, with program 4. -/
def updJob : List Byte :=
  [4, 1, 1, 0] ++ toLe 4 0 ++ toLe 4 1 ++ toLe 4 1 ++ toLe 8 (own 0x4000) ++ toLe 8 (own 0x5000) ++ toLe 8 (own 0x5100)
    ++ List.replicate 24 0

def updState (jobBytes : List Byte) : State :=
  let s := working (updUnit 0) 4 (own 0x2000) ready
  let s : State := { s with hbm := { s.hbm with split := 64 }, upd := { s.upd with programs := [(4, updBytes)] } }
  holds (own 0x2000) jobBytes (holds (own 0x3000) (tensor 1 7 0 (own 0x10000) 0 ++ tensor 2 7 0 (own 0x20000) 0
    ++ tensor 2 7 0 (own 0x30000) 0) (holds (own 0x4000) (toLe 8 (own 0x3000) ++ List.replicate 24 0 ++ toLe 8 (own 0x3040)
    ++ toLe 8 (own 0x3080) ++ List.replicate 16 0) s))

/-- The job above, as its engine holds it in the body, with the program's words. -/
def running : UpdJob := (updState updJob).readJob (own 0x2000)
def inBody (pc : Nat) (j : UpdJob) : State :=
  (updState updJob).putEngine 0 { UpdEngine.reset with job := some j, inBody := true, pc := pc }

theorem test_met_UpdateJobs :
    (let s := updState updJob
     let j := s.readJob (own 0x2000)
     (s.runOf (updUnit 0)).isSome = true ∧ s.slotAddr (.prog 0) = own 0x2000 ∧ (s.engine 0).job = none ∧
      s.jobFieldsOk j = true ∧ s.mayAccess (jobTables j) = true ∧ s.updJobOk 0 j = true ∧
      (updState (0 :: updJob)).jobFieldsOk ((updState (0 :: updJob)).readJob (own 0x2000)) = false) ∧
    (let s := inBody 0 running
     s.executes 0 running (updWord 0x20 0 0 0 0 0) ∧
      s.mayAccess (tileAccess (running.inDesc 0) running.cur.1 running.cur.2 false) = true) ∧
    (let s := inBody 1 running
     s.executes 0 running (updWord 0x21 0 0 0 0 0) ∧ (running.outDesc 0).fmt.blocked = false ∧
      s.mayAccess (tileAccess (running.outDesc 0) running.cur.1 running.cur.2 true) = true) ∧
    (let j : UpdJob := { running with descs := [[], tensor 2 3 0 0 0] }
     (inBody 1 j).executes 0 j (updWord 0x21 0 0 0 0 0) ∧ (j.outDesc 0).fmt.blocked = true) ∧
    (inBody 2 { running with slabs := [(0, 0, [0, 1])] }).executes 0 { running with slabs := [(0, 0, [0, 1])] } 0 ∧
    (inBody 2 { running with slabs := [] }).executes 0 { running with slabs := [] } 0 ∧
    ((updState updJob).putEngine 0 { UpdEngine.reset with job := some running }).executes 0 running 0 := by
  refine ⟨by decide +kernel, ⟨⟨rfl, ?_, ?_⟩, ?_⟩, ⟨⟨rfl, ?_, ?_⟩, ?_⟩, ⟨⟨rfl, ?_, ?_⟩, ?_⟩, ⟨rfl, ?_, ?_⟩, ⟨rfl, ?_, ?_⟩, ⟨rfl, ?_, ?_⟩⟩ <;>
    decide +kernel

/-! ### Hypotheses that are met: dispatch, memory, sensors, collectives and the fabric -/

/-- Core 0 runs a slot of the given work. -/
def core0 (bs : List Byte) : State := holds (own 0x2000) bs (working ⟨1, 0⟩ 1 (own 0x2000) ready)

/-- DSP_CFG's jobs at once set to `n`. -/
def jobsAt (n : Nat) (s : State) : State := s.putReg Reg.DSP_CFG (BitVec.ofNat 32 (16 * n))

/-- A dispatch job of a kind, with K and one expert. -/
def jobBytes (kind : Nat) : List Byte :=
  if kind = 0x22 then [0x22] ++ List.replicate 63 0
  else if kind = 0x21 then [0x21, 0, 1, 7] ++ List.replicate 48 0 ++ toLe 2 256 ++ List.replicate 10 0
  else [0x23, 0, 8, 0] ++ List.replicate 60 0

/-- A DMA descriptor of one row, the last of its chain. -/
def dmaBytes (op : Nat) : List Byte :=
  [BitVec.ofNat 8 op, 1, 0, 0] ++ toLe 4 1 ++ toLe 8 (own 0x5000) ++ toLe 8 (own 0x6000) ++ toLe 4 64 ++ List.replicate 36 0

/-- DMA engine 511 runs a chain at 0x2000. -/
def chain (bs : List Byte) : State := holds (own 0x2000) bs (working ⟨2, 511⟩ 2 (own 0x2000) ready)

theorem test_met_DispatchAndDmaJobs :
    (∀ k ∈ [0x21, 0x22, 0x23], let s := jobsAt 1 (core0 (jobBytes k))
      (s.coreRuns 0).head? = s.run (.prog 0) ∧ s.dsp.waiting = [] ∧ (s.loadByte (own 0x2000)).toNat = k ∧
        s.dsp.jobs.length < s.regField Reg.DSP_CFG 4 7 ∧ (s.run (.prog 0)).isSome = true ∧
        s.mayAccess [(own 0x2000, 64, false)] = true ∧ (Job.mk (own 0x2000) (s.load (own 0x2000) 64)).fieldsOk = true) ∧
    (jobsAt 0 (core0 (jobBytes 0x21))).regField Reg.DSP_CFG 4 7 ≤ (core0 (jobBytes 0x21)).dsp.jobs.length ∧
    (let s := core0 (jobBytes 0x21)
     let j : DspJob := { desc := own 0x2000, raw := [], ref := .prog 0, queues := [], headers := false }
     let s : State := { s with dsp := { s.dsp with jobs := [j] } }
     s.dsp.jobs.find? (fun x => x.desc == own 0x2000) = some j ∧ s.slotWaits j.ref = false ∧ s.dsp.waiting = []) ∧
    (let s := core0 (jobBytes 0x21)
     let x : Trans := { tag := 1, packet := packet tyWrite [], plane := 0, sentRc := 0, tries := 0, owner := .slot (.prog 0), dest := none }
     ({ s with lnk := { s.lnk with trans := [x] } } : State).slotWaits (.prog 0) = true) ∧
    (∀ k ∈ [1, 2, 3], let s := chain (dmaBytes k)
      let d : Dma := ⟨own 0x2000, s.load (own 0x2000) 64⟩
      (s.chainAt 511 (own 0x2000)).isSome = true ∧ s.chainAt 511 (own 0x2000) = s.run (.prog 0) ∧ s.mayAccess [(own 0x2000, 64, false)] = true ∧ d.ok = true ∧
        d.last = true ∧ d.op = k ∧ s.mayAccess d.access = true ∧ s.slotWaits (.prog 0) = false) := by decide +kernel

/-- Word 5 poisoned; its line buffered since tick 0; scrub on. -/
def hbm (f : HbmState → HbmState) : State := ({ ready with hbm := f ready.hbm } : State).putReg Reg.HBM_CFG 1

/-- A repair of a row of channel 255 that is next. -/
def rowFix : Repair := { lane := false, channel := 255, bank := 63, row := 16383, laneNo := 0, id := 1 }

theorem test_met_HbmRows :
    (ready.accessOk (ownAddr 0x7FFFFFFFFF) 1 false = true ∧ wordsOf 0x7FFFFFFFFF 1 = [0x1FFFFFFFF] ∧
      ready.stackStopped 0x1FFFFFFFF = false ∧ ready.lineOf 0x1FFFFFFFF = none ∧ 0x1FFFFFFFF ∉ ready.hbm.poison ∧
      ((ready.chan (ready.wordPlace 0x1FFFFFFFF).chan).marksOn (ready.wordPlace 0x1FFFFFFFF).bank).length ≤ 8) ∧
    (let s := hbm (fun h => { h with poison := [0] })
     wordsOf 63 1 = [0] ∧ s.stackStopped 0 = false ∧ s.lineOf 0 = none ∧ 0 ∈ s.hbm.poison) ∧
    (let s := hbm (fun h => { h with therms := (List.range 8).map (fun i => (i, { ready.stack i with state := .critical })) })
     s.stackStopped 0 = true ∧ s.accessOk (ownAddr 0) 1 true = true) ∧
    (let s := hbm (fun h => { h with wcb := [{ word := 5, mask := 1, tick := 0 }] })
     let t := framed (fun f => { f with tick := 2 }) s
     let ok := fun (l : List (BitVec 7)) => (t.chan (t.wordPlace 5).chan).corrects (t.wordPlace 5).bank (l.map (fun x => x.toNat))
     s.lineOf 5 = some { word := 5, mask := 1, tick := 0 } ∧ s.frm.tick.toNat < 0 + 2 ∧ 0 + 2 ≤ t.frm.tick.toNat ∧
      (1 : BitVec 64) ≠ BitVec.allOnes 64 ∧ t.stackStopped 5 = false ∧ 5 ∉ t.hbm.poison ∧ ok [71, 0] = true ∧
      ok [0, 1, 2, 3, 4] = false) ∧
    (let s := framed (fun f => { f with tick := 2 }) (hbm (fun h => { h with wcb := [{ word := 5, mask := BitVec.allOnes 64, tick := 0 }] }))
     s.lineOf 5 = some { word := 5, mask := BitVec.allOnes 64, tick := 0 } ∧ 0 + 2 ≤ s.frm.tick.toNat) ∧
    (let s := hbm (fun h => { h with split := 64 })
     s.accessOk (ownAddr 0x7FFFFFFFFF) 2 false = false ∧ s.accessOk (ownAddr 0x7FFFFFFFFF) 2 true = false) ∧
    (let s := hbm id
     let ok := fun (l : List (BitVec 7)) => (s.chan (s.wordPlace 5).chan).corrects (s.wordPlace 5).bank (l.map (fun x => x.toNat))
     s.regBit Reg.HBM_CFG 0 = true ∧ s.phys.idling = false ∧ s.stackStopped 5 = false ∧ ok [71, 0] = true ∧ ok [0, 1, 2, 3, 4] = false ∧ ok [0, 1, 2, 3] = true) ∧
    (hbm id |>.putReg Reg.HBM_CFG 0).regBit Reg.HBM_CFG 0 = false ∧
    (let s := framed (fun f => { f with lenExp := 16, guard := 64 }) (hbm (fun h => { h with current := some rowFix }))
     s.nextStep = some rowFix ∧ s.mayRepair = true ∧ (s.repaired rowFix).isSome = true ∧
      (framed (fun f => { f with phase := 1 }) s).mayRepair = false) := by decide +kernel

/-- A stack or die in a state. -/
def stackIn (st : Therm) (below : Nat) (held : Bool) : State :=
  { ready with hbm := { ready.hbm with therms := [(7, { ready.stack 7 with state := st, below := below, held := held })] } }
def dieIn (st : Therm) (below : Nat) : State := { ready with phys := { ready.phys with die := st, dieBelow := below } }

theorem test_met_SensorsAndSupply :
    ((stackIn .warning 65 false).stack 7).state = .warning ∧ 65 ≤ ((stackIn .throttle 65 false).stack 7).below ∧
    ((stackIn .warning 64 false).stack 7).below < 65 ∧ ((stackIn .throttle 65 true).stack 7).held = true ∧
    ready.entryState 84 = .normal ∧ ready.phys.die = .normal ∧ (∀ e ∈ ready.phys.missed, e.2 = 0) ∧
    ((dieIn .throttle 65).phys.die = .throttle ∧ 65 ≤ (dieIn .warning 65).phys.dieBelow ∧ (dieIn .warning 64).phys.dieBelow < 65) ∧
    (tget 0 ready.phys.missed 63 ≠ 1 ∧ tget 0 ({ ready.phys with missed := [(63, 1)] } : PhysState).missed 63 = 1 ∧
      (dieIn .critical 0).phys.die = .critical) ∧
    (10000 ≤ ({ ready.phys with overFor := 10000 } : PhysState).overFor ∧ ready.phys.overFor < 10000) ∧
    ((3999 : BitVec 16).toNat < 4000 ∧ (4000 : Nat) ≤ ({ ready.phys with in1 := (4000, 0) } : PhysState).in1.1) ∧
    (35 : Fin 36).val ≠ 0 := by decide +kernel

/-- A collective of this station alone. -/
def colBytes (op flags wire red contribs src dst shard plan : Nat) : List Byte :=
  [BitVec.ofNat 8 op, BitVec.ofNat 8 flags, BitVec.ofNat 8 wire, BitVec.ofNat 8 red] ++ toLe 4 1 ++ [0, 0, BitVec.ofNat 8 contribs]
    ++ List.replicate 5 0 ++ [own 0x4000, src, dst, shard].flatMap (toLe 8) ++ List.replicate 20 0 ++ toLe 4 plan
    ++ List.replicate 56 0

/-- The collective engine's slot of a kind names it; the tables stand at 0x4000 to 0x4050, two FP32 tensors at 0x3000. -/
def colState (kind : Nat) (bs : List Byte) : State :=
  let s := linked (working colUnit kind (own 0x2000) ready)
  let s := framed (fun f => { f with curPlan := some { planId := 3, entries := [] } }) s
  holds (own 0x2000) bs (holds (own 0x3000) (tensor 1 7 0 (own 0x10000) 0 ++ tensor 2 7 0 (own 0x20000) 0)
    (holds (own 0x4000) (toLe 16 5 ++ toLe 8 (own 0x3000) ++ toLe 8 (own 0x3040) ++ toLe 8 0 ++ toLe 8 64) s))

/-- A collective's checks in R385's order. -/
def colGood (s : State) : Bool :=
  let k := s.coll (own 0x2000)
  let me := (s.collStations k).findIdx (fun x => s.lnk.station == some x)
  (s.runAt colUnit (own 0x2000)).isSome && decide (s.col.phase = .idle) && s.accessOk (own 0x2000) 128 false && k.formed
    && s.colKind (.prog 0) k && (s.firstBad k.tables).isNone && decide ((s.collStations k).eraseDups.length = (s.collStations k).length)
    && decide (me < (s.collStations k).length) && s.collOk k me && (s.firstBad (s.collAccess k me)).isNone

/-- A scale state block of one entry for identifier 5, and a device that has it loaded. -/
def tracked (closed : Bool) : State :=
  let s := holds (own 0x1000) (List.replicate 6 0 ++ toLe 2 1) (holds (own 0x1C40) ssbEntry ready)
  { s with lup := { s.lup with addr := own 0x1000, phase := .hold, closed := closed } }

/-- A report under an identifier. -/
def report (id : BitVec 32) (rerun : Bool) : ReportArg :=
  { id := id, drain := false, te := 0, values := [], tile := 0, counts := [0, 0, 0, 0, 0, 0, 0], rerun := rerun }

/-- A stash group that is being off-loaded. -/
def loading : State :=
  { ready with sts := { ready.sts with groups := [{ StashGroup.ofBytes groupBytes with phase := .offloading }] } }

theorem test_met_CollectivesAndReports :
    colGood (colState 3 (colBytes 1 0 7 1 1 (own 0x4010) (own 0x3040) (own 0x4020) 0)) = true ∧
    colGood (colState 3 (colBytes 2 0 7 0 1 (own 0x4010) (own 0x3040) (own 0x4020) 0)) = true ∧
    colGood (colState 3 (colBytes 3 0 7 0 2 (own 0x4010) (own 0x4020) (own 0x4020) 0)) = true ∧
    colGood (colState 5 (colBytes 3 2 0 0 1 (own 0x4030) 0 0 3)) = true ∧
    colGood (colState 3 (colBytes 4 0 7 0 1 0 0 0 0)) = true ∧
    ((colState 3 (colBytes 4 0 7 0 0 0 0 0 0)).coll (own 0x2000)).formed = false ∧
    (let s := colState 3 (colBytes 1 0 7 1 1 0 0 0 0)
     let s : State := { s with col := { s.col with phase := .running, ranks := [5, 7], desc := colBytes 1 0 7 1 1 0 0 0 0,
                                                   toSend := [(0, packet tyColData [])], idle := [(1, 2)] } }
     let s : State := { s with col := { s.col with toSend := [(0, { packet tyColData [] with dst := 7 })] } }
     s.waitsOn 1 = true ∧ (s.putReg Reg.COL_CFG 2).regField Reg.COL_CFG 0 3 ≤ tget 0 s.col.idle 1 ∧
      tget 0 s.col.idle 1 < (s.putReg Reg.COL_CFG 3).regField Reg.COL_CFG 0 3) ∧
    ((report 5 true).rerun = true ∧ (List.range (tracked false).ssbEntries).find? (fun i =>
        reportMatches (reportOf (report 5 false)) ((tracked false).entry i)) = some 0 ∧
      (List.range (tracked false).ssbEntries).find? (fun i =>
        reportMatches (reportOf (report 6 false)) ((tracked false).entry i)) = none ∧ (tracked true).lup.closed = true) ∧
    (∃ g, loading.sts.groups[(0 : BitVec 16).toNat]? = some g ∧ g.phase = .offloading ∧ g.done = false ∧ loading.sts.lossSeen = false ∧
      loading.lnk.trans ++ loading.lnk.backlog = []) := by
  refine ⟨by decide +kernel, by decide +kernel, by decide +kernel, by decide +kernel, by decide +kernel, by decide +kernel,
    by decide +kernel, by decide +kernel, ⟨_, rfl, ?_⟩⟩
  decide +kernel

/-- A device on the fabric with its first port up, and an outstanding request of that port's plane with tag 1. -/
def asks (ty : Nat) (ref : TransFor) : State :=
  let x : Trans := { tag := 1, packet := { packet ty [] with dst := 7 }, plane := 0, sentRc := 0, tries := 0, owner := ref, dest := none }
  let s := linked ready
  { s with lnk := { s.lnk with trans := [x] } }

/-- A packet with its check as it should be after a change. -/
def made (p : Packet) : Packet := { p with ecrc := packetCrc p }

/-- A packet that a port that is UP takes in its turn. -/
def inTurn (s : State) (p : Packet) : Bool :=
  let q := s.port 0
  decide (q.phase = .up) && p.lcrcOk && p.ecrc == packetCrc p && decide (p.seq.toNat = q.rxNext) && packetFormed p
    && s.lnk.station.isSome && !packetEnc p && !s.encRequired p.src.toNat 0 && decide (s.frm.rolledBack ≠ some p.epoch)

/-- What the port has acknowledged. -/
def acked (s : State) (p : Packet) : State :=
  (s.putPort 0 { s.port 0 with rxNext := ((s.port 0).rxNext + 1) % 4096 }).linkReply 0 p.seq.toNat false

theorem test_met_PacketsAreServed :
    (let s := linked ready
     let p := made { packet tyWrite [1] with addr := 0x7FFFFFFFFF }
     inTurn s p = true ∧ p.epoch = s.frm.epoch ∧ (acked s p).requestCheck p 1 true true = none) ∧
    (let s := linked ready
     let p := made { packet tyReadReq [] with aux := 512 }
     inTurn s p = true ∧ (acked s p).requestCheck p 512 false true = none) ∧
    (let s := linked ready
     let p := made { packet tySignal [] with addr := 0xFFFFFFF }
     inTurn s p = true ∧ (acked s p).requestCheck p 0 false false = none) ∧
    (let s := linked ready
     let s : State := { s with lnk := { s.lnk with peers := 0 } }
     inTurn s (packet tyWrite []) = true ∧ s.lnk.peers.getLsbD 7 = false) ∧
    inTurn (linked ready) (packet tyColData []) = true ∧ inTurn (linked ready) (packet tyColCredit []) = true ∧
    (∀ x ∈ [(tyWriteAck, tySignal), (tyWriteAck, tyWrite), (tyReadResp, tyReadReq)],
      let s := asks x.2 (.slot (.prog 0))
      let p := made { packet x.1 [] with tag := 1 }
      inTurn s p = true ∧ (s.transOf p.tag.toNat).isSome = true ∧ (s.transOf p.tag.toNat).all (fun t => t.packet.dst == p.src) = true ∧
        packetPoison p = false ∧ (s.transOf p.tag.toNat).all (fun t => t.dest.isNone) = true) ∧
    (let s := asks tyReadReq (.slot (.prog 0))
     let s : State := { s with lnk := { s.lnk with trans := s.lnk.trans.map (fun x => { x with dest := some (own 0) }) } }
     let p := made { packet tyReadResp [1] with tag := 1, flags := 2 }
     inTurn s p = true ∧ (s.transOf p.tag.toNat).all (fun t => t.dest == some (own 0)) = true ∧ packetPoison p = true ∧
      packetPoison (made { packet tyReadResp [1] with tag := 1 }) = false) ∧
    (let p := made { packet 0xFE [] with seq := 0 }
     p.lcrcOk = true ∧ p.ecrc = packetCrc p ∧ p.seq.toNat = ((linked ready).port 0).rxNext ∧ typeDefined p.type.toNat = false) ∧
    (let s := asks tyWrite (.slot (.prog 0))
     let p := made { packet tyComplErr (toLe 2 Status.accessDenied.code) with tag := 1 }
     inTurn s p = true ∧ u16At p.payload 0 = Status.accessDenied.code) ∧
    ({ packet tyWrite [] with lcrcOk := false } : Packet).lcrcOk ≠ true ∧
    (let p := made { packet tyWrite [] with epoch := 1 }
     inTurn (linked ready) p = true ∧ newerEpoch p.epoch ready.frm.epoch = true) ∧
    (let s := framed (fun f => { f with epoch := 2 }) (linked ready)
     let p := made { packet tyWrite [] with epoch := 1 }
     inTurn s p = true ∧ newerEpoch p.epoch s.frm.epoch = false ∧ s.frm.prevEpoch ≠ some p.epoch) := by decide +kernel

/-- Port 23 in a phase, with training failures so far. -/
def port23 (ph : PortPhase) (fails : Nat) : State := ready.putPort 23 { ready.port 23 with phase := ph, trainFails := fails }

/-- Port 0 is up on a device that has neither station number nor manager. -/
def unassigned : State := ready.putPort 0 { ready.port 0 with phase := .up }

theorem test_met_LinkAndPortRows :
    (let p := made { packet tyLinkCtl [] with addr := 3 }
     let s := ready.putPort 23 { ready.port 23 with phase := .up, retry := [(3, packet tyWrite [], packet tyWrite [])] }
     (s.port 23).phase = .up ∧ packetFormed p = true ∧ p.aux.getLsbD 0 = false ∧ p.ecrc = packetCrc p ∧ (s.port 23).waiting = [] ∧
      3 = p.addr.toNat % 4096 ∧ s.rc < (s.port 23).ackRc + 200 ∧ (s.port 23).ackRc + 200 ≤ ({ s with rc := 200 } : State).rc ∧
      (s.port 23).failed.length < 3) ∧
    (∀ i, laneBad (([850] : List (BitVec 32)).getD i 0).toNat = false) ∧ laneBad 851 = true ∧
    (let s := (port23 .up 0).putReg Reg.LNK_CFG 4
     s.portLive 23 = true ∧ (s.port 23).spareLaser = false ∧ s.regBit Reg.LNK_CFG 2 = true) ∧
    (unassigned.mgmtTakes 0 0x0001 (carrying (mgmt 0x0001 []) []) ∧ unassigned.mgmtTakes 0 0x0003 (assignPacket (mgmt 0x0003 [5, 0, 9, 0]) 5 9) ∧
      unassigned.lnk.manager = none ∧ unassigned.lnk.station = none) ∧
    ((linked ready).mgmtTakes 0 0x0003 (assignPacket (mgmt 0x0003 [5, 0, 9, 0]) 5 9) ∧ (linked ready).lnk.station = some 5 ∧
      (linked ready).frm.epoch = 0 ∧ (6 : BitVec 16).toNat ≠ 5 ∧
      (linked ready).lnk.assignEpoch = (linked ready).frm.epoch) ∧
    (let s : State := { ready with lnk := { ready.lnk with manager := some 9 } }
     s.lnk.manager ≠ none ∧ s.lnk.manager ≠ some 8) ∧
    (let p := packet tyUnreach (List.replicate 32 0)
     inTurn (linked ready) p = true) ∧
    (let q := { ready.port 23 with phase := .swapping, replacing := [15], changing := true }
     ((ready.putPort 23 q).port 23).phase = .swapping ∧ q.changing = true ∧ 15 ∈ q.replacing ∧ (q.takeSpare 15).isSome = true ∧
      14 ∉ q.replacing ∧ ({ q with spare16 := 0, spare17 := 1 } : Port).takeSpare 15 = none) ∧
    (((port23 .training 1).port 23).phase = .training ∧ ((port23 .training 1).port 23).trainFails < 2 ∧
      2 ≤ ((port23 .training 2).port 23).trainFails) ∧
    (let s := (asks tyWrite .log).putReg Reg.LNK_CFG 0x310
     (s.transOf 1).isSome = true ∧ ¬ (0 + 100 * s.regField Reg.LNK_CFG 8 15 ≤ s.rc) ∧
      0 + 100 * s.regField Reg.LNK_CFG 8 15 ≤ ({ s with rc := 300 } : State).rc ∧ 0 < s.regField Reg.LNK_CFG 4 7 ∧
      (s.putReg Reg.LNK_CFG 0x300).regField Reg.LNK_CFG 4 7 ≤ 0) := by
  refine ⟨by decide +kernel, ?_, by decide +kernel, by decide +kernel, ?_, ?_, by decide +kernel, by decide +kernel, by decide +kernel,
    by decide +kernel, by decide +kernel⟩
  · intro i
    cases i with
    | zero => decide +kernel
    | succ i => show laneBad (0 : Nat) = false; decide +kernel
  · unfold State.mgmtTakes
    decide +kernel
  · unfold State.mgmtTakes
    decide +kernel

/-! ### Hypotheses that are met: the start, the clocks, the RAS engine and the security processor -/

/-- A start at a stage, with the reference present. -/
def starting (n : Nat) : State :=
  let s := State.reset
  { s with boot := { s.boot with dev := .booting, stage := n, result := .inProgress }, phys := { s.phys with refPresent := true, rails := true } }

/-- A device in reset with both inputs at 48 V. -/
def mayEnd : State :=
  let s := State.reset
  { s with phys := { s.phys with refPresent := true, rails := true, in0 := (4800, 0), in1 := (4800, 0) } }

theorem test_met_StartGoesStageByStage :
    (mayEnd.boot.dev = .reset ∧ mayEnd.boot.stage = 0 ∧ mayEnd.resetMayEnd = true ∧ State.reset.resetMayEnd = false) ∧
    (ready.boot.result ≠ .inProgress ∧ (starting 1).boot.result = .inProgress ∧ (starting 1).boot.recovery = false ∧
      (starting 1).phys.refPresent = true ∧ (starting 1).boot.flashRcvLow = false) ∧
    (let s := starting 1
     ({ s with boot := { s.boot with flashRcvLow := true } } : State).boot.flashRcvLow = true) ∧
    (allGood.fuseApertureOk = true ∧ allGood.fuseMapOk = true ∧ ({ allGood with fuseMapOk := false } : StageOut).fuseMapOk = false) ∧
    (starting 5).boot.planSafe = false ∧ (starting 6).boot.stage = 6 ∧
    (allGood.firstFailed = false ∧ allGood.testBad = [] ∧ allGood.updBad = 0 ∧ allGood.unitsBad = 0 ∧
      512 ≤ (coredTo 544 (starting 8)).boot.logical.length) ∧
    ((starting 9).boot.stage = 9 ∧ (starting 9).boot.dev = .booting) := by decide +kernel

/-- The image of the bank that a start takes verifies at stages 2 and 3. -/
theorem test_met_StartGoesStageByStage_image (s : State) (sig : List Byte) (v : VendorSig sig)
    (hs : s = { starting 2 with boot := { (starting 2).boot with bankA := image sig } }) :
    s.boot.stage = 2 ∧ s.imageVerdict (s.bankImage s.boot.startedB) [1] = none ∧
    ∀ k ∈ [2, 3, 4], componentOk (s.bankImage s.boot.startedB) k = true := by
  have e : s.bankImage s.boot.startedB = image sig := by rw [hs]; rfl
  rw [e]
  refine ⟨by rw [hs]; rfl, image_good s sig v _ (by simp) ?_, fun k h => image_components sig k (by
    revert k; decide)⟩
  have c : s.sec = State.reset.sec := by rw [hs]; rfl
  rw [c]
  decide +kernel

/-- The same image is taken in recovery. -/
theorem test_met_RestartsAndSupply_image (s : State) (sig : List Byte) (v : VendorSig sig)
    (hs : s = { starting 1 with boot := { (starting 1).boot with recovery := true } }) :
    s.boot.recovery = true ∧ s.imageVerdict (image sig) [1, 2, 3, 4] = none ∧ s.imageVerdict [] [1, 2, 3, 4] = some .imageInvalid :=
  ⟨by rw [hs], image_good s sig v _ (fun k h => h) (by rw [hs]; decide +kernel), rfl⟩

theorem test_met_RestartsAndSupply :
    ((starting 1).boot.result = .inProgress ∧ 1 ≤ (starting 8).boot.stage ∧ (starting 8).boot.recovery = false ∧
      ready.boot.result ≠ .inProgress ∧ (starting 1).boot.dev = .booting) ∧
    ((3999 : BitVec 16).toNat < 4000 ∧ State.reset.phys.in0.1 < 4000 ∧ State.reset.phys.in1.1 < 4000 ∧
      (4000 ≤ mayEnd.phys.in0.1)) ∧
    (mayEnd.phys.refPresent = true ∧ State.reset.phys.refPresent = false ∧ 1 ≤ ready.boot.stage) ∧
    ((6001 : BitVec 16).toNat > 6000 ∧ (6000 : BitVec 16).toNat ≤ 6000) := by decide +kernel

theorem test_met_ClocksAndManagement :
    (let s := ready.putDomain 36 { ready.domain 36 with phase := .locking, switching := none, passes := 1 }
     let x := expectedCount s.lockMultiple 36
     (s.domain 36).phase = .locking ∧ (s.domain 36).switching = none ∧ windowPasses x x = true ∧ windowPasses x 0 = false ∧
      1 ≤ (s.domain 36).passes) ∧
    (let s := ready.putDomain 11 { ready.domain 11 with phase := .onPll }
     (s.domain 11).phase = .onPll ∧ windowPasses (expectedCount s.lockMultiple 11) 0 = false ∧ s.ras.active = none) ∧
    (mayEnd.phys.refPresent = true ∧ State.reset.phys.refPresent = false) ∧
    (let s := ready.putDomain 36 { ready.domain 36 with phase := .onPll, switching := some 5 }
     (s.domain 36).switching = some 5 ∧ s.rc < 5 + 1024 ∧ 5 + 1024 ≤ ({ s with rc := 1029 } : State).rc ∧ s.ras.active = none) ∧
    (let s := ready.putDomain 2 { ready.domain 2 with phase := .locking, switching := some 5 }
     (s.domain 2).phase = .locking ∧ s.phys.apSelect = none) ∧
    (ready.domain 0).switching = none := by decide +kernel

/-- A record of a severity. -/
def rasOf (sev cls seq : Nat) : RasRecord :=
  { severity := sev, cls := cls, unit := ⟨9, 0⟩, seq := seq, preempted := false, half := false, lastLoss := false, tick := 0,
    detail := 0, step := 0 }

/-- A device that handles a record, with a queue. -/
def handling (a : RasRecord) (q : List RasRecord) : State :=
  { ready with ras := { ready.ras with active := some a, queue := q, seq := 100, fatalPending := decide (a.severity = 4) } }

theorem test_met_RasEngineAndRecovery :
    (RasClass.ofCode 0xFF = none ∧ (RasClass.ofCode RasClass.railFault.code).isSome = true ∧ ready.ras.active = none) ∧
    ((handling (rasOf 3 1 0) []).ras.active = some (rasOf 3 1 0) ∧ (rasOf 4 1 0).severity = 4 ∧
      (handling (rasOf 4 1 0) []).ras.fatalPending = true ∧ ready.ras.fatalPending = false) ∧
    (let s := cored ready
     let s : State := { s with boot := { s.boot with pendingMapIn := [(511, 543, true)] } }
     s.boot.pendingMapIn.find? (fun e => e.1 == 511 && e.2.2) = some (511, 543, true) ∧
      s.boot.pendingMapIn.find? (fun e => e.1 == 0 && e.2.2) = none) ∧
    (let s := mirrored .paired ready
     let s : State := { s with ras := { s.ras with mirror := { s.ras.mirror with copying := some 1 }, hostLagFrom := some 0 },
                               host := { s.host with linkActive := true, hostLimit := 2 ^ 46 } }
     s.ras.mirror.copying = some 1 ∧ s.mirrorBusy = false ∧ s.ras.hostLagFrom = some 0) ∧
    (let man := manBytes.take 32 ++ toLe 8 (own 0x400000000000) ++ manBytes.drop 40
     let s : State := { ready with ras := { ready.ras with mirror := { ready.ras.mirror with manifest := own 0x1000 } },
                                   host := { ready.host with linkActive := true, hostLimit := 2 ^ 46 } }
     (holds (own 0x1000) man s).hostLogOk 0 = true) ∧
    (let s : State := { ready with boot := { ready.boot with scps := [(3, { ready.scp 3 with away := true, swapTo := some true })] } }
     (s.scp 3).away = true ∧ (s.scp 3).swapTo.isSome = true) := by decide +kernel

theorem test_met_RasArrivalsInOrder :
    (let s := handling (rasOf 1 1 0) ((List.range 15).map (fun i => rasOf 1 1 (i + 1)))
     s.ras.queue.length = 15 ∧ RasClass.ofCode RasClass.railFault.code = some RasClass.railFault ∧
      (1 : Nat) < RasClass.railFault.severity) ∧
    (handling (rasOf 1 1 0) []).ras.queue = [] ∧
    (let s := handling (rasOf 4 1 0) []
     s.ras.active = some (rasOf 4 1 0)) := by decide +kernel

theorem test_met_RasArrivalsInOrder_queue : (handling (rasOf 1 1 0) ((List.range 15).map (fun i => rasOf 1 1 (i + 1)))).ras.ok := by
  unfold RasState.ok rasBounds rasSorted
  decide +kernel

/-- A connection at version 1.3 with its capabilities and algorithms, and sessions. -/
def talks (l : List SpdmSession) : State :=
  let x : SpdmState :=
    { ready.sec.spdm with
      version := some 0x13, caps := true, algos := true, sessions := l, limit := 42, vca := [1],
      chunk := some (0xFF, 1, 3, [1, 2]), large := some (0xFF, [1]) }
  { ready with sec := { ready.sec with spdm := x } }

/-- Session 1, finished or not. -/
def session (fin : Bool) : SpdmSession := { id := 1, finished := fin, log := [], finishKey := List.replicate 32 7 }

/-- A request in session 1. -/
def inSession (p1 : BitVec 8) (body : List Byte) : SpdmReq :=
  { session := some 1, version := 0x13, param1 := p1, param2 := 0xFF, body := body }

theorem test_met_SpdmProtocol :
    ((talks []).sec.spdm.version = some 0x13 ∧ (talks []).sec.spdm.caps = true ∧ (talks []).sec.spdm.algos = true ∧
      (talks []).sec.spdm.vca ≠ [] ∧ 42 ≤ (talks []).sec.spdm.limit ∧
      42 ≤ u32At (inSession 0 (List.replicate 8 0 ++ toLe 4 42)).body 8 ∧
      (talks []).sec.spdm.sessions.length < 4 ∧ 4 ≤ (talks (List.replicate 4 (session true))).sec.spdm.sessions.length) ∧
    (ready.sec.spdm.caps = false ∧ ready.sec.spdm.algos = false ∧
      (let s : State := { ready with sec := { ready.sec with spdm := { ready.sec.spdm with version := some 0x13, limit := 42 } } }
       s.sec.spdm.version = some 0x13 ∧ s.sec.spdm.caps = false ∧ s.sec.spdm.algos = false)) ∧
    ({ inSession 0 [] with param2 := 0 }.param2.toNat ∈ [0, 1, 0xFF] ∧ (inSession 1 (List.replicate 33 0)).param1.getLsbD 0 = true ∧
      0 + 8 ≤ Nat.min (talks []).sec.spdm.limit 4096) ∧
    (bytesPoint (slice (List.replicate 36 0 ++ pointBytes (some curveBase)) 36 96)).isSome = true ∧
    (let q := inSession 0 (hmacSha256 (List.replicate 32 7) (sha256 [0x13, 0xE5, 0, 0xFF]))
     (talks [session false]).spdmSession q = some (session false) ∧
      hmacSha256 (session false).finishKey (sha256 ((session false).log ++ [q.version, 0xE5, q.param1, q.param2])) = slice q.body 0 32 ∧
      hmacSha256 (session false).finishKey (sha256 ((session false).log ++ [q.version, 0xE5, q.param1, q.param2]))
        ≠ slice (inSession 0 []).body 0 32) ∧
    ((talks [session true]).spdmSession (inSession 3 []) = some (session true) ∧ 1 ≤ (inSession 1 []).param1.toNat ∧
      (inSession 3 []).param1.toNat ≤ 3) ∧
    ((ideKm ([3, 0, 2, 1, 0, 15, 0, 0, 0] ++ List.replicate 6 0)).bind (fun k => (talks []).host.ideServe k)).isSome = true ∧
    ((talks []).takeChunk (inSession 1 ([1, 0, 0, 0] ++ toLe 4 1 ++ [3])) = some (0xFF, 2, 3, [1, 2, 3]) ∧
      (talks []).takeChunk (inSession 0 ([0, 0, 0, 0] ++ toLe 4 1 ++ toLe 4 65536 ++ [3])) = some (0xFF, 1, 65536, [3]) ∧
      (talks []).takeChunk (inSession 0 [2]) = none) ∧
    ((talks []).sec.spdm.large = some (0xFF, [1]) ∧ ready.sec.spdm.large = none) := by
  refine ⟨?_, ?_, ?_, ?_, ?_, ?_, ?_, ?_, ?_⟩ <;> decide +kernel

end Sys2Proof.Tests
end

section
/-! ## Frame tick: the statements of chapter 2 -/

namespace Sys2Proof.Machine

/-! ### What the link changes when it takes a packet

Taking a packet moves a port's receiver on and sends an acknowledgement. The register window, and with it device memory, shows
neither, so the checks of R65 come out as they did before. -/

/-- The state with other ports and another log of what was sent. -/
def State.withPorts (s : State) (ports : Tab Port) (out : OutState) : State :=
  { s with lnk := { s.lnk with ports := ports }, out := out }

/-- Ports that differ from a state's in their receivers' next sequence numbers alone. -/
def State.receiversOnly (s : State) (ports : Tab Port) : Prop :=
  ∀ n, ∃ k, tget Port.reset ports n = { s.port n with rxNext := k }

theorem State.linkTaken_eq (s : State) (n : Nat) :
    s.linkTaken n = s.withPorts (s.linkTaken n).lnk.ports (s.linkTaken n).out := rfl

theorem State.linkTaken_receiversOnly (s : State) (n : Nat) : s.receiversOnly (s.linkTaken n).lnk.ports := by
  intro i
  by_cases h : i = n
  · subst h
    exact ⟨((s.port i).rxNext + 1) % 4096, s.putPort_port_same i _⟩
  · exact ⟨(s.port i).rxNext, s.putPort_port_other n _ i h⟩

section

variable {s : State} {ports : Tab Port} (h : s.receiversOnly ports) (out : OutState)
include h

theorem State.withPorts_stateWord (n : Nat) : ((s.withPorts ports out).port n).stateWord = (s.port n).stateWord := by
  obtain ⟨k, hk⟩ := h n
  exact (congrArg Port.stateWord hk :)

theorem State.withPorts_laneMap (n : Nat) : ((s.withPorts ports out).port n).laneMap = (s.port n).laneMap := by
  obtain ⟨k, hk⟩ := h n
  exact (congrArg Port.laneMap hk :)

theorem State.withPorts_portLive : (s.withPorts ports out).portLive = s.portLive := by
  funext n
  obtain ⟨k, hk⟩ := h n
  have hp : ((s.withPorts ports out).port n).phase = (s.port n).phase := (congrArg Port.phase hk :)
  rw [State.portLive, State.portLive, hp]

/-- The views of the units' registers read of a port its state and its lanes. -/
theorem viewsUnits_withPorts : ∀ e ∈ viewsUnits, e.2 (s.withPorts ports out) = e.2 s := by
  have hl : (s.withPorts ports out).portsLive = s.portsLive := by
    simp only [State.portsLive, State.livePorts, State.withPorts_portLive h out]
  have hw : ((s.withPorts ports out).port ((s.withPorts ports out).regField Reg.LNK_PORT_SEL 0 4)).stateWord =
      (s.port (s.regField Reg.LNK_PORT_SEL 0 4)).stateWord := State.withPorts_stateWord h out _
  have hm : ((s.withPorts ports out).port ((s.withPorts ports out).regField Reg.LNK_PORT_SEL 0 4)).laneMap =
      (s.port (s.regField Reg.LNK_PORT_SEL 0 4)).laneMap := State.withPorts_laneMap h out _
  simp only [viewsUnits, List.forall_mem_cons, hl, hw, hm, List.not_mem_nil, false_imp_iff, implies_true, and_true, true_and]
  and_intros <;> rfl

theorem regViews_withPorts : ∀ e ∈ regViews, e.2 (s.withPorts ports out) = e.2 s := by
  simp only [regViews, List.forall_mem_append]
  refine ⟨⟨⟨⟨⟨⟨⟨?_, ?_⟩, viewsUnits_withPorts h out⟩, ?_⟩, ?_⟩, ?_⟩, ?_⟩, ?_⟩
  all_goals
    simp only [viewsMbx, viewsFrm, viewsPhys, viewsRas, viewsUpd, viewsSts, viewsLup, List.forall_mem_cons,
      List.not_mem_nil, false_imp_iff, implies_true, and_true]
    and_intros <;> rfl

/-- The register window shows nothing of a port's receiver, nor of what was sent. -/
theorem State.readReg_withPorts (off : Nat) : (s.withPorts ports out).readReg off = s.readReg off := by
  unfold State.readReg
  split
  · next e he => exact regViews_withPorts h out e (List.mem_of_find?_eq_some he)
  · rfl

theorem State.windowByte_withPorts (off : Nat) : (s.withPorts ports out).windowByte off = s.windowByte off := by
  have hr := State.readReg_withPorts
    (s := ((s.putReg Reg.FAC_CORE_SEL 0).putReg Reg.HBM_CHAN_SEL 0).putReg Reg.LNK_PORT_SEL 0) h out (off / 4 * 4)
  exact congrArg (fun w : Word => BitVec.ofNat 8 (w.toNat / 256 ^ (off % 4))) hr

theorem State.load_withPorts (addr n : Nat) : (s.withPorts ports out).load addr n = s.load addr n := by
  have hb : (s.withPorts ports out).loadByte = s.loadByte := by
    funext a
    have hr : (s.withPorts ports out).region a = s.region a := rfl
    unfold State.loadByte
    rw [hr]
    cases s.region a with
    | window off => exact State.windowByte_withPorts h out off
    | _ => rfl
  unfold State.load
  rw [hb]

theorem State.exchangeSlot_withPorts (p : Program) : (s.withPorts ports out).exchangeSlot p = s.exchangeSlot p := by
  funext d
  have hc : (s.withPorts ports out).commitWin = s.commitWin := rfl
  simp only [State.exchangeSlot, State.load_withPorts h out, hc]

theorem State.banksFit_withPorts (m : Mode) : (s.withPorts ports out).banksFit m = s.banksFit m := by
  have hf : (s.withPorts ports out).progFits = s.progFits := by
    funext p
    unfold State.progFits
    rw [State.exchangeSlot_withPorts h out]
    rfl
  unfold State.banksFit
  rw [hf]
  rfl

/-- What refuses an ARM does not look at the ports' receivers, nor at what was sent. -/
theorem State.armFail_withPorts (b : List Byte) (e : BitVec 16) (t : BitVec 64) :
    (s.withPorts ports out).armFail b e t = s.armFail b e t := by
  simp only [State.armFail, State.banksFit_withPorts h out]
  rfl

end

theorem State.linkTaken_armFail (s : State) (n : Nat) (b : List Byte) (e : BitVec 16) (t : BitVec 64) :
    (s.linkTaken n).armFail b e t = s.armFail b e t := by
  rw [State.linkTaken_eq]
  exact State.armFail_withPorts (s.linkTaken_receiversOnly n) _ b e t

/-! ### A management message that the link takes -/

@[simp] theorem State.linkTaken_frm (s : State) (n : Nat) : (s.linkTaken n).frm = s.frm := rfl
@[simp] theorem State.linkTaken_boot (s : State) (n : Nat) : (s.linkTaken n).boot = s.boot := rfl
@[simp] theorem State.linkTaken_manager (s : State) (n : Nat) : (s.linkTaken n).lnk.manager = s.lnk.manager := rfl

theorem State.mgmtReceive_taken {s : State} {n code : Nat} {p : Packet} (h : s.mgmtTakes n code p)
    (serve : State → State) : s.mgmtReceive n code p serve = serve (s.linkTaken n) := by
  obtain ⟨hup, hty, hl, he, hseq, hf, hc⟩ := h
  simp [State.mgmtReceive, State.rowTakes, State.linkReceive, State.linkTaken, hup, hty, hl, ← he, hseq, hf, hc]

/-- A message of the mode protocol, from whoever may manage the fabric, is served on a device that is READY. -/
theorem State.fmMessage_taken {s : State} {n code src : Nat} {p : Packet} (hr : s.boot.dev = .ready)
    (hm : s.lnk.manager = none ∨ s.lnk.manager = some src) (h : s.mgmtTakes n code p) (k : State → State) :
    s.mgmtReceive n code p (fun s => s.fromFm src k) = k (s.linkTaken n) := by
  rw [State.mgmtReceive_taken h]
  have hk : ((s.linkTaken n).lnk.manager.isNone || (s.linkTaken n).lnk.manager == some src) = true := by
    rcases hm with hm | hm <;> simp [hm]
  simp only [State.fromFm, State.fromManager, State.linkTaken_boot, hr, if_true, hk]

/-! ### ARM (R64, R65, R70, R79) -/

theorem State.armFail_of_modeFail {s : State} {b : List Byte} {e : BitVec 16} {t : BitVec 64} {d : Nat}
    (h : modeFail b = some d) : s.armFail b e t = some .badParam := by
  simp [State.armFail, h]

theorem State.armFail_ne_inProgress {s : State} {b : List Byte} {e : BitVec 16} {t : BitVec 64} {x : Status}
    (h : s.armFail b e t = some x) : x ≠ .inProgress := by
  rintro rfl
  unfold State.armFail at h
  dsimp only at h
  split_ifs at h <;> simp at h

theorem State.arm_already {s : State} {b : List Byte} {e : BitVec 16} {t : BitVec 64}
    (h : s.armedAlready b e t = true) : s.arm b e t = (s, none) := by
  simp [State.arm, h]

theorem State.arm_accepted {s : State} {b : List Byte} {e : BitVec 16} {t : BitVec 64}
    (h : s.armedAlready b e t = false) (hf : s.armFail b e t = none) :
    s.arm b e t = ({ s with frm := { s.frm with
      armed := some ⟨modeOfBytes b, e, t⟩, armTick := t, lastArm := some ⟨modeOfBytes b, e, t⟩,
      stretchRequested := s.frm.stretchRequested && (modeOfBytes b).stretchAmt == 0 } }, none) := by
  simp only [State.arm, h, hf]
  rfl

theorem State.arm_refused {s : State} {b : List Byte} {e : BitVec 16} {t : BitVec 64} {x : Status}
    (h : s.armedAlready b e t = false) (hf : s.armFail b e t = some x) :
    s.arm b e t = ((s.armAgain b e t).noteArm b e t, some x) := by
  simp only [State.arm, h, hf]
  rfl

/-- An ARM leaves either no refusal, or a refusal that armFail names. -/
theorem State.arm_cases (s : State) (b : List Byte) (e : BitVec 16) (t : BitVec 64) :
    (∃ u, s.arm b e t = (u, none)) ∨ ∃ u x, s.armFail b e t = some x ∧ s.arm b e t = (u, some x) := by
  cases h : s.armedAlready b e t with
  | true => exact .inl ⟨_, State.arm_already h⟩
  | false =>
    cases hf : s.armFail b e t with
    | none => exact .inl ⟨_, State.arm_accepted h hf⟩
    | some x => exact .inr ⟨_, x, rfl, State.arm_refused h hf⟩

section

variable {s u : State} {m : BitVec 6} {b : List Byte} {e : BitVec 16} {t : BitVec 64} {x : Status}

theorem exec_modeArm_taken (h : s.admits 0x0303 m = true) (hb : slice (s.params m) 0 16 = b)
    (he : BitVec.ofNat 16 (u16At (s.params m) 16) = e) (ht : BitVec.ofNat 64 (u64At (s.params m) 24) = t)
    (ha : s.arm b e t = (u, none)) : exec (.modeArm m) s = .next (u.answer m (sha256 b)) := by
  change execModeArm m s = _
  simp only [execModeArm, State.welfy_admitted h, hb, he, ht, ha, Reply.settle_answer]

theorem exec_modeArm_badParam {d : Nat} (h : s.admits 0x0303 m = true) (hb : slice (s.params m) 0 16 = b)
    (he : BitVec.ofNat 16 (u16At (s.params m) 16) = e) (ht : BitVec.ofNat 64 (u64At (s.params m) 24) = t)
    (ha : s.arm b e t = (u, some x)) (hd : modeFail b = some d) :
    exec (.modeArm m) s = .next (u.refusalAt m d) := by
  change execModeArm m s = _
  simp only [execModeArm, State.welfy_admitted h, hb, he, ht, ha, hd, Reply.settle_refusalAt]

theorem exec_modeArm_refused (h : s.admits 0x0303 m = true) (hb : slice (s.params m) 0 16 = b)
    (he : BitVec.ofNat 16 (u16At (s.params m) 16) = e) (ht : BitVec.ofNat 64 (u64At (s.params m) 24) = t)
    (ha : s.arm b e t = (u, some x)) (hd : modeFail b = none) (hx : x ≠ .inProgress) :
    exec (.modeArm m) s = .next (u.refusal m x) := by
  change execModeArm m s = _
  simp only [execModeArm, State.welfy_admitted h, hb, he, ht, ha, hd, Reply.settle_refusal _ _ hx]

end

theorem exec_arm_taken {s : State} {port : Fin 24} {h : Packet} {mode : BitVec 128} {e : BitVec 16} {t : BitVec 64}
    (hr : s.boot.dev = .ready) (hm : s.lnk.manager = none ∨ s.lnk.manager = some h.src.toNat)
    (hp : s.mgmtTakes port.val 0x0020 (armPacket h mode e t)) :
    exec (.arm port h mode e t) s = .next ((s.linkTaken port.val).armMsg (toLe 16 mode.toNat) e t) :=
  congrArg Host.Outcome.next (State.fmMessage_taken hr hm hp fun s => s.armMsg (toLe 16 mode.toNat) e t)

theorem State.armMsg_taken {s u : State} {b : List Byte} {e : BitVec 16} {t : BitVec 64}
    (h : s.arm b e t = (u, none)) : s.armMsg b e t = u.say (.armAck e ((sha256 b).take 8)) := by
  simp only [State.armMsg, h]

theorem State.armMsg_refused {s u : State} {b : List Byte} {e : BitVec 16} {t : BitVec 64} {x : Status}
    (h : s.arm b e t = (u, some x)) : s.armMsg b e t = u.say (.armNak e x) := by
  simp only [State.armMsg, h]

/-! ### ABORT (R66, R79) -/

theorem State.abortEpoch_armed {s : State} {e : BitVec 16} {a : Armed} (h : s.frm.armed = some a) (he : a.epoch = e)
    (hl : ∀ x, s.frm.lastAborted = some x → newerEpoch e x = true) :
    s.abortEpoch e = ({ s with frm := { s.frm with armed := none, lastAborted := some e } }, none) := by
  cases hx : s.frm.lastAborted with
  | none => simp [State.abortEpoch, State.noteAbort, h, he, hx]
  | some x => simp [State.abortEpoch, State.noteAbort, h, he, hx, hl x hx]

theorem newerEpoch_self (e : BitVec 16) : newerEpoch e e = false := by simp [newerEpoch]

theorem State.abortEpoch_inForce {s : State} {e : BitVec 16} (h : s.frm.armed = none) (he : s.frm.epoch = e)
    (hl : s.frm.lastAborted ≠ some e) : s.abortEpoch e = (s, some .abortLate) := by
  simp [State.abortEpoch, State.switchedTo, h, he, newerEpoch_self, hl]

theorem State.abortEpoch_cases (s : State) (e : BitVec 16) :
    (∃ u, s.abortEpoch e = (u, none)) ∨ s.abortEpoch e = (s, some .abortLate) := by
  unfold State.abortEpoch
  dsimp only
  split
  · exact .inl ⟨_, rfl⟩
  · split
    · exact .inr rfl
    · exact .inl ⟨_, rfl⟩

section

variable {s u : State} {m : BitVec 6} {e : BitVec 16}

theorem exec_modeAbort_done (h : s.admits 0x0304 m = true) (he : u16At (s.params m) 0 = e.toNat)
    (ha : s.abortEpoch e = (u, none)) : exec (.modeAbort m) s = .next (u.answer m []) := by
  change execModeAbort m s = _
  simp only [execModeAbort, State.welfy_admitted h, he, BitVec.ofNat_toNat, BitVec.setWidth_eq, ha, Reply.settle_answer]

theorem exec_modeAbort_late (h : s.admits 0x0304 m = true) (he : u16At (s.params m) 0 = e.toNat)
    (ha : s.abortEpoch e = (s, some .abortLate)) : exec (.modeAbort m) s = .next (s.refusal m .abortLate) := by
  change execModeAbort m s = _
  simp only [execModeAbort, State.welfy_admitted h, he, BitVec.ofNat_toNat, BitVec.setWidth_eq, ha]
  rfl

end

theorem exec_abort_taken {s : State} {port : Fin 24} {h : Packet} {e : BitVec 16} (hr : s.boot.dev = .ready)
    (hm : s.lnk.manager = none ∨ s.lnk.manager = some h.src.toNat)
    (hp : s.mgmtTakes port.val 0x0024 (carrying h (toLe 2 e.toNat))) :
    exec (.abort port h e) s = .next ((s.linkTaken port.val).abortMsg e) :=
  congrArg Host.Outcome.next (State.fmMessage_taken hr hm hp fun s => s.abortMsg e)

theorem State.abortMsg_done {s u : State} {e : BitVec 16} (h : s.abortEpoch e = (u, none)) :
    s.abortMsg e = u.say (.abortDone e) := by
  simp only [State.abortMsg, h]

theorem State.abortMsg_late {s u : State} {e : BitVec 16} {x : Status} (h : s.abortEpoch e = (u, some x)) :
    s.abortMsg e = u.say (.abortLate e) := by
  simp only [State.abortMsg, h]

/-! ### ROLLBACK (R68 to R70, R79) -/

theorem State.rollbackTo_inWindow {s : State} {e : BitVec 16} {t : BitVec 64} {t0 : Nat} (h : s.tickOf e = some t0)
    (hl : t.toNat ≤ t0 + 4) (hn : s.frm.tick.toNat + 1 ≤ t.toNat) :
    s.rollbackTo e t = ({ s with frm := { s.frm with rollback := some ⟨e, t⟩ } }, none) := by
  simp only [State.rollbackTo, h, hl, hn, and_self, if_true]

theorem State.rollbackTo_late {s : State} {e : BitVec 16} {t : BitVec 64} {t0 : Nat} (h : s.tickOf e = some t0)
    (hl : t0 + 4 < t.toNat ∨ t.toNat ≤ s.frm.tick.toNat) : s.rollbackTo e t = (s, some .rollbackExpired) := by
  have hn : ¬ (t.toNat ≤ t0 + 4 ∧ s.frm.tick.toNat + 1 ≤ t.toNat) := by omega
  simp only [State.rollbackTo, h, if_neg hn]

theorem State.rollbackTo_cases (s : State) (e : BitVec 16) (t : BitVec 64) :
    (∃ u, s.rollbackTo e t = (u, none)) ∨ s.rollbackTo e t = (s, some .armMiss) ∨
      s.rollbackTo e t = (s, some .rollbackExpired) := by
  unfold State.rollbackTo
  split
  · split
    · exact .inr (.inl rfl)
    · exact .inr (.inr rfl)
  · split
    · exact .inl ⟨_, rfl⟩
    · exact .inr (.inr rfl)

section

variable {s u : State} {m : BitVec 6} {e : BitVec 16} {t : BitVec 64}

theorem exec_modeRollback_done (h : s.admits 0x0305 m = true) (he : u16At (s.params m) 0 = e.toNat)
    (ht : u64At (s.params m) 8 = t.toNat) (ha : s.rollbackTo e t = (u, none)) :
    exec (.modeRollback m) s = .next (u.answer m []) := by
  change execModeRollback m s = _
  simp only [execModeRollback, State.welfy_admitted h, he, ht, BitVec.ofNat_toNat, BitVec.setWidth_eq, ha, Reply.settle_answer]

theorem exec_modeRollback_missed (h : s.admits 0x0305 m = true) (he : u16At (s.params m) 0 = e.toNat)
    (ht : u64At (s.params m) 8 = t.toNat) (ha : s.rollbackTo e t = (s, some .armMiss)) :
    exec (.modeRollback m) s = .next ((s.armMiss e).refusal m .armMiss) := by
  change execModeRollback m s = _
  simp only [execModeRollback, State.welfy_admitted h, he, ht, BitVec.ofNat_toNat, BitVec.setWidth_eq, ha]
  rfl

theorem exec_modeRollback_expired (h : s.admits 0x0305 m = true) (he : u16At (s.params m) 0 = e.toNat)
    (ht : u64At (s.params m) 8 = t.toNat) (ha : s.rollbackTo e t = (s, some .rollbackExpired)) :
    exec (.modeRollback m) s = .next (s.refusal m .rollbackExpired) := by
  change execModeRollback m s = _
  simp only [execModeRollback, State.welfy_admitted h, he, ht, BitVec.ofNat_toNat, BitVec.setWidth_eq, ha]
  rfl

end

theorem exec_rollback_taken {s : State} {port : Fin 24} {h : Packet} {e : BitVec 16} {t : BitVec 64}
    (hr : s.boot.dev = .ready) (hm : s.lnk.manager = none ∨ s.lnk.manager = some h.src.toNat)
    (hp : s.mgmtTakes port.val 0x0028 (rollbackPacket h e t)) :
    exec (.rollback port h e t) s = .next ((s.linkTaken port.val).rollbackMsg e t) :=
  congrArg Host.Outcome.next (State.fmMessage_taken hr hm hp fun s => s.rollbackMsg e t)

theorem State.rollbackMsg_done {s u : State} {e : BitVec 16} {t : BitVec 64} (h : s.rollbackTo e t = (u, none)) :
    s.rollbackMsg e t = u.say (.rollbackDone e) := by
  simp only [State.rollbackMsg, h]

theorem State.rollbackMsg_missed {s u : State} {e : BitVec 16} {t : BitVec 64} (h : s.rollbackTo e t = (u, some .armMiss)) :
    s.rollbackMsg e t = u.armMiss e := by
  simp only [State.rollbackMsg, h]

theorem State.rollbackMsg_expired {s u : State} {e : BitVec 16} {t : BitVec 64}
    (h : s.rollbackTo e t = (u, some .rollbackExpired)) : s.rollbackMsg e t = u.say (.rollbackExpired e) := by
  simp only [State.rollbackMsg, h]

/-! ### The message and the command give the same answer (R79) -/

/-- ARM and MODE_ARM of one mode, epoch and tick, in one state. -/
theorem armMsg_matches_modeArm {s : State} {m : BitVec 6} {b : List Byte} {e : BitVec 16} {t : BitVec 64}
    (h : s.admits 0x0303 m = true) (hb : slice (s.params m) 0 16 = b)
    (he : BitVec.ofNat 16 (u16At (s.params m) 16) = e) (ht : BitVec.ofNat 64 (u64At (s.params m) 24) = t) :
    (∃ u : State, s.armMsg b e t = u.say (.armAck e ((sha256 b).take 8)) ∧
      exec (.modeArm m) s = .next (u.answer m (sha256 b))) ∨
    (∃ (u : State) (x : Status) (d : Nat), s.armMsg b e t = u.say (.armNak e x) ∧
      exec (.modeArm m) s = .next (u.finish m.toNat x d [])) := by
  obtain ⟨u, ha⟩ | ⟨u, x, hf, ha⟩ := s.arm_cases b e t
  · exact .inl ⟨u, State.armMsg_taken ha, exec_modeArm_taken h hb he ht ha⟩
  · refine .inr ⟨u, x, ?_⟩
    cases hd : modeFail b with
    | none => exact ⟨0, State.armMsg_refused ha, exec_modeArm_refused h hb he ht ha hd (State.armFail_ne_inProgress hf)⟩
    | some d =>
      have hx : x = .badParam := Option.some.inj (hf.symm.trans (State.armFail_of_modeFail hd))
      subst hx
      exact ⟨d, State.armMsg_refused ha, exec_modeArm_badParam h hb he ht ha hd⟩

/-- ABORT and MODE_ABORT of one epoch, in one state. -/
theorem abortMsg_matches_modeAbort {s : State} {m : BitVec 6} {e : BitVec 16} (h : s.admits 0x0304 m = true)
    (he : u16At (s.params m) 0 = e.toNat) :
    (∃ u : State, s.abortMsg e = u.say (.abortDone e) ∧ exec (.modeAbort m) s = .next (u.answer m [])) ∨
    (s.abortMsg e = s.say (.abortLate e) ∧ exec (.modeAbort m) s = .next (s.refusal m .abortLate)) := by
  obtain ⟨u, ha⟩ | ha := s.abortEpoch_cases e
  · exact .inl ⟨u, State.abortMsg_done ha, exec_modeAbort_done h he ha⟩
  · exact .inr ⟨State.abortMsg_late ha, exec_modeAbort_late h he ha⟩

/-- ROLLBACK and MODE_ROLLBACK of one epoch and tick, in one state. -/
theorem rollbackMsg_matches_modeRollback {s : State} {m : BitVec 6} {e : BitVec 16} {t : BitVec 64}
    (h : s.admits 0x0305 m = true) (he : u16At (s.params m) 0 = e.toNat) (ht : u64At (s.params m) 8 = t.toNat) :
    (∃ u : State, s.rollbackMsg e t = u.say (.rollbackDone e) ∧ exec (.modeRollback m) s = .next (u.answer m [])) ∨
    (s.rollbackMsg e t = s.armMiss e ∧ exec (.modeRollback m) s = .next ((s.armMiss e).refusal m .armMiss)) ∨
    (s.rollbackMsg e t = s.say (.rollbackExpired e) ∧ exec (.modeRollback m) s = .next (s.refusal m .rollbackExpired)) := by
  obtain ⟨u, ha⟩ | ha | ha := s.rollbackTo_cases e t
  · exact .inl ⟨u, State.rollbackMsg_done ha, exec_modeRollback_done h he ht ha⟩
  · exact .inr (.inl ⟨State.rollbackMsg_missed ha, exec_modeRollback_missed h he ht ha⟩)
  · exact .inr (.inr ⟨State.rollbackMsg_expired ha, exec_modeRollback_expired h he ht ha⟩)

end Sys2Proof.Machine

namespace Sys2Proof.FrameTick

open Sys2Proof Sys2Proof.Machine

/-- Settles O19: a message is served on the state once its packet is taken, where the command of the same fields runs the same
effect. -/
theorem modeCommandsMatchMessages : Obligations.ModeCommandsMatchMessages := by
  intro s m port h mode e t hr hm v
  refine ⟨fun hp => ?_, fun hp => ?_, fun hp => ?_⟩
  · rw [exec_arm_taken hr hm hp]
    refine ⟨fun ha hf => ?_, fun hadm hb he ht => ?_⟩
    · have hf' : v.armFail (toLe 16 mode.toNat) e t = none := (s.linkTaken_armFail _ _ _ _).trans hf
      exact congrArg Host.Outcome.next (State.armMsg_taken (State.arm_accepted ha hf'))
    · simpa using armMsg_matches_modeArm hadm hb (by rw [he]; simp) (by rw [ht]; simp)
  · rw [exec_abort_taken hr hm hp]
    refine ⟨fun a ha he hl => ?_, fun hadm he => ?_⟩
    · exact congrArg Host.Outcome.next (State.abortMsg_done (State.abortEpoch_armed (s := s.linkTaken port.val) ha he hl))
    · simpa using abortMsg_matches_modeAbort hadm he
  · rw [exec_rollback_taken hr hm hp]
    refine ⟨fun t0 h0 hl hn => ?_, fun hadm he ht => ?_⟩
    · exact congrArg Host.Outcome.next (State.rollbackMsg_done (State.rollbackTo_inWindow (s := s.linkTaken port.val) h0 hl hn))
    · simpa using rollbackMsg_matches_modeRollback hadm he ht

/-- Settles O20, command by command: the cases of R65, R66, R68 and what MODE_QUERY reads. -/
theorem modeCommands : Obligations.ModeCommands := by
  intro s m
  refine ⟨fun hadm => ?_, fun hadm e he => ?_, fun hadm e t he ht t0 h0 => ?_, fun hadm => ?_⟩
  · intro b e t
    refine ⟨fun ha => ?_, fun ha hf => ?_, ?_⟩
    · exact exec_modeArm_taken hadm rfl rfl rfl (State.arm_already ha)
    · exact exec_modeArm_taken hadm rfl rfl rfl (State.arm_accepted ha hf)
    · intro ha u u1
      have hu : (s.armAgain b e t).noteArm b e t = u1 := by
        simp only [State.armAgain, beq_iff_eq]
        rfl
      rw [← hu]
      refine ⟨fun d hd => ?_, fun hd x hx => ?_⟩
      · exact exec_modeArm_badParam hadm rfl rfl rfl (State.arm_refused ha (State.armFail_of_modeFail hd)) hd
      · exact exec_modeArm_refused hadm rfl rfl rfl (State.arm_refused ha hx) hd (State.armFail_ne_inProgress hx)
  · exact ⟨fun a ha hae hl => exec_modeAbort_done hadm he (State.abortEpoch_armed ha hae hl),
      fun ha hae hl => exec_modeAbort_late hadm he (State.abortEpoch_inForce ha hae hl)⟩
  · exact ⟨fun hl hn => exec_modeRollback_done hadm he ht (State.rollbackTo_inWindow h0 hl hn),
      fun hl => exec_modeRollback_expired hadm he ht (State.rollbackTo_late h0 hl)⟩
  · change execModeQuery m s = _
    simp only [execModeQuery, State.welfy_admitted hadm, Reply.settle_answer]
    cases s.frm.armed <;> simp [State.regBytes]

end Sys2Proof.FrameTick
end

section
/-! ## Staged writes, the tick, and what expires at ticks -/

namespace Sys2Proof.Machine

/-! ### Staging (R59) -/

theorem State.stage_before {s : State} (h : s.beforeCutoff = true) (off : Nat) (mask v : Word) :
    s.stage off mask v = { s with frm := { s.frm with staged := s.frm.staged ++ [(off, mask, v)] } } := by
  simp only [State.stage, h, if_true]

theorem State.stage_after {s : State} (h : s.beforeCutoff = false) (off : Nat) (mask v : Word) :
    s.stage off mask v = { s with frm := { s.frm with stagedLate := s.frm.stagedLate ++ [(off, mask, v)] } } := by
  simp only [State.stage, h, Bool.false_eq_true, if_false]

theorem State.stage_regs (s : State) (off : Nat) (mask v : Word) : (s.stage off mask v).regs = s.regs := by
  unfold State.stage
  split <;> rfl

theorem exec_tickAlignConfig_staged {s : State} {m : BitVec 6} (h : s.admits 0x0308 m = true)
    (hl : 16 ≤ u8At (s.params m) 2) (hu : u8At (s.params m) 2 ≤ 24) :
    exec (.tickAlignConfig m) s = .next (State.answer (s.stage Reg.FRM_ALIGN_CFG 0x1FFFFF
      (BitVec.ofNat 32 (u16At (s.params m) 0 + u8At (s.params m) 2 * 65536))) m []) := by
  change execTickAlignConfig m s = _
  have hr : inRange (u8At (s.params m) 2) 16 24 = true := by simp [inRange, hl, hu]
  simp only [execTickAlignConfig, State.welfy_admitted h, hr, Bool.not_true, Bool.false_eq_true, if_false,
    Reply.settle_answer]

theorem exec_powerGuardConfig_staged {s : State} {m : BitVec 6} (h : s.admits 0x0A06 m = true)
    (h1 : 50 ≤ u8At (s.params m) 0) (h2 : u8At (s.params m) 0 ≤ 100) (h3 : 1 ≤ u8At (s.params m) 1)
    (h4 : u8At (s.params m) 1 ≤ 8) :
    let t := s.stage Reg.PWR_CFG 0xF7F (BitVec.ofNat 32 (u8At (s.params m) 0 + u8At (s.params m) 1 * 256))
    exec (.powerGuardConfig m) s = .next (t.answer m (toLe 4 (t.stagedReg Reg.PWR_CFG).toNat)) := by
  change execPowerGuardConfig m s = _
  have hl : ¬ (u8At (s.params m) 0 < 50 ∨ 100 < u8At (s.params m) 0) := by omega
  have hh : ¬ (u8At (s.params m) 1 < 1 ∨ 8 < u8At (s.params m) 1) := by omega
  simp only [execPowerGuardConfig, State.welfy_admitted h, if_neg hl, if_neg hh, Reply.settle_answer]

/-! ### TICK_SET (R40) -/

theorem State.tickSetOk_iff (s : State) :
    s.tickSetOk = true ↔ s.frm.epoch = 0 ∨ s.regBit Reg.FRM_STATUS 7 = true := by
  simp [State.tickSetOk, State.tickLost]

theorem State.tickSetOk_false {s : State} (he : s.frm.epoch ≠ 0) (hl : s.regBit Reg.FRM_STATUS 7 = false) :
    s.tickSetOk = false := by
  rw [Bool.eq_false_iff, ne_eq, State.tickSetOk_iff]
  exact not_or.2 ⟨he, by simp [hl]⟩

/-- TICK_SET, the command: the number is set where it is admitted, and refused otherwise. -/
theorem exec_tickSet_admitted {s : State} {m : BitVec 6} (h : s.admits 0x0307 m = true) :
    exec (.tickSet m) s = .next (if s.tickSetOk then
      (s.setTick (BitVec.ofNat 64 (u64At (s.params m) 0)) (BitVec.ofNat 64 (u64At (s.params m) 8))).answer m []
      else s.refusal m .runLock) := by
  change execTickSet m s = _
  simp only [execTickSet, State.welfy_admitted h]
  cases s.tickSetOk <;> rfl

/-- TICK_SET, the message, under the same condition. -/
theorem exec_tickSetMsg_taken {s : State} {port : Fin 24} {h : Packet} {tick at_ : BitVec 64} (hr : s.boot.dev = .ready)
    (hm : s.lnk.manager = none ∨ s.lnk.manager = some h.src.toNat)
    (hp : s.mgmtTakes port.val 0x0012 (tickSetPacket h tick at_)) :
    exec (.tickSetMsg port h tick at_) s = .next (if s.tickSetOk then
      ((s.linkTaken port.val).setTick tick at_).say (.tickSetAck .success tick)
      else (s.linkTaken port.val).say (.tickSetAck .runLock tick)) :=
  congrArg Host.Outcome.next (State.fmMessage_taken hr hm hp _)

/-! ### Staged writes applied (R59) -/

/-- One staged write put in force. -/
def State.applyWrite (s : State) (e : Nat × Word × Word) : State :=
  s.putReg e.1 ((s.reg e.1 &&& ~~~ e.2.1) ||| (e.2.2 &&& e.2.1))

theorem State.applyStaged_eq (s : State) :
    s.applyStaged = (s.frm.staged.foldl State.applyWrite s).setFrm
      (fun f => { f with staged := f.stagedLate, stagedLate := [] }) := rfl

theorem State.applyWrite_reg_other {s : State} {e : Nat × Word × Word} {o : Nat} (h : e.1 ≠ o) :
    (s.applyWrite e).reg o = s.reg o := s.putReg_reg_other e.1 _ o h.symm

theorem State.applyWrite_masked (s : State) (off : Nat) (mask v : Word) :
    (s.applyWrite (off, mask, v)).reg off &&& mask = v &&& mask := by
  simp only [State.applyWrite, State.putReg_reg_same]
  ext i hi
  simp only [BitVec.getElem_and, BitVec.getElem_or, BitVec.getElem_not]
  cases mask[i] <;> simp

theorem State.applyWrites_reg_other {l : List (Nat × Word × Word)} {o : Nat} (h : ∀ e ∈ l, e.1 ≠ o) (s : State) :
    (l.foldl State.applyWrite s).reg o = s.reg o := by
  induction l generalizing s with
  | nil => rfl
  | cons e l ih =>
    rw [List.forall_mem_cons] at h
    rw [List.foldl_cons, ih h.2, State.applyWrite_reg_other h.1]

/-- Writes put in force change registers alone. -/
theorem State.applyWrites_eq (l : List (Nat × Word × Word)) (s : State) :
    l.foldl State.applyWrite s = { s with regs := (l.foldl State.applyWrite s).regs } := by
  induction l generalizing s with
  | nil => rfl
  | cons e l ih => exact ih (s.applyWrite e)

/-! ### The tick (R40) -/

theorem State.numberTick_counts {s : State} (h : s.frm.tickNext = none) : s.numberTick.frm.tick = s.frm.tick + 1 := by
  simp only [State.numberTick, State.comingTick, h]

theorem State.numberTick_set {s : State} {a v : BitVec 64} (h : s.frm.tickNext = some (a, some v))
    (ha : a.toNat ≤ (s.frm.tick + 1).toNat) : s.numberTick.frm.tick = v ∧ s.numberTick.frm.tickNext = none := by
  simp only [State.numberTick, State.comingTick, h, ha, if_true, and_self]

/-- Time passing changes the cycle count, the phase and the count of idle rc. -/
theorem State.advance_eq (s : State) (n : Nat) : s.advance n =
    { s with rc := s.rc + (n - s.frm.phase), regs := (s.advance n).regs,
             frm := { s.frm with phase := s.frm.phase + (n - s.frm.phase) } } := by
  unfold State.advance
  dsimp only
  split <;> rfl

theorem State.advance_frm (s : State) (n : Nat) :
    (s.advance n).frm = { s.frm with phase := s.frm.phase + (n - s.frm.phase) } := by rw [State.advance_eq]

theorem State.advance_rc (s : State) (n : Nat) : (s.advance n).rc = s.rc + (n - s.frm.phase) := by rw [State.advance_eq]

theorem exec_frameTick_ends {s : State} (ht : s.frm.ticking = true) (hb : s.frm.begun = true) (hp : s.midPair = false) :
    exec .frameTick s =
      .next (s.advance s.frameLen).takeDecision.runningUse.countWaits.everyTick.endFrame.afterTick := by
  change execFrameTick s = _
  simp only [execFrameTick, ht, hb, hp, Bool.not_true, Bool.or_self, Bool.false_eq_true, if_false]

theorem exec_frameTick_idle {s : State} (h : s.frm.ticking = false ∨ s.frm.begun = false) :
    exec .frameTick s = .next s := by
  change execFrameTick s = _
  rcases h with h | h <;> simp [execFrameTick, h]

/-! ### Expiries (R68, R71, R74, R75) -/

theorem exec_retentionEnd_drops {s : State} (hr : s.frm.retained ≠ none) (hh : s.frm.halted = false)
    (hb : s.frm.rollback = none) (hf : 4 ≤ s.frm.framesSinceSwitch) :
    exec .retentionEnd s = .next { s with frm := { s.frm with retained := none } } := by
  change execRetentionEnd s = _
  have hs : s.frm.retained.isSome = true := Option.isSome_iff_ne_none.2 hr
  simp [execRetentionEnd, hs, hh, hb, hf, State.setFrm]

theorem exec_retentionEnd_waits {s : State} (h : s.frm.rollback ≠ none ∨ s.frm.framesSinceSwitch < 4) :
    exec .retentionEnd s = .next s := by
  change execRetentionEnd s = _
  rcases h with h | h
  · simp [execRetentionEnd, Option.isNone_eq_false_iff.2 (Option.isSome_iff_ne_none.2 h)]
  · simp [execRetentionEnd, h]

theorem exec_stretchEnd_ends {s : State} (h : s.frm.stretchLeft = 0) :
    exec .stretchEnd s = .next { s with frm := { s.frm with stretchAmt := 0 } } :=
  congrArg Host.Outcome.next (if_pos h)

theorem State.modeLen_unstretched {s : State} (h : s.frm.stretchLeft = 0) : s.modeLen = 2 ^ s.frm.lenExp := by
  simp [State.modeLen, h]

theorem exec_stretchRenew_asks {s : State} {i : Nat} {l : List Nat} (hp : s.hotParts = i :: l)
    (hl : s.frm.stretchLeft = 8) (ha : s.stretchArmed = false) : exec .stretchRenew s = .next (s.requestStretch i) := by
  change execStretchRenew s = _
  simp [execStretchRenew, hp, hl, ha]

theorem exec_stretchRenew_armed {s : State} (h : s.stretchArmed = true) : exec .stretchRenew s = .next s := by
  change execStretchRenew s = _
  unfold execStretchRenew
  split <;> simp [h]

end Sys2Proof.Machine

namespace Sys2Proof.FrameTick

open Sys2Proof Sys2Proof.Machine

/-- Settles O22: both configuration commands stage their word, and TICK_SET sets the number under one condition for the command
and the message. -/
theorem stagedConfigurationCommands : Obligations.StagedConfigurationCommands := by
  intro s m
  refine ⟨?_, ?_, ?_, ?_⟩
  · intro hadm hl hu w
    rw [exec_tickAlignConfig_staged hadm hl hu]
    exact ⟨fun hc => by rw [State.stage_before hc], fun hc => by rw [State.stage_after hc]⟩
  · intro hadm h1 h2 h3 h4 w
    exact ⟨s.stage Reg.PWR_CFG 0xF7F w, exec_powerGuardConfig_staged hadm h1 h2 h3 h4, s.stage_regs _ _ _,
      fun hc => State.stage_before hc _ _ _, fun hc => State.stage_after hc _ _ _⟩
  · intro tick at_ ht ha u
    refine ⟨fun hok hadm => ?_, fun he hl hadm => ?_⟩
    · rw [exec_tickSet_admitted hadm, if_pos ((s.tickSetOk_iff).2 hok), ht, ha, BitVec.ofNat_toNat, BitVec.ofNat_toNat,
        BitVec.setWidth_eq, BitVec.setWidth_eq]
      rfl
    · rw [exec_tickSet_admitted hadm, State.tickSetOk_false he hl]
      rfl
  · intro port h tick at_ hr hp hm v
    rw [exec_tickSetMsg_taken hr hm hp]
    refine ⟨fun hok => ?_, fun he hl => ?_⟩
    · rw [if_pos ((s.tickSetOk_iff).2 hok)]
      rfl
    · rw [State.tickSetOk_false he hl]
      rfl

/-- Settles O23: the writes after the last one to a register leave it, and that one sets its masked bits. -/
theorem stagedWritesTakeEffectTogether : Obligations.StagedWritesTakeEffectTogether := by
  intro s l r off mask v hs hr
  have he : s.applyStaged.reg = (s.frm.staged.foldl State.applyWrite s).reg := rfl
  refine ⟨?_, fun o ho => ?_, ?_, ?_, ?_⟩
  · rw [he, hs, List.foldl_append, List.foldl_cons, State.applyWrites_reg_other hr, State.applyWrite_masked]
  · rw [he, State.applyWrites_reg_other ho]
  all_goals rw [State.applyStaged_eq, State.applyWrites_eq]; rfl

/-- Settles O24, part by part: the number, the passing of time, the order of the tick's parts (the model's choice, log entry 56),
and the four expiries. -/
theorem ticksAndExpiries : Obligations.TicksAndExpiries := by
  refine ⟨fun s => ⟨State.numberTick_counts, fun a v => State.numberTick_set, exec_frameTick_ends, fun h => ?_,
    exec_frameTick_idle⟩, fun s => ⟨exec_retentionEnd_drops, exec_retentionEnd_waits, rfl, fun h => ?_,
    fun i l => exec_stretchRenew_asks, exec_stretchRenew_armed⟩⟩
  · rw [State.advance_frm, State.advance_rc]
    exact ⟨Nat.add_sub_cancel' h, rfl⟩
  · exact ⟨exec_stretchEnd_ends h, State.modeLen_unstretched h⟩

end Sys2Proof.FrameTick
end

section
/-! ## Alignment, the mode switch and the rollback -/

namespace Sys2Proof.Machine

/-! ### What sending a packet leaves as it was -/

/-- The frame timer, memory, the messages noted as sent and FRM_STATUS stand as before. -/
structure Sends (s t : State) : Prop where
  frm : t.frm = s.frm
  mem : t.mem = s.mem
  mgmt : t.out.mgmt = s.out.mgmt
  status : t.reg Reg.FRM_STATUS = s.reg Reg.FRM_STATUS

theorem Sends.refl (s : State) : Sends s s := ⟨rfl, rfl, rfl, rfl⟩

theorem Sends.trans {s t u : State} (h : Sends s t) (k : Sends t u) : Sends s u :=
  ⟨k.frm.trans h.frm, k.mem.trans h.mem, k.mgmt.trans h.mgmt, k.status.trans h.status⟩

/-- A change of other parts of the state. -/
theorem Sends.other {s t u : State} (h : Sends s t) (hf : u.frm = t.frm) (hm : u.mem = t.mem)
    (ho : u.out.mgmt = t.out.mgmt) (hr : u.regs = t.regs) : Sends s u :=
  h.trans ⟨hf, hm, ho, congrArg (fun r => tget (regReset Reg.FRM_STATUS) r Reg.FRM_STATUS) hr⟩

theorem Sends.putReg {s t : State} (h : Sends s t) {off : Nat} (ho : Reg.FRM_STATUS ≠ off) (w : Word) :
    Sends s (t.putReg off w) :=
  h.trans ⟨rfl, rfl, rfl, t.putReg_reg_other off w _ ho⟩

theorem Sends.bump {s t : State} (h : Sends s t) {off : Nat} (ho : Reg.FRM_STATUS ≠ off) (n : Nat) :
    Sends s (t.bump off n) := h.putReg ho _

theorem Sends.stick {s t : State} (h : Sends s t) {off : Nat} (ho : Reg.FRM_STATUS ≠ off) (i : Nat) :
    Sends s (t.stick off i) := h.putReg ho _

theorem Sends.sendVec {s t : State} (h : Sends s t) (v : Nat) : Sends s (t.sendVec v) :=
  h.other (t.sendVec_frm v) (t.sendVec_mem v) (t.sendVec_out_mgmt v) (t.sendVec_regs v)

theorem State.rasArrive_sends (s : State) (sev : Nat) : Sends s (s.rasArrive sev) := by
  have hc : Reg.FRM_STATUS ≠ rasCounter sev := by
    unfold rasCounter
    split_ifs <;> decide
  have h1 : Sends s (s.bump (rasCounter sev) 1) := (Sends.refl s).bump hc 1
  have h2 : Sends s (if sev ≤ 3 then (s.bump (rasCounter sev) 1).stick Reg.RAS_STATUS (sev - 1)
      else s.bump (rasCounter sev) 1) := by
    split
    · exact h1.stick (by decide) _
    · exact h1
  unfold State.rasArrive
  dsimp only
  generalize (if sev ≤ 3 then _ else _) = t at h2 ⊢
  split
  · exact h2.sendVec _
  · exact h2

theorem State.rasEnqueue_sends (s : State) (r : RasRecord) : Sends s (s.rasEnqueue r) := by
  unfold State.rasEnqueue
  dsimp only
  split
  · exact (Sends.refl s).other rfl rfl rfl rfl
  · refine Sends.stick (Sends.bump ?_ (by decide) 1) (by decide) 3
    exact (Sends.refl s).other rfl rfl rfl rfl

theorem State.rasPlace_sends (s : State) (r : RasRecord) : Sends s (s.rasPlace r) := by
  unfold State.rasPlace
  split
  · exact (Sends.refl s).other rfl rfl rfl rfl
  · split
    · refine Sends.trans ?_ (State.rasEnqueue_sends _ _)
      exact (Sends.refl s).other rfl rfl rfl rfl
    · exact State.rasEnqueue_sends s r

/-- A deferred error neither acts on the step nor resets the device. -/
theorem State.raise_deferred_sends {c : RasClass} (hc : c.severity = 1) (s : State) (u : UnitId) (d : Nat) :
    Sends s (s.raise c u d) := by
  unfold State.raise State.raiseFull
  rw [hc]
  have h1 : Sends s (({ s with ras := { s.ras with seq := s.ras.seq + 1 } } : State).rasArrive 1) := by
    refine Sends.trans ?_ (State.rasArrive_sends _ 1)
    exact (Sends.refl s).other rfl rfl rfl rfl
  generalize ({ s with ras := { s.ras with seq := s.ras.seq + 1 } } : State).rasArrive 1 = t at h1
  have h2 : ∀ r, Sends s ((t.rasPlace r).rasAct 1) := fun r => h1.trans (t.rasPlace_sends r)
  dsimp only
  split
  · rw [show ((1 : Nat) == 4) = false from rfl, Bool.and_false, if_neg Bool.false_ne_true]
    exact h2 _
  · exact h2 _

theorem State.stationLost_sends (s : State) (dst : Nat) : Sends s (s.stationLost dst) := by
  unfold State.stationLost
  dsimp only
  refine Sends.trans (Sends.stick ?_ (by decide) 4) (State.raise_deferred_sends rfl _ _ _)
  (repeat' split) <;> exact (Sends.refl s).other rfl rfl rfl rfl

theorem State.sealPacket_sends {s t : State} {p q : Packet} {plane : Nat} (h : s.sealPacket p plane = some (q, t)) :
    Sends s t := by
  unfold State.sealPacket at h
  dsimp only at h
  split at h
  · obtain ⟨-, rfl⟩ := Prod.mk.inj (Option.some.inj h)
    exact Sends.refl s
  · split at h
    · obtain ⟨-, rfl⟩ := Prod.mk.inj (Option.some.inj h)
      exact Sends.refl s
    · split at h
      · cases h
      · obtain ⟨-, rfl⟩ := Prod.mk.inj (Option.some.inj h)
        exact (Sends.refl s).other rfl rfl rfl rfl

theorem State.linkSend_sends (s : State) (n : Nat) (p : Packet) : Sends s (s.linkSend n p) := by
  unfold State.linkSend
  dsimp only
  split
  · exact (Sends.refl s).other rfl rfl rfl rfl
  · unfold State.transmit
    dsimp only
    split
    · exact Sends.refl s
    · next h => exact (State.sealPacket_sends h).other rfl rfl rfl rfl

theorem State.keepSent_sends (s : State) (p : Packet) : Sends s (s.keepSent p) := by
  unfold State.keepSent
  dsimp only
  split
  · exact Sends.refl s
  · exact (Sends.refl s).other rfl rfl rfl rfl

theorem State.notePlane_sends (s : State) (dst n : Nat) : Sends s (s.notePlane dst n) :=
  (Sends.refl s).other rfl rfl rfl rfl

theorem State.sendPacket_sends (s : State) (p : Packet) : Sends s (s.sendPacket p) := by
  unfold State.sendPacket
  dsimp only
  split
  · split
    · exact Sends.refl s
    · exact (s.notePlane_sends _ _).trans (State.stationLost_sends _ _)
  · exact ((s.notePlane_sends _ _).trans (State.keepSent_sends _ _)).trans (State.linkSend_sends _ _ _)

/-- A message sent to the fabric manager is noted last, and what sending leaves stands. -/
theorem State.say_sends (s : State) (x : MgmtOut) : Sends (s.noteMgmt x) (s.say x) := by
  unfold State.say
  split
  · exact State.sendPacket_sends _ _
  · exact Sends.refl _

theorem State.sayOn_sends (s : State) (n dst : Nat) (x : MgmtOut) : Sends (s.noteMgmt x) (s.sayOn n dst x) :=
  State.linkSend_sends _ _ _

/-! ### Alignment rounds (R41, R45) -/

/-- Probes sent in order: each is noted, and nothing else that `Sends` speaks of changes. -/
theorem State.probes_sent (now : Nat) (l : List Nat) (s : State) :
    let t := l.foldl (fun (s : State) n => s.sayOn n s.rootStation (.tickProbe n now)) s
    t.out.mgmt = s.out.mgmt ++ l.map (fun n => MgmtOut.tickProbe n now) ∧ t.frm = s.frm ∧ t.mem = s.mem := by
  induction l generalizing s with
  | nil => simp
  | cons n l ih =>
    have hs := s.sayOn_sends n s.rootStation (.tickProbe n now)
    obtain ⟨h1, h2, h3⟩ := ih (s.sayOn n s.rootStation (.tickProbe n now))
    refine ⟨?_, h2.trans hs.frm, h3.trans hs.mem⟩
    rw [List.foldl_cons, h1, hs.mgmt, List.map_cons]
    exact List.append_assoc _ _ _

theorem exec_alignRound_probes {s : State} (now : BitVec 64) (h : s.aligns = true) :
    ∃ t : State, exec (.alignRound now) s = .next t ∧
      t.out.mgmt = s.closeRound.out.mgmt ++ s.closeRound.upPorts.map (fun n => MgmtOut.tickProbe n now.toNat) ∧
      t.frm = { s.closeRound.frm with alignAnswers := [], alignOpen := true } ∧ t.mem = s.closeRound.mem := by
  refine ⟨_, ?_, State.probes_sent now.toNat s.closeRound.upPorts
    { s.closeRound with frm := { s.closeRound.frm with alignAnswers := [], alignOpen := true } }⟩
  change execAlignRound now s = _
  simp only [execAlignRound, h, Bool.not_true, Bool.false_eq_true, if_false]
  rfl

theorem exec_alignRound_alone {s : State} (now : BitVec 64) (h : s.aligns = false) :
    exec (.alignRound now) s = .next s := by
  change execAlignRound now s = _
  simp only [execAlignRound, h, Bool.not_false, if_true]

theorem exec_tickProbe_answered {s : State} {n : Fin 24} {h : Packet} {t1 t2 t3 : BitVec 64} {since : BitVec 32}
    (ht : s.frm.ticking = true) (hr : s.isRoot = true)
    (hp : s.mgmtTakes n.val 0x0010 (carrying h (toLe 8 t1.toNat))) :
    exec (.tickProbe n h t1 t2 t3 since) s = .next ((s.linkTaken n.val).sayOn n.val h.src.toNat
      (.tickEcho n.val h.src.toNat t1.toNat t2.toNat t3.toNat s.frm.tick since.toNat)) := by
  change execTickProbe n h t1 t2 t3 since s = _
  have hr' : (s.linkTaken n.val).isRoot = true := hr
  simp only [execTickProbe, State.mgmtReceive_taken hp, State.linkTaken_frm, ht, hr', Bool.and_self, if_true]

/-- The offset of one plane is half the difference of the two ways, rounded down. -/
theorem planeOffset_bounds (t1 t2 t3 t4 : BitVec 64) :
    2 * planeOffset t1 t2 t3 t4 ≤ (t2 - t1).toInt - (t4 - t3).toInt ∧
      (t2 - t1).toInt - (t4 - t3).toInt < 2 * planeOffset t1 t2 t3 t4 + 2 := by
  unfold planeOffset
  omega

theorem exec_tickEcho_taken {s : State} {n : Fin 24} {h : Packet} {t1 t2 t3 t4 tick : BitVec 64} {since : BitVec 32}
    (ha : s.aligns = true) (ho : s.frm.alignOpen = true) (hsrc : h.src.toNat = s.rootStation)
    (hp : s.mgmtTakes n.val 0x0011 (echoPacket h t1 t2 t3 tick since))
    (hn : ∀ a ∈ s.frm.alignAnswers, a.plane ≠ n.val) :
    exec (.tickEcho n h t1 t2 t3 t4 tick since) s =
      .next ((s.linkTaken n.val).takeEcho n.val t1 t2 t3 t4 tick since) := by
  change execTickEcho n h t1 t2 t3 t4 tick since s = _
  have h1 : (s.linkTaken n.val).aligns = true := ha
  have h2 : (h.src.toNat == (s.linkTaken n.val).rootStation) = true := beq_iff_eq.2 hsrc
  have h3 : (s.frm.alignAnswers.any fun a => a.plane == n.val) = false := by simpa using hn
  simp only [execTickEcho, State.mgmtReceive_taken hp, State.linkTaken_frm, h1, h2, h3, ho, Bool.and_self, Bool.not_false,
    if_true]

/-- A trim takes at most 8 steps off what is left, toward zero (R42). -/
theorem trimOf_bounds (x : Int) : (x - trimOf x).natAbs = x.natAbs - 8 ∧ (trimOf x).natAbs ≤ 8 := by
  unfold trimOf
  split_ifs <;> omega

theorem State.closeRound_missed {s : State} (ho : s.frm.alignOpen = true) (hl : s.frm.alignAnswers.length < 3) :
    s.closeRound = s.bump Reg.FRM_ALIGN_MISS 1 := by
  unfold State.closeRound
  rw [ho, Bool.not_true, if_neg Bool.false_ne_true]
  split
  · next h =>
    rw [h] at hl
    simp only [List.length_cons] at hl
    omega
  · rfl

/-! ### The mode switch (R64, R67, R68) -/

theorem State.leaveHold_frm (s : State) : s.leaveHold.frm = s.frm := by
  unfold State.leaveHold
  split <;> rfl

theorem State.leaveHold_mem (s : State) : s.leaveHold.mem = s.mem := by
  unfold State.leaveHold
  split <;> rfl

theorem State.takeMode_frm (s : State) (a : Armed) :
    (s.takeMode a).frm = { (s.swapBanks (s.changesProg a.mode) (s.changesPlan a.mode)).frm with
      lenExp := a.mode.lenExp, guard := a.mode.guard, stretchAmt := a.mode.stretchAmt,
      stretchLeft := if a.mode.stretchAmt = 0 then 0 else a.mode.stretchCnt, epoch := a.epoch, prevEpoch := some s.frm.epoch,
      framesSinceSwitch := 0, armed := none, halted := false, retained := some (s.retain a.epoch a.mode), noSlots := false,
      stopNext := false } := State.leaveHold_frm _

theorem State.takeMode_mem (s : State) (a : Armed) : (s.takeMode a).mem = s.mem := State.leaveHold_mem _

theorem State.swapBanks_prog (s : State) (p q : Bool) :
    ((s.swapBanks p q).frm.curProg, (s.swapBanks p q).frm.standbyProg) =
      if p then (s.frm.standbyProg, s.frm.curProg) else (s.frm.curProg, s.frm.standbyProg) := by
  cases p <;> rfl

theorem State.swapBanks_plan (s : State) (p q : Bool) :
    ((s.swapBanks p q).frm.curPlan, (s.swapBanks p q).frm.standbyPlan) =
      if q then (s.frm.standbyPlan, s.frm.curPlan) else (s.frm.curPlan, s.frm.standbyPlan) := by
  cases q <;> rfl

/-- SWITCH_FAIL reported from a state that has flagged the frame event. -/
theorem State.switchFail_sends (s : State) (a : Armed) :
    Sends ((s.frameEvent 3).noteMgmt (.switchFail a.epoch .switchFail))
      ((s.frameEvent 3).say (.switchFail a.epoch .switchFail)) := State.say_sends _ _

theorem State.failSwitch_frm (s : State) (a : Armed) :
    (s.failSwitch a).frm = { s.frm with armed := none, halted := true, noSlots := true, framesSinceSwitch := 4,
                                        retained := some (s.retain a.epoch a.mode) } := by
  have h : ((s.frameEvent 3).say (.switchFail a.epoch .switchFail)).frm = s.frm :=
    (s.switchFail_sends a).frm.trans (State.sendVec_frm _ _)
  simp only [State.failSwitch, h]

theorem State.failSwitch_mgmt (s : State) (a : Armed) :
    (s.failSwitch a).out.mgmt = s.out.mgmt ++ [.switchFail a.epoch .switchFail] := by
  have h : (s.frameEvent 3).out.mgmt = s.out.mgmt := State.sendVec_out_mgmt _ _
  rw [← h]
  exact (s.switchFail_sends a).mgmt

theorem State.failSwitch_status (s : State) (a : Armed) : (s.failSwitch a).regBit Reg.FRM_STATUS 3 = true := by
  have h : (s.failSwitch a).reg Reg.FRM_STATUS = (s.stick Reg.FRM_STATUS 3).reg Reg.FRM_STATUS :=
    (s.switchFail_sends a).status.trans (State.sendVec_reg _ _ _)
  rw [State.regBit, h]
  exact s.stick_regBit Reg.FRM_STATUS (by decide)

theorem State.switchAt_taken {s : State} {a : Armed} {intact : Bool} (h : s.changes a.mode = false ∨ intact = true) :
    s.switchAt a intact = ((if s.changes a.mode then s.cutAttempt else s).takeMode a).releaseHeld := by
  have hf : (s.changes a.mode && !intact) = false := by rcases h with h | h <;> simp [h]
  simp only [State.switchAt, hf, Bool.false_eq_true, if_false]

theorem State.switchAt_failed {s : State} {a : Armed} (h : s.changes a.mode = true) :
    s.switchAt a false = s.cutAttempt.failSwitch a := by
  simp only [State.switchAt, h, Bool.not_false, Bool.and_self, if_true]

theorem exec_modeSwitch_due {s : State} {a : Armed} (ha : s.frm.armed = some a) (ht : s.frm.ticking = true)
    (hb : s.frm.begun = false) (hr : s.rollbackDue = false) (hd : a.tick.toNat ≤ s.frm.tick.toNat) (intact : Bool) :
    exec (.modeSwitch intact) s = .next ((s.switchAt a intact).noteProgram s).enterFrame := by
  change execModeSwitch intact s = _
  have hs : s.switchDue = true := by simp [State.switchDue, ha, hd]
  simp only [execModeSwitch, ha, ht, hb, hr, hs, Bool.not_false, Bool.and_self, if_true]

theorem exec_modeSwitch_undue {s : State} (h : s.frm.armed = none ∨ s.switchDue = false) (intact : Bool) :
    exec (.modeSwitch intact) s = .next s := by
  change execModeSwitch intact s = _
  unfold execModeSwitch
  split
  · next a ha =>
    have hs : s.switchDue = false := h.resolve_left (by simp [ha])
    simp only [hs, Bool.and_false, Bool.false_eq_true, if_false]
  · rfl

/-! ### The rollback (R69) -/

theorem exec_rollbackApply_due {s : State} {rb : Rollback} (h : s.frm.rollback = some rb) (ht : s.frm.ticking = true)
    (hb : s.frm.begun = false) (hd : rb.tick.toNat ≤ s.frm.tick.toNat) :
    exec .rollbackApply s = .next ((s.rollBack rb).noteProgram s).enterFrame := by
  change execRollbackApply s = _
  have hs : s.rollbackDue = true := by simp [State.rollbackDue, h, hd]
  simp only [execRollbackApply, h, ht, hb, hs, Bool.not_false, Bool.and_self, if_true]

theorem exec_rollbackApply_none {s : State} (h : s.frm.rollback = none) : exec .rollbackApply s = .next s := by
  change execRollbackApply s = _
  simp only [execRollbackApply, h]

end Sys2Proof.Machine

namespace Sys2Proof.FrameTick

open Sys2Proof Sys2Proof.Machine

/-- Settles O25: the probes are noted in order of port, an echo's offset is half the difference of its two ways, and a trim takes
at most 8 steps. -/
theorem alignmentExchange : Obligations.AlignmentExchange := by
  refine ⟨fun s => ⟨fun now => exec_alignRound_probes now, fun now => exec_alignRound_alone now,
    fun n h t1 t2 t3 since ht hr hp => exec_tickProbe_answered ht hr hp, ?_, ?_⟩,
    fun s => State.closeRound_missed⟩
  · intro n h t1 t2 t3 t4 tick since ha ho hsrc hp hn
    obtain ⟨hlo, hhi⟩ := planeOffset_bounds t1 t2 t3 t4
    exact ⟨_, rfl, hlo, hhi, exec_tickEcho_taken ha ho hsrc hp hn⟩
  · obtain ⟨hrest, hstep⟩ := trimOf_bounds s.frm.alignLeft
    have hd : s.frm.alignLeft - s.trimFrame.frm.alignLeft = trimOf s.frm.alignLeft := sub_sub_cancel _ _
    rw [hd]
    exact ⟨hrest, hstep, rfl, rfl⟩

/-- Settles O26: when the switch and the rollback run, and what each leaves in force. -/
theorem switchAndRollback : Obligations.SwitchAndRollback := by
  intro s
  refine ⟨fun a intact ha ht hb hr hd => ⟨exec_modeSwitch_due ha ht hb hr hd intact, State.switchAt_taken, ?_⟩,
    exec_modeSwitch_undue, fun a => ?_, fun a => ?_, ?_, exec_rollbackApply_none⟩
  · rintro hc rfl
    exact State.switchAt_failed hc
  · intro t
    rw [show t.frm = _ from s.takeMode_frm a]
    exact ⟨rfl, rfl, rfl, rfl, rfl, ⟨_, rfl, rfl, rfl, rfl⟩,
      s.swapBanks_prog (s.changesProg a.mode) (s.changesPlan a.mode),
      s.swapBanks_plan (s.changesProg a.mode) (s.changesPlan a.mode), s.takeMode_mem a⟩
  · intro t
    rw [show t.frm = _ from s.failSwitch_frm a]
    exact ⟨rfl, rfl, rfl, s.failSwitch_status a, s.failSwitch_mgmt a, rfl⟩
  · intro rb h ht hb hd
    exact exec_rollbackApply_due h ht hb hd

end Sys2Proof.FrameTick
end

section
/-! ## Slots, the work window and the commit window -/

namespace Sys2Proof.Machine

/-! ### Time and guard-band use -/

theorem State.useGuard_eq (s : State) (c : GuardCause) : s.useGuard c =
    { s with frm := { s.frm with guardUsed := true, guardCause := some (s.frm.guardCause.getD c) } } := by
  unfold State.useGuard
  cases s.frm.guardCause <;> rfl

/-- Guard-band use is all that a unit which runs on past the work window notes. -/
theorem State.runningUse_eq (s : State) : s.runningUse =
    { s with frm := { s.frm with guardUsed := s.runningUse.frm.guardUsed, guardCause := s.runningUse.frm.guardCause } } := by
  unfold State.runningUse
  (repeat' split) <;> rfl

/-- Passing to a time changes the cycle count, registers, the phase and the guard-band use. -/
theorem State.timeTo_eq (s : State) (n : Nat) : s.timeTo n =
    { s with rc := (s.timeTo n).rc, regs := (s.timeTo n).regs,
             frm := { s.frm with phase := (s.timeTo n).frm.phase, guardUsed := (s.timeTo n).frm.guardUsed,
                                 guardCause := (s.timeTo n).frm.guardCause } } := by
  unfold State.timeTo
  dsimp only
  split
  · rw [State.runningUse_eq, State.advance_eq]
  · rw [State.advance_eq]

@[simp] theorem State.timeTo_mem (s : State) (n : Nat) : (s.timeTo n).mem = s.mem := by rw [State.timeTo_eq]
@[simp] theorem State.timeTo_out (s : State) (n : Nat) : (s.timeTo n).out = s.out := by rw [State.timeTo_eq]
@[simp] theorem State.timeTo_upd (s : State) (n : Nat) : (s.timeTo n).upd = s.upd := by rw [State.timeTo_eq]
@[simp] theorem State.timeTo_frm_tick (s : State) (n : Nat) : (s.timeTo n).frm.tick = s.frm.tick := by rw [State.timeTo_eq]
@[simp] theorem State.timeTo_frm_events (s : State) (n : Nat) : (s.timeTo n).frm.events = s.frm.events := by
  rw [State.timeTo_eq]
@[simp] theorem State.timeTo_frm_frameIndex (s : State) (n : Nat) : (s.timeTo n).frm.frameIndex = s.frm.frameIndex := by
  rw [State.timeTo_eq]

/-! ### The start of a slot (R48) -/

/-- The cycle count, memory, what was sent, the tick number and the event counters stand as before. -/
structure Steady (s t : State) : Prop where
  rc : t.rc = s.rc
  mem : t.mem = s.mem
  out : t.out = s.out
  tick : t.frm.tick = s.frm.tick
  events : t.frm.events = s.frm.events

theorem Steady.trans {s t u : State} (h : Steady s t) (k : Steady t u) : Steady s u :=
  ⟨k.rc.trans h.rc, k.mem.trans h.mem, k.out.trans h.out, k.tick.trans h.tick, k.events.trans h.events⟩

theorem State.runningUse_steady (s : State) : Steady s s.runningUse := by
  rw [State.runningUse_eq]
  exact ⟨rfl, rfl, rfl, rfl, rfl⟩

theorem State.dropOldRun_steady (s : State) (ref : SlotRef) : Steady s (s.dropOldRun ref) := by
  unfold State.dropOldRun
  split <;> exact ⟨rfl, rfl, rfl, rfl, rfl⟩

theorem State.countHeld_steady (s : State) (d : SlotDesc) : Steady s (s.countHeld d) := by
  unfold State.countHeld
  dsimp only
  split <;> exact ⟨rfl, rfl, rfl, rfl, rfl⟩

/-- A slot begins in a state that is steady and holds its fresh run; what follows is guard-band use. -/
theorem State.beginSlot_eq (s : State) (ref : SlotRef) (d : SlotDesc) : ∃ u : State,
    Steady s u ∧ freshRun ref d.unit s.rc s.mem s.frm.frameIndex s.attemptId ∈ u.frm.slots ∧
      s.beginSlot ref d = if u.workEnd < u.frm.phase then u.runningUse else u := by
  have h1 : Steady s ((s.dropOldRun ref).countHeld d) := (s.dropOldRun_steady ref).trans (State.countHeld_steady _ d)
  unfold State.beginSlot
  generalize (s.dropOldRun ref).countHeld d = s1 at h1
  dsimp only
  rw [h1.rc, h1.mem]
  refine ⟨_, h1.trans ?_, ?_, rfl⟩
  · split <;> exact ⟨rfl, rfl, rfl, rfl, rfl⟩
  · split <;> exact List.mem_append_right _ (List.mem_singleton_self _)

theorem State.beginSlot_steady (s : State) (ref : SlotRef) (d : SlotDesc) : Steady s (s.beginSlot ref d) := by
  obtain ⟨u, hu, -, he⟩ := s.beginSlot_eq ref d
  rw [he]
  split
  · exact hu.trans u.runningUse_steady
  · exact hu

theorem State.mem_beginSlot_slots (s : State) (ref : SlotRef) (d : SlotDesc) :
    freshRun ref d.unit s.rc s.mem s.frm.frameIndex s.attemptId ∈ (s.beginSlot ref d).frm.slots := by
  obtain ⟨u, -, hm, he⟩ := s.beginSlot_eq ref d
  rw [he]
  split
  · rw [State.runningUse_eq]
    exact hm
  · exact hm

section

variable {s : State} {slot : SlotArg} {rc : BitVec 18} {d : SlotDesc}

theorem exec_slotStart_begins (hd : s.descOf (refOf slot) = some d) (hm : s.mayStart48 (refOf slot) d = true)
    (hs : d.start ≤ Nat.max rc.toNat s.slotTime) (ht : s.inTime rc.toNat = true)
    (hh : (s.timeTo rc.toNat).held209 d = false) :
    exec (.slotStart slot rc) s = .next ((s.timeTo rc.toNat).beginSlot (refOf slot) d) := by
  change execSlotStart slot rc s = _
  simp only [execSlotStart, hd, hm, hs, ht, hh, decide_true, Bool.and_self, Bool.false_eq_true, if_true, if_false]

theorem State.mayStart48_false (h : s.inFrame (refOf slot) = false ∨ s.unitFree d.unit = false ∨ s.waitMet d = false ∨
    s.earlierOver (refOf slot) d = false) : s.mayStart48 (refOf slot) d = false := by
  unfold State.mayStart48
  rcases h with h | h | h | h <;> simp [h]

theorem exec_slotStart_waits (hd : s.descOf (refOf slot) = some d)
    (h : s.mayStart48 (refOf slot) d = false ∨ Nat.max rc.toNat s.slotTime < d.start) :
    exec (.slotStart slot rc) s = .next s := by
  change execSlotStart slot rc s = _
  simp only [execSlotStart, hd]
  rcases h with h | h
  · simp only [h, Bool.false_and, Bool.false_eq_true, if_false]
  · simp only [Nat.not_le.2 h, decide_false, Bool.and_false, Bool.false_and, Bool.false_eq_true, if_false]

end

/-! ### The end of a slot (R49, R55) -/

theorem State.run_ref {s : State} {ref : SlotRef} {r : SlotRun} (h : s.run ref = some r) : r.ref = ref := by
  simpa using List.find?_some h

section

variable {s : State} {slot : SlotArg} {rc : BitVec 18} {hot : BitVec 8} {n : BitVec 32} {r : SlotRun} {d : SlotDesc}
  (hr : s.run (refOf slot) = some r) (hd : s.descOf (refOf slot) = some d) (hp : r.phase = .running)
  (ht : s.inTime rc.toNat = true)
include hr hd hp ht

theorem exec_slotEnd_ok : exec (.slotEnd slot rc ⟨.ok, hot, n⟩) s =
    .next (if s.slotDone r then ((s.timeTo rc.toNat).csCorrected n.toNat).endOk r d else s) := by
  change execSlotEnd slot rc ⟨.ok, hot, n⟩ s = _
  simp only [execSlotEnd, hr, hd, hp, ht, endClass, ne_eq, not_true_eq_false, decide_false, Bool.not_true, Bool.or_self,
    Bool.false_eq_true, if_false]

theorem exec_slotEnd_error {e : SlotEnd} {c : RasClass} (hc : endClass e = some c) (hl : r.unit.ty ≠ 3 ∨ r.last = true) :
    exec (.slotEnd slot rc ⟨e, hot, n⟩) s =
      .next (((s.timeTo rc.toNat).csCorrected n.toNat).endError r d e c hot) := by
  change execSlotEnd slot rc ⟨e, hot, n⟩ s = _
  have hn : ¬ (r.unit.ty = 3 ∧ (!r.last) = true) := by
    rintro ⟨h3, hf⟩
    rcases hl with hl | hl
    · exact hl h3
    · simp [hl] at hf
  simp only [execSlotEnd, hr, hd, hp, ht, hc, ne_eq, not_true_eq_false, decide_false, Bool.not_true, Bool.or_self,
    Bool.false_eq_true, if_neg hn, if_false]

end

/-- A slot with SIGNAL set increments its counter. -/
theorem State.slotSignal_counts {s : State} {d : SlotDesc} (hb : bit d.flags 2 = true)
    (hl : tget 0 s.frm.events d.signalCtr < 0xFFFF) :
    tget 0 (s.slotSignal d).frm.events d.signalCtr = tget 0 s.frm.events d.signalCtr + 1 := by
  have h : (s.slotSignal d).frm.events =
      tset s.frm.events d.signalCtr (Nat.min 0xFFFF (tget 0 s.frm.events d.signalCtr + 1)) := by
    simp only [State.slotSignal, hb, if_true, State.signalCtr]
  rw [h, tget_tset_same]
  exact Nat.min_eq_right hl

/-- After an error that is no hard failure, a slot still known to the frame is replayed where that fits, and otherwise failed
with REPLAY_SKIPPED. -/
theorem State.afterError_soft {s : State} {r : SlotRun} {d : SlotDesc} {e : SlotEnd} {hot : BitVec 8}
    (hr : (s.run r.ref).isNone = false) (hi : (s.dropWork r).unitIdle r.unit = false)
    (hs : r.unit.ty ≠ 1 ∨ (r.replay = false ∧ endFixed e = false)) :
    s.afterError r d e hot = if d.replayable && (s.dropWork r).replayFits d hot then (s.dropWork r).replayRun r
      else ((s.dropWork r).failRun (some r.ref)).skipReplay r.unit := by
  have hh : ¬ (r.unit.ty = 1 ∧ (r.replay = true ∨ endFixed e = true)) := by
    rintro ⟨h1, h2⟩
    rcases hs with hs | ⟨h3, h4⟩
    · exact hs h1
    · simp [h3, h4] at h2
  simp only [State.afterError, hr, hi, Bool.false_eq_true, if_false, if_neg hh]

theorem satAdd_zero (w : Word) : satAdd w 0 = w := by
  have h : w.toNat + 0 ≤ 0xFFFFFFFF := by have := w.isLt; omega
  rw [satAdd, if_pos h, Nat.add_zero, BitVec.ofNat_toNat, BitVec.setWidth_eq]

/-- Corrected core store words are flagged and counted. -/
theorem State.csCorrected_flag {s : State} {n : Nat} (h : n ≠ 0) : (s.csCorrected n).regBit Reg.MEM_STATUS 0 = true := by
  rw [State.csCorrected, if_neg h]
  exact State.stick_regBit _ Reg.MEM_STATUS (by decide)

theorem State.csCorrected_count (s : State) (n : Nat) :
    (s.csCorrected n).reg Reg.MEM_CNT_CS_CE = satAdd (s.reg Reg.MEM_CNT_CS_CE) n := by
  unfold State.csCorrected
  split
  · next h => rw [h, satAdd_zero]
  · rw [State.stick_reg, if_neg (by decide), State.bump_reg, if_pos rfl]

/-! ### The work window and the commit window (R54, R235, R489) -/

theorem exec_workWindowEnd_idle {s : State} (h : s.frm.ticking = false) : exec .workWindowEnd s = .next s := by
  change execWorkWindowEnd s = _
  simp [execWorkWindowEnd, h]

theorem exec_workWindowEnd_ends {s : State} (ht : s.frm.ticking = true) (hp : s.frm.double = false ∨ s.frm.pairBase ≠ 0) :
    let u := (s.advance s.workEnd).runningUse
    exec .workWindowEnd s = .next (if u.guardLimit * 10000000 < u.phys.sum then
      (({ u with phys := { u.phys with idling := true } }).stick Reg.PWR_STATUS 0).useGuard .power else u) := by
  change execWorkWindowEnd s = _
  have h : (s.frm.double && s.frm.pairBase == 0) = false := by rcases hp with hp | hp <;> simp [hp]
  simp only [execWorkWindowEnd, ht, h, Bool.not_true, Bool.or_self, Bool.false_eq_true, if_false]

theorem exec_commitWindow_decides {s : State} (ht : s.frm.ticking = true) (hb : s.frm.begun = true)
    (hc : s.upd.commit = .running) (hl : s.lastFrame = true) :
    exec .commitWindow s = .next (s.advance (s.frameLen - s.commitWin)).decideCommit := by
  change execCommitWindow s = _
  simp only [execCommitWindow, ht, hb, hc, hl, beq_self_eq_true, Bool.and_self, if_true]

theorem exec_commitWindow_idle {s : State} (h : s.upd.commit ≠ .running ∨ s.lastFrame = false ∨ s.frm.begun = false) :
    exec .commitWindow s = .next s := by
  change execCommitWindow s = _
  rcases h with h | h | h <;> simp [execCommitWindow, h]

end Sys2Proof.Machine

namespace Sys2Proof.FrameTick

open Sys2Proof Sys2Proof.Machine

/-- Settles O27: the slot begins after the time given has passed, and what holds it back leaves the state as it is. -/
theorem slotStart : Obligations.SlotStart := by
  intro s slot rc d hd
  refine ⟨fun hm hs ht hh => ?_, fun h => exec_slotStart_waits hd ?_⟩
  · have hk := (s.timeTo rc.toNat).beginSlot_steady (refOf slot) d
    have hin := (s.timeTo rc.toNat).mem_beginSlot_slots (refOf slot) d
    simp only [State.attemptId, State.timeTo_mem, State.timeTo_upd, State.timeTo_frm_frameIndex] at hin
    exact ⟨_, exec_slotStart_begins hd hm hs ht hh, hin, hk.mem.trans (s.timeTo_mem _), hk.out.trans (s.timeTo_out _),
      hk.tick.trans (s.timeTo_frm_tick _), hk.events.trans (s.timeTo_frm_events _)⟩
  · rcases h with h | h | h | h | h
    · exact .inl (State.mayStart48_false (.inl h))
    · exact .inl (State.mayStart48_false (.inr (.inl h)))
    · exact .inl (State.mayStart48_false (.inr (.inr (.inl h))))
    · exact .inl (State.mayStart48_false (.inr (.inr (.inr h))))
    · exact .inr h

/-- Settles O28: how a slot ends, what an error leads to, and what is counted. When a planned length fits is the model's choice
(log entries 56 and 71). -/
theorem slotEndAndReplay : Obligations.SlotEndAndReplay := by
  intro s slot rc hot n r d hr hd hp ht u
  have hrun : (s.run r.ref).isNone = false := by rw [State.run_ref hr, hr]; rfl
  refine ⟨fun h => ?_, fun h => ?_, fun e c hc hl => exec_slotEnd_error hr hd hp ht hc hl, State.slotSignal_counts,
    fun e hi hs => ⟨fun h1 h2 => ?_, fun h => ?_⟩, fun h => State.csCorrected_flag fun hn => h (BitVec.eq_of_toNat_eq hn),
    State.csCorrected_count s n.toNat⟩
  · rw [exec_slotEnd_ok hr hd hp ht, if_pos h]
  · rw [exec_slotEnd_ok hr hd hp ht, h]
    rfl
  · rw [State.afterError_soft hrun hi hs, h1, h2]
    rfl
  · have hf : (d.replayable && (s.dropWork r).replayFits d hot) = false := by rcases h with h | h <;> simp [h]
    rw [State.afterError_soft hrun hi hs, hf]
    rfl

/-- Settles O29: the guard's comparison at the end of the work window, and the frame in which the commit is decided. -/
theorem workAndCommitWindows : Obligations.WorkAndCommitWindows := by
  intro s
  refine ⟨?_, exec_workWindowEnd_idle, exec_commitWindow_decides, exec_commitWindow_idle⟩
  intro ht hp u
  rw [exec_workWindowEnd_ends ht hp]
  refine ⟨fun h => by rw [if_neg (Nat.not_lt.2 h)], fun h => ?_⟩
  rw [if_pos h, State.useGuard_eq]
  exact ⟨_, rfl, rfl, State.stick_regBit _ Reg.PWR_STATUS (by decide), rfl, rfl, rfl, rfl⟩

end Sys2Proof.FrameTick
end

section
/-! ## The end of a step -/

namespace Sys2Proof.Machine

/-! ### What raising a record leaves as it was (R501 to R503) -/

/-- The registers that count and flag records. -/
def rasNoted : List Nat :=
  [Reg.RAS_STATUS, Reg.RAS_CNT_OVERFLOW, Reg.RAS_CNT_DEFERRED, Reg.RAS_CNT_FRAME_FATAL, Reg.RAS_CNT_STEP_FATAL,
   Reg.RAS_CNT_DEVICE_FATAL]

/-- The state with a record noted: the registers of `rasNoted`, the RAS engine, interrupts and the step's mark, and nothing
else. -/
structure Recorded (s t : State) : Prop where
  eq : t = { s with regs := t.regs, host := t.host, ras := t.ras, out := t.out,
                    frm := { s.frm with uncommittable := t.frm.uncommittable } }
  reg : ∀ r, r ∉ rasNoted → t.reg r = s.reg r

theorem Recorded.refl (s : State) : Recorded s s := ⟨rfl, fun _ _ => rfl⟩

theorem Recorded.trans {s t u : State} (h : Recorded s t) (k : Recorded t u) : Recorded s u :=
  ⟨by rw [k.eq, h.eq], fun r hr => (k.reg r hr).trans (h.reg r hr)⟩

theorem Recorded.upd {s t : State} (h : Recorded s t) : t.upd = s.upd := by rw [h.eq]
theorem Recorded.mem {s t : State} (h : Recorded s t) : t.mem = s.mem := by rw [h.eq]

theorem Recorded.withRas {s t : State} (h : Recorded s t) (q : RasState) : Recorded s { t with ras := q } :=
  h.trans ⟨rfl, fun _ _ => rfl⟩

theorem Recorded.bump {s t : State} (h : Recorded s t) {off : Nat} (ho : off ∈ rasNoted) (n : Nat) :
    Recorded s (t.bump off n) :=
  h.trans ⟨rfl, fun r hr => by rw [State.bump_reg, if_neg (ne_of_mem_of_not_mem ho hr).symm]⟩

theorem Recorded.stick {s t : State} (h : Recorded s t) {off : Nat} (ho : off ∈ rasNoted) (i : Nat) :
    Recorded s (t.stick off i) :=
  h.trans ⟨rfl, fun r hr => by rw [State.stick_reg, if_neg (ne_of_mem_of_not_mem ho hr).symm]⟩

theorem Recorded.sendVec {s t : State} (h : Recorded s t) (v : Nat) : Recorded s (t.sendVec v) :=
  h.trans ⟨by unfold State.sendVec; (repeat' split) <;> rfl,
    fun r _ => congrArg (fun x => tget (regReset r) x r) (t.sendVec_regs v)⟩

theorem rasCounter_mem (sev : Nat) : rasCounter sev ∈ rasNoted := by
  unfold rasCounter
  split_ifs <;> decide

theorem State.rasArrive_recorded (s : State) (sev : Nat) : Recorded s (s.rasArrive sev) := by
  have h1 : Recorded s (s.bump (rasCounter sev) 1) := (Recorded.refl s).bump (rasCounter_mem sev) 1
  have h2 : Recorded s (if sev ≤ 3 then (s.bump (rasCounter sev) 1).stick Reg.RAS_STATUS (sev - 1)
      else s.bump (rasCounter sev) 1) := by
    split
    · exact h1.stick (by decide) _
    · exact h1
  unfold State.rasArrive
  dsimp only
  generalize (if sev ≤ 3 then _ else _) = t at h2 ⊢
  split
  · exact h2.sendVec _
  · exact h2

theorem State.rasEnqueue_recorded (s : State) (r : RasRecord) : Recorded s (s.rasEnqueue r) := by
  unfold State.rasEnqueue
  dsimp only
  split
  · exact (Recorded.refl s).withRas _
  · exact (((Recorded.refl s).withRas _).bump (by decide) 1).stick (by decide) 3

theorem State.rasPlace_recorded (s : State) (r : RasRecord) : Recorded s (s.rasPlace r) := by
  unfold State.rasPlace
  split
  · exact (Recorded.refl s).withRas _
  · split
    · exact ((Recorded.refl s).withRas _).trans (State.rasEnqueue_recorded _ _)
    · exact s.rasEnqueue_recorded r

theorem State.rasAct_recorded {sev : Nat} (h : sev ≠ 4) (s : State) : Recorded s (s.rasAct sev) := by
  unfold State.rasAct
  rw [if_neg h]
  split
  · exact ⟨rfl, fun _ _ => rfl⟩
  · exact .refl s

/-- A record that is not device-fatal resets nothing. -/
theorem State.raise_recorded {c : RasClass} (hc : c.severity ≠ 4) (s : State) (u : UnitId) (d : Nat) :
    Recorded s (s.raise c u d) := by
  unfold State.raise State.raiseFull
  have h1 := ((Recorded.refl s).withRas { s.ras with seq := s.ras.seq + 1 }).trans (State.rasArrive_recorded _ c.severity)
  generalize ({ s with ras := { s.ras with seq := s.ras.seq + 1 } } : State).rasArrive c.severity = t at h1
  have h2 : ∀ r, Recorded s ((t.rasPlace r).rasAct c.severity) := fun r =>
    (h1.trans (t.rasPlace_recorded r)).trans (State.rasAct_recorded hc _)
  dsimp only
  split
  · rw [beq_eq_false_iff_ne.2 hc, Bool.and_false, if_neg Bool.false_ne_true]
    exact h2 _
  · exact h2 _

/-! ### What leaves the update machinery as it was -/

theorem State.foldl_upd {α : Type} {f : State → α → State} (hf : ∀ s a, (f s a).upd = s.upd) (xs : List α) (s : State) :
    (xs.foldl f s).upd = s.upd := by
  induction xs generalizing s with
  | nil => rfl
  | cons x xs ih => exact (ih _).trans (hf s x)

@[simp] theorem State.store_upd (s : State) (addr : Nat) (bs : List Byte) : (s.store addr bs).upd = s.upd := by
  obtain ⟨u, hu, h⟩ := s.store_eq addr bs
  rw [h, hu.eq]

@[simp] theorem State.stores_upd (s : State) (ws : List (Nat × List Byte)) : (s.stores ws).upd = s.upd := by
  induction ws generalizing s with
  | nil => rfl
  | cons w ws ih => exact (ih _).trans (s.store_upd _ _)

@[simp] theorem State.putSsb_upd (s : State) (off : Nat) (bs : List Byte) : (s.putSsb off bs).upd = s.upd :=
  s.store_upd _ bs

@[simp] theorem State.swapDesc_upd (s : State) (a b : Nat) : (s.swapDesc a b).upd = s.upd := by
  unfold State.swapDesc
  split <;> simp

/-- The exchange of a commit (R235) touches memory alone. -/
@[simp] theorem State.exchange_upd (s : State) : s.exchange.upd = s.upd :=
  State.foldl_upd (fun s (l : Nat × List UpdPair) =>
    State.foldl_upd (fun s (p : UpdPair) => s.swapDesc_upd p.shadow p.live) l.2 s) _ s

/-! The Loupe's part of the commit window (R264). -/

@[simp] theorem State.putDescByte_upd (s : State) (addrs : List Nat) (off b : Nat) :
    (s.putDescByte addrs off b).upd = s.upd := State.foldl_upd (fun s a => s.store_upd (a + off) _) _ s

@[simp] theorem State.recompute_upd (s : State) (i cause : Nat) : (s.recompute i cause).upd = s.upd := by
  unfold State.recompute State.putTe
  split <;> simp

@[simp] theorem State.updateRefs_upd (s : State) (i : Nat) : (s.updateRefs i).upd = s.upd := by
  unfold State.updateRefs
  dsimp only
  split <;> simp

@[simp] theorem State.driftFix_upd (s : State) (i : Nat) : (s.driftFix i).upd = s.upd := by
  unfold State.driftFix
  dsimp only
  split <;> simp

@[simp] theorem State.rewriteShadow_upd (s : State) (i : Nat) : (s.rewriteShadow i).upd = s.upd := by
  unfold State.rewriteShadow
  dsimp only
  split <;> simp

@[simp] theorem State.putHeader_upd (s : State) (t : Nat) : (s.putHeader t).upd = s.upd := by
  unfold State.putHeader
  split <;> simp

@[simp] theorem State.swapLayer_upd (s : State) (layer : Nat) : (s.swapLayer layer).upd = s.upd := by
  refine State.foldl_upd (fun s i => ?_) _ s
  dsimp only
  split <;> simp

@[simp] theorem State.fallbackReverse_upd (s : State) : s.fallbackReverse.upd = s.upd :=
  State.foldl_upd (fun s l => by simp) _ s

@[simp] theorem State.loupeClear_upd (s : State) : s.loupeClear.upd = s.upd := by
  unfold State.loupeClear
  simp [State.foldl_upd]

@[simp] theorem State.commitWork_upd (s : State) : s.commitWork.upd = s.upd := by simp [State.commitWork]

/-! Sending a packet (R368, R378). -/

@[simp] theorem State.stationLost_upd (s : State) (dst : Nat) : (s.stationLost dst).upd = s.upd := by
  unfold State.stationLost
  dsimp only
  rw [(State.raise_recorded (by decide) _ _ _).upd, State.stick_upd]
  (repeat' split) <;> rfl

theorem State.sealPacket_upd {s t : State} {p q : Packet} {plane : Nat} (h : s.sealPacket p plane = some (q, t)) :
    t.upd = s.upd := by
  unfold State.sealPacket at h
  dsimp only at h
  split at h
  · obtain ⟨-, rfl⟩ := Prod.mk.inj (Option.some.inj h)
    rfl
  · split at h
    · obtain ⟨-, rfl⟩ := Prod.mk.inj (Option.some.inj h)
      rfl
    · split at h
      · cases h
      · obtain ⟨-, rfl⟩ := Prod.mk.inj (Option.some.inj h)
        rfl

@[simp] theorem State.transmit_upd (s : State) (n : Nat) (p : Packet) : (s.transmit n p).upd = s.upd := by
  unfold State.transmit
  dsimp only
  split
  · rfl
  · next h => exact (State.sealPacket_upd h :)

@[simp] theorem State.linkSend_upd (s : State) (n : Nat) (p : Packet) : (s.linkSend n p).upd = s.upd := by
  unfold State.linkSend
  dsimp only
  split
  · rfl
  · exact s.transmit_upd n p

@[simp] theorem State.notePlane_upd (s : State) (dst n : Nat) : (s.notePlane dst n).upd = s.upd := rfl

@[simp] theorem State.keepSent_upd (s : State) (p : Packet) : (s.keepSent p).upd = s.upd := by
  unfold State.keepSent
  dsimp only
  split <;> rfl

@[simp] theorem State.sendPacket_upd (s : State) (p : Packet) : (s.sendPacket p).upd = s.upd := by
  unfold State.sendPacket
  dsimp only
  (repeat' split) <;> simp

@[simp] theorem State.sendTrans_upd (s : State) (t : Trans) : (s.sendTrans t).upd = s.upd := State.sendPacket_upd _ _

@[simp] theorem State.yieldBackground_upd (s : State) : s.yieldBackground.upd = s.upd := by
  unfold State.yieldBackground
  split <;> rfl

@[simp] theorem State.request_upd (s : State) (type dst addr aux : Nat) (payload : List Byte) (owner : TransFor)
    (dest : Option Nat) : (s.request type dst addr aux payload owner dest).upd = s.upd := by
  unfold State.request
  dsimp only
  (repeat' split) <;> simp

@[simp] theorem State.remoteWrite_upd (s : State) (owner : TransFor) (dst off : Nat) (bs : List Byte) :
    (s.remoteWrite owner dst off bs).upd = s.upd := State.foldl_upd (fun s _ => s.request_upd ..) _ s

/-! The Flerra log at a commit (R526 to R529). -/

@[simp] theorem State.hostCopy_upd (s : State) (t : Nat) : (s.hostCopy t).upd = s.upd := by
  unfold State.hostCopy
  split <;> simp

@[simp] theorem State.hostCatchup_upd (s : State) : s.hostCatchup.upd = s.upd := by
  unfold State.hostCatchup
  split
  · rfl
  · split
    · rfl
    · exact State.foldl_upd (fun s i => s.hostCopy_upd _) _ _

@[simp] theorem State.hostLag_upd (s : State) (t : Nat) : (s.hostLag t).upd = s.upd :=
  (State.raise_recorded (by decide) _ _ _).upd

@[simp] theorem State.logToHost_upd (s : State) (t : Nat) : (s.logToHost t).upd = s.upd := by
  unfold State.logToHost
  (repeat' split) <;> simp

@[simp] theorem State.logToPartner_upd (s : State) (t : Nat) (e : List Byte) : (s.logToPartner t e).upd = s.upd := by
  unfold State.logToPartner
  dsimp only
  split <;> simp

@[simp] theorem State.finishRecord_upd (s : State) (i : Nat) (x : Status) : (s.finishRecord i x).upd = s.upd :=
  State.sendVec_upd _ _

@[simp] theorem State.replayStep_upd (s : State) : s.replayStep.upd = s.upd := by
  unfold State.replayStep
  dsimp only
  (repeat' split) <;> simp

@[simp] theorem State.flerraCommit_upd (s : State) (tick : Nat) : (s.flerraCommit tick).upd = s.upd := by
  unfold State.flerraCommit
  dsimp only
  (repeat' split) <;> simp

/-! ### The tick that ends a step (R235, R237) -/

theorem State.endCommitted_upd (s : State) (tick : Nat) :
    (s.endCommitted tick).upd = { s.upd with t := s.upd.t + 1, attempt := 0, last := 1, clear := false } := by
  simp [State.endCommitted, State.setUpd]

theorem State.endDiscarded_eq (s : State) : s.endDiscarded =
    { (s.bump Reg.UPD_CNT_DISCARDS 1).stick Reg.UPD_STATUS 6 with
      upd := { s.upd with last := 2 }, ras := s.endDiscarded.ras } := by
  unfold State.endDiscarded
  dsimp only
  split <;> rfl

/-- The end of an attempt clears the lists, the frame's marks and the step's counts; the rest stays. -/
theorem State.closeAttempt_eq (s : State) : s.closeAttempt =
    { s with upd := { s.upd with commit := .idle, lists := [] }, frm := s.closeAttempt.frm, ras := s.closeAttempt.ras } := rfl

theorem State.endStep_commits {s : State} {tick : Nat} (hr : s.upd.commit ≠ .running) (hi : s.upd.commit ≠ .idle)
    (hc : s.upd.clear = true) (hs : s.coresShort = false) :
    s.endStep tick = (s.commitWork.endCommitted tick).closeAttempt := by
  simp [State.endStep, hr, hi, hc, hs]

theorem State.endStep_discards {s : State} {tick : Nat} (hr : s.upd.commit ≠ .running) (hi : s.upd.commit ≠ .idle)
    (h : s.upd.clear = false ∨ s.coresShort = true) : s.endStep tick = s.endDiscarded.closeAttempt := by
  rcases h with h | h <;> simp [State.endStep, hr, hi, h]

end Sys2Proof.Machine

namespace Sys2Proof.TrainingUpdate

open Sys2Proof Sys2Proof.Machine

/-- Settles O30: neither the exchange nor the Loupe's part nor the log touches t, which the commit then advances. -/
theorem clearStepCommits : Obligations.ClearStepCommits := by
  intro s tick hr hi hc hs
  have hu : (s.endStep tick).upd =
      { s.upd with t := s.upd.t + 1, attempt := 0, last := 1, clear := false, commit := .idle, lists := [] } := by
    rw [State.endStep_commits hr hi hc hs, State.closeAttempt_eq, State.endCommitted_upd, State.commitWork_upd]
  refine ⟨by rw [hu], by rw [hu], by rw [hu], by rw [hu], ?_, fun k => ?_⟩
  · rw [State.endStep_commits hr hi hc hs]
    rfl
  · rw [State.commitList, hu]
    rfl

/-- Settles O31: a discard touches UPD_CNT_DISCARDS, UPD_STATUS and LAST, and the attempt's end clears the lists. -/
theorem discardedStepExchangesNothing : Obligations.DiscardedStepExchangesNothing := by
  intro s tick hr hi h
  have he : s.endStep tick = _ := (State.endStep_discards hr hi h).trans (State.closeAttempt_eq _)
  rw [State.endDiscarded_eq] at he
  rw [he]
  refine ⟨rfl, fun k => rfl, ?_, rfl, rfl, rfl, ?_⟩
  · change ((s.bump Reg.UPD_CNT_DISCARDS 1).stick Reg.UPD_STATUS 6).reg Reg.UPD_CNT_DISCARDS = _
    rw [State.stick_reg, if_neg (by decide), State.bump_reg, if_pos rfl]
  · exact State.stick_regBit _ Reg.UPD_STATUS (by decide)

end Sys2Proof.TrainingUpdate
end
section
/-! ## The update engine's instructions -/

namespace Sys2Proof.Machine

/-! ### Registers of an engine (R225) -/

section

variable (e : UpdEngine) (d : BitVec 4) (v : Nat) (l : List Nat)

@[simp] theorem UpdEngine.setSc_pc : (e.setSc d v).pc = e.pc + 1 := rfl
@[simp] theorem UpdEngine.setSc_vec (i : BitVec 4) : (e.setSc d v).vec i = e.vec i := rfl
@[simp] theorem UpdEngine.setSc_sc_same : (e.setSc d v).sc d = canon32 v := tget_tset_same _ _ _ _
theorem UpdEngine.setSc_sc_other {i : BitVec 4} (h : i ≠ d) : (e.setSc d v).sc i = e.sc i :=
  tget_tset_other _ _ _ (BitVec.toNat_ne_iff_ne.2 h)

@[simp] theorem UpdEngine.setVec_pc : (e.setVec d l).pc = e.pc + 1 := rfl
@[simp] theorem UpdEngine.setVec_sc (i : BitVec 4) : (e.setVec d l).sc i = e.sc i := rfl
@[simp] theorem UpdEngine.setVec_vec_same : (e.setVec d l).vec d = l.map canon32 := tget_tset_same _ _ _ _
theorem UpdEngine.setVec_vec_other {i : BitVec 4} (h : i ≠ d) : (e.setVec d l).vec i = e.vec i :=
  tget_tset_other _ _ _ (BitVec.toNat_ne_iff_ne.2 h)

end

/-! ### One instruction -/

section

variable {s : State} {k w : Nat} {j : UpdJob}

theorem State.executes_runOf (h : s.executes k j w) : ∃ r, s.runOf (updUnit k) = some r := by
  obtain ⟨-, hr, -⟩ := h
  exact Option.isSome_iff_exists.1 hr

/-- An instruction that the engine executes does its work for the slot that its engine runs. -/
theorem State.updStep_executes (h : s.executes k j w) {r : SlotRun} (hr : s.runOf (updUnit k) = some r)
    (f : SlotRun → UpdJob → UpdEngine → State → State) : s.updStep k w f = f r j (s.engine k) s := by
  obtain ⟨hj, -, hw⟩ := h
  simp [State.updStep, hj, hr, hw]

theorem State.scalarOp_executes (h : s.executes k j w) (d : BitVec 4) (v : UpdJob → UpdEngine → Nat) :
    s.scalarOp k w d v = s.putEngine k ((s.engine k).setSc d (v j (s.engine k))) := by
  obtain ⟨r, hr⟩ := State.executes_runOf h
  exact State.updStep_executes h hr _

theorem State.vectorOp_executes (h : s.executes k j w) (d : BitVec 4) (v : UpdEngine → List Nat) :
    s.vectorOp k w d v = s.putEngine k ((s.engine k).setVec d (v (s.engine k))) := by
  obtain ⟨r, hr⟩ := State.executes_runOf h
  exact State.updStep_executes h hr _

/-- A row whose meaning is a scalar instruction, where the engine executes it. -/
theorem exec_scalarOp {i : Instr} {d : BitVec 4} {v : UpdJob → UpdEngine → Nat} {x : Nat}
    (hi : exec i s = .next (s.scalarOp k w d v)) (hv : v j (s.engine k) = x) (h : s.executes k j w) :
    exec i s = .next (s.putEngine k ((s.engine k).setSc d x)) := by
  rw [hi, State.scalarOp_executes h, hv]

/-- A row whose meaning is a vector instruction, where the engine executes it. -/
theorem exec_vectorOp {i : Instr} {d : BitVec 4} {v : UpdEngine → List Nat} {x : List Nat}
    (hi : exec i s = .next (s.vectorOp k w d v)) (hv : v (s.engine k) = x) (h : s.executes k j w) :
    exec i s = .next (s.putEngine k ((s.engine k).setVec d x)) := by
  rw [hi, State.vectorOp_executes h, hv]

theorem exec_sldi {stack : BitVec 3} {d : BitVec 4} {imm : BitVec 32} (hl : -128 ≤ imm.toInt) (hh : imm.toInt ≤ 127) :
    exec (.sldi stack d imm) s =
      .next (s.scalarOp stack.toNat (regWord 0x02 d 0 0 0 (imm.toNat % 256)) d (fun _ _ => intF imm.toInt)) := by
  change execSldi stack d imm s = _
  rw [execSldi, if_pos ⟨hl, hh⟩]

end

end Sys2Proof.Machine

namespace Sys2Proof.TrainingUpdate

open Sys2Proof Sys2Proof.Machine

/-- Settles O47: what a written register leaves, and then each row as the scalar or vector instruction that it is. -/
theorem scalarAndVectorInstructions : Obligations.ScalarAndVectorInstructions := by
  intro s stack j
  dsimp only
  refine ⟨fun d v => ?_, fun d v => ?_, fun d imm => exec_scalarOp rfl rfl,
    fun d imm hl hh => exec_scalarOp (exec_sldi hl hh) rfl, fun d imm => exec_scalarOp rfl rfl, fun d a b => ?_,
    fun d a => ?_, fun d a imm => exec_scalarOp rfl rfl, fun d a b c => ?_⟩
  · rw [State.putEngine_engine_same]
    exact ⟨UpdEngine.setSc_sc_same _ d v, fun i => UpdEngine.setSc_sc_other _ d v, UpdEngine.setSc_pc _ d v,
      UpdEngine.setSc_vec _ d v, fun n => State.putEngine_engine_other _ _ _ n, State.putEngine_mem _ _ _,
      State.putEngine_regs _ _ _⟩
  · rw [State.putEngine_engine_same]
    exact ⟨UpdEngine.setVec_vec_same _ d v, fun i => UpdEngine.setVec_vec_other _ d v, UpdEngine.setVec_pc _ d v,
      UpdEngine.setVec_sc _ d v, fun n => State.putEngine_engine_other _ _ _ n, State.putEngine_mem _ _ _,
      State.putEngine_regs _ _ _⟩
  · exact ⟨exec_scalarOp rfl rfl, exec_scalarOp rfl rfl, exec_scalarOp rfl rfl, exec_scalarOp rfl rfl,
      exec_vectorOp rfl rfl, exec_vectorOp rfl rfl, exec_vectorOp rfl rfl, exec_vectorOp rfl rfl, exec_vectorOp rfl rfl,
      exec_vectorOp rfl rfl, exec_vectorOp rfl rfl, exec_vectorOp rfl rfl, exec_vectorOp rfl rfl⟩
  · exact ⟨exec_scalarOp rfl rfl, exec_vectorOp rfl rfl, exec_vectorOp rfl rfl, exec_vectorOp rfl rfl,
      exec_vectorOp rfl rfl, exec_vectorOp rfl rfl⟩
  · exact ⟨exec_vectorOp rfl rfl, exec_vectorOp rfl rfl⟩

end Sys2Proof.TrainingUpdate
end

section
/-! ## Update jobs -/

namespace Sys2Proof.Machine

/-- The engines are a part of the update machinery. -/
theorem State.engine_of_upd {s t : State} (h : t.upd = s.upd) (k : Nat) : t.engine k = s.engine k := by
  rw [State.engine, h, State.engine]

theorem State.commitList_of_upd {s t : State} (h : t.upd = s.upd) (k : Nat) : t.commitList k = s.commitList k := by
  rw [State.commitList, h, State.commitList]

/-! ### Work behind its access rules, and its refusal -/

theorem State.guarded_mayAccess {s : State} {acc : List (Nat × Nat × Bool)} (h : s.mayAccess acc = true) (u : UnitId)
    (ref : Option SlotRef) (work : State → State) : s.guarded u ref acc work = work s := by
  simp only [State.mayAccess, Bool.and_eq_true, Option.isNone_iff_eq_none, Bool.not_eq_true'] at h
  obtain ⟨hb, hf⟩ := h
  simp only [State.guarded, hb, hf, Bool.false_eq_true, if_false]

theorem State.refuse_recorded (s : State) (u : UnitId) (x : Status) : Recorded s (s.refuse u x) :=
  s.raise_recorded (by decide) u x.code

section

variable (s : State) (u : UnitId) (ref : SlotRef) (x : Status)

@[simp] theorem State.refuseRun_upd : (s.refuseRun u (some ref) x).upd = s.upd := (s.refuse_recorded u x).upd
@[simp] theorem State.refuseRun_mem : (s.refuseRun u (some ref) x).mem = s.mem := (s.refuse_recorded u x).mem
theorem State.refuseRun_reg {r : Nat} (h : r ∉ rasNoted) : (s.refuseRun u (some ref) x).reg r = s.reg r :=
  (s.refuse_recorded u x).reg r h

end

/-! ### UPDATE_JOB (R222, R223) -/

theorem State.runAt_running {s : State} {u : UnitId} {r : SlotRun} {desc : Nat} (h : s.runOf u = some r)
    (hd : s.slotAddr r.ref = desc) : s.runAt u desc = some r := by
  simp only [State.runAt, h, hd, if_true]

section

variable {s : State} {stack : BitVec 3} {desc : BitVec 64} {r : SlotRun}
  (hr : s.runOf (updUnit stack.toNat) = some r) (hd : s.slotAddr r.ref = desc.toNat)
  (he : (s.engine stack.toNat).job = none) (hs : r.steps = 0)
include hr hd he hs

theorem exec_updateJob_starts (hf : s.jobFieldsOk ((s.slotView r).readJob desc.toNat) = true)
    (hm : s.mayAccess (jobTables ((s.slotView r).readJob desc.toNat)) = true)
    (hc : s.updJobOk stack.toNat ((s.slotView r).readJob desc.toNat) = true) :
    exec (.updateJob stack desc) s = .next (s.startJob stack.toNat r.ref ((s.slotView r).readJob desc.toNat)) := by
  change execUpdateJob stack desc s = _
  simp only [execUpdateJob, State.runAt_running hr hd, he, hs, ne_eq, not_true_eq_false, hf, Bool.not_true,
    Bool.false_eq_true, if_false, State.guarded_mayAccess hm, hc, if_true]

theorem exec_updateJob_refuses (hf : s.jobFieldsOk ((s.slotView r).readJob desc.toNat) = false) :
    exec (.updateJob stack desc) s = .next (s.refuseJob stack.toNat r.ref false) := by
  change execUpdateJob stack desc s = _
  simp only [execUpdateJob, State.runAt_running hr hd, he, hs, ne_eq, not_true_eq_false, hf, Bool.not_false, if_false,
    if_true]

end

section

variable (s : State) (k : Nat) (ref : SlotRef) (j : UpdJob)

theorem State.startJob_engine_same : (s.startJob k ref j).engine k = { UpdEngine.reset with job := some j } :=
  State.putEngine_engine_same _ _ _

theorem State.startJob_engine_other {n : Nat} (h : n ≠ k) : (s.startJob k ref j).engine n = s.engine n :=
  State.putEngine_engine_other _ _ _ _ h

theorem State.startJob_commitList : (s.startJob k ref j).commitList k = s.commitList k ++ s.newPairs k j :=
  tget_tset_same _ _ _ _

@[simp] theorem State.startJob_mem : (s.startJob k ref j).mem = s.mem := rfl
@[simp] theorem State.startJob_regs : (s.startJob k ref j).regs = s.regs := rfl

@[simp] theorem State.refuseJob_upd : (s.refuseJob k ref false).upd = s.upd := State.refuseRun_upd _ _ _ _
@[simp] theorem State.refuseJob_mem : (s.refuseJob k ref false).mem = s.mem := State.refuseRun_mem _ _ _ _

theorem State.refuseJob_flag : (s.refuseJob k ref false).regBit Reg.UPD_STATUS 3 = true := by
  have h : (s.refuseJob k ref false).reg Reg.UPD_STATUS = (s.stick Reg.UPD_STATUS 3).reg Reg.UPD_STATUS :=
    (State.refuseRun_reg _ _ _ _ (by decide)).trans
      (by rw [if_neg Bool.false_ne_true, State.bump_reg, if_neg (by decide)])
  rw [State.regBit, h]
  exact State.stick_regBit _ Reg.UPD_STATUS (by decide)

end

/-! ### LD and ST (R229, R230) -/

section

variable {s : State} {stack : BitVec 3} {r : SlotRun} {j : UpdJob} {x st : BitVec 4}
  (hr : s.runOf (updUnit stack.toNat) = some r)
include hr

theorem exec_ld_reads (h : s.executes stack.toNat j (updWord 0x20 x.toNat st.toNat 0 0 0))
    (hm : s.mayAccess (tileAccess (j.inDesc st.toNat) j.cur.1 j.cur.2 false) = true) :
    exec (.ld stack x st) s =
      let T := j.inDesc st.toNat
      let p := tileAt T j.cur.1 j.cur.2
      .next ((s.countRead (some r.ref) T (regionBlocks T p.1 64 p.2 64)).putEngine stack.toNat
        ((s.engine stack.toNat).setVec x ((s.tileVals T j.cur.1 j.cur.2).map ldF))) :=
  congrArg Host.Outcome.next ((State.updStep_executes h hr _).trans (State.guarded_mayAccess hm _ _ _))

variable (h : s.executes stack.toNat j (updWord 0x21 0 st.toNat x.toNat 0 0))
include h

theorem exec_st_holds (hb : (j.outDesc st.toNat).fmt.blocked = true) :
    exec (.st stack x st) s =
      let e := s.engine stack.toNat
      .next (s.putEngine stack.toNat { e with
        held := tset e.held st.toNat (tset (tget [] e.held st.toNat) (j.cur.2 * j.tk + j.cur.1) (e.vec x)),
        pc := e.pc + 1 }) :=
  congrArg Host.Outcome.next ((State.updStep_executes h hr _).trans (if_pos hb))

theorem exec_st_writes (hb : (j.outDesc st.toNat).fmt.blocked = false)
    (hm : s.mayAccess (tileAccess (j.outDesc st.toNat) j.cur.1 j.cur.2 true) = true) :
    exec (.st stack x st) s = .next (s.stWide stack.toNat r j (s.engine stack.toNat) x st.toNat) :=
  congrArg Host.Outcome.next ((State.updStep_executes h hr _).trans
    ((if_neg (Bool.eq_false_iff.1 hb)).trans (State.guarded_mayAccess hm _ _ _)))

end

section

variable (s : State) (k : Nat) (r : SlotRun) (j : UpdJob) (e : UpdEngine) (a : BitVec 4) (i : Nat)

@[simp] theorem State.charge_slot_mem (ref : SlotRef) (x : Effects) : (s.charge (some ref) x).mem = s.mem := rfl
@[simp] theorem State.charge_slot_engine (ref : SlotRef) (x : Effects) (n : Nat) :
    (s.charge (some ref) x).engine n = s.engine n := rfl
@[simp] theorem State.markTiles_mem (shadow : Nat) (ts : List Nat) : (s.markTiles k shadow ts).mem = s.mem := rfl
@[simp] theorem State.markTiles_engine (shadow : Nat) (ts : List Nat) (n : Nat) :
    (s.markTiles k shadow ts).engine n = s.engine n := rfl

theorem State.stWide_mem : (s.stWide k r j e a i).mem =
    (s.stores (wideWrites (j.outDesc i) j.cur.1 j.cur.2 (s.wideCodes j e i (e.vec a)))).mem := by
  simp only [State.stWide, State.charge_slot_mem, State.putEngine_mem, State.markTiles_mem]

theorem State.stWide_engine_same : (s.stWide k r j e a i).engine k =
    e.setVec a ((s.wideCodes j e i (e.vec a)).map (fun x => backF (j.outDesc i).te (wide32 (j.outDesc i).fmt x))) := by
  simp only [State.stWide, State.charge_slot_engine, State.putEngine_engine_same]

theorem State.stWide_engine_other {n : Nat} (h : n ≠ k) : (s.stWide k r j e a i).engine n = s.engine n := by
  simp only [State.stWide, State.charge_slot_engine, State.putEngine_engine_other _ _ _ _ h, State.markTiles_engine,
    State.engine_of_upd (s.stores_upd _)]

end

/-! ### END -/

section

variable {s : State} {stack : BitVec 3} {r : SlotRun} {j : UpdJob} (hr : s.runOf (updUnit stack.toNat) = some r)
  (h : s.executes stack.toNat j 0)
include hr h

theorem exec_endProg_prologue (hb : (s.engine stack.toNat).inBody = false) :
    exec (.endProg stack) s =
      .next (s.putEngine stack.toNat ((s.engine stack.toNat).nextTile j j.slabs)) :=
  congrArg Host.Outcome.next ((State.updStep_executes h hr _).trans (if_neg (Bool.eq_false_iff.1 hb)))

theorem exec_endProg_body (hb : (s.engine stack.toNat).inBody = true) :
    exec (.endProg stack) s = .next (s.endTile stack.toNat r j (s.engine stack.toNat)) :=
  congrArg Host.Outcome.next ((State.updStep_executes h hr _).trans (if_pos hb))

end

section

variable (s : State) (k : Nat) (r : SlotRun) (e : UpdEngine) {j : UpdJob}

/-- A tile ends within its slab: the next one begins, and memory stays. -/
theorem State.endTile_within {k0 n0 t0 t1 : Nat} {ts : List Nat} {rest : List (Nat × Nat × List Nat)}
    (h : j.slabs = (k0, n0, t0 :: t1 :: ts) :: rest) : (s.endTile k r j e).mem = s.mem ∧
      (s.endTile k r j e).engine k = { e with
        job := some { j with slabs := (k0, n0, t1 :: ts) :: rest }, inBody := true, pc := 0, vectors := [] } := by
  simp only [State.endTile, h]
  exact ⟨rfl, State.putEngine_engine_same _ _ _⟩

/-- Without a tile left the engine is idle. -/
theorem State.endTile_done (h : j.slabs = []) :
    (s.endTile k r j e).mem = s.mem ∧ (s.endTile k r j e).engine k = UpdEngine.reset := by
  simp only [State.endTile, h]
  exact ⟨rfl, State.putEngine_engine_same _ _ _⟩

end

end Sys2Proof.Machine

namespace Sys2Proof.TrainingUpdate

open Sys2Proof Sys2Proof.Machine

/-- Settles O48, row by row: UPDATE_JOB, LD, ST and END. -/
theorem updateJobs : Obligations.UpdateJobs := by
  intro s stack r
  dsimp only
  intro hr
  refine ⟨fun desc hd he hs => ⟨fun hf hm hc => ?_, fun hf => ?_⟩, fun j d st h hm => exec_ld_reads hr h hm,
    fun j a st h => ⟨exec_st_holds hr h, fun hb hm => ?_⟩,
    fun j h => ⟨exec_endProg_prologue hr h, fun k0 n0 t0 t1 ts rest hb hl => ?_, fun hb hl => ?_⟩⟩
  · exact ⟨_, exec_updateJob_starts hr hd he hs hf hm hc, State.startJob_engine_same _ _ _ _,
      State.startJob_commitList _ _ _ _, fun n => State.startJob_engine_other _ _ _ _,
      State.startJob_mem _ _ _ _, State.startJob_regs _ _ _ _⟩
  · exact ⟨_, exec_updateJob_refuses hr hd he hs hf, State.refuseJob_flag _ _ _,
      State.engine_of_upd (State.refuseJob_upd _ _ _) _, State.commitList_of_upd (State.refuseJob_upd _ _ _) _,
      State.refuseJob_mem _ _ _⟩
  · refine ⟨_, exec_st_writes hr h hb hm, State.stWide_mem .., ?_, fun n hn => State.stWide_engine_other _ _ _ _ _ _ _ hn⟩
    rw [State.stWide_engine_same, UpdEngine.setVec_vec_same]
  · obtain ⟨hmem, heng⟩ := s.endTile_within stack.toNat r (s.engine stack.toNat) hl
    refine ⟨_, exec_endProg_body hr h hb, hmem, ?_⟩
    rw [heng]
    exact ⟨rfl, rfl, rfl, rfl⟩
  · obtain ⟨hmem, heng⟩ := s.endTile_done stack.toNat r (s.engine stack.toNat) hl
    exact ⟨_, exec_endProg_body hr h hb, hmem, heng⟩

end Sys2Proof.TrainingUpdate
end

section
/-! ## Mailboxes: the protocol of chapter 13 -/

namespace Sys2Proof.Machine

/-! ### Little-endian fields of byte lists -/

theorem leNat_toLe (n v : Nat) : leNat (toLe n v) = v % 256 ^ n := by
  induction n generalizing v with
  | zero => simp [toLe, leNat, Nat.mod_one]
  | succ n ih => simp [toLe, leNat, ih, Nat.pow_succ', Nat.mod_mul]

@[simp] theorem toLe_length (n v : Nat) : (toLe n v).length = n := by
  induction n generalizing v with
  | zero => rfl
  | succ n ih => simp [toLe, ih]

@[simp] theorem slice_length (bs : List Byte) (i n : Nat) : (slice bs i n).length = n := by
  simp [slice]

theorem leNat_lt (bs : List Byte) : leNat bs < 256 ^ bs.length := by
  induction bs with
  | nil => simp [leNat]
  | cons b bs ih =>
    have hb := b.isLt
    simp only [leNat, List.length_cons, Nat.pow_succ']
    omega

theorem u16At_lt (bs : List Byte) (i : Nat) : u16At bs i < 2 ^ 16 := by
  simpa [u16At] using leNat_lt (slice bs i 2)

theorem u32At_lt (bs : List Byte) (i : Nat) : u32At bs i < 2 ^ 32 := by
  simpa [u32At] using leNat_lt (slice bs i 4)

theorem leNat_field {a c : List Byte} {i : Nat} (n v : Nat) (h : a.length = i) :
    leNat (slice (a ++ (toLe n v ++ c)) i n) = v % 256 ^ n := by
  have hs : slice (a ++ (toLe n v ++ c)) i n = toLe n v := by
    subst h
    simp [slice]
  rw [hs, leNat_toLe]

theorem byteAt_slice (bs : List Byte) (i : Nat) {n j : Nat} (h : j < n) : byteAt (slice bs i n) j = byteAt bs (i + j) := by
  simp only [byteAt, slice, List.getD_eq_getElem?_getD]
  by_cases hj : j < ((bs.drop i).take n).length
  · rw [List.getElem?_append_left hj, List.getElem?_take_of_lt h, List.getElem?_drop]
  · have hlen : bs.length ≤ i + j := by simp at hj; omega
    rw [List.getElem?_append_right (by omega), List.getElem?_eq_none hlen, List.getElem?_replicate]
    split <;> rfl

theorem byteAt_append {a : List Byte} {i : Nat} (b : List Byte) (j : Nat) (h : a.length = i) :
    byteAt (a ++ b) (i + j) = byteAt b j := by
  subst h
  simp only [byteAt, List.getD_eq_getElem?_getD]
  rw [List.getElem?_append_right (by omega), Nat.add_sub_cancel_left]

theorem overlay_byteAt {old new : List Byte} {off i : Nat} (h : i < old.length) :
    byteAt (overlay old off new) i =
      if off ≤ i ∧ i < off + new.length then byteAt new (i - off) else byteAt old i := by
  simp [byteAt, overlay, h]

/-! ### Tables -/

theorem mem_tset_self {α : Type} (t : Tab α) (k : Nat) (v : α) : (k, v) ∈ tset t k v := by
  induction t with
  | nil => simp [tset]
  | cons e t ih =>
    simp only [tset]
    split
    · simp
    · split
      · simp
      · exact List.mem_cons_of_mem _ ih

theorem of_mem_tset {α : Type} {t : Tab α} {k : Nat} {v : α} {e : Nat × α} (h : e ∈ tset t k v) : e = (k, v) ∨ e ∈ t := by
  induction t with
  | nil => exact .inl (by simpa [tset] using h)
  | cons c t ih =>
    simp only [tset] at h
    split at h
    · rcases List.mem_cons.1 h with h | h
      · exact .inl h
      · exact .inr (List.mem_cons_of_mem _ h)
    · split at h
      · exact List.mem_cons.1 h
      · rcases List.mem_cons.1 h with h | h
        · exact .inr (h ▸ List.mem_cons_self)
        · exact (ih h).imp_right (List.mem_cons_of_mem _)

/-- What a table answers is its default or one of its entries. -/
theorem tget_mem {α : Type} (d : α) (t : Tab α) (k : Nat) : tget d t k = d ∨ (k, tget d t k) ∈ t := by
  induction t with
  | nil => exact .inl rfl
  | cons e t ih =>
    obtain ⟨j, w⟩ := e
    simp only [tget]
    split
    · next h => subst h; exact .inr List.mem_cons_self
    · exact ih.imp_right (List.mem_cons_of_mem _)

/-! ### The response (R414, Table 13.6) -/

theorem Status.code_lt (x : Status) : x.code < 2 ^ 16 := by cases x <;> decide

theorem Status.code_eq_zero {x : Status} (h : x.code = 0) : x = .success := by
  cases x
  case success => rfl
  all_goals simp [Status.code] at h

section

variable (op st tag len detail : Nat) (data : List Byte)

theorem responsePage_opcode : u16At (responsePage op st tag len detail data) 0 = op % 2 ^ 16 := by
  simpa [responsePage, u16At] using leNat_field (a := []) 2 op rfl

theorem responsePage_status : u16At (responsePage op st tag len detail data) 2 = st % 2 ^ 16 := by
  simpa [responsePage, u16At] using leNat_field (a := toLe 2 op) 2 st (by simp)

theorem responsePage_tag : u32At (responsePage op st tag len detail data) 4 = tag % 2 ^ 32 := by
  simpa [responsePage, u32At] using leNat_field (a := toLe 2 op ++ toLe 2 st) 4 tag (by simp)

theorem responsePage_length : u16At (responsePage op st tag len detail data) 8 = len % 2 ^ 16 := by
  simpa [responsePage, u16At] using leNat_field (a := toLe 2 op ++ toLe 2 st ++ toLe 4 tag) 2 len (by simp)

theorem responsePage_detail : u32At (responsePage op st tag len detail data) 12 = detail % 2 ^ 32 := by
  rw [responsePage, u32At, List.append_assoc]
  exact leNat_field 4 detail (by simp)

theorem responsePage_data {i : Nat} (h : i < 48) :
    byteAt (responsePage op st tag len detail data) (16 + i) = byteAt data i := by
  rw [responsePage, byteAt_append (i := 16) _ _ (by simp), byteAt_slice _ _ h, Nat.zero_add]

end

/-- A mailbox with its command answered. -/
def Mailbox.answered (b : Mailbox) (x : Status) (detail : Nat) (data : List Byte) : Mailbox :=
  { b with
    ext := slice (data.drop 48) 0 3840,
    resp := responsePage (u16At b.captured 0) x.code (u32At b.captured 4) data.length detail data,
    st := .done }

theorem Mailbox.answered_status (b : Mailbox) (x : Status) (detail : Nat) (data : List Byte) :
    u16At (b.answered x detail data).resp 2 = x.code :=
  (responsePage_status ..).trans (Nat.mod_eq_of_lt x.code_lt)

theorem Mailbox.answered_ext (b : Mailbox) (x : Status) (detail : Nat) (data : List Byte) {i : Nat} (h : i < 3840) :
    byteAt (b.answered x detail data).ext i = byteAt data (48 + i) := by
  rw [Mailbox.answered, byteAt_slice _ _ h, Nat.zero_add]
  simp [byteAt, List.getD_eq_getElem?_getD]

/-! ### Completion and the answers it makes due -/

/-- Mailboxes, interrupts, registers and the numbering of free values have changed, and nothing else. -/
structure Served (s t : State) : Prop where
  eq : t = { s with freeCtr := t.freeCtr, regs := t.regs, out := { s.out with msix := t.out.msix },
                    host := { s.host with boxes := t.host.boxes, pba := t.host.pba, spaced := t.host.spaced,
                                          covered := t.host.covered } }
  free : s.freeCtr ≤ t.freeCtr

theorem Served.refl (s : State) : Served s s := ⟨rfl, Nat.le_refl _⟩

theorem Served.trans {s t u : State} (h : Served s t) (k : Served t u) : Served s u :=
  ⟨by rw [k.eq, h.eq], h.free.trans k.free⟩

theorem State.sendVec_served (s : State) (v : Nat) : Served s (s.sendVec v) := by
  unfold State.sendVec
  split
  · exact ⟨rfl, Nat.le_refl _⟩
  · split <;> exact ⟨rfl, Nat.le_refl _⟩

theorem State.withResponse_eq (s : State) (m : Nat) (x : Status) (d : Nat) (data : List Byte) :
    s.withResponse m x d data =
      { s.putBox m ((s.box m).answered x d data) with regs := (s.withResponse m x d data).regs } := by
  unfold State.withResponse
  dsimp only
  split <;> rfl

theorem State.complete_served (s : State) (m : Nat) (x : Status) (d : Nat) (data : List Byte) :
    Served s (s.complete m x d data) := by
  have h : Served s (s.withResponse m x d data) := by
    rw [State.withResponse_eq]
    exact ⟨rfl, Nat.le_refl _⟩
  rw [State.complete_eq]
  split
  · exact h.trans (State.sendVec_served _ _)
  · exact h

theorem State.complete_box (s : State) (m : Nat) (x : Status) (d : Nat) (data : List Byte) (n : Nat) :
    (s.complete m x d data).box n = (s.putBox m ((s.box m).answered x d data)).box n := by
  have h : (s.withResponse m x d data).box n = (s.putBox m ((s.box m).answered x d data)).box n := by
    rw [State.withResponse_eq]
    rfl
  rw [State.complete_eq]
  split
  · rw [State.sendVec_box, h]
  · exact h

@[simp] theorem State.complete_box_same (s : State) (m : Nat) (x : Status) (d : Nat) (data : List Byte) :
    (s.complete m x d data).box m = (s.box m).answered x d data := by
  rw [State.complete_box, State.putBox_box_same]

theorem State.complete_box_other (s : State) (m : Nat) (x : Status) (d : Nat) (data : List Byte) {n : Nat} (h : n ≠ m) :
    (s.complete m x d data).box n = s.box n := by
  rw [State.complete_box, State.putBox_box_other _ _ _ _ h]

theorem State.mayStart_busy {s : State} {m : Nat} (h : s.mayStart m = true) : (s.box m).st = .busy := by
  simp only [State.mayStart, Bool.and_eq_true, decide_eq_true_eq] at h
  exact h.1.1.1.1.1

/-- What mailbox `m` is answered where its command is of no opcode of the index. -/
def State.answerBox (s : State) (m : Nat) : State :=
  if s.mayStart m && (cmdInfo (u16At (s.box m).captured 0)).isNone then
    match s.headerCheck m with
    | some (x, d, s') => s'.complete m x d []
    | none => s
  else s

theorem State.answerUnknown_eq (s : State) : s.answerUnknown = (s.host.boxes.map (·.1)).foldl State.answerBox s := rfl

/-! ### The header checks (R415) -/

section

variable {s : State} {m : Nat}

theorem State.headerCheck_reserved
    (h : u8At (s.box m).captured 2 / 2 ≠ 0 ∨ u8At (s.box m).captured 3 ≠ 0 ∨ zeroBytes (s.box m).captured 8 8 = false) :
    ∃ d, s.headerCheck m = some (.badParam, d, s.fresh.2) := by
  refine ⟨bits s.fresh.1.toNat 0 31, ?_⟩
  unfold State.headerCheck
  rw [if_pos (by simpa using h)]

variable (h2 : u8At (s.box m).captured 2 / 2 = 0) (h3 : u8At (s.box m).captured 3 = 0)
  (h8 : zeroBytes (s.box m).captured 8 8 = true)
include h2 h3 h8

theorem State.headerCheck_unknown (h : cmdInfo (u16At (s.box m).captured 0) = none) :
    s.headerCheck m = some (.unknownOpcode, 0, s) := by
  simp [State.headerCheck, h2, h3, h8, h]

theorem State.headerCheck_pass {c : CmdInfo} (h : cmdInfo (u16At (s.box m).captured 0) = some c) :
    s.headerCheck m = none := by
  simp [State.headerCheck, h2, h3, h8, h]

end

/-- A header check that answers leaves the state but for a free value that its DETAIL may be. -/
theorem State.headerCheck_state {s t : State} {m d : Nat} {x : Status} (h : s.headerCheck m = some (x, d, t)) :
    t = s ∨ t = s.fresh.2 := by
  unfold State.headerCheck at h
  dsimp only at h
  split_ifs at h <;> cases h
  · exact .inr rfl
  · exact .inl rfl

/-! ### Answers to unknown opcodes -/

/-- Mailboxes have been answered, only such as were BUSY. -/
structure Answered (s t : State) : Prop where
  served : Served s t
  box : ∀ n, (s.box n).st ≠ .busy → t.box n = s.box n

theorem Answered.refl (s : State) : Answered s s := ⟨.refl s, fun _ _ => rfl⟩

theorem Answered.trans {s t u : State} (h : Answered s t) (k : Answered t u) : Answered s u := by
  refine ⟨h.served.trans k.served, fun n hn => ?_⟩
  have ht := h.box n hn
  rw [k.box n (by rwa [ht]), ht]

theorem State.fresh_answered (s : State) : Answered s s.fresh.2 :=
  ⟨⟨rfl, Nat.le_succ _⟩, fun _ _ => rfl⟩

theorem State.complete_answered {s : State} {m : Nat} (h : (s.box m).st = .busy) (x : Status) (d : Nat) (data : List Byte) :
    Answered s (s.complete m x d data) := by
  refine ⟨s.complete_served m x d data, fun n hn => State.complete_box_other _ _ _ _ _ ?_⟩
  rintro rfl
  exact hn h

theorem State.answerBox_answered (s : State) (m : Nat) : Answered s (s.answerBox m) := by
  unfold State.answerBox
  split
  · next h =>
    have hb := State.mayStart_busy (Bool.and_eq_true_iff.1 h).1
    split
    · next x d t e =>
      rcases State.headerCheck_state e with rfl | rfl
      · exact State.complete_answered hb x d []
      · exact s.fresh_answered.trans (State.complete_answered (s := s.fresh.2) hb x d [])
    · exact .refl s
  · exact .refl s

theorem State.answerUnknown_answered (s : State) : Answered s s.answerUnknown := by
  rw [State.answerUnknown_eq]
  generalize s.host.boxes.map (·.1) = l
  induction l generalizing s with
  | nil => exact .refl s
  | cons m l ih => exact (s.answerBox_answered m).trans (ih _)

theorem State.answerBox_idle {s : State} {m : Nat}
    (h : s.mayStart m = false ∨ (cmdInfo (u16At (s.box m).captured 0)).isSome = true) : s.answerBox m = s := by
  unfold State.answerBox
  rw [if_neg]
  rcases h with h | h
  · simp [h]
  · simp [Option.isSome_iff_ne_none.1 h]

theorem State.mayStart_idle {s : State} {m : Nat} (h : (s.box m).st ≠ .busy) : s.mayStart m = false :=
  Bool.eq_false_iff.2 fun hm => h (State.mayStart_busy hm)

/-- Where every waiting command has an opcode of the index, no answer is due. -/
theorem State.answerUnknown_known {s : State}
    (h : ∀ n, (s.box n).st = .busy → (cmdInfo (u16At (s.box n).captured 0)).isSome = true) : s.answerUnknown = s := by
  rw [State.answerUnknown_eq]
  refine List.foldl_fixed' (fun n => State.answerBox_idle ?_) _
  by_cases hn : (s.box n).st = .busy
  · exact .inr (h n hn)
  · exact .inl (State.mayStart_idle hn)

/-- Where one mailbox alone waits, with an unknown opcode whose turn has come, it alone is answered. -/
theorem State.answerUnknown_one {s : State} {m : Nat} {b : Mailbox} (hm : (m, b) ∈ s.host.boxes) (hs : s.mayStart m = true)
    (hi : ∀ n, n ≠ m → (s.box n).st ≠ .busy) (hc : s.headerCheck m = some (.unknownOpcode, 0, s))
    (hk : cmdInfo (u16At (s.box m).captured 0) = none) : s.answerUnknown = s.complete m .unknownOpcode 0 [] := by
  have hone : s.answerBox m = s.complete m .unknownOpcode 0 [] := by
    simp [State.answerBox, hs, hk, hc]
  have hrest : ∀ n, (s.complete m .unknownOpcode 0 []).answerBox n = s.complete m .unknownOpcode 0 [] := by
    refine fun n => State.answerBox_idle (.inl (State.mayStart_idle ?_))
    by_cases hn : n = m
    · subst hn
      rw [State.complete_box_same]
      exact BoxState.noConfusion
    · rw [State.complete_box_other _ _ _ _ _ hn]
      exact hi n hn
  have hmem : m ∈ s.host.boxes.map (·.1) := List.mem_map_of_mem hm
  rw [State.answerUnknown_eq]
  generalize s.host.boxes.map (·.1) = l at hmem
  induction l with
  | nil => cases hmem
  | cons k l ih =>
    rw [List.foldl_cons]
    by_cases hkm : k = m
    · subst hkm
      rw [hone, List.foldl_fixed' hrest]
    · rw [State.answerBox_idle (.inl (State.mayStart_idle (hi k hkm)))]
      exact ih ((List.mem_cons.1 hmem).resolve_left (Ne.symm hkm))

/-! ### Completion as a whole -/

theorem State.finish_served (s : State) (m : Nat) (x : Status) (d : Nat) (data : List Byte) :
    Served s (s.finish m x d data) :=
  (s.complete_served m x d data).trans (State.answerUnknown_answered _).served

@[simp] theorem State.finish_box_same (s : State) (m : Nat) (x : Status) (d : Nat) (data : List Byte) :
    (s.finish m x d data).box m = (s.box m).answered x d data := by
  rw [State.finish, (State.answerUnknown_answered _).box m, State.complete_box_same]
  rw [State.complete_box_same]
  exact BoxState.noConfusion

theorem State.finish_records (s : State) (m : Nat) (x : Status) (d : Nat) (data : List Byte) :
    (s.finish m x d data).host.records = s.host.records := by rw [(s.finish_served m x d data).eq]

theorem State.finish_ras (s : State) (m : Nat) (x : Status) (d : Nat) (data : List Byte) :
    (s.finish m x d data).ras = s.ras := by rw [(s.finish_served m x d data).eq]

end Sys2Proof.Machine
end

section
/-! ## Mailboxes: the obligations -/

namespace Sys2Proof.Machine

/-! ### SUBMIT, ACK and the command area (R413) -/

theorem State.box_mem (s : State) {n : Nat} (h : (s.box n).st = .busy) : (n, s.box n) ∈ s.host.boxes := by
  rcases tget_mem Mailbox.reset s.host.boxes n with hd | hm
  · rw [State.box, hd] at h
    cases h
  · exact hm

/-- Mailbox `m` with its command area captured, waiting. -/
def State.submitted (s : State) (m : Nat) : State :=
  let s1 := s.putBox m { s.box m with
    captured := (s.box m).cmd, st := .busy, overwrite := false, ignoredSubmit := false, order := s.host.submits }
  { s1 with host := { s1.host with submits := s1.host.submits + 1 } }

theorem State.submitted_box_same (s : State) (m : Nat) : (s.submitted m).box m = { s.box m with
    captured := (s.box m).cmd, st := .busy, overwrite := false, ignoredSubmit := false, order := s.host.submits } :=
  s.putBox_box_same m _

theorem State.submitted_box_other (s : State) {m n : Nat} (h : n ≠ m) : (s.submitted m).box n = s.box n :=
  s.putBox_box_other m _ n h

section

variable {s : State} {m : BitVec 6}

theorem exec_submit_busy (h : (s.box m.toNat).st = .busy) : exec (.submit m .w32 ⟨1, 0⟩) s =
    .next ((s.putBox m.toNat { s.box m.toNat with ignoredSubmit := true }).stick Reg.MBX_STATUS 5) := by
  change execSubmit m .w32 ⟨1, 0⟩ s = _
  simp [execSubmit, State.mbxDb, goodDoorbell, State.submitBox, h]

theorem exec_submit_free (h : (s.box m.toNat).st ≠ .busy) : exec (.submit m .w32 ⟨1, 0⟩) s =
    .next (s.submitted m.toNat).answerUnknown := by
  change execSubmit m .w32 ⟨1, 0⟩ s = _
  cases hb : (s.box m.toNat).st with
  | busy => exact absurd hb h
  | _ => simp [execSubmit, State.mbxDb, goodDoorbell, State.submitBox, hb, State.submitted]

/-- A SUBMIT of an opcode of the index, where every command that waits is one: it waits with them. -/
theorem exec_submit_known (h : (s.box m.toNat).st ≠ .busy) (hk : (cmdInfo (u16At (s.box m.toNat).cmd 0)).isSome = true)
    (hw : ∀ e ∈ s.host.boxes, e.2.st = .busy → (cmdInfo (u16At e.2.captured 0)).isSome = true) :
    exec (.submit m .w32 ⟨1, 0⟩) s = .next (s.submitted m.toNat) := by
  rw [exec_submit_free h, State.answerUnknown_known]
  intro n hn
  by_cases hm : n = m.toNat
  · subst hm
    rw [State.submitted_box_same]
    exact hk
  · rw [State.submitted_box_other _ hm] at hn ⊢
    exact hw _ (s.box_mem hn) hn

/-- A SUBMIT of an opcode outside the index, where nothing waits and Welfy runs: it is answered at once. -/
theorem exec_submit_unknown (h : (s.box m.toNat).st ≠ .busy) (hk : cmdInfo (u16At (s.box m.toNat).cmd 0) = none)
    (h2 : u8At (s.box m.toNat).cmd 2 / 2 = 0) (h3 : u8At (s.box m.toNat).cmd 3 = 0)
    (h8 : zeroBytes (s.box m.toNat).cmd 8 8 = true) (hw : ∀ e ∈ s.host.boxes, e.2.st ≠ .busy)
    (hr : s.boot.welfy = true) (hc : (s.scp 0).moving = false) (ha : s.phys.apSelect = none) :
    exec (.submit m .w32 ⟨1, 0⟩) s = .next ((s.submitted m.toNat).complete m.toNat .unknownOpcode 0 []) := by
  have hbox := s.submitted_box_same m.toNat
  have hidle : ∀ n, n ≠ m.toNat → ((s.submitted m.toNat).box n).st ≠ .busy := by
    intro n hn
    rw [State.submitted_box_other _ hn]
    exact fun hb => hw _ (s.box_mem hb) hb
  have hmem : (m.toNat, (s.submitted m.toNat).box m.toNat) ∈ (s.submitted m.toNat).host.boxes :=
    State.box_mem _ (by rw [hbox])
  have hwait : (s.submitted m.toNat).groupWaits m.toNat = false := by
    have hap : (s.submitted m.toNat).phys.apSelect = none := ha
    simp only [State.groupWaits, hap, Bool.or_false, List.any_eq_false]
    intro e he
    rcases of_mem_tset he with rfl | he
    · simp
    · simp [hw e he]
  have hfirst : (m.toNat == 0 || !(s.submitted m.toNat).adminFirst) = true := by
    by_cases hm : m.toNat = 0
    · simp [hm]
    · simp [State.adminFirst, hidle 0 (Ne.symm hm)]
  have hstart : (s.submitted m.toNat).mayStart m.toNat = true := by
    have hst : (s.submitted m.toNat).started m.toNat = false := by
      have hap : (s.submitted m.toNat).phys.apSelect = none := ha
      simp [State.started, hap]
    have hwf : (s.submitted m.toNat).boot.welfy = true := hr
    have hmv : ((s.submitted m.toNat).scp 0).moving = false := hc
    rw [State.mayStart, hfirst]
    simp [hbox, hst, hwf, hmv, hwait]
  rw [exec_submit_free h, State.answerUnknown_one hmem hstart hidle (State.headerCheck_unknown ?_ ?_ ?_ ?_) ?_]
  all_goals rw [hbox]; assumption

theorem exec_ack_done (h : (s.box m.toNat).st = .done) :
    exec (.ack m .w32 0) s = .next (s.putBox m.toNat { s.box m.toNat with st := .idle }) := by
  change execAck m .w32 0 s = _
  simp [execAck, State.mbxDb, goodDoorbell, State.ackBox, h]

theorem exec_ack_ignored (h : (s.box m.toNat).st ≠ .done) : exec (.ack m .w32 0) s = .next s := by
  change execAck m .w32 0 s = _
  cases hb : (s.box m.toNat).st with
  | done => exact absurd hb h
  | _ => simp [execAck, State.mbxDb, goodDoorbell, State.ackBox, hb]

theorem exec_commandAreaStore_busy (h : (s.box m.toNat).st = .busy) (off : BitVec 6) (data : List Byte) :
    exec (.commandAreaStore m off data) s =
      .next ((s.putBox m.toNat { s.box m.toNat with overwrite := true }).stick Reg.MBX_STATUS 4) := by
  change execCommandAreaStore m off data s = _
  simp [execCommandAreaStore, h]

theorem exec_commandAreaStore_free (h : (s.box m.toNat).st ≠ .busy) (off : BitVec 6) (data : List Byte) :
    exec (.commandAreaStore m off data) s =
      .next (s.putBox m.toNat { s.box m.toNat with cmd := overlay (s.box m.toNat).cmd off.toNat data }) := by
  change execCommandAreaStore m off data s = _
  cases hb : (s.box m.toNat).st with
  | busy => exact absurd hb h
  | _ => simp [execCommandAreaStore, hb]

end

/-! ### What completion leaves alone, and its message (R414, R423, R424) -/

section

variable (s : State)

theorem State.sendVec_msixSent (v : Nat) : (s.sendVec v).out.msix =
    if (s.msixEntry v).masked = false ∧ s.host.spaced.getLsbD v = false then s.out.msix ++ [v] else s.out.msix := by
  unfold State.sendVec
  cases (s.msixEntry v).masked <;> cases s.host.spaced.getLsbD v <;> rfl

theorem State.sendVec_pba (v : Nat) : (s.sendVec v).host.pba =
    if (s.msixEntry v).masked = true then setBit64 s.host.pba v true else s.host.pba := by
  unfold State.sendVec
  cases (s.msixEntry v).masked <;> cases s.host.spaced.getLsbD v <;> rfl

theorem State.sendVec_covered (v : Nat) : (s.sendVec v).host.covered =
    if (s.msixEntry v).masked = false ∧ s.host.spaced.getLsbD v = true then setBit64 s.host.covered v true
    else s.host.covered := by
  unfold State.sendVec
  cases (s.msixEntry v).masked <;> cases s.host.spaced.getLsbD v <;> rfl

variable (m : Nat) (x : Status) (d : Nat) (data : List Byte)

theorem State.complete_regs : (s.complete m x d data).regs = (s.withResponse m x d data).regs := by
  rw [State.complete_eq]
  split
  · exact State.sendVec_regs _ _
  · rfl

/-- The two command counters are all that completion counts. -/
theorem State.complete_reg (r : Nat) : (s.complete m x d data).reg r =
    if r = Reg.MBX_CNT_CMDS then satAdd (s.reg r) 1
    else if r = Reg.MBX_CNT_REFUSED ∧ ¬(x = .success ∨ x = .opStarted) then satAdd (s.reg r) 1 else s.reg r := by
  have hne : Reg.MBX_CNT_REFUSED ≠ Reg.MBX_CNT_CMDS := by decide
  rw [State.reg, State.complete_regs, ← State.reg]
  unfold State.withResponse
  by_cases hx : x = .success ∨ x = .opStarted
  · simp only [hx, if_true, State.bump_reg, State.putBox_reg, not_true, and_false, if_false]
    by_cases hr : r = Reg.MBX_CNT_CMDS <;> simp [hr]
  · simp only [hx, if_false, State.bump_reg, State.putBox_reg, not_false_eq_true, and_true]
    by_cases hr : r = Reg.MBX_CNT_CMDS
    · simp [hr, hne.symm]
    · by_cases hc : r = Reg.MBX_CNT_REFUSED <;> simp [hr, hc, hne]

end

theorem Served.beyondHost {s t : State} (h : Served s t) (hf : t.freeCtr = s.freeCtr) : s.beyondHost t := by
  rw [h.eq, hf]
  exact ⟨rfl, rfl⟩

end Sys2Proof.Machine

namespace Sys2Proof.HostLink

open Sys2Proof Sys2Proof.Machine

/-- Settles O7, store by store: a SUBMIT to a BUSY mailbox, of a known and of an unknown opcode; ACK; the command area. That a
command takes no time, so that an unknown opcode is answered at once, is the model's choice (R415, log entry 61). -/
theorem mailboxStores : Obligations.MailboxStores := by
  refine ⟨⟨fun s m => ?_, fun s m => ⟨fun h => ?_, exec_ack_ignored⟩⟩, fun s m off data hlen _ => ?_⟩
  · dsimp only
    refine ⟨fun h => ?_, fun h hk hw => ?_, fun h hk h2 h3 h8 hw hr hc ha => ?_⟩
    · exact ⟨_, exec_submit_busy h, s.putBox_box_same _ _, State.stick_regBit _ Reg.MBX_STATUS (by decide)⟩
    · exact ⟨_, exec_submit_known h hk hw, s.submitted_box_same _, fun n => s.submitted_box_other, rfl⟩
    · refine ⟨_, exec_submit_unknown h hk h2 h3 h8 hw hr hc ha, ?_, ?_, ?_, ?_, fun n hn => ?_, ?_⟩
      · rw [State.complete_box_same]; rfl
      · rw [State.complete_box_same]; exact Mailbox.answered_status ..
      · rw [State.complete_box_same, State.submitted_box_same]; rfl
      · rw [State.complete_box_same, State.submitted_box_same]; rfl
      · rw [State.complete_box_other _ _ _ _ _ hn, State.submitted_box_other _ hn]
      · rw [(State.complete_served ..).eq]; rfl
  · exact ⟨_, exec_ack_done h, s.putBox_box_same _ _, fun n hn => s.putBox_box_other _ _ n hn⟩
  · by_cases h : (s.box m.toNat).st = .busy
    · refine ⟨_, exec_commandAreaStore_busy h off data, fun n hn => s.putBox_box_other _ _ n hn, fun _ => ?_,
        fun hn => absurd h hn⟩
      simp
    · refine ⟨_, exec_commandAreaStore_free h off data, fun n hn => s.putBox_box_other _ _ n hn, fun hb => absurd hb h,
        fun _ => ?_⟩
      rw [State.putBox_box_same]
      exact ⟨rfl, fun i hi => overlay_byteAt (by omega)⟩

/-- Settles O8: what makes a doorbell store malformed, for each of the three doorbells (R421). -/
theorem badDoorbellCounts : Obligations.BadDoorbellCounts := by
  intro s m action w rsv v
  refine ⟨fun h => ?_, fun h => ?_, fun h => ?_⟩
  · change execSubmit m w ⟨action, rsv⟩ s = _
    by_cases hg : w = .w32 ∧ rsv = 0
    · have ha : action = 0 ∨ action = 3 := by simpa [hg] using h
      rcases ha with rfl | rfl <;> simp [execSubmit, State.mbxDb, goodDoorbell, hg, State.badDoorbell]
    · have hb : goodDoorbell w rsv = false := by simpa [goodDoorbell] using hg
      simp [execSubmit, State.mbxDb, hb, State.badDoorbell]
  · change execAck m w rsv s = _
    have hb : goodDoorbell w rsv = false := by simpa [goodDoorbell, imp_iff_not_or] using h
    simp [execAck, State.mbxDb, hb, State.badDoorbell]
  · change execDispatchDb w v s = _
    have hb : (w != .w64 || bits v.toNat 20 31 != 0) = true := by simpa using h
    simp [execDispatchDb, hb, State.badDoorbell]

/-- Settles O9: the fields of Table 13.6 in the answered mailbox. -/
theorem completionWritesResponse : Obligations.CompletionWritesResponse := by
  intro s m x d data hlen
  rw [State.complete_box_same]
  refine ⟨rfl, ?_, Mailbox.answered_status .., ?_, ?_, ?_, fun i hi => responsePage_data _ _ _ _ _ _ hi,
    fun i hi => Mailbox.answered_ext _ _ _ _ hi, ?_, fun n hn => State.complete_box_other _ _ _ _ _ hn⟩
  · exact (responsePage_opcode ..).trans (Nat.mod_eq_of_lt (u16At_lt _ _))
  · exact (responsePage_tag ..).trans (Nat.mod_eq_of_lt (u32At_lt _ _))
  · exact (responsePage_length ..).trans (Nat.mod_eq_of_lt (by omega))
  · exact (responsePage_detail ..).trans (Nat.mod_eq_of_lt d.isLt)
  · rw [State.complete_reg, if_pos rfl]

/-- Settles O12: completion is `Served` without a free value, counts in the two registers, and sends what the vector's state
lets it send. -/
theorem completionFrameAndMessage : Obligations.CompletionFrameAndMessage := by
  intro s m x d data t v irq
  have hserved : Served s t := s.complete_served m.toNat x d data
  have hmsg : t = if irq then (s.withResponse m.toNat x d data).sendVec v else s.withResponse m.toNat x d data :=
    s.complete_eq m.toNat x d data
  have hresp := s.withResponse_eq m.toNat x d data
  refine ⟨hserved.beyondHost ?_, ?_, fun off h1 h2 => ?_, ?_, ?_, ?_, ?_, ?_, ?_⟩
  · rw [hmsg, hresp]; split <;> simp
  · rw [hserved.eq]
  · rw [State.complete_reg, if_neg h1, if_neg (fun h => h2 h.1)]
  · rw [State.complete_reg, if_neg (by decide)]
    by_cases hx : x = .success ∨ x = .opStarted <;> simp [hx]
  · rw [hserved.eq]
  · rw [hserved.eq]
  · rw [hmsg, hresp]
    cases irq
    · simp
    · simp only [if_true, true_and]
      exact State.sendVec_msixSent _ v
  · rw [hmsg, hresp]
    cases irq
    · simp [State.putBox]
    · simp only [if_true, true_and]
      exact State.sendVec_pba _ v
  · rw [hmsg, hresp]
    cases irq
    · simp [State.putBox]
    · simp only [if_true, true_and]
      exact State.sendVec_covered _ v

end Sys2Proof.HostLink
end

section
/-! ## The protocol of a mailbox command (R410, R413, R415, R416) -/

namespace Sys2Proof.Machine

/-! ### A row of a mailbox command -/

/-- The command that waited in mailbox `m` has been answered with SUCCESS. -/
def State.succeeds (s t : State) (m : Nat) : Prop :=
  (s.box m).st = .busy ∧ (t.box m).st = .done ∧ u16At (t.box m).resp 2 = 0

theorem State.succeeds_irrefl (s : State) (m : Nat) : ¬ s.succeeds s m := by
  rintro ⟨hb, hd, -⟩
  rw [hb] at hd
  cases hd

theorem State.finish_not_succeeds {x : Status} (hx : x ≠ .success) (s t : State) (m d : Nat) (data : List Byte) :
    ¬ s.succeeds (t.finish m x d data) m := by
  rintro ⟨-, -, h⟩
  rw [State.finish_box_same, Mailbox.answered_status] at h
  exact hx (Status.code_eq_zero h)

/-- DEVICE_RESET's own part. -/
def resetReply (ps : List Byte) (s : State) : Reply :=
  if s.resetAdmitted (bit (u8At ps 0) 0) then s.ok [] else s.no .runLock

section

variable {s : State} {m : BitVec 6}

/-- A DEVICE_RESET that is not answered with SUCCESS is a command like any other. -/
theorem exec_deviceReset_stays (h : ¬ s.succeeds (s.welfy 0x0105 m resetReply) m.toNat) :
    exec (.deviceReset m) s = .next (s.welfy 0x0105 m resetReply) := by
  refine congrArg Host.Outcome.next (if_neg fun hr => h ?_)
  simp only [Bool.and_eq_true, decide_eq_true_eq, beq_iff_eq] at hr
  obtain ⟨⟨⟨hb, hd⟩, -⟩, hx⟩ := hr
  exact ⟨hb, hd, hx⟩

/-- A DEVICE_RESET that is answered with SUCCESS restarts the device, which keeps the mailbox page of the answer. -/
theorem exec_deviceReset_restarts (hc : u16At (s.box m.toNat).captured 0 = 0x0105)
    (h : s.succeeds (s.welfy 0x0105 m resetReply) m.toNat) : exec (.deviceReset m) s =
      .next (((s.welfy 0x0105 m resetReply).restart false 2).putBox m.toNat ((s.welfy 0x0105 m resetReply).box m.toNat)) := by
  obtain ⟨hb, hd, hx⟩ := h
  refine congrArg Host.Outcome.next (if_pos ?_)
  simp only [Bool.and_eq_true, decide_eq_true_eq, beq_iff_eq]
  exact ⟨⟨⟨hb, hd⟩, hc⟩, hx⟩

end

/-- A row of a mailbox command is that command under the protocol of chapter 13, unless it is answered with SUCCESS: a
DEVICE_RESET then restarts the device. -/
theorem exec_mailboxCommand {i : Instr} {op : Nat} {m : BitVec 6} (h : i.mailboxCommand = some (op, m)) :
    ∃ body, ∀ s, ¬ (i.before s).succeeds ((i.before s).welfy op m body) m.toNat →
      exec i s = .next ((i.before s).welfy op m body) := by
  cases i
  case deviceReset m =>
    cases h
    exact ⟨resetReply, fun s => exec_deviceReset_stays⟩
  all_goals cases h
  all_goals exact ⟨_, fun _ _ => rfl⟩

/-! ### The checks (R415) -/

section

variable {s : State} {op : Nat} {m : BitVec 6} {body : List Byte → State → Reply}
  (hs : s.mayStart m.toNat = true) (ho : u16At (s.box m.toNat).captured 0 = op)
include hs ho

theorem State.welfy_headerFails {x : Status} {d : Nat} {t : State} (h : s.headerCheck m.toNat = some (x, d, t)) :
    s.welfy op m body = t.finish m.toNat x d [] := by
  simp only [State.welfy, hs, ho, h, beq_self_eq_true, Bool.and_self, if_true]

theorem State.welfy_headerPasses (h : s.headerCheck m.toNat = none) :
    s.welfy op m body = (s.commandCheck m.toNat op body).settle m.toNat := by
  simp only [State.welfy, hs, ho, h, beq_self_eq_true, Bool.and_self, if_true, Reply.settle]

end

theorem CmdInfo.not_adminOnly {c : CmdInfo} {m : BitVec 6} (h : ¬(c.admin = true ∧ m ≠ 0)) :
    (c.admin && m.toNat != 0) = false := by
  rw [Bool.eq_false_iff]
  intro hb
  simp only [Bool.and_eq_true, bne_iff_ne] at hb
  exact h ⟨hb.1, fun h0 => hb.2 (by simp [h0])⟩

section

variable {s : State} {op : Nat} {m : BitVec 6} {c : CmdInfo} (hc : cmdInfo op = some c) (body : List Byte → State → Reply)
include hc

theorem State.commandCheck_notAdmin (h : c.admin = true) (hm : m ≠ 0) :
    s.commandCheck m.toNat op body = s.no .notAdmin := by
  have hn : m.toNat ≠ 0 := fun h0 => hm (BitVec.eq_of_toNat_eq h0)
  simp [State.commandCheck, hc, h, hn]

variable (ha : ¬(c.admin = true ∧ m ≠ 0))
include ha

theorem State.commandCheck_notReady (h : stateAdmits s.boot.dev op m.toNat = false) :
    s.commandCheck m.toNat op body = s.no .notReady := by
  simp [State.commandCheck, hc, CmdInfo.not_adminOnly ha, h]

theorem State.commandCheck_badParam {k : Nat} (h : stateAdmits s.boot.dev op m.toNat = true)
    (hk : badParamByte c (s.params m) = some k) : s.commandCheck m.toNat op body = s.bad k := by
  have hk' : badParamByte c (slice (s.box m.toNat).captured 16 48) = some k := hk
  simp [State.commandCheck, hc, CmdInfo.not_adminOnly ha, h, hk']

end

/-! ### Whose turn it is (R416) -/

section

variable {s : State} {m : Nat}

theorem State.groupWaits_earlier {n : Nat} {b : Mailbox} (hb : (n, b) ∈ s.host.boxes) (hn : n ≠ m) (hs : b.st = .busy)
    (ho : b.order < (s.box m).order) (hg : cmdGroup (u16At b.captured 0) = cmdGroup (u16At (s.box m).captured 0)) :
    s.groupWaits m = true := by
  unfold State.groupWaits
  rw [Bool.or_eq_true]
  exact .inl (List.any_eq_true.2 ⟨(n, b), hb, by simp [hn, hs, ho, hg]⟩)

theorem State.mayStart_waits (h : s.groupWaits m = true) : s.mayStart m = false := by
  simp [State.mayStart, h]

theorem State.mayStart_yields (hm : m ≠ 0) (hb : (s.box 0).st = .busy) (hs : s.started 0 = false)
    (hg : s.groupWaits 0 = false) : s.mayStart m = false := by
  simp [State.mayStart, State.adminFirst, hm, hb, hs, hg]

end

/-- The state that a row's command is run in differs from the row's at most in the HDM decoder (log entry 10). -/
theorem Instr.before_eq (i : Instr) (s : State) :
    ∃ d, i.before s = { s with host := { s.host with hdmDecoder := d } } := by
  unfold Instr.before
  split
  · exact ⟨_, rfl⟩
  · exact ⟨s.host.hdmDecoder, rfl⟩

theorem Instr.before_box (i : Instr) (s : State) (n : Nat) : (i.before s).box n = s.box n := by
  obtain ⟨d, h⟩ := Instr.before_eq i s
  rw [h]
  rfl

theorem Instr.before_mayStart (i : Instr) (s : State) (n : Nat) : (i.before s).mayStart n = s.mayStart n := by
  obtain ⟨d, h⟩ := Instr.before_eq i s
  rw [h]
  rfl

end Sys2Proof.Machine

namespace Sys2Proof.HostLink

open Sys2Proof Sys2Proof.Machine

/-- Settles O10: each check that fails ends the command's run under the protocol, and no refusal restarts the device. -/
theorem checksInOrder : Obligations.ChecksInOrder := by
  intro i op m s₀ c hi s hs ho hc
  obtain ⟨body, hrow⟩ := exec_mailboxCommand hi
  have hends : ∀ {t : State} {x : Status} {d : Nat}, x ≠ .success → s.welfy op m body = t.finish m.toNat x d [] →
      exec i s₀ = .next (t.finish m.toNat x d []) := by
    intro t x d hx hw
    rw [← hw]
    refine hrow s₀ ?_
    change ¬ s.succeeds (s.welfy op m body) m.toNat
    rw [hw]
    exact State.finish_not_succeeds hx _ _ _ _ _
  refine ⟨fun h => ?_, fun h2 h3 h8 => ?_⟩
  · obtain ⟨d, hd⟩ := State.headerCheck_reserved h
    exact ⟨d, hends Status.noConfusion (State.welfy_headerFails hs ho hd)⟩
  · have hpass := State.welfy_headerPasses hs ho (State.headerCheck_pass h2 h3 h8 (ho ▸ hc)) (body := body)
    refine ⟨fun ha hm => hends Status.noConfusion ?_, fun ha hr => hends Status.noConfusion ?_,
      fun ha hr k hk => hends Status.noConfusion ?_⟩
    · rw [hpass, State.commandCheck_notAdmin hc body ha hm, Reply.settle_no _ Status.noConfusion]
    · rw [hpass, State.commandCheck_notReady hc body ha hr, Reply.settle_no _ Status.noConfusion]
    · rw [hpass, State.commandCheck_badParam hc body ha hr hk, Reply.settle_bad]

/-- Settles O11: a command whose turn has not come leaves the state its row is run in. -/
theorem commandWaitsItsTurn : Obligations.CommandWaitsItsTurn := by
  intro i op m s hi h
  obtain ⟨body, hrow⟩ := exec_mailboxCommand hi
  have hidle : (i.before s).welfy op m body = i.before s := by
    refine State.welfy_idle ?_ body
    rw [Instr.before_mayStart, Instr.before_box]
    rcases h with h | h | ⟨n, b, hb, hn, hst, hord, hg⟩ | ⟨hm, hb, hs, hg⟩
    · exact .inr h
    · exact .inl (State.mayStart_idle h)
    · exact .inl (State.mayStart_waits (State.groupWaits_earlier hb hn hst hord hg))
    · exact .inl (State.mayStart_yields (fun h0 => hm (BitVec.eq_of_toNat_eq h0)) hb hs hg)
  rw [hrow s (by rw [hidle]; exact State.succeeds_irrefl _ _), hidle]

/-- Settles O16: MBX_ABORT's own part, and what completion leaves of the progress records. -/
theorem mbxAbortEndsAWaitingCommand : Obligations.MbxAbortEndsAWaitingCommand := by
  intro s m hadm n hn
  have hrow : exec (.mbxAbort m) s = .next (Reply.settle (if n = 0 ∨ 63 < n then s.bad 0
      else if (s.box n).st = .busy ∧ !s.started n then (s.complete n .aborted 0 []).ok [] else s.ok []) m.toNat) := by
    subst hn
    exact congrArg Host.Outcome.next (State.welfy_admitted hadm _)
  refine ⟨fun h1 h63 hb hs => ⟨?_, ?_⟩, fun h1 h63 h => ?_, fun h => ?_⟩
  · rw [hrow, if_neg (by omega), if_pos (by simp [hb, hs]), Reply.settle_answer]
  · rw [State.answer, State.finish_records, (s.complete_served n .aborted 0 []).eq]
  · have hnot : ¬((s.box n).st = .busy ∧ (!s.started n) = true) := by
      rintro ⟨hb, hs⟩
      rcases h with h | h
      · exact h hb
      · simp [h] at hs
    rw [hrow, if_neg (by omega), if_neg hnot, Reply.settle_answer]
  · rw [hrow, if_pos h, Reply.settle_refusalAt]

end Sys2Proof.HostLink
end

section
/-! ## The host's configuration, DEVICE_RESET and what reset leaves (chapter 13) -/

namespace Sys2Proof.Machine

/-! ### IRQ_CONFIG, HDM_CONFIG and HOST_WINDOW_CONFIG (R423, R426, R428, R430) -/

section

variable {s : State} {m : BitVec 6}

/-- The vectors after an IRQ_CONFIG of source `src`, mailbox `b` and vector `v`. -/
def HostState.withVector (h : HostState) (src b v : Nat) : HostState :=
  if src = 0 then { h with vecBox := tset h.vecBox b v }
  else if src = 1 then { h with vecRas := v }
  else if src = 2 then { h with vecProgress := v } else { h with vecFrame := v }

section

variable {src b v : Nat} (h : s.admits 0x0104 m = true) (h0 : u8At (s.params m) 0 = src) (h1 : u8At (s.params m) 1 = b)
  (h2 : u8At (s.params m) 2 = v)
include h h0

theorem exec_irqConfig_source (hs : 3 < src) : exec (.irqConfig m) s = .next (s.refusalAt m 0) := by
  change execIrqConfig m s = _
  simp only [execIrqConfig, State.welfy_admitted h, h0, hs, if_true, Reply.settle_refusalAt]

include h1

theorem exec_irqConfig_box (hs : src ≤ 3) (hb : (src = 0 ∧ 63 < b) ∨ (src ≠ 0 ∧ b ≠ 0)) :
    exec (.irqConfig m) s = .next (s.refusalAt m 1) := by
  change execIrqConfig m s = _
  simp only [execIrqConfig, State.welfy_admitted h, h0, h1, if_neg (show ¬ 3 < src by omega), if_pos hb,
    Reply.settle_refusalAt]

include h2

theorem exec_irqConfig_vector (hs : src ≤ 3) (hb : ¬((src = 0 ∧ 63 < b) ∨ (src ≠ 0 ∧ b ≠ 0))) (hv : 63 < v) :
    exec (.irqConfig m) s = .next (s.refusalAt m 2) := by
  change execIrqConfig m s = _
  simp only [execIrqConfig, State.welfy_admitted h, h0, h1, h2, if_neg (show ¬ 3 < src by omega), if_neg hb, hv, if_true,
    Reply.settle_refusalAt]

theorem exec_irqConfig_sets (hs : src ≤ 3) (hb : ¬((src = 0 ∧ 63 < b) ∨ (src ≠ 0 ∧ b ≠ 0))) (hv : v ≤ 63)
    {host : HostState} (hw : s.host.withVector src b v = host) :
    exec (.irqConfig m) s = .next (State.answer { s with host := host } m []) := by
  subst hw
  change execIrqConfig m s = _
  simp only [execIrqConfig, State.welfy_admitted h, h0, h1, h2, if_neg (show ¬ 3 < src by omega), if_neg hb,
    if_neg (show ¬ 63 < v by omega), Reply.settle_answer]
  rfl

end

/-- The decoder decides nothing of whether a command is admitted. -/
theorem State.setDecoder_admits (s : State) (d : Option (BitVec 52)) (op : Nat) (m : BitVec 6) :
    (s.setDecoder d).admits op m = s.admits op m := by
  have hh : ((s.setDecoder d).headerCheck m.toNat).isNone = (s.headerCheck m.toNat).isNone := by
    have hb : (s.setDecoder d).box m.toNat = s.box m.toNat := rfl
    unfold State.headerCheck
    rw [hb]
    dsimp only
    split_ifs <;> rfl
  unfold State.admits
  rw [hh]
  rfl

/-- HDM_CONFIG's own part runs in the state in which its operand has left the decoder. -/
theorem exec_hdmConfig (h : s.admits 0x0202 m = true) (d : Option (BitVec 52)) {base size : Nat}
    (hb : u64At (s.params m) 0 = base) (hz : u64At (s.params m) 8 = size) :
    exec (.hdmConfig ⟨m, d⟩) s = .next (Reply.settle (
      if base % 2 ^ 28 ≠ 0 ∨ 512 * 2 ^ 30 < base then (s.setDecoder d).bad 0
      else if size % 2 ^ 28 ≠ 0 ∨ 64 * 2 ^ 30 < size ∨ 512 * 2 ^ 30 < base + size then (s.setDecoder d).bad 8
      else if (s.setDecoder d).host.hdmDecoder.isSome then (s.setDecoder d).no .runLock
      else State.ok { s.setDecoder d with host := { (s.setDecoder d).host with hdmBase := base, hdmUnits := size / 2 ^ 28 } } [])
      m.toNat) := by
  subst hb hz
  have ha : (s.setDecoder d).admits 0x0202 m = true := (s.setDecoder_admits d 0x0202 m).trans h
  exact congrArg Host.Outcome.next (State.welfy_admitted ha _)

theorem exec_hostWindowConfig (h : s.admits 0x0203 m = true) {l : Nat} (hl : u64At (s.params m) 0 = l) :
    exec (.hostWindowConfig m) s = .next (Reply.settle (
      if l % 4096 ≠ 0 ∨ 2 ^ 46 < l then s.bad 0 else State.ok { s with host := { s.host with hostLimit := l } } []) m.toNat) := by
  subst hl
  exact congrArg Host.Outcome.next (State.welfy_admitted h _)

end

/-! ### DEVICE_RESET (R438) -/

theorem State.resetAdmitted_iff (s : State) (force : Bool) : s.resetAdmitted force = true ↔
    s.upd.commit = .idle ∨ s.lup.phase = .hold ∨ s.lup.phase = .stopped ∨ s.boot.dev = .halted ∨ force = true := by
  simp only [State.resetAdmitted, Bool.or_eq_true, decide_eq_true_eq]
  tauto

section

variable {s : State} {m : BitVec 6} (h : s.admits 0x0105 m = true)
include h

theorem exec_deviceReset_refused (hr : s.resetAdmitted (bit (u8At (s.params m) 0) 0) = false) :
    exec (.deviceReset m) s = .next (s.refusal m .runLock) := by
  have hw : s.welfy 0x0105 m resetReply = s.refusal m .runLock := by
    rw [State.welfy_admitted h, resetReply, hr]
    rfl
  rw [exec_deviceReset_stays, hw]
  rw [hw]
  exact State.finish_not_succeeds Status.noConfusion _ _ _ _ _

theorem exec_deviceReset_taken (hr : s.resetAdmitted (bit (u8At (s.params m) 0) 0) = true) :
    exec (.deviceReset m) s = .next (((s.answer m []).restart false 2).putBox m.toNat ((s.answer m []).box m.toNat)) := by
  obtain ⟨hs, hc, -⟩ := (s.admits_iff 0x0105 m).1 h
  have hw : s.welfy 0x0105 m resetReply = s.answer m [] := by
    rw [State.welfy_admitted h, resetReply, hr]
    rfl
  rw [exec_deviceReset_restarts hc, hw]
  rw [hw, State.succeeds, State.answer, State.finish_box_same]
  exact ⟨State.mayStart_busy hs, rfl, Mailbox.answered_status ..⟩

end

end Sys2Proof.Machine

namespace Sys2Proof.HostLink

open Sys2Proof Sys2Proof.Machine

/-- Settles O6: reset's state is one value, and the views of the frame counters read zeros in it. -/
theorem resetValues : Obligations.ResetValues := by
  refine ⟨rfl, rfl, rfl, rfl, rfl, rfl, rfl, rfl, rfl, rfl, rfl, rfl, rfl, rfl, ?_⟩
  decide

/-- Settles O14, command by command; the decoder that HDM_CONFIG finds is its operand (log entry 10). -/
theorem hostConfigurationCommands : Obligations.HostConfigurationCommands := by
  intro s m
  refine ⟨fun hadm => ?_, fun hadm => ?_, fun hadm => ?_⟩
  · dsimp only
    refine ⟨fun h1 h2 h0 => ?_, fun h1 h2 => ⟨fun h0 => ?_, fun h0 => ?_, fun h0 => ?_⟩, fun h0 => ?_, fun h0 hb => ?_,
      fun hb hv => ?_⟩
    · exact exec_irqConfig_sets hadm h0 rfl rfl (by omega) (by omega) h2 rfl
    · exact exec_irqConfig_sets hadm h0 rfl rfl (by omega) (by omega) h2 rfl
    · exact exec_irqConfig_sets hadm h0 rfl rfl (by omega) (by omega) h2 rfl
    · exact exec_irqConfig_sets hadm h0 rfl rfl (by omega) (by omega) h2 rfl
    · exact exec_irqConfig_source hadm rfl h0
    · exact exec_irqConfig_box hadm rfl rfl h0 hb
    · exact exec_irqConfig_vector hadm rfl rfl rfl (by omega) (by omega) hv
  · intro base size d
    have hrow := exec_hdmConfig hadm d (base := base) (size := size) rfl rfl
    refine ⟨fun hb hz h36 h39 => ⟨fun hd => ?_, fun hd => ?_⟩, fun hb => ?_, fun hb hl hz => ?_⟩
    · subst hd
      rw [hrow, if_neg (by omega), if_neg (by omega), if_neg (by simp), Reply.settle_answer]
      rfl
    · rw [hrow, if_neg (by omega), if_neg (by omega), if_pos (by simpa [Option.isSome_iff_ne_none] using hd),
        Reply.settle_refusal _ _ Status.noConfusion]
    · rw [hrow, if_pos (by omega), Reply.settle_refusalAt]
    · rw [hrow, if_neg (by omega), if_pos (by omega), Reply.settle_refusalAt]
  · intro l
    have hrow := exec_hostWindowConfig hadm (l := l) rfl
    refine ⟨fun ha hl => ?_, fun hl => ?_⟩
    · rw [hrow, if_neg (by omega), Reply.settle_answer]
    · rw [hrow, if_pos hl, Reply.settle_refusalAt]

/-- Settles O17. That the mailbox page of the answer is kept and the other mailboxes are IDLE, and what the host side keeps, is
the model's choice (log entry 9). -/
theorem deviceResetWarmStarts : Obligations.DeviceResetWarmStarts := by
  intro s m hadm force
  have hiff := s.resetAdmitted_iff force
  refine ⟨fun ⟨hc, hh, hs, hd, hf⟩ => exec_deviceReset_refused hadm ?_, fun hr => ?_⟩
  · rw [Bool.eq_false_iff, ne_eq, hiff]
    simp [hc, hh, hs, hd, hf]
  · have hserved : Served s (s.answer m []) := s.finish_served m.toNat .success 0 []
    refine ⟨_, exec_deviceReset_taken hadm (hiff.2 hr), rfl, rfl, rfl, rfl, ?_, hserved.free, ?_, ?_, ?_, ?_, ?_, ?_⟩
    · change ((s.answer m []).mem, (s.answer m []).rc, (s.answer m []).pending) = _
      rw [hserved.eq]
    · change ((s.answer m []).host.linkActive, (s.answer m []).host.linkWidth, (s.answer m []).host.linkRate,
        (s.answer m []).host.hdmDecoder, (s.answer m []).host.msix, (s.answer m []).host.cfg) = _
      rw [hserved.eq]
    · change (s.answer m []).boot.persist = _
      rw [hserved.eq]
    · change (s.answer m []).boot.journal = _
      rw [hserved.eq]
    · change (s.answer m []).ras.lastLoss = _
      rw [hserved.eq]
    · rw [State.putBox_box_same, State.answer, State.finish_box_same]
      rfl
    · rw [State.putBox_box_same, State.answer, State.finish_box_same]
      exact Mailbox.answered_status ..

end Sys2Proof.HostLink
end

section
/-! ## A long operation that starts (R418, R468) -/

namespace Sys2Proof.Machine

/-- Record `i` taken for an operation, under the next sequence number. -/
def State.allocated (s : State) (i op mailbox total : Nat) (work : LongOp) : State :=
  ({ s with host := { s.host with handleSeq := nextSeq s.host.handleSeq } }).putRecord i
    { opcode := op, status := .inProgress, seq := nextSeq s.host.handleSeq, mailbox := mailbox,
      startTick := s.frm.tick.toNat % 2 ^ 32, position := 0, total := total, finished := 0, running := true, used := true,
      op := work }

theorem State.startLong_taken {s : State} {i : Nat} (h : s.freeRecord = some i) (op mailbox total : Nat) (work : LongOp) :
    s.startLong op mailbox total work =
      ⟨.opStarted, nextSeq s.host.handleSeq * 256 + i, [], s.allocated i op mailbox total work⟩ := by
  simp only [State.startLong, h, State.allocated]

/-- The training of a stack takes its record and then checks the live ports, as the training of a port does. -/
theorem exec_trainSweep_stack {s : State} {m : BitVec 6} {i n : Nat} (hf : s.freeRecord = some i)
    (h : s.admits 0x0907 m = true) (hk : u8At (s.params m) 0 = 2) (hn : u8At (s.params m) 1 = n) (hr : n ≤ 7)
    (he : s.frm.epoch = 0) : exec (.trainSweep m) s =
      .next ((s.allocated i 0x0907 m.toNat 2368 (.trainSweep 2 n)).portsCheck.finish m.toNat .opStarted
        (nextSeq s.host.handleSeq * 256 + i) []) := by
  change execTrainSweep m s = _
  simp [execTrainSweep, State.welfy_admitted h, hk, hn, Nat.not_lt.2 hr, he, State.startLong_taken hf, Reply.settle]

/-- A READY device with no live port, on whose admin mailbox a TRAIN_SWEEP of stack 0 waits. -/
def stackSweepAsked : State :=
  { State.reset with
      boot := { State.reset.boot with dev := .ready, welfy := true },
      host := { State.reset.host with boxes := [(0, { Mailbox.reset with
        captured := toLe 2 0x0907 ++ List.replicate 14 0 ++ [2, 0] ++ List.replicate 46 0, st := .busy })] } }

theorem stackSweepAsked_meets : stackSweepAsked.freeRecord = some 0 ∧ stackSweepAsked.admits 0x0907 0 = true ∧
    u8At (stackSweepAsked.params 0) 0 = 2 ∧ u8At (stackSweepAsked.params 0) 1 = 0 := by decide +kernel

/-- With fewer than 22 live ports the check raises a record (R364). -/
theorem stackSweepAsked_raises :
    (stackSweepAsked.allocated 0 0x0907 0 2368 (.trainSweep 2 0)).portsCheck.ras.seq =
      (stackSweepAsked.allocated 0 0x0907 0 2368 (.trainSweep 2 0)).ras.seq + 1 := by
  decide +kernel

end Sys2Proof.Machine

namespace Sys2Proof.HostLink

open Sys2Proof Sys2Proof.Machine

/-- Refutes O42: TRAIN_SWEEP of a stack also runs the check of the live ports (State.portsCheck), so on a device with fewer than
22 of them it raises a PORT_EVENT record, where the statement has it take its progress record and change nothing else. -/
theorem not_longOperations : ¬ Obligations.LongOperations := by
  intro h
  obtain ⟨hfree, hadm, hkind, hstack⟩ := stackSweepAsked_meets
  obtain ⟨-, hstarts⟩ := h.1 stackSweepAsked 0 0
  obtain ⟨-, -, hsweep, -⟩ := hstarts hfree
  have hclaim := (hsweep hadm).2 hkind (by rw [hstack]; decide) rfl
  rw [hstack, exec_trainSweep_stack hfree hadm hkind hstack (by decide) rfl] at hclaim
  have hseq := congrArg (fun t : State => t.ras.seq) (Host.Outcome.next.inj hclaim)
  simp only [State.finish_ras] at hseq
  exact Nat.succ_ne_self _ (stackSweepAsked_raises.symm.trans hseq)

end Sys2Proof.HostLink
end

section
/-! ## The start, stage by stage (R442 to R461) -/

namespace Sys2Proof.Machine

/-! ### The boot journal and the persistent block (R459, R460) -/

/-- An entry of the journal changes nothing beside the journal. -/
theorem State.journal_eq (s : State) (type status : Nat) (body : List Byte) :
    ∃ j, s.journal type status body = { s with boot := { s.boot with journal := j } } := by
  unfold State.journal
  exact ⟨_, rfl⟩

theorem State.beginStage_eq (s : State) (st : Nat) :
    ∃ j, s.beginStage st = { s with boot := { s.boot with stage := st, journal := j } } :=
  State.journal_eq { s with boot := { s.boot with stage := st } } 2 0 []

theorem State.closeStage_eq (s : State) (ms : Nat) :
    ∃ j, s.closeStage ms = { s with boot := { s.boot with journal := j } } := by
  unfold State.closeStage
  exact s.journal_eq _ _ _

theorem State.nextStage_stage (s : State) (ms n : Nat) : (s.nextStage ms n).boot.stage = n := by
  unfold State.nextStage
  obtain ⟨j, hj⟩ := (s.closeStage ms).beginStage_eq n
  rw [hj]
  rfl

theorem State.nextStage_host (s : State) (ms n : Nat) : (s.nextStage ms n).host = s.host := by
  unfold State.nextStage
  obtain ⟨i, hi⟩ := s.closeStage_eq ms
  rw [hi]
  obtain ⟨j, hj⟩ := State.beginStage_eq { s with boot := { s.boot with journal := i } } n
  rw [hj]
  rfl

/-! ### Stage 0 (R442, R459 to R461) -/

/-- What the rules of stage 0 leave as it was: the start's counts, the RAS engine and memory. -/
structure Counted (s t : State) : Prop where
  rc : t.boot.stage0Rc = s.boot.stage0Rc
  startNo : t.boot.persist.startNo = s.boot.persist.startNo
  cold : t.boot.persist.cntCold = s.boot.persist.cntCold
  warm : t.boot.persist.cntWarm = s.boot.persist.cntWarm
  ras : t.ras = s.ras
  mem : t.mem = s.mem

theorem Counted.refl (s : State) : Counted s s := ⟨rfl, rfl, rfl, rfl, rfl, rfl⟩

theorem Counted.trans {s t u : State} (h : Counted s t) (k : Counted t u) : Counted s u :=
  ⟨k.rc.trans h.rc, k.startNo.trans h.startNo, k.cold.trans h.cold, k.warm.trans h.warm, k.ras.trans h.ras,
    k.mem.trans h.mem⟩

theorem Counted.journal {s t : State} (h : Counted s t) (type status : Nat) (body : List Byte) :
    Counted s (t.journal type status body) := by
  obtain ⟨j, hj⟩ := t.journal_eq type status body
  rw [hj]
  exact ⟨h.rc, h.startNo, h.cold, h.warm, h.ras, h.mem⟩

theorem Counted.ite {s t u : State} {p : Prop} [Decidable p] (h : Counted s t) (k : Counted s u) :
    Counted s (if p then t else u) := by
  split
  · exact h
  · exact k

theorem State.excludeStack_counted (s : State) (st : Nat) : Counted s (s.excludeStack st) := by
  unfold State.excludeStack
  obtain ⟨j, hj⟩ := (s.stick Reg.BOOT_STATUS 4).journal_eq 5 0 [1, BitVec.ofNat 8 st]
  rw [hj]
  exact ⟨rfl, rfl, rfl, rfl, rfl, rfl⟩

theorem State.excludeHung_counted (s : State) (f : Option Nat) : Counted s (s.excludeHung f) := by
  have hl : ∀ (l : List Nat) (t : State), Counted t (l.foldl State.excludeStack t) := by
    intro l
    induction l with
    | nil => exact Counted.refl
    | cons st l ih => exact fun t => (t.excludeStack_counted st).trans (ih _)
  exact .ite (hl _ s) (.refl s)

/-- Whatever stage failed (Table 14.6), its rule touches other parts of the persistent block. -/
theorem State.journalRule_counted (s : State) (f : Option Nat) : Counted s (s.journalRule f) := by
  cases f with
  | none => exact .refl s
  | some st =>
    unfold State.journalRule
    dsimp only
    (repeat' split) <;> exact ⟨rfl, rfl, rfl, rfl, rfl, rfl⟩

theorem State.beginStage_counted (s : State) (st : Nat) : Counted s (s.beginStage st) := by
  obtain ⟨j, hj⟩ := s.beginStage_eq st
  rw [hj]
  exact ⟨rfl, rfl, rfl, rfl, rfl, rfl⟩

theorem State.beginStage_stage (s : State) (st : Nat) : (s.beginStage st).boot.stage = st := by
  obtain ⟨j, hj⟩ := s.beginStage_eq st
  rw [hj]

/-- The end of stage 0 counts the start (R460), whatever rule it follows. -/
theorem State.beginStart_counts (s : State) :
    s.beginStart.boot.stage = 1 ∧ s.beginStart.boot.stage0Rc = s.rc ∧
    s.beginStart.boot.persist.startNo = s.boot.persist.startNo + 1 ∧
    s.beginStart.ras.feedId = s.phys.feedStraps.toNat ∧ s.beginStart.mem = s.mem ∧
    s.beginStart.boot.persist.cntCold =
      (if s.boot.cold then satAdd s.boot.persist.cntCold 1 else s.boot.persist.cntCold) ∧
    s.beginStart.boot.persist.cntWarm =
      (if s.boot.cold then s.boot.persist.cntWarm else satAdd s.boot.persist.cntWarm 1) := by
  unfold State.beginStart
  extract_lets old f _ _ _ s0 _ pref s1 s2 s3 s3b s4
  clear_value f
  have hruled : Counted s0 s1 := by
    have hp : Counted s0 pref := ⟨rfl, rfl, rfl, rfl, rfl, rfl⟩
    have h0 : Counted s0 (s0.journalRule f) := s0.journalRule_counted f
    have hr : Counted s0 (pref.journalRule f) := hp.trans (pref.journalRule_counted f)
    unfold s1
    split
    · exact hp
    · exact h0
    · exact h0.ite hr
    · exact h0.ite hr
    · exact h0.ite hr
    · exact hr
  have hbegun : Counted s2 (s4.beginStage 1) := by
    have hs : Counted s2 s3b := ((Counted.refl s2).journal _ _ _).trans (s3.excludeHung_counted f)
    have h4 : Counted s2 s4 := hs.ite ⟨hs.rc, hs.startNo, hs.cold, hs.warm, hs.ras, hs.mem⟩
    exact h4.trans (s4.beginStage_counted 1)
  refine ⟨s4.beginStage_stage 1, hbegun.rc.trans hruled.rc, hbegun.startNo.trans ?_, ?_, hbegun.mem.trans hruled.mem,
    hbegun.cold.trans ?_, hbegun.warm.trans ?_⟩
  · exact congrArg (· + 1) hruled.startNo
  · rw [hbegun.ras]
    exact congrArg RasState.feedId hruled.ras
  · exact congrArg (fun n => if s.boot.cold = true then satAdd n 1 else n) hruled.cold
  · exact congrArg (fun n => if s.boot.cold = true then n else satAdd n 1) hruled.warm

theorem State.readBlocks_eq (s : State) : ∃ p q x,
    s.readBlocks = { s with boot := { s.boot with persist := p, otherCopy := q, settings := x } } := by
  unfold State.readBlocks
  dsimp only
  split
  · exact ⟨_, _, _, rfl⟩
  · split
    · exact ⟨_, _, _, rfl⟩
    · exact ⟨_, _, _, rfl⟩

theorem State.readBlocks_good {s : State} (h : s.boot.badCopies = 0) : s.readBlocks = s := by
  simp [State.readBlocks, h]

theorem State.readBlocks_other {s : State} (h : s.boot.badCopies = 1) :
    s.readBlocks.boot.persist = s.boot.otherCopy := by
  simp [State.readBlocks, h]

theorem exec_stageResetEnd_begins {s : State} (hd : s.boot.dev = .reset) (hs : s.boot.stage = 0)
    (h : s.resetMayEnd = true) : exec .stageResetEnd s = .next s.readBlocks.beginStart := by
  change execStageResetEnd s = _
  rw [execStageResetEnd, if_pos ⟨hd, hs, h⟩]

theorem exec_stageResetEnd_waits {s : State} (h : s.resetMayEnd = false) : exec .stageResetEnd s = .next s := by
  change execStageResetEnd s = _
  rw [execStageResetEnd, if_neg (by simp [h])]

/-! ### What the end of a stage does (R442) -/

/-- What the end of the current stage does. -/
def State.stageWork (s : State) (o : StageOut) (ms : Nat) : State :=
  match s.boot.stage with
  | 1 => s.stageRom ms
  | 2 => s.stageTwo ms
  | 3 => s.stageShell ms
  | 4 => s.stageFuses o ms
  | 5 => s.stageClocks o ms
  | 6 => s.stageTrain o ms
  | 7 => s.stageSeq o ms
  | 8 => s.stageTest o ms
  | _ => s

theorem exec_stageEnd_stopped {s : State}
    (h : s.boot.result ≠ .inProgress ∨ s.boot.recovery = true ∨ s.phys.refPresent = false) (o : StageOut) (ms : BitVec 32) : exec (.stageEnd o ms) s = .next s := by
  change execStageEnd o ms s = _
  rw [execStageEnd, if_pos (by simpa using h)]

theorem exec_stageEnd_runs {s : State} (hr : s.boot.result = .inProgress) (hc : s.boot.recovery = false)
    (hp : s.phys.refPresent = true) (o : StageOut) (ms : BitVec 32) :
    exec (.stageEnd o ms) s = .next (s.stageWork o ms.toNat) := by
  change execStageEnd o ms s = _
  rw [execStageEnd, if_neg (by simp [hr, hc, hp])]
  rfl

/-! ### A start that stays in progress -/

/-- The start is in progress, and not in recovery. -/
structure Starting (s : State) : Prop where
  result : s.boot.result = .inProgress
  recovery : s.boot.recovery = false

/-- The start has come to a stage. -/
structure AtStage (n : Nat) (s : State) : Prop extends Starting s where
  stage : s.boot.stage = n

theorem Starting.journal {s : State} (h : Starting s) (type status : Nat) (body : List Byte) :
    Starting (s.journal type status body) := by
  obtain ⟨j, hj⟩ := s.journal_eq type status body
  rw [hj]
  exact ⟨h.result, h.recovery⟩

/-- One entry for each fuse field that its shadow differs in (R447). -/
theorem Starting.journals {α : Type} {s : State} (h : Starting s) (l : List α) {type status : Nat} {body : List Byte} :
    Starting (l.foldl (fun (s : State) _ => s.journal type status body) s) := by
  induction l generalizing s with
  | nil => exact h
  | cons x l ih =>
    rw [List.foldl_cons]
    exact ih (h.journal type status body)

theorem Starting.stick {s : State} (h : Starting s) (off i : Nat) : Starting (s.stick off i) := ⟨h.result, h.recovery⟩

theorem Starting.persist {s : State} (h : Starting s) (f : Persistent → Persistent) : Starting (s.persist f) :=
  ⟨h.result, h.recovery⟩

theorem Starting.ite {s t : State} {p : Prop} [Decidable p] (h : Starting s) (k : Starting t) :
    Starting (if p then s else t) := by
  split
  · exact h
  · exact k

theorem Starting.closeStage {s : State} (h : Starting s) (ms : Nat) : Starting (s.closeStage ms) := by
  unfold State.closeStage
  exact h.journal _ _ _

theorem Starting.beginStage {s : State} (h : Starting s) (n : Nat) (ds : List Nat) :
    AtStage n ((s.beginStage n).lockDomains ds) := by
  obtain ⟨j, hj⟩ := s.beginStage_eq n
  rw [hj]
  exact ⟨⟨h.result, h.recovery⟩, rfl⟩

/-- Where what closes a stage has left the start in progress, the next stage begins. -/
theorem Starting.nextStage {s : State} (h : Starting s) (ms n : Nat) : AtStage n (s.nextStage ms n) := by
  unfold State.nextStage
  exact (h.closeStage ms).beginStage n _

theorem Starting.answerUnknown {s : State} (h : Starting s) : Starting s.answerUnknown := by
  rw [s.answerUnknown_answered.served.eq]
  exact ⟨h.result, h.recovery⟩

theorem Starting.mapOut {s : State} (h : Starting s) (p reason : Nat) : Starting (s.mapOut p reason) := by
  unfold State.mapOut
  extract_lets s0 s1
  have h1 : Starting s1 := (h.persist _).stick _ _
  split
  · exact h1
  · split
    · exact ⟨h1.result, h1.recovery⟩
    · next l _ _ q _ =>
      have hj := h1.journal 4 0 (toLe 2 l ++ toLe 2 p ++ toLe 2 q ++ toLe 1 reason)
      exact ⟨hj.result, hj.recovery⟩

theorem Starting.mapOuts {s : State} (h : Starting s) (reason : Nat) (ps : List Nat) : Starting (s.mapOuts reason ps) := by
  induction ps generalizing s with
  | nil => exact h
  | cons p ps ih => exact ih (h.ite (h.mapOut p reason))

/-! ### Stages 1 to 8 -/

theorem State.endHalted_halts (s : State) (r : StartResult) : (s.endHalted r).boot.dev = .halted ∧
    (s.endHalted r).phys.alert = true ∧ (s.endHalted r).host = s.host := by
  unfold State.endHalted
  extract_lets s1 _ s2
  obtain ⟨j, hj⟩ := s2.journal_eq 8 0 (toLe 4 r.code ++ toLe 4 s2.boot.startMs)
  rw [hj]
  exact ⟨rfl, rfl, rfl⟩

theorem State.stageHalts_halts (s : State) (ms : Nat) (r : StartResult) : (s.stageHalts ms r).boot.dev = .halted ∧
    (s.stageHalts ms r).phys.alert = true ∧ (s.stageHalts ms r).host = s.host := by
  unfold State.stageHalts
  obtain ⟨j, hj⟩ := s.closeStage_eq ms
  rw [hj]
  exact State.endHalted_halts _ r

section
variable {s : State} {o : StageOut} {ms : Nat}

theorem State.stageRom_recovery (h : s.boot.flashRcvLow = true) :
    (s.stageRom ms).boot.recovery = true ∧ (s.stageRom ms).boot.stage = s.boot.stage := by
  rw [State.stageRom, if_pos h]
  exact ⟨rfl, rfl⟩

theorem State.stageRom_next (h : Starting s) (hf : s.boot.flashRcvLow = false) : AtStage 2 (s.stageRom ms) := by
  rw [State.stageRom, if_neg (by simp [hf])]
  extract_lets key ok _ s1 s2 s3
  have h1 : Starting s1 := ⟨h.result, h.recovery⟩
  have h2 : Starting s2 := h1.ite (h1.stick _ _)
  have h3 : Starting s3 := h2.ite ((h2.stick _ _).journal _ _ _)
  exact h3.nextStage ms 2

theorem State.stageTwo_next (h : Starting s) (hv : s.imageVerdict (s.bankImage s.boot.startedB) [1] = none) :
    AtStage 3 (s.stageTwo ms) := by
  simp only [State.stageTwo, hv]
  exact h.nextStage ms 3

theorem State.stageShell_next (h : Starting s)
    (hk : ∀ k ∈ [2, 3, 4], componentOk (s.bankImage s.boot.startedB) k = true) : AtStage 4 (s.stageShell ms) := by
  unfold State.stageShell
  extract_lets im fb s1 _ _ s2 bad
  have hbad : bad.isEmpty = true := by
    rw [List.isEmpty_iff, List.filter_eq_nil_iff]
    intro k hm
    rw [hk k hm]
    decide
  rw [if_pos hbad]
  have h1 : Starting s1 := ((h.stick _ _).persist _).ite h
  have h2 : Starting (s2.loadSupplied (componentBytes im 4)) := ⟨h1.result, h1.recovery⟩
  exact h2.answerUnknown.nextStage ms 4

theorem State.stageFuses_next (h : Starting s) (ha : o.fuseApertureOk = true) (hm : o.fuseMapOk = true) :
    AtStage 5 (s.stageFuses o ms) := by
  rw [State.stageFuses, if_neg (by simp [ha, hm])]
  extract_lets f g diffs _ s1 s2
  have h1 : Starting s1 := ⟨h.result, h.recovery⟩
  have h2 : Starting s2 := h1.ite ((h1.stick _ _).journals diffs)
  exact h2.nextStage ms 5

theorem State.stageFuses_disagree (h : o.fuseApertureOk = false ∨ o.fuseMapOk = false) :
    s.stageFuses o ms = s.stageHalts ms .halted := by
  rw [State.stageFuses, if_pos (by simpa using h)]

theorem State.stageClocks_next (h : Starting s) (hp : s.boot.planSafe = false) : AtStage 6 (s.stageClocks o ms) := by
  unfold State.stageClocks
  extract_lets ap d _ _ s1 s2
  have h1 : Starting s1 := ⟨h.result, h.recovery⟩
  have h2 : Starting s2 := h1.ite (h1.stick _ _)
  have hp2 : s2.boot.planSafe = false := by
    unfold s2
    split
    · exact hp
    · exact hp
  rw [if_neg (by simp [hp2])]
  exact h2.nextStage ms 6

/-- Memory_Active is set before the end of stage 6 looks at the stacks (R446, R453). -/
theorem State.stageTrain_ends : (s.stageTrain o ms).host.memoryActive = true ∧
    ((s.stageTrain o ms).boot.stage = 7 ∨ (s.stageTrain o ms).boot.dev = .halted) := by
  have hm : (s.trainAll o).linkDomains.fillDone.host.memoryActive = true := rfl
  unfold State.stageTrain State.afterTrain
  generalize (s.trainAll o).linkDomains.fillDone = t at hm ⊢
  split
  · obtain ⟨hdev, -, hhost⟩ := t.stageHalts_halts ms .halted
    exact ⟨by rw [hhost, hm], .inr hdev⟩
  · exact ⟨by rw [t.nextStage_host, hm], .inl (t.nextStage_stage ms 7)⟩

theorem State.stageSeq_next (h : Starting s) : AtStage 8 (s.stageSeq o ms) := by
  unfold State.stageSeq
  extract_lets bad _ s1 s2
  have h1 : Starting s1 := ⟨h.result, h.recovery⟩
  exact ((h1.mapOuts 1 bad).mapOuts 2 _).nextStage ms 8

/-- With no failure in the second result, stage 8 maps out no core, excludes no stack and is not short of cores (Table 14.7). -/
theorem State.stageTest_next (h : Starting s) (ht : o.testBad = []) (hu : o.updBad = 0) (hn : o.unitsBad = 0)
    (hl : 512 ≤ s.boot.logical.length) : AtStage 9 (s.stageTest o ms) := by
  unfold State.stageTest
  extract_lets cores any s0 s1 _ s2 s3 s4 short s5
  have h0 : Starting s0 := (h.stick _ _).ite h
  have h1 : Starting s1 := (h0.stick _ _).ite h0
  have hb0 : s0.boot = s.boot := by unfold s0; split <;> rfl
  have hb1 : s1.boot = s0.boot := by unfold s1; split <;> rfl
  have hl2 : s2.boot.logical = s.boot.logical :=
    show s1.boot.logical = s.boot.logical by rw [hb1, hb0]
  have h3 : s3 = s2 := by simp [s3, cores, ht, State.mapOuts]
  have h4 : s4 = s2 := by simp [s4, hu, h3]
  have hs : short = false := by simpa [short, h4, hl2] using hl
  have h5 : s5 = s2 := by simp [s5, hs, h4]
  have h2 : Starting s2 := ⟨h1.result, h1.recovery⟩
  rw [if_neg (by simp [hu, hn, hs]), h5]
  exact h2.nextStage ms 9

end

/-! ### READY (R442, R457) -/

/-- What READY leaves the device at. -/
structure Entered (s t : State) : Prop where
  dev : t.boot.dev = .ready
  result : t.boot.result = .ready
  ticking : t.frm.ticking = true
  phase : t.frm.phase = 0
  failed : t.boot.persist.failedStarts = 0
  alert : t.phys.alert = false
  mem : t.mem = s.mem

theorem Entered.journal {s t : State} (h : Entered s t) (type status : Nat) (body : List Byte) :
    Entered s (t.journal type status body) := by
  obtain ⟨j, hj⟩ := t.journal_eq type status body
  rw [hj]
  exact ⟨h.dev, h.result, h.ticking, h.phase, h.failed, h.alert, h.mem⟩

theorem Entered.stick {s t : State} (h : Entered s t) (off i : Nat) : Entered s (t.stick off i) :=
  ⟨h.dev, h.result, h.ticking, h.phase, h.failed, h.alert, h.mem⟩

theorem Entered.recorded {s t u : State} (h : Entered s t) (k : Recorded t u) : Entered s u := by
  rw [k.eq]
  exact ⟨h.dev, h.result, h.ticking, h.phase, h.failed, h.alert, h.mem⟩

theorem exec_ready_enters {s : State} (hs : s.boot.stage = 9) (hd : s.boot.dev = .booting)
    (hr : s.boot.result = .inProgress) : ∃ t : State, exec .ready s = .next t ∧ Entered s t := by
  change ∃ t, execReady s = .next t ∧ _
  rw [execReady, if_pos ⟨hs, hd, hr⟩]
  refine ⟨_, rfl, ?_⟩
  extract_lets ms low both svn _ _ _ _ s1 s1' s2 s3
  have h3 : Entered s s3 := by
    have h2 : Entered s s2 := by
      unfold s2 s1'
      split
      · exact ⟨rfl, rfl, rfl, rfl, rfl, rfl, rfl⟩
      · exact ⟨rfl, rfl, rfl, rfl, rfl, rfl, rfl⟩
    exact h2.journal _ _ _
  split
  · exact (h3.stick _ _).recorded (State.raise_recorded (by decide) _ _ _)
  · exact h3

theorem exec_ready_waits {s : State}
    (h : s.boot.stage ≠ 9 ∨ s.boot.dev ≠ .booting ∨ s.boot.result ≠ .inProgress) : exec .ready s = .next s := by
  change execReady s = _
  rw [execReady, if_neg]
  rintro ⟨hs, hd, hr⟩
  rcases h with h | h | h
  · exact h hs
  · exact h hd
  · exact h hr

end Sys2Proof.Machine

namespace Sys2Proof.BringUp

open Sys2Proof Sys2Proof.Machine

/-- Settles O55, stage by stage: what the end of stage 0 counts, where each later end leaves the start, and READY. -/
theorem startGoesStageByStage : Obligations.StartGoesStageByStage := by
  intro s
  refine ⟨fun hd h0 => ⟨fun hb => by rw [State.readBlocks_good hb], State.readBlocks_other, fun hm => ?_,
    exec_stageResetEnd_waits⟩, fun o ms => ⟨fun h => exec_stageEnd_stopped h o ms, fun hr hc hp => ?_⟩, fun hs hd hr => ?_,
    exec_ready_waits⟩
  · have hcount := s.readBlocks.beginStart_counts
    obtain ⟨p, q, x, hread⟩ := s.readBlocks_eq
    refine ⟨_, exec_stageResetEnd_begins hd h0 hm, ?_⟩
    rw [hread] at hcount ⊢
    exact hcount
  · intro goes halts
    have hexec := exec_stageEnd_runs hr hc hp o ms
    have hstart : Starting s := ⟨hr, hc⟩
    have hgoes : ∀ n, AtStage n (s.stageWork o ms.toNat) → goes n := fun n h =>
      ⟨_, hexec, h.stage, h.result, h.recovery⟩
    refine ⟨fun hn => ⟨fun hf => hgoes 2 ?_, fun hf => ⟨_, hexec, ?_⟩⟩,
      fun hn hv => hgoes 3 ?_, fun hn hk => hgoes 4 ?_,
      fun hn => ⟨fun ha hm => hgoes 5 ?_, fun hb => ⟨_, hexec, ?_⟩⟩,
      fun hn hs => hgoes 6 ?_, fun hn => ⟨_, hexec, ?_⟩, fun hn => hgoes 8 ?_,
      fun hn _ ht hu hx hl => hgoes 9 ?_⟩
    all_goals simp only [State.stageWork, hn]
    · exact State.stageRom_next hstart hf
    · obtain ⟨hrec, hstage⟩ := State.stageRom_recovery (ms := ms.toNat) hf
      exact ⟨hrec, hstage.trans hn⟩
    · exact State.stageTwo_next hstart hv
    · exact State.stageShell_next hstart hk
    · exact State.stageFuses_next hstart ha hm
    · rw [State.stageFuses_disagree hb]
      obtain ⟨hdev, halert, -⟩ := s.stageHalts_halts ms.toNat .halted
      exact ⟨hdev, halert⟩
    · exact State.stageClocks_next hstart hs
    · exact State.stageTrain_ends
    · exact State.stageSeq_next hstart
    · exact State.stageTest_next hstart ht hu hx hl
  · obtain ⟨t, ht, h⟩ := exec_ready_enters hs hd hr
    exact ⟨t, ht, h.dev, h.result, h.ticking, h.phase, h.failed, h.alert, h.mem⟩

end Sys2Proof.BringUp
end

section
/-! ## The RAS engine, and what recovery completes (R501 to R505, R511, R518, R528, R465) -/

namespace Sys2Proof.Machine

/-! ### A record that arrives while none is active (R502, R503) -/

theorem State.rasArrive_regs (s : State) (sev : Nat) : (s.rasArrive sev).regs =
    (if sev ≤ 3 then (s.bump (rasCounter sev) 1).stick Reg.RAS_STATUS (sev - 1) else s.bump (rasCounter sev) 1).regs := by
  unfold State.rasArrive
  dsimp only
  generalize (if sev ≤ 3 then _ else _) = t
  split
  · exact t.sendVec_regs _
  · rfl

/-- An arrival counts and notifies; it leaves the engine itself to the placing. -/
theorem State.rasArrive_ras (s : State) (sev : Nat) : (s.rasArrive sev).ras = s.ras := by
  unfold State.rasArrive
  dsimp only
  generalize ht : (if sev ≤ 3 then _ else _) = t
  have htras : t.ras = s.ras := by
    rw [← ht]
    split
    · rfl
    · rfl
  split
  · exact (t.sendVec_ras _).trans htras
  · exact htras

theorem rasCounter_ne_status (sev : Nat) : rasCounter sev ≠ Reg.RAS_STATUS := by
  unfold rasCounter
  split_ifs <;> decide

theorem State.reg_of_regs {s t : State} (h : t.regs = s.regs) (r : Nat) : t.reg r = s.reg r :=
  congrArg (fun x => tget (regReset r) x r) h

theorem State.rasArrive_counts (s : State) (sev : Nat) :
    (s.rasArrive sev).reg (rasCounter sev) = satAdd (s.reg (rasCounter sev)) 1 := by
  rw [State.reg_of_regs (s.rasArrive_regs sev)]
  split
  · rw [State.stick_reg, if_neg (rasCounter_ne_status sev), State.bump_reg, if_pos rfl]
  · rw [State.bump_reg, if_pos rfl]

theorem State.stick_keeps_set {s : State} {off k : Nat} (hk : k < 32) (h : s.regBit off k = true) (i : Nat) :
    (s.stick off i).regBit off k = true := by
  rw [State.regBit, State.stick_reg, if_pos rfl, wordSet_bit _ hk]
  rw [State.regBit] at h
  rw [h, Bool.true_or]

/-- A sticky bit that is set stays set when another record arrives. -/
theorem State.rasArrive_keeps_set {s : State} {k : Nat} (hk : k < 32) (h : s.regBit Reg.RAS_STATUS k = true) (sev : Nat) :
    (s.rasArrive sev).regBit Reg.RAS_STATUS k = true := by
  have hb : (s.bump (rasCounter sev) 1).regBit Reg.RAS_STATUS k = true := by
    rw [State.regBit, State.bump_reg, if_neg (rasCounter_ne_status sev).symm]
    exact h
  rw [State.regBit, State.reg_of_regs (s.rasArrive_regs sev)]
  split
  · exact State.stick_keeps_set hk hb _
  · exact hb

/-- The record that a unit raises now (Table 16.2). -/
def State.newRecord (s : State) (c : RasClass) (u : UnitId) (detail : Nat) (half : Bool) : RasRecord :=
  { severity := c.severity, cls := c.code, unit := u, seq := s.ras.seq, preempted := false, half := half,
    lastLoss := false, tick := s.frm.tick, detail := detail, step := s.upd.t }

/-- The state with a record number taken. -/
def State.numbered (s : State) : State := { s with ras := { s.ras with seq := s.ras.seq + 1 } }

/-- A record has become the active one, is counted, and has had its device action (R502). -/
structure Raised (s t : State) (r : RasRecord) : Prop where
  active : t.ras.active = some r
  queue : t.ras.queue = s.ras.queue
  count : t.reg (rasCounter r.severity) = satAdd (s.reg (rasCounter r.severity)) 1
  step : r.severity = 3 → t.frm.uncommittable = true
  fatal : r.severity = 4 → t.phys.alert = true ∧ t.ras.fatalPending = true
  mem : t.mem = s.mem
  flags : ∀ k, k < 32 → s.regBit Reg.RAS_STATUS k = true → t.regBit Reg.RAS_STATUS k = true

theorem State.raiseFull_raised {s : State} (h : s.ras.active = none) (c : RasClass) (u : UnitId) (d : Nat) (half : Bool) :
    Raised s (s.raiseFull c u d half) (s.newRecord c u d half) := by
  have hplaced : s.raiseFull c u d half =
      ((s.numbered.rasArrive c.severity).rasPlace (s.newRecord c u d half)).rasAct c.severity := by
    simp only [State.raiseFull, h, State.newRecord, State.numbered]
  rw [hplaced]
  have hras := s.numbered.rasArrive_ras c.severity
  have hmem := (s.numbered.rasArrive_sends c.severity).mem
  have hcount := s.numbered.rasArrive_counts c.severity
  have hflags : ∀ k, k < 32 → s.regBit Reg.RAS_STATUS k = true →
      (s.numbered.rasArrive c.severity).regBit Reg.RAS_STATUS k = true := fun k hk hs =>
    State.rasArrive_keeps_set (s := s.numbered) hk hs c.severity
  generalize s.numbered.rasArrive c.severity = t at hras hmem hcount hflags
  have hact : t.ras.active = none := hras ▸ h
  have hqueue : t.ras.queue = s.ras.queue := by rw [hras]; rfl
  have hsev : (s.newRecord c u d half).severity = c.severity := rfl
  unfold State.rasPlace State.rasAct
  simp only [hact]
  split
  · next h3 =>
    have hne : (s.newRecord c u d half).severity ≠ 4 := by rw [hsev, h3]; decide
    exact ⟨rfl, hqueue, hcount, fun _ => rfl, fun h4 => absurd h4 hne, hmem, hflags⟩
  · next h3 =>
    split
    · exact ⟨rfl, hqueue, hcount, fun hs => absurd hs h3, fun _ => ⟨rfl, rfl⟩, hmem, hflags⟩
    · next h4 => exact ⟨rfl, hqueue, hcount, fun hs => absurd hs h3, fun hs => absurd hs h4, hmem, hflags⟩

theorem RasClass.ofCode_code {k : Nat} {c : RasClass} (h : RasClass.ofCode k = some c) : c.code = k :=
  beq_iff_eq.1 (List.find?_some (p := fun x : RasClass => x.code == k) h)

theorem exec_rasRecord_unknown {k : BitVec 8} (h : RasClass.ofCode k.toNat = none) (u : BitVec 16) (x : BitVec 64) (half : Bool)
    (s : State) : exec (.rasRecord k u x half) s = .next s := by
  change execRasRecord k u x half s = _
  rw [execRasRecord, h]

theorem exec_rasRecord_raises {k : BitVec 8} {u : BitVec 16} {c : RasClass} (h : RasClass.ofCode k.toNat = some c)
    (hu : c.severity ≠ 2 ∨ (UnitId.ofCode u.toNat).ty ≠ 1) (x : BitVec 64) (half : Bool) (s : State) :
    exec (.rasRecord k u x half) s = .next (s.raiseFull c (UnitId.ofCode u.toNat) x.toNat half) := by
  change execRasRecord k u x half s = _
  have hn : ¬ (c.severity = 2 ∧ (UnitId.ofCode u.toNat).ty = 1) := not_and_or.2 hu
  simp only [execRasRecord, h, State.raiseNoted, if_neg hn]

/-! ### The end of a record's handling (R503 to R505) -/

section
variable {s : State} {r : RasRecord}

theorem exec_recordHandlingEnd_none (h : s.ras.active = none) : exec .recordHandlingEnd s = .next s := by
  change execRecordHandlingEnd s = _
  rw [execRecordHandlingEnd, h]

theorem exec_recordHandlingEnd_next (h : s.ras.active = some r) (hr : r.severity ≠ 4) : exec .recordHandlingEnd s =
    .next { s with ras := { s.ras with active := s.ras.queue.head?, queue := s.ras.queue.drop 1 } } := by
  change execRecordHandlingEnd s = _
  simp only [execRecordHandlingEnd, h, if_neg hr]

theorem exec_recordHandlingEnd_fatal (h : s.ras.active = some r) (hr : r.severity = 4) :
    exec .recordHandlingEnd s = .next s := by
  change execRecordHandlingEnd s = _
  simp only [execRecordHandlingEnd, h, if_pos hr]

theorem exec_deviceFatalReset_idle (h : s.ras.fatalPending = false) : exec .deviceFatalReset s = .next s := by
  change execDeviceFatalReset s = _
  simp only [execDeviceFatalReset, h]

/-- The newest record of the last-loss area is among the 64 that it holds. -/
theorem State.mem_writeLastLoss (s : State) (r : RasRecord) :
    { r with lastLoss := true } ∈ (s.writeLastLoss r).ras.lastLoss := by
  unfold State.writeLastLoss
  dsimp only
  rw [List.drop_append_of_le_length (by simp)]
  exact List.mem_append_right _ (List.mem_singleton.2 rfl)

theorem exec_deviceFatalReset_resets (h : s.ras.active = some r) (hr : r.severity = 4) (hp : s.ras.fatalPending = true) :
    ∃ t : State, exec .deviceFatalReset s = .next t ∧ t.boot.dev = .reset ∧ t.boot.cause = 5 ∧ t.boot.cold = false ∧
      { r with lastLoss := true } ∈ t.ras.lastLoss ∧ t.ras.active = s.ras.queue.head? ∧
      t.ras.queue = s.ras.queue.drop 1 ∧ t.mem = s.mem := by
  change ∃ t, execDeviceFatalReset s = .next t ∧ _
  simp only [execDeviceFatalReset, h, hp, if_pos hr]
  exact ⟨_, rfl, rfl, rfl, rfl, s.mem_writeLastLoss r, rfl, rfl, rfl⟩

end

/-! ### A map-in that takes effect (R511, step 4) -/

theorem find?_tset_same {α : Type} (t : Tab α) (k : Nat) (v : α) : (tset t k v).find? (fun e => e.1 == k) = some (k, v) := by
  induction t with
  | nil => simp [tset]
  | cons e t ih =>
    simp only [tset]
    split
    · simp
    · next hk =>
      split
      · simp
      · rw [List.find?_cons_of_neg (by simpa using Ne.symm hk)]
        exact ih

theorem State.warnSpares_recorded (s : State) (l : Nat) : Recorded s (s.warnSpares l) := by
  unfold State.warnSpares
  dsimp only
  split
  · exact State.raise_recorded (by decide) s _ 0
  · exact .refl s

theorem State.warnSpares_keeps_set {s : State} {k : Nat} (ha : s.ras.active = none) (hk : k < 32)
    (h : s.regBit Reg.RAS_STATUS k = true) (l : Nat) : (s.warnSpares l).regBit Reg.RAS_STATUS k = true := by
  unfold State.warnSpares
  dsimp only
  split
  · exact (State.raiseFull_raised ha .sparesLow (coreId l) 0 false).flags k hk h
  · exact h

theorem State.takeMapIn_takes {s : State} (h : s.ras.active = none) (l q : Nat) :
    (s.takeMapIn l q).physOf l = some q ∧
    (s.takeMapIn l q).mem = mzero s.mem (0x008000000000 + l * 0x400000) (0x008000000000 + (l + 1) * 0x400000) ∧
    (∀ x ∈ (s.takeMapIn l q).boot.pendingMapIn, x.1 ≠ l) ∧ coreId l ∉ (s.takeMapIn l q).frm.idleUnits ∧
    (s.takeMapIn l q).reg Reg.RAS_CNT_MAPIN = satAdd (s.reg Reg.RAS_CNT_MAPIN) 1 ∧
    (s.takeMapIn l q).regBit Reg.RAS_STATUS 4 = true := by
  unfold State.takeMapIn
  extract_lets p _ b _ f _ r store m s1
  have hw := s1.warnSpares_recorded l
  have hboot : (s1.warnSpares l).boot = b := by rw [hw.eq]; rfl
  have hidle : (s1.warnSpares l).frm.idleUnits = f.idleUnits := by rw [hw.eq]; rfl
  refine ⟨?_, ?_, ?_, ?_, ?_, ?_⟩
  · rw [State.physOf, hboot, find?_tset_same]
    rfl
  · rw [hw.mem, show 0x008000000000 + (l + 1) * 0x400000 = store + 0x400000 by simp only [store]; ring]
    rfl
  · rw [hboot]
    intro x hx
    simpa using (List.mem_filter.1 hx).2
  · rw [hidle]
    intro hx
    simpa using (List.mem_filter.1 hx).2
  · rw [hw.reg _ (by decide), State.stick_reg, if_neg (by decide), State.bump_reg, if_pos rfl]
    rfl
  · have hnone : s1.ras.active = none := h
    have hset : s1.regBit Reg.RAS_STATUS 4 = true := State.stick_regBit _ _ (by decide)
    exact State.warnSpares_keeps_set hnone (by decide) hset l

theorem exec_mapIn_takes {s : State} {l : BitVec 9} {e : Nat × Nat × Bool}
    (h : s.boot.pendingMapIn.find? (fun e => e.1 == l.toNat && e.2.2) = some e) :
    exec (.mapIn l) s = .next (s.takeMapIn l.toNat e.2.1).unblock := by
  change execMapIn l s = _
  rw [execMapIn, h]

theorem exec_mapIn_none {s : State} {l : BitVec 9}
    (h : s.boot.pendingMapIn.find? (fun e => e.1 == l.toNat && e.2.2) = none) : exec (.mapIn l) s = .next s := by
  change execMapIn l s = _
  rw [execMapIn, h]

/-! ### The Mirror's copy, the host log, a processor's image (R518, R528, R465) -/

section
variable {s : State}

theorem exec_mirrorComplete_waits (h : s.ras.mirror.copying ≠ some 1 ∨ s.mirrorBusy = true) :
    exec .mirrorComplete s = .next s := by
  change execMirrorComplete s = _
  rw [execMirrorComplete, if_neg]
  rintro ⟨hc, hb⟩
  rcases h with h | h
  · exact h hc
  · simp [h] at hb

theorem exec_mirrorComplete_completes (hc : s.ras.mirror.copying = some 1) (hb : s.mirrorBusy = false) :
    ∃ t : State, exec .mirrorComplete s = .next t ∧ t.ras.mirror.copying = none ∧ t.ras.mirror.copyDone = true ∧
      t.ras.mirror.ownHalf = 1 - s.ras.mirror.ownHalf ∧ t.ras.ownT = s.upd.t ∧
      t.reg Reg.RAS_CNT_MIRROR = satAdd (s.reg Reg.RAS_CNT_MIRROR) 1 ∧ t.mem = s.mem := by
  change ∃ t, execMirrorComplete s = .next t ∧ _
  rw [execMirrorComplete, if_pos ⟨hc, by rw [hb]; rfl⟩]
  refine ⟨_, rfl, rfl, rfl, rfl, rfl, ?_, rfl⟩
  rw [State.bump_reg, if_pos rfl]
  rfl

/-- A copy of an entry to the host ring touches memory and the bookkeeping of its writes. -/
theorem State.hostCopy_parts (s : State) (t : Nat) : (s.hostCopy t).ras = s.ras ∧ (s.hostCopy t).frm = s.frm := by
  unfold State.hostCopy
  split
  · next e _ =>
    obtain ⟨u, hu, h⟩ := s.store_eq (s.hostRing + 128 * (t % s.flerraRing.2)) e
    rw [h, hu.eq]
    exact ⟨rfl, rfl⟩
  · exact ⟨rfl, rfl⟩

theorem State.hostCopies_parts (lo : Nat) (l : List Nat) (s : State) :
    (l.foldl (fun (s : State) i => s.hostCopy (lo + i)) s).ras = s.ras ∧
    (l.foldl (fun (s : State) i => s.hostCopy (lo + i)) s).frm = s.frm := by
  induction l generalizing s with
  | nil => exact ⟨rfl, rfl⟩
  | cons i l ih =>
    rw [List.foldl_cons]
    obtain ⟨hras, hfrm⟩ := s.hostCopy_parts (lo + i)
    obtain ⟨iras, ifrm⟩ := ih (s.hostCopy (lo + i))
    exact ⟨iras.trans hras, ifrm.trans hfrm⟩

theorem exec_hostLogCatchup_none (h : s.ras.hostLagFrom = none) : exec .hostLogCatchup s = .next s := by
  change execHostLogCatchup s = _
  rw [execHostLogCatchup, State.hostCatchup, h]

theorem exec_hostLogCatchup_copies {f : Nat} (h : s.ras.hostLagFrom = some f) (hk : s.hostLogOk f = true) :
    ∃ t : State, exec .hostLogCatchup s = .next t ∧ t.ras.hostLagFrom = none ∧ t.ras.flerraT = s.ras.flerraT ∧
      t.frm = s.frm := by
  change ∃ t, execHostLogCatchup s = .next t ∧ _
  simp only [execHostLogCatchup, State.hostCatchup, h, hk, Bool.not_true, Bool.false_eq_true, if_false]
  refine ⟨_, rfl, ?_⟩
  obtain ⟨hras, hfrm⟩ := State.hostCopies_parts (Nat.max f (s.ras.flerraT.toNat + 1 - s.flerraRing.2))
    (List.range (s.ras.flerraT.toNat + 1 - Nat.max f (s.ras.flerraT.toNat + 1 - s.flerraRing.2)))
    { s with ras := { s.ras with hostLagFrom := none } }
  rw [hras, hfrm]
  exact ⟨rfl, rfl, rfl⟩

theorem exec_scpImageVerified_home {i : BitVec 2} (h : (s.scp i.toNat).away = false) :
    exec (.scpImageVerified i) s = .next s := by
  change execScpImageVerified i s = _
  simp [execScpImageVerified, h]

theorem exec_scpImageVerified_verifies {i : BitVec 2} (ha : (s.scp i.toNat).away = true)
    (hw : (s.scp i.toNat).swapTo.isSome = true) : ∃ t : State, exec (.scpImageVerified i) s = .next t ∧
      t.scp i.toNat = { s.scp i.toNat with verified := true } ∧ (∀ j, j ≠ i.toNat → t.scp j = s.scp j) ∧
      (t.regs, t.mem, t.frm) = (s.regs, s.mem, s.frm) := by
  change ∃ t, execScpImageVerified i s = .next t ∧ _
  cases hv : (s.scp i.toNat).verified with
  | true =>
    refine ⟨s, ?_, ?_, fun _ _ => rfl, rfl⟩
    · simp [execScpImageVerified, hv]
    · rw [← hv]
  | false =>
    simp only [execScpImageVerified, ha, hw, hv, Bool.and_self, Bool.not_false, if_true]
    exact ⟨_, rfl, tget_tset_same _ _ _ _, fun j hj => tget_tset_other _ _ _ hj, rfl⟩

end

end Sys2Proof.Machine

namespace Sys2Proof.BringUp

open Sys2Proof Sys2Proof.Machine

/-- Settles O58, case by case: the record that becomes active, the end of its handling, and each completion. -/
theorem rasEngineAndRecovery : Obligations.RasEngineAndRecovery := by
  refine ⟨fun s => ⟨fun k u x h => ⟨fun hk => exec_rasRecord_unknown hk u x h s, fun c hc hu ha => ?_⟩,
      fun r ha => ⟨exec_recordHandlingEnd_next ha, exec_recordHandlingEnd_fatal ha, exec_deviceFatalReset_resets ha⟩,
      exec_deviceFatalReset_idle, exec_recordHandlingEnd_none⟩,
    fun s => ⟨fun l => ⟨fun e he ha => ⟨_, exec_mapIn_takes he, State.takeMapIn_takes ha _ _⟩, exec_mapIn_none⟩,
      exec_mirrorComplete_completes, exec_mirrorComplete_waits, exec_hostLogCatchup_none,
      fun f => exec_hostLogCatchup_copies, fun i => ⟨exec_scpImageVerified_verifies, exec_scpImageVerified_home⟩⟩⟩
  obtain ⟨hactive, hqueue, hcount, hstep, hfatal, hmem, -⟩ :=
    State.raiseFull_raised ha c (UnitId.ofCode u.toNat) x.toNat h
  refine ⟨_, exec_rasRecord_raises hc hu x h s, ?_, hcount, hqueue, hstep, hfatal, hmem⟩
  rw [hactive, ← RasClass.ofCode_code hc]
  rfl

end Sys2Proof.BringUp
end

section
/-! ## Restarts, supply, clock domains and the management connector (R444, R472 to R481, R486, R571 to R575) -/

namespace Sys2Proof.Machine

/-! ### A record raised while none is active changes only what records show (R502, R503) -/

/-- A record noted, of any severity: what `Recorded` allows, and ALERT# (R572). -/
structure Alerted (s t : State) : Prop where
  eq : t = { s with regs := t.regs, host := t.host, ras := t.ras, out := t.out,
                    frm := { s.frm with uncommittable := t.frm.uncommittable },
                    phys := { s.phys with alert := t.phys.alert } }
  reg : ∀ r, r ∉ rasNoted → t.reg r = s.reg r

theorem Recorded.alerted {s t : State} (h : Recorded s t) : Alerted s t := by
  have hphys : t.phys = s.phys := by rw [h.eq]
  exact ⟨by rw [hphys]; exact h.eq, h.reg⟩

theorem Recorded.rasAct_alerted {s t : State} (h : Recorded s t) (sev : Nat) : Alerted s (t.rasAct sev) := by
  by_cases h4 : sev = 4
  · subst h4
    exact ⟨congrArg (fun u : State => { u with ras := { t.ras with fatalPending := true }, phys := { u.phys with alert := true } })
      h.eq, h.reg⟩
  · exact (h.trans (State.rasAct_recorded h4 t)).alerted

theorem State.raise_first {s : State} (h : s.ras.active = none) (c : RasClass) (u : UnitId) (d : Nat) : s.raise c u d =
    ((s.numbered.rasArrive c.severity).rasPlace (s.newRecord c u d false)).rasAct c.severity := by
  simp only [State.raise, State.raiseFull, h, State.newRecord, State.numbered]

/-- With no record active a device-fatal record too leaves its reset to come (R504). -/
theorem State.raise_alerted {s : State} (h : s.ras.active = none) (c : RasClass) (u : UnitId) (d : Nat) :
    Alerted s (s.raise c u d) := by
  have hnumbered : Recorded s s.numbered := (Recorded.refl s).withRas _
  have harrived := hnumbered.trans (s.numbered.rasArrive_recorded c.severity)
  rw [State.raise_first h]
  exact (harrived.trans (State.rasPlace_recorded _ _)).rasAct_alerted c.severity

section
variable {s t : State} (h : Alerted s t)
include h

theorem Alerted.scp (i : Nat) : t.scp i = s.scp i := by rw [h.eq]; rfl

theorem Alerted.domain (d : Nat) : t.domain d = s.domain d := by rw [h.eq]; rfl

theorem Alerted.regBit {off : Nat} (ho : off ∉ rasNoted) (i : Nat) : t.regBit off i = s.regBit off i :=
  congrArg (fun w : Word => w.getLsbD i) (h.reg off ho)

end

/-! ### Watchdog and Shell fault (R444, R504)

Cause 4 during a start alone, and the damaged copies that the cut-off start reports, are the model's choices (log entries 53
and 78). -/

section
variable {s : State} {h : StageHang}

theorem exec_stageWatchdog_restarts (hr : s.boot.result = .inProgress) (h1 : 1 ≤ s.boot.stage) (h8 : s.boot.stage ≤ 8)
    (hc : s.boot.recovery = false) : exec (.stageWatchdog h) s = .next ((s.noteHang h).restart false 3) := by
  change execStageWatchdog h s = _
  rw [execStageWatchdog, if_pos ⟨hr, h1, h8, by simp [hc]⟩]

theorem exec_stageWatchdog_ended (hr : s.boot.result ≠ .inProgress) : exec (.stageWatchdog h) s = .next s := by
  change execStageWatchdog h s = _
  rw [execStageWatchdog, if_neg fun hw => hr hw.1]

theorem exec_shellFault_starting (x : Option (BitVec 2)) (hr : s.boot.result = .inProgress) (hd : s.boot.dev = .booting) :
    exec (.shellFault ⟨h, x⟩) s = .next ((s.noteHang h).restart false 4) := by
  change execShellFault ⟨h, x⟩ s = _
  rw [execShellFault, if_pos hr, if_pos hd]

theorem exec_shellFault_inService (x : Option (BitVec 2)) (hr : s.boot.result ≠ .inProgress) :
    exec (.shellFault ⟨h, x⟩) s = .next ((s.failScp x).raise .shellFault ⟨7, 0⟩ 0) := by
  change execShellFault ⟨h, x⟩ s = _
  rw [execShellFault, if_neg hr]

end

theorem State.failScp_failed (s : State) (i : BitVec 2) : ((s.failScp (some i)).scp i.toNat).failed = true :=
  congrArg Scp.failed (tget_tset_same Scp.reset s.boot.scps i.toNat { s.scp i.toNat with failed := true })

/-- The processor that failed is out of service, and the device-fatal record is due its reset (R26, R504). -/
theorem State.failScp_raise {s : State} (ha : s.ras.active = none) (i : BitVec 2) :
    (((s.failScp (some i)).raise .shellFault ⟨7, 0⟩ 0).scp i.toNat).failed = true ∧
    ((s.failScp (some i)).raise .shellFault ⟨7, 0⟩ 0).ras.fatalPending = true := by
  have hf : (s.failScp (some i)).ras.active = none := ha
  refine ⟨?_, ((State.raiseFull_raised hf .shellFault ⟨7, 0⟩ 0 false).fatal rfl).2⟩
  rw [(State.raise_alerted hf .shellFault ⟨7, 0⟩ 0).scp]
  exact s.failScp_failed i

/-! ### Power at a connector (R575) -/

section
variable {s : State} {p : PowerOn}

theorem exec_powerApplied_low (c : Bool) (hv : p.volts.toNat < 4000) : exec (.powerApplied c p) s = .next s := by
  change execPowerApplied c p s = _
  simp only [execPowerApplied, if_pos hv]

theorem exec_powerApplied_first (c : Bool) (hv : 4000 ≤ p.volts.toNat) (h0 : s.phys.in0.1 < 4000) (h1 : s.phys.in1.1 < 4000) :
    ∃ t : State, exec (.powerApplied c p) s = .next t ∧ t.boot = { (s.restart true 0).boot with badCopies := p.badCopies } ∧
      t.phys.rails = true ∧ (if c then t.phys.in1 else t.phys.in0).1 = p.volts.toNat ∧
      (if c then t.phys.in0 else t.phys.in1) = (if c then s.phys.in0 else s.phys.in1) ∧ t.regs = [] := by
  change ∃ t, execPowerApplied c p s = .next t ∧ _
  simp only [execPowerApplied, if_neg (Nat.not_lt.2 hv), h0, h1, decide_true, Bool.and_self, if_true]
  refine ⟨_, rfl, rfl, rfl, ?_⟩
  cases c with
  | false => exact ⟨rfl, rfl, rfl⟩
  | true => exact ⟨rfl, rfl, rfl⟩

theorem exec_powerApplied_second (c : Bool) (hv : 4000 ≤ p.volts.toNat) (h : 4000 ≤ s.phys.in0.1 ∨ 4000 ≤ s.phys.in1.1) :
    ∃ t : State, exec (.powerApplied c p) s = .next t ∧ (if c then t.phys.in1 else t.phys.in0).1 = p.volts.toNat ∧
      (t.boot, t.regs, t.mem, t.frm, t.host) = (s.boot, s.regs, s.mem, s.frm, s.host) := by
  have hboth : (decide (s.phys.in0.1 < 4000) && decide (s.phys.in1.1 < 4000)) = false := by
    simpa [imp_iff_not_or, Nat.not_lt] using h
  change ∃ t, execPowerApplied c p s = .next t ∧ _
  simp only [execPowerApplied, if_neg (Nat.not_lt.2 hv), hboth, Bool.false_eq_true, if_false]
  refine ⟨_, rfl, ?_, rfl⟩
  cases c with
  | false => rfl
  | true => rfl

end

/-! ### The reference (R472, R473) -/

section
variable {s : State}

theorem exec_refclkPresent_declared (h : s.phys.refPresent = false) : exec .refclkPresent s =
    .next { s with phys := { s.phys with refPresent := true, domains := domainsOnRef } } := by
  change execRefclkPresent s = _
  rw [execRefclkPresent, if_neg (by simp [h])]

theorem exec_refclkPresent_again (h : s.phys.refPresent = true) : exec .refclkPresent s = .next s := by
  change execRefclkPresent s = _
  rw [execRefclkPresent, if_pos h]

theorem exec_refclkLost_absent (h : s.phys.refPresent = false) : exec .refclkLost s = .next s := by
  change execRefclkLost s = _
  simp [execRefclkLost, h]

theorem exec_refclkLost_holds (h : s.phys.refPresent = true) : ∃ t : State, exec .refclkLost s = .next t ∧
    t.phys.refPresent = false ∧ t.phys.rails = s.phys.rails ∧ t.boot.dev = .reset ∧ t.host.linkActive = false ∧
    (1 ≤ s.boot.stage → t.boot.cause = 1 ∧ t.boot.cold = false) := by
  change ∃ t, execRefclkLost s = .next t ∧ _
  simp only [execRefclkLost, if_pos h]
  refine ⟨_, rfl, rfl, rfl, rfl, rfl, fun hs => ?_⟩
  have hwarm : (s.boot.cold && s.boot.stage == 0) = false := by
    rw [beq_eq_false_iff_ne.2 (by omega), Bool.and_false]
  rw [hwarm]
  exact ⟨rfl, rfl⟩

end

/-! ### Loss of power (R486) -/

theorem exec_powerLoss_stops {a b : BitVec 16} {s : State}
    (h : (a.toNat < 4000 ∧ b.toNat < 4000) ∨ 6000 < a.toNat ∨ 6000 < b.toNat) : ∃ t : State,
      exec (.powerLoss a b) s = .next t ∧ t.phys.rails = false ∧ t.boot.cold = true ∧ t.boot.dev = .reset ∧ t.boot.cause = 0 ∧
      (∃ r ∈ t.ras.lastLoss, r.cls = RasClass.powerLoss.code ∧ r.severity = 4 ∧ r.lastLoss = true ∧ r.tick = s.frm.tick) := by
  change ∃ t, execPowerLoss a b s = .next t ∧ _
  simp only [execPowerLoss, if_pos h]
  exact ⟨_, rfl, rfl, rfl, rfl, rfl, _, s.mem_writeLastLoss _, rfl, rfl, rfl, rfl⟩

theorem exec_powerLoss_inRange {a b : BitVec 16} {s : State} (h : 4000 ≤ a.toNat ∨ 4000 ≤ b.toNat) (ha : a.toNat ≤ 6000)
    (hb : b.toNat ≤ 6000) : exec (.powerLoss a b) s = .next s := by
  change execPowerLoss a b s = _
  simp only [execPowerLoss]
  rw [if_neg (by omega)]

/-! ### An image in flash recovery (R573) -/

theorem State.imageFailed_boot (s : State) (im : List Byte) (x : Status) : (s.imageFailed im x).boot = s.boot := by
  unfold State.imageFailed
  dsimp only
  split_ifs <;> rfl

/-- The persistent block with a bank marked valid or not (R459). -/
def State.markBank (s : State) (b ok : Bool) : State :=
  s.persist (fun p => if b then { p with bValid := ok } else { p with aValid := ok })

/-- The state with an image in a flash bank. -/
def State.putBank (s : State) (b : Bool) (im : List Byte) : State :=
  { s with boot := if b then { s.boot with bankB := im } else { s.boot with bankA := im } }

theorem State.markBank_valid (s : State) (b ok : Bool) :
    (if b then (s.markBank b ok).boot.persist.bValid else (s.markBank b ok).boot.persist.aValid) = ok := by
  cases b with
  | false => rfl
  | true => rfl

theorem State.markBank_bankImage (s : State) (b ok k : Bool) : (s.markBank b ok).bankImage k = s.bankImage k := rfl

theorem State.putBank_bankImage (s : State) (b : Bool) (im : List Byte) :
    (s.putBank b im).bankImage b = im ∧ (s.putBank b im).bankImage (!b) = s.bankImage (!b) := by
  cases b with
  | false => exact ⟨rfl, rfl⟩
  | true => exact ⟨rfl, rfl⟩

theorem State.journal_bankImage (s : State) (type status : Nat) (body : List Byte) (k : Bool) :
    (s.journal type status body).bankImage k = s.bankImage k := by
  obtain ⟨j, hj⟩ := s.journal_eq type status body
  rw [hj]
  rfl

theorem State.imageFailed_bankImage (s : State) (im : List Byte) (x : Status) (k : Bool) :
    (s.imageFailed im x).bankImage k = s.bankImage k := by
  unfold State.bankImage
  rw [s.imageFailed_boot im x]

section
variable {s : State} (b : Bool) {im : List Byte}

theorem exec_flashRecoveryImage_ignored (h : s.boot.recovery = false) : exec (.flashRecoveryImage b im) s = .next s := by
  change execFlashRecoveryImage b im s = _
  rw [execFlashRecoveryImage, if_neg (by simp [h])]

theorem exec_flashRecoveryImage_taken (h : s.boot.recovery = true) (hv : s.imageVerdict im [1, 2, 3, 4] = none) :
    exec (.flashRecoveryImage b im) s =
      .next (((s.putBank b im).journal 0x07 0 [1, BitVec.ofNat 8 (b2n b)]).markBank b true) := by
  change execFlashRecoveryImage b im s = _
  simp only [execFlashRecoveryImage, if_pos h, hv]
  rfl

theorem exec_flashRecoveryImage_refused {x : Status} (h : s.boot.recovery = true)
    (hv : s.imageVerdict im [1, 2, 3, 4] = some x) :
    exec (.flashRecoveryImage b im) s = .next ((s.imageFailed im x).markBank b false) := by
  change execFlashRecoveryImage b im s = _
  simp only [execFlashRecoveryImage, if_pos h, hv]
  rfl

end

/-! ### The management connector (R571) -/

theorem exec_i3cRead_serves (q : I3cSel) (s : State) : ∃ t : State, exec (.i3cRead q) s = .next t ∧
    t = { s with phys := { s.phys with i3cOut := t.phys.i3cOut } } ∧ t.phys.i3cOut.length = 4 ∧
    (q = .pwrAvg → t.phys.i3cOut = toLe 4 s.phys.avg) ∧ (q = .bootState → t.phys.i3cOut = toLe 4 s.bootState.toNat) := by
  refine ⟨_, rfl, rfl, ?_, ?_, ?_⟩
  · cases q with
    | identity off => exact slice_length _ _ 4
    | bootState | thmDie | hbmThermAll | pwrAvg => exact toLe_length 4 _
  · rintro rfl
    rfl
  · rintro rfl
    rfl

/-! ### Windows of a frame-timed domain (R475, R477) -/

/-- Whether a count of a domain's window is within 100 ppm of what is expected (R475). -/
def State.windowOk (s : State) (d : Nat) (n : BitVec 32) : Bool := windowPasses (expectedCount s.lockMultiple d) n.toNat

section
variable {s : State} {d : Fin 37} {n : BitVec 32} (hd : 2 ≤ d.val)
include hd

theorem exec_clockWindow_locking_fails (hp : (s.domain d.val).phase = .locking) (ok : s.windowOk d.val n = false) :
    exec (.clockWindow d n) s = .next (s.putDomain d.val { s.domain d.val with count := n.toNat, passes := 0 }) := by
  unfold State.windowOk at ok
  change execClockWindow d n s = _
  simp [execClockWindow, Nat.not_lt.2 hd, hp, ok]

theorem exec_clockWindow_locking_first (hp : (s.domain d.val).phase = .locking) (ok : s.windowOk d.val n = true)
    (h0 : (s.domain d.val).passes = 0) :
    exec (.clockWindow d n) s = .next (s.putDomain d.val { s.domain d.val with count := n.toNat, passes := 1 }) := by
  unfold State.windowOk at ok
  change execClockWindow d n s = _
  simp [execClockWindow, Nat.not_lt.2 hd, hp, ok, h0]

theorem exec_clockWindow_locking_second (hp : (s.domain d.val).phase = .locking) (hs : (s.domain d.val).switching = none)
    (ok : s.windowOk d.val n = true) (h1 : 1 ≤ (s.domain d.val).passes) :
    exec (.clockWindow d n) s = .next (s.putDomain d.val { s.domain d.val with
      count := n.toNat, passes := (s.domain d.val).passes + 1, stable := true, switching := some s.rc }) := by
  unfold State.windowOk at ok
  change execClockWindow d n s = _
  simp [execClockWindow, Nat.not_lt.2 hd, hp, hs, ok, h1]

theorem exec_clockWindow_inService_fails (hp : (s.domain d.val).phase = .onPll) (ok : s.windowOk d.val n = false) :
    exec (.clockWindow d n) s = .next
      ((s.putDomain d.val { s.domain d.val with count := n.toNat, passes := 0 }).windowFail d.val) := by
  unfold State.windowOk at ok
  change execClockWindow d n s = _
  simp [execClockWindow, Nat.not_lt.2 hd, hp, ok]

end

/-- ARITH, NOC or a MEM domain that fails in service is flagged and counted beside its device-fatal record (R477, Table 15.2). -/
theorem State.windowFail_counts {s : State} {d : Nat} (hd : d ≤ 11) (ha : s.ras.active = none) :
    (s.windowFail d).regBit Reg.CLK_STATUS 0 = true ∧
    (s.windowFail d).reg Reg.CLK_CNT_WINDOW_FAIL = satAdd (s.reg Reg.CLK_CNT_WINDOW_FAIL) 1 := by
  rw [State.windowFail, if_pos hd]
  have hraise := State.raise_alerted (s := (s.stick Reg.CLK_STATUS 0).bump Reg.CLK_CNT_WINDOW_FAIL 1) ha .clockFail ⟨8, d⟩ 0
  constructor
  · rw [hraise.regBit (by decide), State.regBit, State.bump_reg, if_neg (by decide)]
    exact s.stick_regBit _ (by decide)
  · rw [hraise.reg _ (by decide), State.bump_reg, if_pos rfl, State.stick_reg, if_neg (by decide)]

/-! ### Housekeeping domains (R476) -/

theorem exec_hkStable_locked {s : State} (d : Fin 2) (h : s.phys.refPresent = true) : exec (.hkStable d) s =
    .next (s.putDomain d.val { s.domain d.val with phase := .onPll, stable := true, switching := none }) := by
  change execHkStable d s = _
  rw [execHkStable, if_pos h]

theorem exec_hkStable_unclocked {s : State} (d : Fin 2) (h : s.phys.refPresent = false) : exec (.hkStable d) s = .next s := by
  change execHkStable d s = _
  rw [execHkStable, if_neg (by simp [h])]

/-! ### Clock multiplexers (R479, R481) -/

section
variable {s : State} {d : Fin 37}

theorem exec_clockMuxSwitch_idle (h : (s.domain d.val).switching = none) : exec (.clockMuxSwitch d) s = .next s := by
  change execClockMuxSwitch d s = _
  simp only [execClockMuxSwitch, h]

theorem exec_muxHang_idle (h : (s.domain d.val).switching = none) : exec (.muxHang d) s = .next s := by
  change execMuxHang d s = _
  simp only [execMuxHang, h]

variable {x : Nat} (h : (s.domain d.val).switching = some x)
include h

theorem exec_clockMuxSwitch_toRef (hp : (s.domain d.val).phase = .onPll) : exec (.clockMuxSwitch d) s = .next
    (s.putDomain d.val { s.domain d.val with phase := .locking, switching := none, passes := 0, stable := false }) := by
  change execClockMuxSwitch d s = _
  simp only [execClockMuxSwitch, h, hp]

theorem exec_clockMuxSwitch_toPll (hp : (s.domain d.val).phase = .locking) (ha : d.val ≠ 2 ∨ s.phys.apSelect = none) :
    exec (.clockMuxSwitch d) s =
      .next (s.putDomain d.val { s.domain d.val with phase := .onPll, switching := none, stable := true }) := by
  change execClockMuxSwitch d s = _
  simp only [execClockMuxSwitch, h, hp]
  cases hsel : s.phys.apSelect with
  | none => rfl
  | some e =>
    have hd : d.val ≠ 2 := ha.resolve_right (by simp [hsel])
    simp only [if_neg hd]

theorem exec_muxHang_early (hx : s.rc < x + 1024) : exec (.muxHang d) s = .next s := by
  change execMuxHang d s = _
  simp only [execMuxHang, h, if_pos hx]

theorem exec_muxHang_resets (hx : x + 1024 ≤ s.rc) (hd : d.val ≠ 2) (ha : s.ras.active = none) : ∃ t : State,
    exec (.muxHang d) s = .next t ∧ (t.domain d.val).phase = .onRef ∧ (t.domain d.val).switching = none ∧
    t.regBit Reg.CLK_STATUS 1 = true ∧ t.reg Reg.CLK_CNT_MUX_HANG = satAdd (s.reg Reg.CLK_CNT_MUX_HANG) 1 := by
  change ∃ t, execMuxHang d s = .next t ∧ _
  simp only [execMuxHang, h, if_neg (Nat.not_lt.2 hx), if_neg hd]
  generalize hu : ((s.putDomain d.val { ClockDomain.reset with phase := .onRef }).stick Reg.CLK_STATUS 1).bump
    Reg.CLK_CNT_MUX_HANG 1 = u
  have hactive : u.ras.active = none := by rw [← hu]; exact ha
  have hdomain : u.domain d.val = { ClockDomain.reset with phase := .onRef } := by
    rw [← hu]
    exact s.putDomain_domain_same _ _
  have hflag : u.regBit Reg.CLK_STATUS 1 = true := by
    rw [← hu, State.regBit, State.bump_reg, if_neg (by decide)]
    exact State.stick_regBit _ _ (by decide)
  have hcount : u.reg Reg.CLK_CNT_MUX_HANG = satAdd (s.reg Reg.CLK_CNT_MUX_HANG) 1 := by
    rw [← hu, State.bump_reg, if_pos rfl, State.stick_reg, if_neg (by decide)]
    rfl
  have hraised : ∀ t, Alerted u t → (t.domain d.val).phase = .onRef ∧ (t.domain d.val).switching = none ∧
      t.regBit Reg.CLK_STATUS 1 = true ∧ t.reg Reg.CLK_CNT_MUX_HANG = satAdd (s.reg Reg.CLK_CNT_MUX_HANG) 1 := by
    intro t ht
    rw [ht.domain, hdomain, ht.regBit (by decide), hflag, ht.reg _ (by decide), hcount]
    exact ⟨rfl, rfl, rfl, rfl⟩
  refine ⟨_, rfl, hraised _ ?_⟩
  split
  · exact State.raise_alerted hactive _ _ _
  · exact State.raise_alerted hactive _ _ _

end

end Sys2Proof.Machine

namespace Sys2Proof.PowerAndClocks

open Sys2Proof Sys2Proof.Machine

/-- Settles O56, cause by cause: watchdog and Shell fault, power applied, the reference, power lost, the recovery image. -/
theorem restartsAndSupply : Obligations.RestartsAndSupply := by
  refine fun s => ⟨fun h => ⟨exec_stageWatchdog_restarts, fun hr => ⟨exec_stageWatchdog_ended hr,
      exec_shellFault_inService none hr, fun i => ⟨_, exec_shellFault_inService (some i) hr, fun ha => State.failScp_raise ha i⟩⟩,
      exec_shellFault_starting⟩,
    fun c v bad => ⟨exec_powerApplied_low (p := ⟨v, bad⟩) c, exec_powerApplied_first (p := ⟨v, bad⟩) c,
      exec_powerApplied_second (p := ⟨v, bad⟩) c⟩,
    exec_refclkPresent_declared, exec_refclkPresent_again, exec_refclkLost_holds, exec_refclkLost_absent,
    fun a b => ⟨exec_powerLoss_stops, exec_powerLoss_inRange⟩,
    fun b im => ⟨exec_flashRecoveryImage_ignored b, fun hr hv => ⟨_, exec_flashRecoveryImage_taken b hr hv, ?_⟩,
      fun x hr hv => ⟨_, exec_flashRecoveryImage_refused b hr hv, ?_, State.markBank_valid _ b false⟩⟩⟩
  · obtain ⟨hown, hother⟩ := s.putBank_bankImage b im
    refine ⟨?_, State.markBank_valid _ b true, ?_⟩
    · rw [State.markBank_bankImage, State.journal_bankImage, hown]
    · rw [State.markBank_bankImage, State.journal_bankImage, hother]
  · rw [State.markBank_bankImage, State.imageFailed_bankImage]

/-- Settles O57, unit by unit: the connector, a domain's windows in lock and in service, the housekeeping domains, the
multiplexers. -/
theorem clocksAndManagement : Obligations.ClocksAndManagement := by
  refine fun s => ⟨fun q => exec_i3cRead_serves q s, fun d n hd => ⟨fun hp hs => ⟨exec_clockWindow_locking_fails hd hp,
      exec_clockWindow_locking_first hd hp, exec_clockWindow_locking_second hd hp hs⟩, fun hp h11 ok ha =>
        ⟨_, exec_clockWindow_inService_fails hd hp ok, ?_⟩⟩,
    fun d => ⟨exec_hkStable_locked d, exec_hkStable_unclocked d⟩,
    fun d x => ⟨fun h => ⟨exec_clockMuxSwitch_idle h, exec_muxHang_idle h⟩, exec_clockMuxSwitch_toRef,
      exec_clockMuxSwitch_toPll, exec_muxHang_early, exec_muxHang_resets⟩⟩
  exact State.windowFail_counts h11 ha

end Sys2Proof.PowerAndClocks
end

section
/-! ## What every command and every step keeps

`Keeps` is the relation that the model's laws prove of each operation. A meaning is a composition of such operations: the
lemmas here follow the choices of each command, and `exec_keeps` gathers them over the opcode table. -/

namespace Sys2Proof.Machine

/-- A meaning answers a next state, and that state keeps what `Keeps` says, from `s` on. -/
def AnswerKeeps (s : State) : Out → Prop
  | .next t => Keeps s t
  | _ => False

theorem answerKeeps_next {s t : State} : AnswerKeeps s (.next t) ↔ Keeps s t := Iff.rfl

theorem AnswerKeeps.of_next {s t : State} {o : Out} (h : AnswerKeeps s o) (e : o = .next t) : Keeps s t := by
  subst e; exact h

theorem Keeps.ite {s t u : State} {c : Prop} [Decidable c] (ht : Keeps s t) (hu : Keeps s u) :
    Keeps s (if c then t else u) := by
  split
  · exact ht
  · exact hu

/-- The same for a choice between two replies, most often between a refusal and what follows it. -/
theorem Keeps.iteReply {s : State} {x y : Reply} {c : Prop} [Decidable c] (hx : Keeps s x.st) (hy : Keeps s y.st) :
    Keeps s (if c then x else y).st := by
  split
  · exact hx
  · exact hy

/-- The state of an operation that answers it beside something else. -/
theorem Keeps.of_fst {α : Type} {s t : State} {p : State × α} {a : α} (h : Keeps s p.1) (e : p = (t, a)) :
    Keeps s t := by
  subst e; exact h

theorem State.noteHang_keeps {s₀ s : State} (h : Keeps s₀ s) {hang} : Keeps s₀ (s.noteHang hang) := h.fields rfl rfl

theorem State.idle_keeps {s₀ s : State} (h : Keeps s₀ s) : Keeps s₀ s.idle := by
  refine .ite (State.bump_keeps ?_) ?_ <;> exact h.withTime (Nat.le_add_right _ _) (Nat.le_refl _) rfl rfl

section

open State

variable {s₀ s : State} (h : Keeps s₀ s)

include h

/-! ### The host link (chapter 13) -/

theorem execCommandAreaStore_keeps {m off data} : AnswerKeeps s₀ (execCommandAreaStore m off data s) := by
  dsimp only [execCommandAreaStore, answerKeeps_next]
  split
  · exact stick_keeps (putBox_keeps h)
  · exact putBox_keeps h

theorem execTrappedStoreExec_keeps : AnswerKeeps s₀ (execTrappedStoreExec s) := by
  dsimp only [execTrappedStoreExec, answerKeeps_next]
  split
  · exact h
  · refine .ite h (.ite ?_ (trapRefused_keeps ?_)) <;> exact bump_keeps (regWrite_keeps (h.fields rfl rfl))

theorem execDeviceReset_keeps {m} : AnswerKeeps s₀ (execDeviceReset m s) := by
  refine .ite (putBox_keeps (restart_keeps ?_)) ?_ <;> exact welfy_keeps h fun _ _ k => .iteReply k k

theorem execHdmAccess_keeps {decoder hpa write data} : AnswerKeeps s₀ (execHdmAccess decoder hpa write data s) := by
  have hset : Keeps s₀ (s.setDecoder decoder) := setDecoder_keeps h
  cases decoder with
  | none => exact hset
  | some d => exact .ite (store_keeps hset) hset

/-! ### Starts, clocks and supply (chapters 14 and 15) -/

/-- Each stage that a start can be in has its own end (R442). -/
theorem execStageEnd_keeps {out ms} : AnswerKeeps s₀ (execStageEnd out ms s) := by
  refine .ite h ?_
  dsimp only
  split
  · exact stageRom_keeps h
  · exact stageTwo_keeps h
  · exact stageShell_keeps h
  · exact stageFuses_keeps h
  · exact stageClocks_keeps h
  · exact stageTrain_keeps h
  · exact stageSeq_keeps h
  · exact stageTest_keeps h
  · exact h

theorem execReady_keeps : AnswerKeeps s₀ (execReady s) := by
  refine .ite (.ite (raise_keeps (stick_keeps ?_)) ?_) h <;>
  exact journal_keeps (persist_keeps (.ite (measChanged_keeps (h.fields rfl rfl)) (h.fields rfl rfl)))

theorem execFlashRecoveryImage_keeps {bankB image} : AnswerKeeps s₀ (execFlashRecoveryImage bankB image s) := by
  refine .ite ?_ h
  dsimp only
  split
  · exact persist_keeps (imageFailed_keeps h)
  · exact persist_keeps (journal_keeps (h.fields rfl rfl))

theorem execFwUpdate_keeps {m} : AnswerKeeps s₀ (execFwUpdate m s) :=
  welfy_keeps h fun _ _ k => .iteReply k <| .iteReply k <| .iteReply k <| by
    dsimp only
    split
    · exact no_keeps (imageFailed_keeps k)
    · exact Reply.thenDo_keeps (startLong_keeps k) fun _ l => persist_keeps (journal_keeps l)

theorem execTrainSweep_keeps {m} : AnswerKeeps s₀ (execTrainSweep m s) :=
  welfy_keeps h fun _ _ k => .iteReply k <| .iteReply k <| .iteReply k <| .iteReply k <| .iteReply k <|
    .iteReply (portsCheck_keeps (.foldl (fun _ _ l => putPort_keeps l) (startLong_keeps k) _)) (startLong_keeps k)

theorem execClockWindow_keeps {d count} : AnswerKeeps s₀ (execClockWindow d count s) := by
  refine .ite h ?_
  dsimp only
  split
  · exact .ite (putDomain_keeps h) (putDomain_keeps h)
  · exact .ite (putDomain_keeps h) (windowFail_keeps (putDomain_keeps h))
  · exact putDomain_keeps h

theorem execClockMuxSwitch_keeps {d} : AnswerKeeps s₀ (execClockMuxSwitch d s) := by
  dsimp only [execClockMuxSwitch, answerKeeps_next]
  split
  · exact putDomain_keeps h
  · split
    · exact .ite (apertureDone_keeps (persist_keeps ((putDomain_keeps h).fields rfl rfl))) (putDomain_keeps h)
    · exact putDomain_keeps h
  · exact h

theorem execMuxHang_keeps {d} : AnswerKeeps s₀ (execMuxHang d s) := by
  dsimp only [execMuxHang, answerKeeps_next]
  split
  · exact h
  · refine .ite h (.ite (raise_keeps ?_) (raise_keeps ?_)) <;>
    refine .ite (apertureDone_keeps ?_) ?_ <;>
    exact bump_keeps (stick_keeps (putDomain_keeps h))

theorem execDieSensorFail_keeps {sensor} : AnswerKeeps s₀ (execDieSensorFail sensor s) := by
  refine .ite h (.ite (dieTo_keeps ?_) ?_) <;> exact raise_keeps (stick_keeps (h.fields rfl rfl))

theorem execWorkWindowEnd_keeps : AnswerKeeps s₀ (execWorkWindowEnd s) := by
  refine .ite h (.ite (useGuard_keeps (stick_keeps (.fields ?_ rfl rfl))) ?_) <;> exact runningUse_keeps (advance_keeps h)

theorem execPowerSample_keeps {v0 i0 v1 i1} : AnswerKeeps s₀ (execPowerSample v0 i0 v1 i1 s) := by
  refine .ite (guardRelease_keeps ?_) ?_ <;> exact .ite (bump_keeps (stick_keeps (h.fields rfl rfl))) (h.fields rfl rfl)

theorem execTelemetryRead_keeps {m} : AnswerKeeps s₀ (execTelemetryRead m s) :=
  welfy_keeps h fun _ _ k => .iteReply k <|
    .iteReply (.iteReply ((countersReply_keeps k).fields rfl rfl) (countersReply_keeps k)) <|
    .iteReply k (ok_keeps (freshWords_keeps k))

/-! ### The fabric (chapter 12) -/

theorem execFecWindow_keeps {port symbols unc} : AnswerKeeps s₀ (execFecWindow port symbols unc s) :=
  bump_keeps <| .ite (putPort_keeps h) <| .ite (portGone_keeps (putPort_keeps h)) <|
    .ite (putPort_keeps h) (portSwaps_keeps h)

theorem execLaneSwap_keeps {port lane} : AnswerKeeps s₀ (execLaneSwap port lane s) := by
  refine .ite ?_ h
  split
  · exact stick_keeps (bump_keeps (swapEnd_keeps h))
  · exact portGone_keeps h

theorem execPortTrainingDone_keeps {port ok} : AnswerKeeps s₀ (execPortTrainingDone port ok s) := by
  dsimp only [execPortTrainingDone, answerKeeps_next]
  split
  · exact .ite (portEvent_keeps (putPort_keeps h)) (.ite (portGone_keeps (putPort_keeps h)) (putPort_keeps h))
  · exact h

theorem execUnreach_keeps {port p} : AnswerKeeps s₀ (execUnreach port p s) :=
  .ite h <| linkReceive_keeps h fun _ k => .ite k <| decrypt_keeps k fun _ _ l =>
    resendReturned_keeps (markUnreach_keeps (bump_keeps l))

theorem execE2eTimeout_keeps {tag} : AnswerKeeps s₀ (execE2eTimeout tag s) := by
  dsimp only [execE2eTimeout, answerKeeps_next]
  split
  · exact h
  · exact .ite h (.ite (resendTrans_keeps (bump_keeps (countTimeout_keeps h)))
      (transFails_keeps (closeTrans_keeps (countTimeout_keeps h))))

/-! ### The work of slots (chapters 4 to 7 and 10) -/

theorem execUpdateJob_keeps {stack desc} : AnswerKeeps s₀ (execUpdateJob stack desc s) := by
  dsimp only [execUpdateJob, answerKeeps_next]
  split
  · exact .ite h (.ite (refuseJob_keeps h) (guarded_keeps h fun _ k => .ite (startJob_keeps k) (refuseJob_keeps k)))
  · exact h

theorem execBackwardPair_keeps {core half desc} : AnswerKeeps s₀ (execBackwardPair core half desc s) := by
  dsimp only [execBackwardPair, answerKeeps_next]
  split
  · refine slotWork_keeps h fun _ k => ?_
    split
    · exact refusePair_keeps (.ite (prismRefused_keeps k) k)
    · exact reach_keeps k fun _ l => runPair_keeps l
  · exact h

theorem execGradientSum_keeps {core half desc} : AnswerKeeps s₀ (execGradientSum core half desc s) := by
  dsimp only [execGradientSum, answerKeeps_next]
  split
  · exact h
  · exact slotWork_keeps (claimHalf_keeps h) fun _ k =>
      .ite (refusePair_keeps k) (reach_keeps k fun _ l => runGsum_keeps l)

theorem execRouter_keeps {core half desc} : AnswerKeeps s₀ (execRouter core half desc s) := by
  dsimp only [execRouter, answerKeeps_next]
  split
  · exact h
  · exact slotWork_keeps (claimHalf_keeps h) fun _ k =>
      .ite (refuseDsp_keeps k) (reach_keeps k fun _ l => runRouter_keeps l)

theorem execDropout_keeps {core half src dst stream p16 keep} :
    AnswerKeeps s₀ (execDropout core half src dst stream p16 keep s) := by
  dsimp only [execDropout, answerKeeps_next]
  split
  · exact h
  · exact slotWork_keeps (claimHalf_keeps h) fun _ k =>
      .ite (refuseQuant_keeps k) (reach_keeps k fun _ l => runDropout_keeps l)

theorem execJobEnd_keeps {desc} : AnswerKeeps s₀ (execJobEnd desc s) := by
  dsimp only [execJobEnd, answerKeeps_next]
  split
  · exact endJob_keeps h
  · exact h

theorem execTensorConvert_keeps {m} : AnswerKeeps s₀ (execTensorConvert m s) :=
  welfy_keeps h fun _ _ k => by
    dsimp only
    split
    · exact convertNo_keeps k
    · refine .iteReply (convertNo_keeps k) <| .iteReply (convertNo_keeps (stick_keeps k)) <|
        .iteReply (convertNo_keeps k) ?_
      split
      · exact stick_keeps k
      · exact .iteReply (convertNo_keeps k) (.iteReply (convertNo_keeps k) (ok_keeps (runJob_keeps k)))

theorem execTrainStepConfig_keeps {m} : AnswerKeeps s₀ (execTrainStepConfig m s) :=
  welfy_keeps h fun _ _ k => .iteReply k <| by
    dsimp only
    split
    · exact k
    · exact ok_keeps (attachStep_keeps k)

theorem execUpdProgramLoad_keeps {m} : AnswerKeeps s₀ (execUpdProgramLoad m s) :=
  welfy_keeps h fun _ _ k => .iteReply k <| .iteReply k <| .iteReply k <| .iteReply k <| .iteReply k <| by
    dsimp only
    split
    · exact k
    · exact k.fields rfl rfl

/-! ### The Loupe and the stash (chapters 8 and 9) -/

theorem execLoupeLoad_keeps {m} : AnswerKeeps s₀ (execLoupeLoad m s) :=
  welfy_keeps h fun _ _ k => .iteReply k <| .iteReply k <| .iteReply (ssbRefuse_keeps k) <| .iteReply k <|
    .iteReply k <| .iteReply k <| .iteReply (ssbRefuse_keeps k) <| by
    split
    · exact ssbRefuse_keeps k
    · exact ok_keeps (setLup_keeps k)

theorem execStashConfig_keeps {m} : AnswerKeeps s₀ (execStashConfig m s) :=
  welfy_keeps h fun _ _ k => .iteReply (stick_keeps k) <| .iteReply (stick_keeps k) <| by
    dsimp only
    split
    · exact stick_keeps k
    · exact k.fields rfl rfl

theorem execStashGroupQuery_keeps {m} : AnswerKeeps s₀ (execStashGroupQuery m s) :=
  welfy_keeps h fun _ _ k => by
    split <;> exact k

theorem execOffloadDone_keeps {group} : AnswerKeeps s₀ (execOffloadDone group s) := by
  dsimp only [execOffloadDone, answerKeeps_next]
  split
  · exact h
  · exact .ite h (setGroup_keeps (stick_keeps (bump_keeps (bump_keeps (placeEntries_keeps h)))))

/-! ### The memory stacks (chapter 11) -/

theorem execWcbWriteback_keeps {word} : AnswerKeeps s₀ (execWcbWriteback word s) := by
  dsimp only [execWcbWriteback, answerKeeps_next]
  split
  · exact .ite (writeBack_keeps h) h
  · exact h

theorem execRepairStep_keeps {pause} : AnswerKeeps s₀ (execRepairStep pause s) := by
  dsimp only [execRepairStep, answerKeeps_next]
  split
  · exact h
  · refine .ite h ?_
    split
    · exact repairStep_keeps h
    · split
      · exact finishRecord_keeps (stick_keeps (dropRepair_keeps h))
      · exact stick_keeps (dropRepair_keeps h)

theorem execStackSensorFail_keeps {stack} : AnswerKeeps s₀ (execStackSensorFail stack s) := by
  refine .ite h (.ite (stackEnter_keeps ?_) ?_) <;> exact raise_keeps (stick_keeps (putStack_keeps h))

theorem execHbmRepair_keeps {m} : AnswerKeeps s₀ (execHbmRepair m s) :=
  welfy_keeps h fun _ _ k => .iteReply k <| .iteReply k <| .iteReply k <| .iteReply k <| .iteReply k <|
    .iteReply (no_keeps (stick_keeps k)) <| .iteReply ((startLong_keeps k).fields rfl rfl) (startLong_keeps k)

/-! ### Frames, programs and modes (chapter 2) -/

theorem execFrameProgramLoad_keeps {m} : AnswerKeeps s₀ (execFrameProgramLoad m s) :=
  welfy_keeps h fun _ _ k => .iteReply k <| .iteReply k <| .iteReply (loadReply_keeps k) <| .iteReply k <|
    .iteReply (loadReply_keeps k) <| .iteReply (loadReply_keeps k) <| by
    dsimp only
    split
    · exact loadReply_keeps k
    · exact loadReply_keeps (k.fields rfl rfl)

theorem execLayoutPlanLoad_keeps {m} : AnswerKeeps s₀ (execLayoutPlanLoad m s) :=
  welfy_keeps h fun _ _ k => .iteReply k <| .iteReply k <| .iteReply (loadReply_keeps k) <| .iteReply k <|
    .iteReply (loadReply_keeps k) <| by
    dsimp only
    split
    · exact loadReply_keeps k
    · exact loadReply_keeps (k.fields rfl rfl)

theorem execModeArm_keeps {m} : AnswerKeeps s₀ (execModeArm m s) :=
  welfy_keeps h fun _ _ k => by
    dsimp only
    split
    · next e => exact ok_keeps (.of_fst (arm_keeps k) e)
    · next e =>
      split
      · exact bad_keeps (.of_fst (arm_keeps k) e)
      · exact no_keeps (.of_fst (arm_keeps k) e)

theorem execModeAbort_keeps {m} : AnswerKeeps s₀ (execModeAbort m s) :=
  welfy_keeps h fun _ _ k => by
    split
    · next e => exact ok_keeps (.of_fst (abortEpoch_keeps k) e)
    · next e => exact no_keeps (.of_fst (abortEpoch_keeps k) e)

theorem execModeRollback_keeps {m} : AnswerKeeps s₀ (execModeRollback m s) :=
  welfy_keeps h fun _ _ k => by
    dsimp only
    split
    · next e => exact ok_keeps (.of_fst (rollbackTo_keeps k) e)
    · next e => exact no_keeps (armMiss_keeps (.of_fst (rollbackTo_keeps k) e))
    · next e => exact no_keeps (.of_fst (rollbackTo_keeps k) e)

theorem execFrameTick_keeps : AnswerKeeps s₀ (execFrameTick s) := by
  refine .ite h (.ite (afterTick_keeps ?_) (afterTick_keeps ?_))
  · exact setFrm_keeps (loseTarget_keeps (takePrograms_keeps (everyTick_keeps (advance_keeps h))))
  · exact endFrame_keeps (everyTick_keeps (countWaits_keeps (runningUse_keeps (takeDecision_keeps (advance_keeps h)))))

theorem execStretchRenew_keeps : AnswerKeeps s₀ (execStretchRenew s) := by
  dsimp only [execStretchRenew, answerKeeps_next]
  split
  · exact .ite (requestStretch_keeps h) h
  · exact h

theorem execModeSwitch_keeps {intact} : AnswerKeeps s₀ (execModeSwitch intact s) := by
  dsimp only [execModeSwitch, answerKeeps_next]
  split
  · exact .ite (enterFrame_keeps (noteProgram_keeps (switchAt_keeps h))) h
  · exact h

theorem execRollbackApply_keeps : AnswerKeeps s₀ (execRollbackApply s) := by
  dsimp only [execRollbackApply, answerKeeps_next]
  split
  · exact .ite (enterFrame_keeps (noteProgram_keeps (rollBack_keeps h))) h
  · exact h

theorem execMapIn_keeps {logical} : AnswerKeeps s₀ (execMapIn logical s) := by
  dsimp only [execMapIn, answerKeeps_next]
  split
  · exact h
  · exact unblock_keeps (takeMapIn_keeps h)

theorem execSlotStart_keeps {slot rc} : AnswerKeeps s₀ (execSlotStart slot rc s) := by
  dsimp only [execSlotStart, answerKeeps_next]
  split
  · exact h
  · exact .ite (.ite (noteHeld_keeps (timeTo_keeps h)) (beginSlot_keeps (timeTo_keeps h))) h

theorem execSlotEnd_keeps {slot rc result} : AnswerKeeps s₀ (execSlotEnd slot rc result s) := by
  dsimp only [execSlotEnd, answerKeeps_next]
  split
  · refine .ite h ?_
    split
    · exact .ite (endOk_keeps (csCorrected_keeps (timeTo_keeps h))) h
    · exact .ite h (endError_keeps (csCorrected_keeps (timeTo_keeps h)))
  · exact h

/-! ### Failure paths (chapter 16) -/

/-- RAS_RECORDS with its clear bit empties the last-loss ring, and nothing else of the lists. -/
theorem execRasRecords_keeps {m} : AnswerKeeps s₀ (execRasRecords m s) :=
  welfy_keeps h fun _ _ k => .iteReply k <| .iteReply k <| .iteReply (k.withRas rasBounds_clear) k

theorem execRasCounters_keeps {m} : AnswerKeeps s₀ (execRasCounters m s) :=
  welfy_keeps h fun _ _ k => ok_keeps <| by
    refine .ite (.fields ?_ rfl rfl) ?_ <;> exact .ite (clearRegs_keeps k) k

theorem execRasRecord_keeps {cls unit detail half} : AnswerKeeps s₀ (execRasRecord cls unit detail half s) := by
  dsimp only [execRasRecord, answerKeeps_next]
  split
  · exact raiseNoted_keeps h
  · exact h

/-- The next record leaves the queue when the active one has been handled (R503). -/
theorem execRecordHandlingEnd_keeps : AnswerKeeps s₀ (execRecordHandlingEnd s) := by
  dsimp only [execRecordHandlingEnd, answerKeeps_next]
  split
  · exact h
  · exact .ite h (h.withRas rasBounds_drop)

/-- A device-fatal record goes to the last-loss ring, the next record leaves the queue, and the device restarts (R505). -/
theorem execDeviceFatalReset_keeps : AnswerKeeps s₀ (execDeviceFatalReset s) := by
  dsimp only [execDeviceFatalReset, answerKeeps_next]
  split
  · refine .ite (restart_keeps ?_) h
    exact (writeLastLoss_keeps h).withRas rasBounds_drop
  · exact h

theorem execCoreMapIn_keeps {m} : AnswerKeeps s₀ (execCoreMapIn m s) :=
  welfy_keeps h fun _ _ k => by
    refine .iteReply k <| .iteReply k <| .iteReply ?_ <| .iteReply k (ok_keeps (writeMapIn_keeps (idleCore_keeps k)))
    split
    · exact ok_keeps (writeMapIn_keeps (idleCore_keeps k))
    · exact k

theorem execMirrorPair_keeps {m} : AnswerKeeps s₀ (execMirrorPair m s) :=
  welfy_keeps h fun _ _ k => .iteReply k <| .iteReply (pairReply_keeps (unpair_keeps k)) <| .iteReply k <| by
    split
    · exact k
    · exact pairReply_keeps (beginPair_keeps k)

theorem execMirrorComplete_keeps : AnswerKeeps s₀ (execMirrorComplete s) := by
  refine .ite (bump_keeps ?_) h
  exact (setMirror_keeps h).fields rfl rfl

theorem execMirrorFill_keeps {m} : AnswerKeeps s₀ (execMirrorFill m s) :=
  welfy_keeps h fun _ _ k => by
    refine .iteReply k <| .iteReply k <| .iteReply ?_ <| .iteReply k <|
      Reply.thenDo_keeps (startLong_keeps k) fun _ l => setFilling_keeps (startCopy_keeps l)
    split
    · exact k
    · exact Reply.thenDo_keeps (startLong_keeps k) fun _ l => setFilling_keeps (readImage_keeps l)

theorem execCheckpointExport_keeps {m} : AnswerKeeps s₀ (execCheckpointExport m s) :=
  welfy_keeps h fun _ _ k => .iteReply k <| .iteReply k <| .iteReply (.iteReply k (beginExport_keeps k)) <| by
    split
    · exact k
    · exact beginExport_keeps k

theorem execLogReplay_keeps {m} : AnswerKeeps s₀ (execLogReplay m s) :=
  welfy_keeps h fun _ _ k => .iteReply k <| .iteReply k <| .iteReply k <|
    Reply.thenDo_keeps (startLong_keeps k) fun _ l => .ite (finishRecord_keeps l) (l.fields rfl rfl)

theorem execFlerraRead_keeps {m} : AnswerKeeps s₀ (execFlerraRead m s) :=
  welfy_keeps h fun _ _ k => .iteReply k <| .iteReply k (ok_keeps (putOut_keeps k))

theorem execLongOpEnd_keeps {rec status} : AnswerKeeps s₀ (execLongOpEnd rec status s) := by
  refine .ite h ?_
  split
  · exact h
  · exact .ite (longDone_keeps h) (.ite h (longFailed_keeps h))

/-! ### Trust (chapter 17) -/

theorem execDebugUnlock_keeps {m} : AnswerKeeps s₀ (execDebugUnlock m s) :=
  welfy_keeps h fun _ _ k => .iteReply k <| .iteReply k <| .iteReply k <| .iteReply k <| by
    dsimp only
    split
    · exact k
    · refine .iteReply (k.fields rfl rfl) <| .iteReply (no_keeps (stick_keeps (bump_keeps (k.fields rfl rfl)))) <|
        ok_keeps (.ite (vendorUnlock_keeps ?_) ?_) <;>
      exact measChanged_keeps (stick_keeps (k.fields rfl rfl))

theorem execChallengeExpiry_keeps : AnswerKeeps s₀ (execChallengeExpiry s) := by
  dsimp only [execChallengeExpiry, answerKeeps_next]
  split
  · exact .ite (h.fields rfl rfl) h
  · exact h

/-! ### Every command, and the step -/

/-- What every command keeps, row by row of the opcode table: each meaning is made of operations that keep it. -/
theorem exec_keeps : (i : Instr) → AnswerKeeps s₀ (exec i s)
  | .submit .. | .ack .. => mbxDb_keeps h
  | .dispatchDb .. => .ite (badDoorbell_keeps h) (.ite (hostDoorbell_keeps h) (stick_keeps h))
  | .commandAreaStore .. => execCommandAreaStore_keeps h
  | .registerStore .. => .ite (.ite (h.fields rfl rfl) (stick_keeps h)) (stick_keeps (bump_keeps h))
  | .trappedStoreExec => execTrappedStoreExec_keeps h
  | .identify .. => welfy_keeps h fun _ _ k => k
  | .mbxAbort .. => welfy_keeps h fun _ _ k => .iteReply k (.iteReply (ok_keeps (complete_keeps k)) k)
  | .opQuery .. => welfy_keeps h fun _ _ k => .iteReply k k
  | .irqConfig .. => welfy_keeps h fun _ _ k => .iteReply k (.iteReply k (.iteReply k (k.fields rfl rfl)))
  | .deviceReset .. => execDeviceReset_keeps h
  | .echo .. => welfy_keeps h fun _ _ k => k
  | .mbxCounters .. => welfy_keeps h fun _ _ k => countersReply_keeps k
  | .regWrite .. =>
      welfy_keeps h fun _ _ k => .iteReply k (.iteReply (ok_keeps (regWrite_keeps k)) (regWrite_keeps k))
  | .hdmConfig .. =>
      welfy_keeps (setDecoder_keeps h) fun _ _ k => .iteReply k (.iteReply k (.iteReply k (k.fields rfl rfl)))
  | .hostWindowConfig .. => welfy_keeps h fun _ _ k => .iteReply k (k.fields rfl rfl)
  | .frameProgramLoad .. => execFrameProgramLoad_keeps h
  | .layoutPlanLoad .. => execLayoutPlanLoad_keeps h
  | .modeArm .. => execModeArm_keeps h
  | .modeAbort .. => execModeAbort_keeps h
  | .modeRollback .. => execModeRollback_keeps h
  | .modeQuery .. => welfy_keeps h fun _ _ k => k
  | .tickSet .. => welfy_keeps h fun _ _ k => .iteReply k (ok_keeps (setTick_keeps k))
  | .tickAlignConfig .. => welfy_keeps h fun _ _ k => .iteReply k (ok_keeps (stage_keeps k))
  | .frameCounters .. => welfy_keeps h fun _ _ k => countersReply_keeps k
  | .memLayout .. => welfy_keeps h fun _ _ k => .iteReply k (.iteReply k (startLong_keeps k))
  | .memFlush .. => welfy_keeps h fun _ _ k => ok_keeps (drainLines_keeps k)
  | .memAddrDecode .. => welfy_keeps h fun _ _ k => k
  | .memCounters .. =>
      welfy_keeps h fun _ _ k => .iteReply ((countersReply_keeps k).fields rfl rfl) (countersReply_keeps k)
  | .hbmThermalQuery .. => welfy_keeps h fun _ _ k => k
  | .hbmRepair .. => execHbmRepair_keeps h
  | .hbmRepairQuery .. => welfy_keeps h fun _ _ k => k
  | .hbmMargin .. => welfy_keeps h fun _ _ k => .iteReply k (.iteReply k (.iteReply k
        (ok_keeps (store_keeps (zeroChannel_keeps (drainLines_keeps k))))))
  | .stationQuery .. => welfy_keeps h fun _ _ k => k
  | .peerMapLoad .. => welfy_keeps h fun _ _ k => .iteReply k (k.fields rfl rfl)
  | .portQuery .. => welfy_keeps h fun _ _ k => .iteReply k k
  | .portControl .. => welfy_keeps h fun _ _ k => .iteReply k (.iteReply k (.iteReply k (portAction_keeps k)))
  | .dreskaKeySet .. =>
      welfy_keeps h fun _ _ k => .iteReply k (.iteReply k (.iteReply k (.iteReply k (k.fields rfl rfl))))
  | .dreskaKeyClear .. => welfy_keeps h fun _ _ k => .iteReply k (k.fields rfl rfl)
  | .linkCounters .. | .collCounters .. => welfy_keeps h fun _ _ k => countersReply_keeps k
  | .remoteProbe .. => welfy_keeps h fun _ _ k => ok_keeps (k.foldl (fun _ _ l => sayOn_keeps l) _)
  | .tensorConvert .. => execTensorConvert_keeps h
  | .quantCounters .. => welfy_keeps h fun _ _ k => ok_keeps (.ite (clearRegs_keeps k) k)
  | .prismSigns .. | .facetMapQuery .. => welfy_keeps h fun _ _ k => .iteReply k k
  | .facetCounters .. | .accCounters .. => welfy_keeps h fun _ _ k => countersReply_keeps k
  | .accFirstNonfin .. => welfy_keeps h fun _ _ k => ok_keeps (.ite (putReg_keeps (clearRegs_keeps k)) k)
  | .trainStepConfig .. => execTrainStepConfig_keeps h
  | .stepSet .. => welfy_keeps h fun _ _ k => .iteReply k (k.fields rfl rfl)
  | .updProgramLoad .. => execUpdProgramLoad_keeps h
  | .updCounters .. => welfy_keeps h fun _ _ k => countersReply_keeps k
  | .commitQuery .. => welfy_keeps h fun _ _ k => k
  | .loupeLoad .. => execLoupeLoad_keeps h
  | .loupeSave .. => welfy_keeps h fun _ _ k => .iteReply k (.iteReply k (ok_keeps (store_keeps k)))
  | .loupeEntryQuery .. | .loupeStats .. | .loupeHistory .. => welfy_keeps h fun _ _ k => .iteReply k k
  | .loupeCounters .. => welfy_keeps h fun _ _ k => countersReply_keeps k
  | .stashConfig .. => execStashConfig_keeps h
  | .farstashWindow .. => welfy_keeps h fun _ _ k => .iteReply k (.iteReply k (.iteReply k (k.fields rfl rfl)))
  | .stashGroupQuery .. => execStashGroupQuery_keeps h
  | .stashCounters .. => welfy_keeps h fun _ _ k => countersReply_keeps k
  | .seedSet .. => welfy_keeps h fun _ _ k => .iteReply k (k.fields rfl rfl)
  | .rngEval .. => welfy_keeps h fun _ _ k => k
  | .dspQueueTable .. =>
      welfy_keeps h fun _ _ k => .iteReply k (.iteReply k (.iteReply k (ok_keeps (putPair_keeps (k.fields rfl rfl)))))
  | .dspQueueConfig .. => welfy_keeps h fun _ _ k => .iteReply k (.iteReply k (.iteReply (no_keeps (stick_keeps k))
        (.iteReply (no_keeps (stick_keeps k)) (ok_keeps (store_keeps (cachePut_keeps k))))))
  | .dspQueueQuery .. => welfy_keeps h fun _ _ k => .iteReply k k
  | .dspCounters .. => welfy_keeps h fun _ _ k => countersReply_keeps k
  | .rasRecords .. => execRasRecords_keeps h
  | .powerFeedSet .. => welfy_keeps h fun _ _ k => .iteReply k (k.fields rfl rfl)
  | .mirrorPair .. => execMirrorPair_keeps h
  | .mirrorFill .. => execMirrorFill_keeps h
  | .coreMapIn .. => execCoreMapIn_keeps h
  | .flerraRead .. => execFlerraRead_keeps h
  | .checkpointExport .. => execCheckpointExport_keeps h
  | .checkpointImport .. => welfy_keeps h fun _ _ k => .iteReply k (.iteReply k (.iteReply k (.iteReply k
        (Reply.thenDo_keeps (startLong_keeps k) fun _ l => readSource_keeps l))))
  | .logReplay .. => execLogReplay_keeps h
  | .rasCounters .. => execRasCounters_keeps h
  | .attest .. => welfy_keeps h fun _ _ k => .iteReply k (ok_keeps (store_keeps (signed_keeps k)))
  | .certChainRead .. => welfy_keeps h fun _ _ k => .iteReply k (ok_keeps (store_keeps k))
  | .measurementsRead .. => welfy_keeps h fun _ _ k => .iteReply k (.iteReply k k)
  | .ownerKeyEnrol .. => welfy_keeps h fun _ _ k => .iteReply k (.iteReply (no_keeps (authFailed_keeps k))
        (.iteReply (no_keeps (authFailed_keeps k)) (.iteReply k
          (ok_keeps (measChanged_keeps (measChanged_keeps (stick_keeps (k.fields rfl rfl))))))))
  | .debugChallenge .. =>
      welfy_keeps h fun _ _ k => .iteReply k (k.withTime (Nat.le_refl _) (Nat.le_add_right _ _) rfl rfl)
  | .debugUnlock .. => execDebugUnlock_keeps h
  | .keyHandleCreate .. => welfy_keeps h fun _ _ k => .iteReply (.iteReply k (k.fields rfl rfl))
        (.iteReply k (.iteReply k (.iteReply k (k.fields rfl rfl))))
  | .fwUpdate .. => execFwUpdate_keeps h
  | .fwActivate .. =>
      welfy_keeps h fun _ _ k => .iteReply k (.iteReply k (ok_keeps (persist_keeps (journal_keeps k))))
  | .bootJournalRead .. =>
      welfy_keeps h fun _ _ k => .iteReply k (.iteReply (.iteReply k (.iteReply k (ok_keeps (store_keeps k))))
        (.iteReply (.iteReply k k) (.iteReply k (ok_keeps (store_keeps k)))))
  | .apertureSelect .. => welfy_keeps h fun _ _ k => .iteReply k (.iteReply k (.iteReply k
        (.iteReply (no_keeps (stick_keeps k)) (k.fields rfl rfl))))
  | .fuseQuery .. => welfy_keeps h fun _ _ k => .iteReply k (.iteReply k k)
  | .scpBankSwap .. => welfy_keeps h fun _ _ k => .iteReply k (.iteReply k (.iteReply k (.iteReply k (.iteReply k
        ((persist_keeps (journal_keeps k)).fields rfl rfl)))))
  | .trainSweep .. => execTrainSweep_keeps h
  | .selftestResults .. => welfy_keeps h fun _ _ k => k
  | .telemetryRead .. => execTelemetryRead_keeps h
  | .powerQuery .. | .dieThermalQuery .. => welfy_keeps h fun _ _ k => k
  | .clockQuery .. | .energyModelRead .. => welfy_keeps h fun _ _ k => .iteReply k k
  | .powerGuardConfig .. => welfy_keeps h fun _ _ k => .iteReply k (.iteReply k (ok_keeps (stage_keeps k)))
  | .progressUpdate .. => .ite (putRecord_keeps h) h
  | .longOpEnd .. => execLongOpEnd_keeps h
  | .frameTick => execFrameTick_keeps h
  | .stretchRenew => execStretchRenew_keeps h
  | .stretchEnd => .ite (setFrm_keeps h) h
  | .modeSwitch .. => execModeSwitch_keeps h
  | .retentionEnd => .ite (setFrm_keeps h) h
  | .rollbackApply => execRollbackApply_keeps h
  | .holdExpiry => epochDrop_keeps (setFrm_keeps h)
  | .mapIn .. => execMapIn_keeps h
  | .alignRound .. => .ite h (.foldl (fun _ _ k => sayOn_keeps k) ((closeRound_keeps h).fields rfl rfl) _)
  | .workWindowEnd => execWorkWindowEnd_keeps h
  | .commitWindow => .ite (decideCommit_keeps (advance_keeps h)) h
  | .slotStart .. => execSlotStart_keeps h
  | .slotEnd .. => execSlotEnd_keeps h
  | .rowMode .. | .columnMode .. => arrayOp_keeps h
  | .backwardPair .. => execBackwardPair_keeps h
  | .gradientSum .. => execGradientSum_keeps h
  | .quantize .. | .quantizeDual .. | .expand .. | .mxImport .. | .mxExport .. => quantRow_keeps h
  | .router .. => execRouter_keeps h
  | .dropout .. => execDropout_keeps h
  | .dispatch .. | .returnRows .. | .combine .. => issueJob_keeps h
  | .jobEnd .. => execJobEnd_keeps h
  | .updateJob .. => execUpdateJob_keeps h
  | .endProg .. => updStep_keeps h fun _ _ _ _ k => .ite (endTile_keeps k) (putEngine_keeps k)
  | .sldp .. => scalarOp_keeps h
  | .sldi .. => .ite (scalarOp_keeps h) h
  | .sldt .. | .sadd .. | .ssub .. | .smul .. | .sdiv .. | .ssqrt .. | .spown .. => scalarOp_keeps h
  | .ld .. => updStep_keeps h fun _ _ _ _ k => guarded_keeps k fun _ l => putEngine_keeps (countRead_keeps l)
  | .st .. => updStep_keeps h fun _ _ _ _ k => .ite (putEngine_keeps k) (guarded_keeps k fun _ l => stWide_keeps l)
  | .vadd .. | .vsub .. | .vmul .. | .vdiv .. | .vfma .. | .vadds .. | .vmuls .. | .vfmas .. | .vsqrt ..
  | .vmax .. | .vmin .. | .vabs .. | .vneg .. | .vsign .. | .vclips .. | .vmov .. => vectorOp_keeps h
  | .copy .. => dmaStep_keeps h fun _ _ _ k => dmaDone_keeps (dmaCopy_keeps k)
  | .fill .. => dmaStep_keeps h fun _ _ _ k => dmaDone_keeps (dmaFill_keeps k)
  | .fence .. => dmaStep_keeps h fun _ _ _ k => .ite k (dmaDone_keeps (dmaFlush_keeps k))
  | .reduceScatter .. | .allGather .. | .transpose .. | .refocus .. | .verdict .. => colRow_keeps h
  | .loupeReport .. => .ite h (loupeReport_keeps h)
  | .offloadDone .. => execOffloadDone_keeps h
  | .hbmRead .. =>
      .ite (failRun_keeps (addrFault_keeps h)) (.ite (faultRun_keeps (readWords_keeps h)) (readWords_keeps h))
  | .hbmWrite .. => .ite (failRun_keeps (addrFault_keeps h)) (.ite (faultRun_keeps h) (store_keeps h))
  | .wcbWriteback .. => execWcbWriteback_keeps h
  | .patrolScrub .. => .ite h (.ite (decodeWord_keeps h) (poisonWord_keeps (decodeWord_keeps h)))
  | .repairStep .. => execRepairStep_keeps h
  | .stackSample .. => .ite (stackEnter_keeps (putStack_keeps h)) (putStack_keeps h)
  | .stackStateExit .. => .ite (noteCooled_keeps (stackEnter_keeps (putStack_keeps h))) h
  | .stackSensorFail .. => execStackSensorFail_keeps h
  | .dieSample .. => .ite h (dieTo_keeps (h.fields rfl rfl))
  | .dieStateExit => .ite (noteCooled_keeps (dieEnter_keeps (h.fields rfl rfl))) h
  | .dieSensorFail .. => execDieSensorFail_keeps h
  | .analogueTrip .. => .ite h (dieEnter_keeps (h.fields rfl rfl))
  | .powerSample .. => execPowerSample_keeps h
  | .overBudget => .ite (raise_keeps (bump_keeps (stick_keeps (h.fields rfl rfl)))) h
  | .feedLow .. => .ite (raise_keeps (stick_keeps (h.fields rfl rfl))) h
  | .powerLoss .. => .ite ((restart_keeps (writeLastLoss_keeps h)).fields rfl rfl) h
  | .powerApplied .. => .ite h (.ite ((restart_keeps h).fields rfl rfl) (h.fields rfl rfl))
  | .railFault .. => .ite h (raise_keeps h)
  | .refclkLost => .ite ((restart_keeps h).fields rfl rfl) h
  | .refclkPresent => .ite h (h.fields rfl rfl)
  | .clockWindow .. => execClockWindow_keeps h
  | .hkStable .. => .ite (putDomain_keeps h) h
  | .clockMuxSwitch .. => execClockMuxSwitch_keeps h
  | .muxHang .. => execMuxHang_keeps h
  | .stageResetEnd => .ite (beginStart_keeps (readBlocks_keeps h)) h
  | .stageEnd .. => execStageEnd_keeps h
  | .ready => execReady_keeps h
  | .stageWatchdog .. => .ite (restart_keeps (noteHang_keeps h)) h
  | .shellFault .. => .ite (.ite (restart_keeps (noteHang_keeps h)) h) (raise_keeps (failScp_keeps h))
  | .flashRecoveryImage .. => execFlashRecoveryImage_keeps h
  | .i3cRead .. => h.fields rfl rfl
  | .perst => .ite ((hostReset_keeps h).fields rfl rfl) (hostReset_keeps h)
  | .functionLevelReset | .hotReset => hostReset_keeps h
  | .linkDown => .ite (linkLeaves_keeps h) h
  | .hdmAccess .. => execHdmAccess_keeps h
  | .ideFail => .ite (.ite (linkLeaves_keeps (stick_keeps h)) (stick_keeps h)) h
  | .rasRecord .. => execRasRecord_keeps h
  | .deviceFatalReset => execDeviceFatalReset_keeps h
  | .mirrorComplete => execMirrorComplete_keeps h
  | .hostLogCatchup => hostCatchup_keeps h
  | .fecWindow .. => execFecWindow_keeps h
  | .laneSwap .. => execLaneSwap_keeps h
  | .laserFail .. => .ite h (.ite (portGone_keeps h) (.ite h (raise_keeps (changeLaser_keeps h))))
  | .linkCtl .. => .ite h (.ite (linkCtl_keeps h) (bump_keeps h))
  | .linkRetryTimeout .. => .ite (resend_keeps h) h
  | .write .. => receive_keeps h fun _ _ k => serveWrite_keeps k
  | .readReq .. => receive_keeps h fun _ _ k => serveRead_keeps k
  | .signal .. => receive_keeps h fun _ _ k => serveSignal_keeps k
  | .readResp .. => receive_keeps h fun _ _ k => serveReadResp_keeps k
  | .writeAck .. => receive_keeps h fun _ _ k => serveWriteAck_keeps k
  | .completionErr .. => receive_keeps h fun _ _ k => serveComplErr_keeps k
  | .unreach .. => execUnreach_keeps h
  | .unreachableExpiry .. => h.fields rfl rfl
  | .e2eTimeout .. => execE2eTimeout_keeps h
  | .colData .. => receive_keeps h fun _ _ k => serveColData_keeps k
  | .colCredit .. => receive_keeps h fun _ _ k => serveColCredit_keeps k
  | .peerTimeout .. => .ite h (failRun_keeps (raise_keeps (putReg_keeps (setCol_keeps (bump_keeps (stick_keeps h))))))
  | .enumProbe .. => mgmtReceive_keeps h fun _ k => sayOn_keeps k
  | .stationAssign .. => mgmtReceive_keeps h fun _ k => fromManager_keeps k fun _ l => assignStation_keeps l
  | .tickProbe .. => mgmtReceive_keeps h fun _ k => .ite (sayOn_keeps k) k
  | .tickEcho .. => mgmtReceive_keeps h fun _ k => .ite (takeEcho_keeps k) k
  | .tickSetMsg .. =>
      mgmtReceive_keeps h fun _ k => fromFm_keeps k fun _ l => .ite (say_keeps (setTick_keeps l)) (say_keeps l)
  | .arm .. => mgmtReceive_keeps h fun _ k => fromFm_keeps k fun _ l => armMsg_keeps l
  | .abort .. => mgmtReceive_keeps h fun _ k => fromFm_keeps k fun _ l => abortMsg_keeps l
  | .rollback .. => mgmtReceive_keeps h fun _ k => fromFm_keeps k fun _ l => rollbackMsg_keeps l
  | .challengeExpiry => execChallengeExpiry_keeps h
  | .getVersion .. => SpdmOut.send_keeps (spdmVersion_keeps h)
  | .getCapabilities .. => SpdmOut.send_keeps (spdmCapabilities_keeps h)
  | .negotiateAlgorithms .. => SpdmOut.send_keeps (spdmAlgorithms_keeps h)
  | .getDigests .. => SpdmOut.send_keeps (spdmDigests_keeps h)
  | .getCertificate .. => SpdmOut.send_keeps (spdmCertificate_keeps h)
  | .challenge .. => SpdmOut.send_keeps (spdmChallenge_keeps h)
  | .getMeasurements .. => SpdmOut.send_keeps (spdmMeasurements_keeps h)
  | .keyExchange .. => SpdmOut.send_keeps (spdmKeyExchange_keeps h)
  | .finish .. => SpdmOut.send_keeps (spdmFinish_keeps h)
  | .endSession .. => SpdmOut.send_keeps (spdmEndSession_keeps h)
  | .heartbeat .. => SpdmOut.send_keeps (spdmHeartbeat_keeps h)
  | .keyUpdate .. => SpdmOut.send_keeps (spdmKeyUpdate_keeps h)
  | .chunkSend .. => SpdmOut.send_keeps (spdmChunkSend_keeps h)
  | .chunkGet .. => SpdmOut.send_keeps (spdmChunkGet_keeps h)
  | .vendorDefinedRequest .. => SpdmOut.send_keeps (spdmVendor_keeps h)
  | .linkActive .. => .ite (h.fields rfl rfl) h
  | .laserChangeoverEnd .. => .ite (swapEnd_keeps h) h
  | .portTrainingDone .. => execPortTrainingDone_keeps h
  | .scpImageVerified .. => .ite (h.fields rfl rfl) h
  | .recordHandlingEnd => execRecordHandlingEnd_keeps h
  | .msixTableStore .. => .ite (sendVec_keeps (h.fields rfl rfl)) (h.fields rfl rfl)
  | .msixIntervalEnd .. => .ite (.ite (sendVec_keeps (h.fields rfl rfl)) (h.fields rfl rfl)) h

end

/-- A step keeps it from the state without the command that it takes. -/
theorem step_keeps {s t : State} (h : step s = .next t) : Keeps { s with pending := s.pending.tail } t := by
  unfold step at h
  split at h
  · next e => rw [e]; exact (exec_keeps (.refl _) _).of_next h
  · next e =>
    cases h
    have hs : { s with pending := s.pending.tail } = s := by rw [e, List.tail_nil, ← e]
    rw [hs]
    exact State.idle_keeps (.refl s)

end Sys2Proof.Machine

namespace Sys2Proof.FailurePaths

open Sys2Proof Sys2Proof.Machine

/-- Settles O3: memory and both lists are empty after reset. -/
theorem resetMeetsInvariant : Obligations.ResetMeetsInvariant :=
  ⟨rfl, Nat.zero_le _, List.Pairwise.nil, Nat.zero_le _⟩

/-- Settles O4: the invariant does not speak of the waiting commands, and the step keeps the rest (`step_keeps`). -/
theorem stepKeepsInvariant : Obligations.StepKeepsInvariant :=
  fun _ _ hinv hstep => (step_keeps hstep).inv hinv

end Sys2Proof.FailurePaths
end

section
/-! ## Attestation, the owner's key, debug unlock and key handles (R548, R554 to R558) -/

namespace Sys2Proof.Machine

/-! ### What reads the device (R552 to R554, R560) -/

section

variable {s : State} {m : BitVec 6}

theorem exec_attest_signs (h : s.admits 0x0801 m = true) {dst : Nat} (hd : u64At (s.params m) 32 = dst)
    (ha : s.paramOk dst 17616 true = true) {body report : List Byte} (hb : s.reportBody (slice (s.params m) 0 32) = body)
    (hr : body ++ (s.signed (asciiBytes "V9T-ATTEST") body).1 = report) :
    exec (.attest m) s = .next (State.answer ((s.signed (asciiBytes "V9T-ATTEST") body).2.store dst report) m
      (toLe 4 report.length ++ sha256 report)) := by
  subst hd hb hr
  change execAttest m s = _
  simp only [execAttest, State.welfy_admitted h, ha, Bool.not_true, Bool.false_eq_true, if_false, Reply.settle_answer]

/-- The certificate count of the response is one byte. -/
theorem toLe_certCount (c : List Byte) : toLe 1 (if c.isEmpty then 0 else 3) = [if c.isEmpty then 0 else 3] := by
  cases c <;> rfl

theorem exec_certChainRead_stores (h : s.admits 0x0802 m = true)
    (ha : s.paramOk (u64At (s.params m) 0) s.shownChain.length true = true) :
    exec (.certChainRead m) s = .next ((s.store (u64At (s.params m) 0) s.shownChain).answer m
      (toLe 4 s.shownChain.length ++ [if s.shownChain.isEmpty then 0 else 3, 0, 0, 0] ++ sha256 s.shownChain)) := by
  change execCertChainRead m s = _
  simp only [execCertChainRead, State.welfy_admitted h, ha, Bool.not_true, Bool.false_eq_true, if_false,
    Reply.settle_answer, toLe_certCount, List.append_assoc, List.cons_append, List.nil_append]

/-- The ten records, in the order of Table 17.2. -/
theorem State.allRecords_eq (s : State) : s.allRecords = [1, 2, 3, 4, 5, 6, 7, 8, 9, 10].flatMap s.measRecord := rfl

theorem exec_measurementsRead_all (h : s.admits 0x0803 m = true) (hi : u8At (s.params m) 0 = 0xFF) :
    exec (.measurementsRead m) s = .next (s.answer m (toLe 8 s.frm.tick.toNat ++ s.allRecords)) := by
  change execMeasurementsRead m s = _
  simp only [execMeasurementsRead, State.welfy_admitted h, if_pos hi, Reply.settle_answer]

theorem exec_measurementsRead_one (h : s.admits 0x0803 m = true) {i : Nat} (hi : u8At (s.params m) 0 = i) (h1 : 1 ≤ i)
    (h2 : i ≤ 10) : exec (.measurementsRead m) s = .next (s.answer m (toLe 8 s.frm.tick.toNat ++ s.measRecord i)) := by
  change execMeasurementsRead m s = _
  simp only [execMeasurementsRead, State.welfy_admitted h, hi, if_neg (show ¬ i = 0xFF by omega),
    if_neg (show ¬ (i < 1 ∨ 10 < i) by omega), Reply.settle_answer]

end

/-! ### OWNER_KEY_ENROL (R548) -/

/-- The state after an accepted enrolment; the counter wraps at 2^32 (log entry 82). -/
def State.enrolled (s : State) (key : List Byte) : State :=
  let c := (s.sec.ownerCounter + 1) % 2 ^ 32
  ((State.stick { s with sec := { s.sec with
    ownerKey := if zeroBytes key 0 32 then none else some key, ownerCounter := c, ownerFuse := c } }
      Reg.SEC_STATUS 3).measChanged 8).measChanged 9

section

variable {s : State} {m : BitVec 6} {key : List Byte} (h : s.admits 0x0804 m = true) (hk : slice (s.params m) 0 32 = key)
  (ha : s.sec.ownerKey = none ∨ s.paramOk (u64At (s.params m) 32) 7856 false = true)
include h hk ha

/-- Where the signature's address is admitted, checks 1 to 3 decide. -/
theorem exec_ownerKeyEnrol_admitted : exec (.ownerKeyEnrol m) s = .next (
    if !s.ownerAuthorised key (s.load (u64At (s.params m) 32) 7856) || (!zeroBytes key 0 32 && !s.banksSigned key) then
      s.authFailed.refusal m .sigInvalid
    else if s.frm.epoch ≠ 0 then s.refusal m .runLock
    else (s.enrolled key).answer m (toLe 4 ((s.sec.ownerCounter + 1) % 2 ^ 32))) := by
  have haddr : ¬ (s.sec.ownerKey.isSome && !s.paramOk (u64At (s.params m) 32) 7856 false) = true := by
    rcases ha with ha | ha <;> simp [ha]
  change execOwnerKeyEnrol m s = _
  simp only [execOwnerKeyEnrol, State.welfy_admitted h, hk, if_neg haddr]
  cases s.ownerAuthorised key (s.load (u64At (s.params m) 32) 7856) with
  | false => rfl
  | true =>
    rw [Bool.not_true, Bool.false_or, if_neg Bool.false_ne_true]
    split
    · rfl
    · split <;> rfl

end

/-! ### DEBUG_CHALLENGE, DEBUG_UNLOCK and the life of a challenge (R556, R557) -/

theorem exec_debugChallenge_issues {s : State} {m : BitVec 6} (h : s.admits 0x0805 m = true) {l : Nat}
    (hl : u8At (s.params m) 0 = l) (hr : l = 1 ∨ l = 2) {n : List Byte}
    (hn : slice (Config.randomBytes s.freeCtr) 0 32 = n) :
    exec (.debugChallenge m) s = .next (State.answer { s with
      freeCtr := s.freeCtr + 1, sec := { s.sec with challenge := some ⟨l, n, s.rc⟩ } } m
        (n ++ s.identity ++ toLe 4 600)) := by
  subst hn
  change execDebugChallenge m s = _
  simp only [execDebugChallenge, State.welfy_admitted h, hl, if_neg (show ¬ (l < 1 ∨ 2 < l) by omega),
    Reply.settle_answer, State.identity]

/-- The state in which the challenge is used up. -/
def State.challengeUsed (s : State) : State := { s with sec := { s.sec with challenge := none } }

/-- Check 5 of R557: the signature verifies over nonce, identity and level, under the key of the level's signer. -/
def State.unlockVerifies (s : State) (c : Challenge) (sig : List Byte) : Bool :=
  slhVerify slhSmall (if c.level = 1 then s.sec.ownerKey.getD [] else Config.debugKey) (asciiBytes "V9T-DBG")
    (c.nonce ++ s.identity ++ toLe 1 c.level) sig

/-- The state after an unlock of level `l` (Table 17.5). -/
def State.unlocked (s : State) (l : Nat) : State :=
  let opened := (State.stick { s.challengeUsed with sec := { s.challengeUsed.sec with debug := l } }
    Reg.SEC_STATUS 4).measChanged 9
  if l = 2 then opened.vendorUnlock else opened

section

variable {s : State} {m : BitVec 6} {c : Challenge} (h : s.admits 0x0806 m = true) (hc : s.sec.challenge = some c)
  (hl : c.level = u8At (s.params m) 0) (ha : s.paramOk (u64At (s.params m) 8) 7856 false = true)
  (hd : s.sec.debug < c.level)
  (hg : (c.level = 1 ∧ s.sec.ownerKey.isSome = true) ∨ (c.level = 2 ∧ s.frm.epoch = 0))
include h hc hl ha hd hg

/-- Past the checks 1 to 3, checks 4 and 5 decide. -/
theorem exec_debugUnlock_challenged : exec (.debugUnlock m) s = .next (
    if c.rc + 60000000000 ≤ s.rc then s.challengeUsed.refusal m .challengeStale
    else if s.unlockVerifies c (s.load (u64At (s.params m) 8) 7856) then (s.unlocked c.level).answer m (toLe 1 c.level)
    else ((s.challengeUsed.bump Reg.SEC_CNT_DEBUG_FAIL 1).stick Reg.SEC_STATUS 5).refusal m .sigInvalid) := by
  have hrange : ¬ (c.level < 1 ∨ 2 < c.level ∨ c.level ≤ s.sec.debug) := by omega
  have hepoch : ¬ (c.level = 2 ∧ s.frm.epoch ≠ 0) := by
    rintro ⟨h2, he⟩
    rcases hg with ⟨h1, -⟩ | ⟨-, h0⟩
    · omega
    · exact he h0
  have howner : ¬ (c.level = 1 ∧ s.sec.ownerKey.isNone = true) := by
    rintro ⟨h1, hn⟩
    rcases hg with ⟨-, ho⟩ | ⟨h2, -⟩
    · simp [Option.isNone_iff_eq_none.1 hn] at ho
    · omega
  change execDebugUnlock m s = _
  simp only [execDebugUnlock, State.welfy_admitted h, ← hl, if_neg hrange, if_neg hepoch, if_neg howner, ha, Bool.not_true,
    Bool.false_eq_true, if_false, hc, ne_eq, not_true_eq_false, false_or]
  split
  · rfl
  · cases hv : s.unlockVerifies c (s.load (u64At (s.params m) 8) 7856)
    all_goals
      rw [State.unlockVerifies] at hv
      simp only [hv]
      rfl

end

theorem exec_challengeExpiry_expires {s : State} {c : Challenge} (hc : s.sec.challenge = some c)
    (hr : c.rc + 60000000000 ≤ s.rc) : exec .challengeExpiry s = .next s.challengeUsed := by
  change execChallengeExpiry s = _
  simp only [execChallengeExpiry, hc, if_pos hr, State.challengeUsed]

theorem exec_challengeExpiry_keeps {s : State} (h : ∀ c, s.sec.challenge = some c → s.rc < c.rc + 60000000000) :
    exec .challengeExpiry s = .next s := by
  change execChallengeExpiry s = _
  unfold execChallengeExpiry
  cases hc : s.sec.challenge with
  | none => rfl
  | some c => simp only [if_neg (Nat.not_le.2 (h c hc))]

/-! ### KEY_HANDLE_CREATE (R558) -/

section

variable {s : State} {m : BitVec 6} (h : s.admits 0x0807 m = true)
include h

theorem exec_keyHandleCreate_creates (h0 : u32At (s.params m) 0 = 0) (hn : s.sec.handles.length < 1024) :
    exec (.keyHandleCreate m) s = .next (State.answer { s with sec := { s.sec with
      handles := tset s.sec.handles s.sec.nextHandle (slice (s.params m) 16 32), nextHandle := s.sec.nextHandle + 1 } } m
        (toLe 4 s.sec.nextHandle)) := by
  change execKeyHandleCreate m s = _
  simp only [execKeyHandleCreate, State.welfy_admitted h, if_pos h0, if_neg (Nat.not_le.2 hn), Reply.settle_answer]

variable {k : Nat} (hk : u32At (s.params m) 0 = k) (h0 : k ≠ 0) (hz : zeroBytes (s.params m) 16 32 = true)
  (he : s.sec.handles.any (fun e => e.1 == k) = true)
include hk h0 hz he

/-- An existing handle is destroyed unless a key entry names it. -/
theorem exec_keyHandleCreate_existing : exec (.keyHandleCreate m) s = .next (
    if s.handleNamed k then s.refusal m .runLock
    else State.answer { s with sec := { s.sec with handles := s.sec.handles.filter (fun e => e.1 != k) } } m (toLe 4 k)) := by
  change execKeyHandleCreate m s = _
  simp only [execKeyHandleCreate, State.welfy_admitted h, hk, if_neg h0, hz, he, Bool.not_true, Bool.false_eq_true, if_false]
  split <;> rfl

end

end Sys2Proof.Machine

namespace Sys2Proof.TrustAndAttestation

open Sys2Proof Sys2Proof.Machine

/-- Settles O40, command by command. The bytes that are signed, the randomness of a signature and the numbering of handles are
the model's choice (log entry 58), and so is the owner counter's wrap at 2^32 (log entry 82). -/
theorem trustCommands : Obligations.TrustCommands := by
  refine ⟨fun s m => ?_, fun s => ⟨fun c hc hr => exec_challengeExpiry_expires hc hr, exec_challengeExpiry_keeps⟩⟩
  dsimp only
  refine ⟨fun hadm haddr => exec_attest_signs hadm rfl haddr rfl rfl, fun hadm haddr => exec_certChainRead_stores hadm haddr,
    fun hadm => ⟨fun hall => ?_, fun h1 h10 => ?_⟩, fun hadm => ⟨fun haddr hsig hbank hepoch => ?_, fun haddr hfail => ?_⟩,
    fun hadm hlevel => exec_debugChallenge_issues hadm rfl hlevel rfl,
    fun c hadm hc hlevel haddr hdebug hsigner => ⟨fun hr => ?_, fun hr => ?_⟩,
    fun hadm => ⟨fun h0 hn => exec_keyHandleCreate_creates hadm h0 hn, fun h0 hz he => ⟨fun hnamed => ?_, fun hnamed => ?_⟩⟩⟩
  · rw [exec_measurementsRead_all hadm hall, State.allRecords_eq]
  · rw [exec_measurementsRead_one hadm rfl h1 h10, List.flatMap_singleton]
  · rw [exec_ownerKeyEnrol_admitted hadm rfl haddr, hsig, if_neg (by rcases hbank with hb | hb <;> simp [hb]),
      if_neg (not_not.2 hepoch)]
    rfl
  · rw [exec_ownerKeyEnrol_admitted hadm rfl haddr, if_pos ?_]
    · rfl
    · rcases hfail with hsig | ⟨hzero, hbank⟩
      · rw [hsig, Bool.not_false, Bool.true_or]
      · rw [hzero, hbank, Bool.not_false, Bool.and_self, Bool.or_true]
  · rw [exec_debugUnlock_challenged hadm hc hlevel haddr hdebug hsigner, if_neg (Nat.not_le.2 hr)]
    unfold State.unlockVerifies
    split <;> rfl
  · rw [exec_debugUnlock_challenged hadm hc hlevel haddr hdebug hsigner, if_pos hr]
    rfl
  · rw [exec_keyHandleCreate_existing hadm rfl h0 hz he, if_pos hnamed]
  · rw [exec_keyHandleCreate_existing hadm rfl h0 hz he, hnamed, if_neg Bool.false_ne_true]

end Sys2Proof.TrustAndAttestation
end

section
/-! ## The step, and what a store leaves -/

namespace Sys2Proof.Machine

/-! ### An empty queue (log entry 7) -/

/-- One reference cycle later: the frame's phase counts on while the frame tick runs. -/
def State.cycled (s : State) : State :=
  { s with rc := s.rc + 1, frm := if s.frm.ticking then { s.frm with phase := Nat.min 262143 (s.frm.phase + 1) } else s.frm }

theorem State.idle_idling {s : State} (h : s.phys.idling = true) : s.idle = s.cycled.bump Reg.PWR_CNT_IDLE_RC 1 := if_pos h

theorem State.idle_not_idling {s : State} (h : ¬ s.phys.idling = true) : s.idle = s.cycled := if_neg h

/-- The rc idled under the power guard are counted (R489). -/
theorem State.idle_reg (s : State) (off : Nat) : s.idle.reg off =
    if off = Reg.PWR_CNT_IDLE_RC ∧ s.phys.idling = true then satAdd (s.reg off) 1 else s.reg off := by
  by_cases hi : s.phys.idling = true
  · rw [State.idle_idling hi, State.bump_reg]
    by_cases ho : off = Reg.PWR_CNT_IDLE_RC
    · subst ho
      rw [if_pos rfl, if_pos ⟨rfl, hi⟩]
      rfl
    · rw [if_neg ho, if_neg (fun h => ho h.1)]
      rfl
  · rw [State.idle_not_idling hi, if_neg (fun h => hi h.2)]
    rfl

/-- Idling lets one cycle pass and changes no more than that counter. -/
theorem State.idle_eq (s : State) : s.idle = { s.cycled with regs := s.idle.regs } := by
  by_cases hi : s.phys.idling = true
  · rw [State.idle_idling hi]
    rfl
  · rw [State.idle_not_idling hi]

end Sys2Proof.Machine

namespace Sys2Proof.HostLink

open Sys2Proof Sys2Proof.Machine

/-- Settles O1: the step takes the first command of a queue that is not empty. -/
theorem stepRunsFront : Obligations.StepRunsFront := fun _ _ _ => rfl

/-- Settles O2. That one reference cycle passes is the model's choice (log entry 7). -/
theorem idleStepIsOneCycle : Obligations.IdleStepIsOneCycle := by
  intro s hempty
  have hstep : step s = .next s.idle := by
    unfold step
    rw [hempty]
  refine ⟨s.idle, hstep, ?_, ?_, s.idle_reg, ?_, ?_⟩
  all_goals
    rw [State.idle_eq]
    rfl

/-- Settles O5: every command keeps these from the state without the command taken (`step_keeps`). -/
theorem stepConsumesFrontAndSentStaysSent : Obligations.StepConsumesFrontAndSentStaysSent := by
  intro s t hstep
  have h := step_keeps hstep
  exact ⟨h.pending, h.rc, h.free, h.msix, h.mgmt, h.fabric⟩

/-- Settles O18: the store's bytes are in memory (`State.store_mem`), and beside them only the write-combining buffers change
(`State.store_eq`). -/
theorem storeChangesExactlyItsBytes : Obligations.StoreChangesExactlyItsBytes := by
  intro s addr bs
  refine ⟨fun i hi => ?_, fun a ha => ?_, fun r hr => s.store_reg addr bs hr, ?_⟩
  · rw [State.store_mem, mread_mwrites_inside _ _ _ hi]
    rfl
  · rw [State.store_mem, mread_mwrites_outside _ _ _ ha]
  · obtain ⟨u, hu, hstore⟩ := s.store_eq addr bs
    dsimp only
    rw [hstore, hu.eq]

end Sys2Proof.HostLink
end

section
/-! ## The host's queries (R409, R415, R420) -/

namespace Sys2Proof.Machine

section

variable {s : State} {m : BitVec 6}

theorem exec_identify_answers (h : s.admits 0x0101 m = true) : exec (.identify m) s = .next (s.answer m
    (toLe 2 vendorId ++ toLe 2 deviceId ++ toLe 1 s.boot.fuses.aperture ++ toLe 1 s.boot.running
      ++ toLe 2 s.devStateWord ++ s.identity ++ s.fwVersion ++ toLe 1 (b2n s.boot.startedB))) :=
  congrArg Host.Outcome.next (State.welfy_admitted h _)

theorem exec_echo_answers (h : s.admits 0x0106 m = true) : exec (.echo m) s = .next (s.answer m (s.params m)) :=
  congrArg Host.Outcome.next (State.welfy_admitted h _)

/-- A handle is a sequence number above the record's index (R418): its record, and bits 4 to 7 zero. -/
theorem handle_parts {i q : Nat} (hi : i < 16) :
    (q * 256 + i) % 16 = i ∧ (q * 256 + i) / 256 = q ∧ bits (q * 256 + i) 4 7 = 0 := by
  unfold bits
  omega

variable (h : s.admits 0x0103 m = true) {i q : Nat} (hi : i < 16) (hp : u32At (s.params m) 0 = q * 256 + i)
include h hi hp

/-- OP_QUERY answers the record of a handle that is used and has the handle's sequence number. -/
theorem exec_opQuery : exec (.opQuery m) s = .next
    (if (s.record i).used = true ∧ (s.record i).seq = q then s.answer m ((s.record i).bytes i) else s.refusalAt m 0) := by
  obtain ⟨hidx, hseq, hres⟩ := handle_parts (q := q) hi
  change execOpQuery m s = _
  simp only [execOpQuery, State.welfy_admitted h, hp, hidx, hseq, hres]
  by_cases hu : (s.record i).used = true ∧ (s.record i).seq = q
  · rw [if_pos hu, if_neg (by simp [hu]), Reply.settle_answer]
  · rw [if_neg hu, if_pos (by grind), Reply.settle_refusalAt]

end

end Sys2Proof.Machine

namespace Sys2Proof.HostLink

open Sys2Proof Sys2Proof.Machine

/-- Settles O13, command by command. -/
theorem hostQueriesAnswer : Obligations.HostQueriesAnswer := by
  refine fun s m => ⟨exec_identify_answers, exec_echo_answers, fun hadm i q hi hp => ⟨fun hu hq => ?_, fun hq => ?_⟩⟩
  · rw [exec_opQuery hadm hi hp, if_pos ⟨hu, hq⟩]
  · rw [exec_opQuery hadm hi hp, if_neg (fun h => hq h.2)]

end Sys2Proof.HostLink
end

section
/-! ## Frame programs and layout plans (R47, R50 to R53, R77, R578, R579) -/

namespace Sys2Proof.Machine

section

variable {s : State} {m : BitVec 6}

theorem Reply.settle_loadReply (s : State) {x : Status} (hx : x ≠ .inProgress) (id w m : Nat) :
    (s.loadReply x id w).settle m = s.finish m x 0 (toLe 4 id ++ toLe 4 w) := if_neg hx

section

variable (h : s.admits 0x0301 m = true)
include h

/-- R53: no program is loaded while a mode is armed or retained. -/
theorem exec_frameProgramLoad_held (hl : s.loadsHeld = true) : exec (.frameProgramLoad m) s = .next (s.refusal m .armBusy) := by
  change execFrameProgramLoad m s = _
  simp only [execFrameProgramLoad, State.welfy_admitted h, if_pos hl]
  rfl

variable (hl : s.loadsHeld = false) {src len : Nat} (hsrc : u64At (s.params m) 0 = src) (hlen : u32At (s.params m) 8 = len)
  (ha : s.paramOk src 64 false = true) (hf : progFieldsOk (s.load src 64) = true) (hn : len = progLength (s.load src 64))
  (hb : s.paramOk src len false = true)
include hl hsrc hlen ha hf hn hb

/-- Past its addresses and its header, the digest, the aperture and the frames of a program decide. -/
theorem exec_frameProgramLoad_read : exec (.frameProgramLoad m) s = .next (Reply.settle (
    let b := s.load src len
    let id := u32At (s.load src 64) 16
    if sha256 (b.drop 64) ≠ slice b 32 32 then s.loadReply .planInvalid id 0xFFFFFFFF
    else if u8At b 24 ≠ s.boot.running then s.loadReply .planMismatch id 0xFFFFFFFF
    else match progFramesFail b (u8At b 24) with
      | some w => s.loadReply .planInvalid id w
      | none => State.loadReply { s with frm := { s.frm with standbyProg := some (programOfBytes b) } } .success id 0xFFFFFFFF)
    m.toNat) := by
  have hlen' : ¬ (!progFieldsOk (s.load src 64) || len != progLength (s.load src 64)) = true := by simp [hf, ← hn]
  change execFrameProgramLoad m s = _
  simp only [execFrameProgramLoad, State.welfy_admitted h, hsrc, hlen, if_neg hlen', hl, ha, hb, Bool.not_true,
    Bool.false_eq_true, if_false] <;> rfl

end

section

variable (h : s.admits 0x0302 m = true)
include h

theorem exec_layoutPlanLoad_held (hl : s.loadsHeld = true) : exec (.layoutPlanLoad m) s = .next (s.refusal m .armBusy) := by
  change execLayoutPlanLoad m s = _
  simp only [execLayoutPlanLoad, State.welfy_admitted h, if_pos hl]
  rfl

variable (hl : s.loadsHeld = false) {src len : Nat} (hsrc : u64At (s.params m) 0 = src) (hlen : u32At (s.params m) 8 = len)
  (ha : s.paramOk src 64 false = true) (hf : planHeaderOk (s.load src 64) len = true) (hb : s.paramOk src len false = true)
include hl hsrc hlen ha hf hb

/-- Past its addresses and its header, the digest and the entries of a plan decide. -/
theorem exec_layoutPlanLoad_read : exec (.layoutPlanLoad m) s = .next (Reply.settle (
    let b := s.load src len
    let id := u32At (s.load src 64) 12
    if sha256 (b.drop 64) ≠ slice b 32 32 then s.loadReply .planInvalid id 0xFFFFFFFF
    else match s.planFail (planEntries b) with
      | some i => s.loadReply .planInvalid id (failWord 2 i)
      | none => State.loadReply { s with frm := { s.frm with standbyPlan := some ⟨id, planEntries b⟩ } } .success id 0xFFFFFFFF)
    m.toNat) := by
  change execLayoutPlanLoad m s = _
  simp only [execLayoutPlanLoad, State.welfy_admitted h, hsrc, hlen, hf, hl, ha, hb, Bool.not_true, Bool.false_eq_true,
    if_false] <;> rfl

end

end

end Sys2Proof.Machine

namespace Sys2Proof.FrameTick

open Sys2Proof Sys2Proof.Machine

/-- Settles O21: R53 refuses a held load, the digest one that differs, and what passes is held in the standby bank. -/
theorem programAndPlanLoads : Obligations.ProgramAndPlanLoads := by
  intro s m
  refine ⟨fun hadm => ⟨exec_frameProgramLoad_held hadm, fun hl ha hf hn hb => ⟨fun hd => ?_, fun hd hr hp => ?_⟩⟩,
    fun hadm => ⟨exec_layoutPlanLoad_held hadm, fun hl ha hf hb => ⟨fun hd => ?_, fun hd hp => ?_⟩⟩⟩
  · rw [exec_frameProgramLoad_read hadm hl rfl rfl ha hf hn hb]
    dsimp only
    rw [if_pos hd, Reply.settle_loadReply _ Status.noConfusion]
  · rw [exec_frameProgramLoad_read hadm hl rfl rfl ha hf hn hb]
    dsimp only
    rw [if_neg (not_not.2 hd), if_neg (not_not.2 hr), hp, Reply.settle_loadReply _ Status.noConfusion]
    rfl
  · rw [exec_layoutPlanLoad_read hadm hl rfl rfl ha hf hb]
    dsimp only
    rw [if_pos hd, Reply.settle_loadReply _ Status.noConfusion]
  · rw [exec_layoutPlanLoad_read hadm hl rfl rfl ha hf hb]
    dsimp only
    rw [if_neg (not_not.2 hd), hp, Reply.settle_loadReply _ Status.noConfusion]
    rfl

end Sys2Proof.FrameTick
end

section
/-! ## The counter commands (R431, R500) -/

namespace Sys2Proof.Machine

section

variable {s : State} {m : BitVec 6} {op : Nat}

/-- The state in which a list of counters is cleared where the command asks for it. -/
def State.clearedIf (s : State) (c : Bool) (l : List Nat) : State := if c then s.clearRegs l else s

/-- A command that answers a list of counters and clears them where bit 0 of its parameter asks for it. -/
theorem welfy_counters (h : s.admits op m = true) (l : List Nat) :
    s.welfy op m (fun ps s => s.countersReply l (bit (u8At ps 0) 0)) =
      (s.clearedIf (bit (u8At (s.params m) 0) 0) l).answer m (s.regBytes l) := State.welfy_admitted h _

/-- QUANT_COUNTERS also clears the counts that it does not show (R144). -/
theorem exec_quantCounters (h : s.admits 0x0621 m = true) : exec (.quantCounters m) s = .next
    ((s.clearedIf (bit (u8At (s.params m) 0) 0) (qntCounters ++ qntHidden)).answer m (s.regBytes qntCounters)) :=
  congrArg Host.Outcome.next (State.welfy_admitted h _)

/-- The peaks of the stacks cleared (HBM_THERM.PEAK). -/
def State.withoutPeaks (s : State) : State :=
  { s with hbm := { s.hbm with therms := s.hbm.therms.map (fun e => (e.1, { e.2 with peak := 0 })) } }

theorem exec_memCounters (h : s.admits 0x0404 m = true) {c : Bool} (hc : bit (u8At (s.params m) 0) 0 = c) :
    exec (.memCounters m) s = .next
      ((if c then (s.clearRegs memCounters).withoutPeaks else s).answer m (s.regBytes memCounters)) := by
  change execMemCounters m s = _
  simp only [execMemCounters, State.welfy_admitted h, hc]
  cases c <;> rfl

/-- The peak of the die taken back to its temperature. -/
def State.withoutDiePeak (s : State) : State := { s with phys := { s.phys with diePeak := s.phys.dieTemp } }

theorem exec_telemetryRead_counters (h : s.admits 0x0A01 m = true) (hk : u8At (s.params m) 0 % 4 = 0) {c : Bool}
    (hc : bit (u8At (s.params m) 0) 7 = c) : exec (.telemetryRead m) s = .next
      ((if c then (s.clearRegs (clkCounters ++ pwrCounters ++ thmCounters)).withoutDiePeak else s).answer m
        (s.regBytes (clkCounters ++ pwrCounters ++ thmCounters))) := by
  have hvalid : ¬ (u8At (s.params m) 0 % 4 = 3 ∨ (c = true ∧ u8At (s.params m) 0 % 4 ≠ 0)) := by omega
  change execTelemetryRead m s = _
  simp only [execTelemetryRead, State.welfy_admitted h, hc, if_neg hvalid, if_pos hk]
  cases c <;> rfl

/-- The frame counts of availability cleared (R506). -/
def State.withoutFrameCounts (s : State) : State :=
  { s with ras := { s.ras with avSched := 0, avLost := 0, avReplayed := 0 } }

theorem exec_rasCounters (h : s.admits 0x070A m = true) {c : Bool} (hc : bit (u8At (s.params m) 0) 0 = c) :
    exec (.rasCounters m) s = .next
      (State.answer (if bit (u8At (s.params m) 0) 1 then (s.clearedIf c rasCounters).withoutFrameCounts
        else s.clearedIf c rasCounters) m (s.regBytes (rasCounters ++ avCounters))) := by
  change execRasCounters m s = _
  simp only [execRasCounters, State.welfy_admitted h, hc, Reply.settle_answer]
  rfl

end

/-- Clearing registers leaves every other part of the state. -/
theorem State.clearRegs_parts (s : State) (l : List Nat) :
    (s.clearRegs l).hbm = s.hbm ∧ (s.clearRegs l).phys = s.phys ∧ (s.clearRegs l).ras = s.ras ∧ (s.clearRegs l).mem = s.mem := by
  rw [State.clearRegs_eq]
  exact ⟨rfl, rfl, rfl, rfl⟩

end Sys2Proof.Machine

namespace Sys2Proof.HostLink

open Sys2Proof Sys2Proof.Machine

/-- Settles O32, command by command; what clearing leaves is `State.clearRegs_reg`. -/
theorem countersAreReadAndCleared : Obligations.CountersAreReadAndCleared := by
  refine ⟨fun s m => ?_, fun s l r => ⟨s.clearRegs_reg l r, s.clearRegs_eq l⟩⟩
  have hall : ∀ {op : Nat} (l : List Nat), s.admits op m = true → _ := fun l h =>
    congrArg (Host.Outcome.next (φ := Fault) (ρ := Refusal)) (welfy_counters h l)
  dsimp only
  refine ⟨hall _, hall _, hall _, hall _, hall _, hall _, hall _, hall _, hall _, hall _, exec_quantCounters,
    fun hadm => ⟨_, exec_memCounters hadm rfl, ?_⟩, fun hadm hk => ⟨_, exec_telemetryRead_counters hadm hk rfl, ?_⟩,
    fun hadm => ⟨_, exec_rasCounters hadm rfl, ?_⟩⟩
  · obtain ⟨hhbm, -⟩ := s.clearRegs_parts memCounters
    cases bit (u8At (s.params m) 0) 0 with
    | false =>
      rw [if_neg Bool.false_ne_true, if_neg Bool.false_ne_true]
      exact ⟨rfl, fun _ => rfl, fun h => absurd h (by decide)⟩
    | true =>
      rw [if_pos rfl, if_pos rfl, ← hhbm]
      exact ⟨rfl, fun h => absurd h (by decide), fun _ => rfl⟩
  · obtain ⟨-, hphys, -, hmem⟩ := s.clearRegs_parts (clkCounters ++ pwrCounters ++ thmCounters)
    cases bit (u8At (s.params m) 0) 7 with
    | false => exact ⟨fun _ => rfl, fun h => absurd h (by decide)⟩
    | true =>
      refine ⟨fun h => absurd h (by decide), fun _ => ?_⟩
      rw [if_pos rfl, ← hphys]
      exact ⟨rfl, rfl, hmem⟩
  · have hras : (s.clearedIf (bit (u8At (s.params m) 0) 0) rasCounters).ras = s.ras := by
      obtain ⟨-, -, h, -⟩ := s.clearRegs_parts rasCounters
      unfold State.clearedIf
      split
      · exact h
      · rfl
    cases bit (u8At (s.params m) 0) 1 with
    | false => exact ⟨rfl, hras⟩
    | true =>
      rw [if_pos rfl, if_pos rfl, ← hras]
      exact ⟨rfl, rfl⟩

end Sys2Proof.HostLink
end

section
/-! ## The telemetry queries (R498, R500) and the memory commands (R333, R351, R353, R356, R358) -/

namespace Sys2Proof.Machine

section

variable {s : State} {m : BitVec 6}

/-! ### Telemetry -/

theorem exec_powerQuery_answers (h : s.admits 0x0A02 m = true) : exec (.powerQuery m) s = .next (s.answer m
    (s.regBytes [Reg.PWR_AVG_W, Reg.PWR_IN0, Reg.PWR_IN1, Reg.PWR_LIMIT_W] ++ toLe 8 (s.phys.energy / 10000000))) :=
  congrArg Host.Outcome.next (State.welfy_admitted h _)

theorem exec_dieThermalQuery_answers (h : s.admits 0x0A03 m = true) : exec (.dieThermalQuery m) s =
    .next (s.answer m (toLe 4 s.thmDie.toNat ++ s.sensorBytes)) :=
  congrArg Host.Outcome.next (State.welfy_admitted h _)

theorem exec_clockQuery (h : s.admits 0x0A04 m = true) {d : Nat} (hd : u8At (s.params m) 0 = d) :
    exec (.clockQuery m) s = .next (if 36 < d then s.refusalAt m 0 else s.answer m
      (toLe 4 (s.clkDomain d).toNat ++ toLe 4 (s.domain d).count ++ toLe 4 (expectedCount s.lockMultiple d))) := by
  change execClockQuery m s = _
  simp only [execClockQuery, State.welfy_admitted h, hd]
  split <;> rfl

theorem exec_energyModelRead_answers (h : s.admits 0x0A05 m = true) {a : Nat} (ha : u8At (s.params m) 0 = a)
    (hv : a = 36 ∨ a = 32 ∨ a = 26) :
    exec (.energyModelRead m) s = .next (s.answer m ((energyModel a).flatMap (toLe 4))) := by
  change execEnergyModelRead m s = _
  simp only [execEnergyModelRead, State.welfy_admitted h, ha, if_neg (show ¬ (a ≠ 36 ∧ a ≠ 32 ∧ a ≠ 26) by omega),
    Reply.settle_answer]

/-- Free readings use up their numbers and change nothing else. -/
theorem State.freshWords_state (s : State) (n : Nat) : (s.freshWords n).2 = { s with freeCtr := s.freeCtr + n } := by
  induction n generalizing s with
  | zero => rfl
  | succ n ih =>
    rw [State.freshWords, ih]
    simp only [State.fresh, Nat.add_assoc, Nat.add_comm 1 n]

theorem exec_telemetryRead_sensors (h : s.admits 0x0A01 m = true) (hp : u8At (s.params m) 0 = 1) :
    exec (.telemetryRead m) s = .next (s.answer m s.sensorBytes) := by
  change execTelemetryRead m s = _
  simp only [execTelemetryRead, State.welfy_admitted h, hp]
  rfl

theorem exec_telemetryRead_rails (h : s.admits 0x0A01 m = true) (hp : u8At (s.params m) 0 = 2) :
    exec (.telemetryRead m) s =
      .next (State.answer { s with freeCtr := s.freeCtr + 72 } m (s.freshWords 72).1) := by
  rw [← State.freshWords_state]
  change execTelemetryRead m s = _
  simp only [execTelemetryRead, State.welfy_admitted h, hp]
  rfl

/-! ### Memory -/

theorem exec_memFlush_drains (h : s.admits 0x0402 m = true) {ws : List Nat}
    (hw : (s.hbm.wcb.filter (fun l => bit (u8At (s.params m) 0) (s.wordPlace l.word).stack)).map (fun l => l.word) = ws) :
    exec (.memFlush m) s = .next ((s.drainLines ws).answer m (toLe 4 ws.length)) := by
  subst hw
  exact congrArg Host.Outcome.next (State.welfy_admitted h _)

/-- The layout of an HBM address as MEM_ADDR_DECODE answers it. -/
theorem exec_memAddrDecode_hbm (h : s.admits 0x0403 m = true) {off : Nat} (hr : s.region (u64At (s.params m) 0) = .hbm off) :
    exec (.memAddrDecode m) s = .next (s.answer m
      (toLe 1 (if (s.place off).interleaved then 0 else 1) ++ toLe 1 (s.place off).stack ++ toLe 1 (s.place off).channel
        ++ toLe 1 (s.place off).word ++ toLe 1 (s.place off).granule ++ toLe 1 (s.place off).bank ++ toLe 2 (s.place off).row)) := by
  have hflag : b2n (!(s.place off).interleaved) = if (s.place off).interleaved then 0 else 1 := by
    cases (s.place off).interleaved <;> rfl
  change execMemAddrDecode m s = _
  simp only [execMemAddrDecode, State.welfy_admitted h, hr, hflag, Reply.settle_answer]

theorem exec_memAddrDecode_core (h : s.admits 0x0403 m = true) {c a : Nat}
    (hr : s.region (u64At (s.params m) 0) = .core c a) :
    exec (.memAddrDecode m) s = .next (s.answer m (2 :: List.replicate 7 0)) := by
  change execMemAddrDecode m s = _
  simp only [execMemAddrDecode, State.welfy_admitted h, hr, Reply.settle_answer]

theorem exec_hbmThermalQuery_answers (h : s.admits 0x0405 m = true) : exec (.hbmThermalQuery m) s = .next (s.answer m
    ((List.range 8).map (fun i => BitVec.ofNat 8 (s.stack i).temp)
      ++ (List.range 8).map (fun i => BitVec.ofNat 8 (s.stack i).peak) ++ toLe 2 s.thermAll.toNat)) :=
  congrArg Host.Outcome.next (State.welfy_admitted h _)

theorem exec_hbmRepairQuery_answers (h : s.admits 0x0407 m = true) {c : Nat} (hc : u8At (s.params m) 0 = c) :
    exec (.hbmRepairQuery m) s = .next (s.answer m (toLe 4 (s.chan c).laneMap.toNat
      ++ (List.range 4).flatMap (fun i => toLe 4 ((s.chan c).erase i).toNat) ++ toLe 4 (s.chan c).pprFree.toNat
      ++ toLe 1 ((s.hbm.queue ++ s.hbm.current.toList).filter (fun r => r.channel == c)).length)) := by
  subst hc
  exact congrArg Host.Outcome.next (State.welfy_admitted h _)

section

variable (margins : List (BitVec 8 × BitVec 16)) (h : s.admits 0x0408 m = true)
include h

theorem exec_hbmMargin_locked (he : s.frm.epoch ≠ 0 ∨ 8 < s.stationCount) :
    exec (.hbmMargin m margins) s = .next (s.refusal m .runLock) := by
  change execHbmMargin m margins s = _
  simp only [execHbmMargin, State.welfy_admitted h, if_pos he]
  rfl

/-- Outside an epoch (R356), with its answer's place not in the channel's own stack, the sweep leaves the channel zero. -/
theorem exec_hbmMargin_sweeps (he : s.frm.epoch = 0) (hn : s.stationCount ≤ 8) {ch dst : Nat}
    (hc : u8At (s.params m) 0 = ch) (hd : u64At (s.params m) 8 = dst) (hb : s.isHbm dst = true)
    (ha : s.paramOk dst 296 true = true) (hw : ∀ w ∈ wordsOf (dst % 2 ^ 48) 296, (s.wordPlace w).stack ≠ ch / 32) :
    exec (.hbmMargin m margins) s = .next ((((s.drainLines (s.linesOn ch none)).zeroChannel ch).store dst
      ((List.range 74).flatMap (marginBytes margins))).answer m (marginBytes margins (worstLane margins))) := by
  have hopen : ¬ (s.frm.epoch ≠ 0 ∨ 8 < s.stationCount) := by
    rintro (h1 | h1)
    · exact h1 he
    · omega
  have hdst : ¬ (!(s.isHbm dst && s.paramOk dst 296 true)) = true := by simp [hb, ha]
  have hown : ¬ ((wordsOf (dst % 2 ^ 48) 296).any (fun w => (s.wordPlace w).stack == ch / 32)) = true := by simpa using hw
  change execHbmMargin m margins s = _
  simp only [execHbmMargin, State.welfy_admitted h, hc, hd, if_neg hopen, if_neg hdst, if_neg hown, Reply.settle_answer]

end

end

end Sys2Proof.Machine

namespace Sys2Proof.PowerAndClocks

open Sys2Proof Sys2Proof.Machine

/-- Settles O33, command by command. Rail readings as free values (log entry 18), the device's own count of stations for
HBM_MARGIN (log entry 26) and what MEM_ADDR_DECODE shows outside HBM (log entry 51) are the model's choice. -/
theorem telemetryAndMemoryCommands : Obligations.TelemetryAndMemoryCommands := by
  refine ⟨fun s m => ?_, fun s m => ?_⟩
  · refine ⟨exec_powerQuery_answers, exec_dieThermalQuery_answers, fun hadm => ⟨fun hp => ?_, fun hp => ?_⟩,
      fun hadm hp => exec_energyModelRead_answers hadm rfl hp,
      fun hadm => ⟨exec_telemetryRead_sensors hadm, fun hp => ⟨_, exec_telemetryRead_rails hadm hp⟩⟩⟩
    · rw [exec_clockQuery hadm rfl, if_neg (Nat.not_lt.2 hp)]
    · rw [exec_clockQuery hadm rfl, if_pos hp]
  · exact ⟨fun hadm => exec_memFlush_drains hadm rfl,
      fun hadm => ⟨fun _ => exec_memAddrDecode_hbm hadm, fun _ _ => exec_memAddrDecode_core hadm⟩,
      exec_hbmThermalQuery_answers, fun hadm => exec_hbmRepairQuery_answers hadm rfl,
      fun margins hadm => ⟨exec_hbmMargin_locked margins hadm,
        fun he hn hb ha hw => exec_hbmMargin_sweeps margins hadm he hn rfl rfl hb ha hw⟩⟩

end Sys2Proof.PowerAndClocks
end

section
/-! ## The fabric commands (R374, R377, R380, R399 to R401) -/

namespace Sys2Proof.Machine

section

variable {s : State} {m : BitVec 6}

theorem exec_stationQuery_answers (h : s.admits 0x0501 m = true) : exec (.stationQuery m) s = .next (s.answer m
    (s.regBytes [Reg.LNK_STATION, Reg.LNK_PORTS_LIVE] ++ s.identity)) :=
  congrArg Host.Outcome.next (State.welfy_admitted h _)

theorem exec_peerMapLoad_taken (h : s.admits 0x0502 m = true) (ha : s.paramOk (u64At (s.params m) 0) 8192 false = true)
    {b : BitVec 65536} (hb : BitVec.ofNat 65536 (leNat (s.load (u64At (s.params m) 0) 8192)) = b) :
    exec (.peerMapLoad m) s = .next (State.answer { s with lnk := { s.lnk with peersNext := some b } } m
      (toLe 4 ((List.range 65536).filter (fun i => b.getLsbD i)).length)) := by
  subst hb
  change execPeerMapLoad m s = _
  simp only [execPeerMapLoad, State.welfy_admitted h, ha, Bool.not_true, Bool.false_eq_true, if_false, Reply.settle_answer]

theorem exec_portQuery_answers (h : s.admits 0x0503 m = true) {n : Nat} (hn : u8At (s.params m) 0 = n) (hr : n ≤ 23) :
    exec (.portQuery m) s = .next (s.answer m (toLe 4 (s.port n).stateWord.toNat ++ toLe 4 (s.port n).laneMap.toNat
      ++ (List.range 18).flatMap (fun i => toLe 4 ((s.port n).symbols.getD i 0)))) := by
  change execPortQuery m s = _
  simp only [execPortQuery, State.welfy_admitted h, hn, if_neg (Nat.not_lt.2 hr), Reply.settle_answer]

/-! ### PORT_CONTROL (R399) -/

section

variable (h : s.admits 0x0504 m = true) {n act : Nat} (hn : u8At (s.params m) 0 = n) (hr : n ≤ 23)
  (ha : u8At (s.params m) 1 = act)
include h hn hr ha

/-- A port, an action and a lane in their ranges: the action decides. -/
theorem exec_portControl_action (hact : act ≤ 3) (hlane : act = 2 → u8At (s.params m) 2 ≤ 17) :
    exec (.portControl m) s = .next ((s.portAction n act (u8At (s.params m) 2)).settle m.toNat) := by
  have hl : ¬ (act = 2 ∧ 17 < u8At (s.params m) 2) := fun ⟨h2, hx⟩ => Nat.not_lt.2 (hlane h2) hx
  change execPortControl m s = _
  simp only [execPortControl, State.welfy_admitted h, hn, ha, if_neg (Nat.not_lt.2 hr), if_neg (Nat.not_lt.2 hact), if_neg hl]

end

theorem State.portAction_disable (s : State) (n lane : Nat) : s.portAction n 0 lane =
    if s.livePorts - (if s.portLive n then 1 else 0) < 22 then s.no .runLock
    else if (s.port n).phase = .disabled then s.ok [] else (s.portGone n 4 .disabled).ok [] := rfl

theorem State.portAction_enable {n : Nat} (lane : Nat) (hp : (s.port n).phase = .down ∨ (s.port n).phase = .disabled) :
    s.portAction n 1 lane =
      ((s.putPort n { s.port n with phase := .training, trainFails := 0 }).portEvent n 4).ok [] := if_pos hp

/-- A lane that the port carries is swapped for a spare. -/
theorem State.portAction_swap {n lane : Nat} (hl : lane ≤ 17) (hp : (s.port n).phase = .up)
    (hc : ((s.port n).carries lane).isSome = true) : s.portAction n 2 lane =
      if (s.port n).takeSpare lane = none then s.no .noSpare
      else (s.portSwaps n { s.port n with replacing := [lane] }).ok [] := by
  have hup : (!decide ((s.port n).phase = .up)) = false := by rw [hp]; rfl
  have hlane : ¬ (17 < lane ∨ (s.port n).carries lane = none) := by
    rintro (h | h)
    · omega
    · simp [h] at hc
  simp only [State.portAction, hup, Bool.false_eq_true, if_false, Option.isNone_iff_eq_none, if_neg hlane]

theorem State.portAction_laser {n : Nat} (lane : Nat) (hp : (s.port n).phase = .up) :
    s.portAction n 3 lane = (s.changeLaser n).ok [] := by
  simp only [State.portAction, hp, decide_true, Bool.not_true, Bool.false_eq_true, if_false]

/-- Lanes and lasers of a port that is not UP are left (R399). -/
theorem State.portAction_notUp {n act : Nat} (lane : Nat) (ha : act = 2 ∨ act = 3) (hp : (s.port n).phase ≠ .up) :
    s.portAction n act lane = s.no .runLock := by
  rcases ha with rfl | rfl <;> simp only [State.portAction, hp, decide_false, Bool.not_false, if_true]

/-! ### The keys (R380, R400) -/

/-- No other staged entry has the peer or the handle. -/
def State.keyUnique (s : State) (i peer handle : Nat) : Prop :=
  ∀ e ∈ s.keysStaged, e.1 ≠ i → ∀ k, e.2 = some k → k.peer ≠ peer ∧ k.handle ≠ handle

theorem State.keyUnique_others {i peer handle : Nat} (hu : s.keyUnique i peer handle) :
    ∀ k ∈ s.keysStaged.filterMap (fun e => if e.1 = i then none else e.2), k.peer ≠ peer ∧ k.handle ≠ handle := by
  intro k hk
  obtain ⟨e, he, hek⟩ := List.mem_filterMap.1 hk
  split at hek
  · exact absurd hek (by simp)
  · next hi => exact hu e he hi k hek

/-- Where the entry's peer and handle are its own, whether the handle exists decides. -/
theorem exec_dreskaKeySet_unique (h : s.admits 0x0505 m = true) (hi : u16At (s.params m) 0 ≤ 1023)
    (hu : s.keyUnique (u16At (s.params m) 0) (u16At (s.params m) 2) (u64At (s.params m) 8)) :
    exec (.dreskaKeySet m) s = .next (
      if s.sec.handles.any (fun e => e.1 == u64At (s.params m) 8) = true then State.answer
        { s with lnk := { s.lnk with keysNext := s.lnk.keysNext ++ [(u16At (s.params m) 0, some
          { peer := u16At (s.params m) 2, planes := BitVec.ofNat 24 (leNat (slice (s.params m) 4 3)),
            required := bit (u8At (s.params m) 7) 0, handle := u64At (s.params m) 8, counters := [] })] } } m []
      else s.refusal m .keyUnknown) := by
  have hothers := State.keyUnique_others hu
  have hpeer : ((s.keysStaged.filterMap (fun e => if e.1 = u16At (s.params m) 0 then none else e.2)).any
      (fun k => k.peer == u16At (s.params m) 2)) = false :=
    List.any_eq_false.2 fun k hk => by simpa using (hothers k hk).1
  have hhandle : ((s.keysStaged.filterMap (fun e => if e.1 = u16At (s.params m) 0 then none else e.2)).any
      (fun k => k.handle == u64At (s.params m) 8)) = false :=
    List.any_eq_false.2 fun k hk => by simpa using (hothers k hk).2
  change execDreskaKeySet m s = _
  simp only [execDreskaKeySet, State.welfy_admitted h, if_neg (Nat.not_lt.2 hi), hpeer, hhandle, Bool.false_eq_true, if_false]
  cases s.sec.handles.any (fun e => e.1 == u64At (s.params m) 8) <;> rfl

theorem exec_dreskaKeyClear_staged (h : s.admits 0x0506 m = true) (hi : u16At (s.params m) 0 ≤ 1023) :
    exec (.dreskaKeyClear m) s = .next (State.answer
      { s with lnk := { s.lnk with keysNext := s.lnk.keysNext ++ [(u16At (s.params m) 0, none)] } } m []) := by
  change execDreskaKeyClear m s = _
  simp only [execDreskaKeyClear, State.welfy_admitted h, if_neg (Nat.not_lt.2 hi), Reply.settle_answer]

/-! ### REMOTE_PROBE (R401) -/

theorem exec_remoteProbe_answers (times : List (BitVec 16)) (h : s.admits 0x0509 m = true) :
    exec (.remoteProbe m times) s = .next
      ((((List.range 24).filter (fun i => decide ((s.port i).phase = .up))).foldl
          (fun (t : State) i => t.sayOn i (u16At (s.params m) 0) (.remoteProbe i (u16At (s.params m) 0))) s).answer m
        ((List.range 24).flatMap (fun i => toLe 2 (if (s.port i).phase = .up then (times.getD i 0xFFFF).toNat else 0xFFFF)))) := by
  change execRemoteProbe m times s = _
  simp only [execRemoteProbe, State.welfy_admitted h, decide_eq_true_eq, Reply.settle_answer]

end

end Sys2Proof.Machine

namespace Sys2Proof.Fabric

open Sys2Proof Sys2Proof.Machine

/-- Settles O34, command by command. That a lane swap without a free spare is refused with NO_SPARE (log entry 57) and the
packet of REMOTE_PROBE (log entry 65) are the model's choice. -/
theorem fabricCommands : Obligations.FabricCommands := by
  intro s m
  refine ⟨exec_stationQuery_answers, fun hadm ha => exec_peerMapLoad_taken hadm ha rfl,
    fun hadm hn => exec_portQuery_answers hadm rfl hn,
    fun hadm hn => ⟨fun h0 hl => ?_, fun h0 hl => ⟨fun hp => ?_, fun hp => ?_⟩, fun h1 hp => ?_,
      fun h2 h17 hp hc => ⟨fun hs => ?_, fun hs => ?_⟩, fun h3 hp => ?_, fun h23 h17 hp => ?_⟩,
    fun hadm hi hu => ⟨fun hk => ?_, fun hk => ?_⟩, exec_dreskaKeyClear_staged,
    fun times hadm => exec_remoteProbe_answers times hadm⟩
  · rw [exec_portControl_action hadm rfl hn h0 (by decide) (by omega), State.portAction_disable, if_pos hl]
    rfl
  · rw [exec_portControl_action hadm rfl hn h0 (by decide) (by omega), State.portAction_disable, if_neg (Nat.not_lt.2 hl),
      if_neg hp, Reply.settle_answer]
  · rw [exec_portControl_action hadm rfl hn h0 (by decide) (by omega), State.portAction_disable, if_neg (Nat.not_lt.2 hl),
      if_pos hp, Reply.settle_answer]
  · rw [exec_portControl_action hadm rfl hn h1 (by decide) (by omega), State.portAction_enable _ hp, Reply.settle_answer]
  · rw [exec_portControl_action hadm rfl hn h2 (by decide) (fun _ => h17), State.portAction_swap h17 hp hc,
      if_neg (Option.isSome_iff_ne_none.1 hs), Reply.settle_answer]
  · rw [exec_portControl_action hadm rfl hn h2 (by decide) (fun _ => h17), State.portAction_swap h17 hp hc, if_pos hs]
    rfl
  · rw [exec_portControl_action hadm rfl hn h3 (by decide) (by omega), State.portAction_laser _ hp, Reply.settle_answer]
    rfl
  · rw [exec_portControl_action hadm rfl hn rfl (by omega) h17, State.portAction_notUp _ h23 hp]
    rfl
  · rw [exec_dreskaKeySet_unique hadm hi hu, if_pos hk]
  · rw [exec_dreskaKeySet_unique hadm hi hu, hk, if_neg Bool.false_ne_true]

end Sys2Proof.Fabric
end

section
/-! ## The array's, the quantizer's and the training commands -/

namespace Sys2Proof.Machine

section

variable {s : State} {m : BitVec 6}

/-! ### FACET_MAP_QUERY, ACC_FIRST_NONFIN, PRISM_SIGNS and TENSOR_CONVERT (R146, R147, R174, R206) -/

theorem exec_facetMapQuery_answers (h : s.admits 0x0628 m = true) {c : Nat} (hc : u16At (s.params m) 0 = c) (hr : c < 544) :
    exec (.facetMapQuery m) s = .next (s.answer m (toLe 2 ((s.logicalOf c).getD 0xFFFF)
      ++ toLe 2 (if (s.logicalOf c).isSome then (if s.boot.fuses.coreMap.getLsbD c then 0 else 2)
          else if s.outOfUse c then 3 else 1)
      ++ toLe 4 (s.facDepth c).toNat ++ (List.range 4).flatMap (fun f => slice (s.loadedRows c) (2 * f) 2 ++ [0, 0]))) := by
  change execFacetMapQuery m s = _
  simp only [execFacetMapQuery, State.welfy_admitted h, hc, if_neg (Nat.not_le.2 hr), Reply.settle_answer]
  cases s.logicalOf c <;> cases s.boot.fuses.coreMap.getLsbD c <;> rfl

/-- The first tile forgotten, with its bit of ACC_STATUS (R206). -/
def State.withoutFirstTile (s : State) : State :=
  (s.clearRegs [Reg.ACC_FIRST_TILE]).putReg Reg.ACC_STATUS (s.reg Reg.ACC_STATUS &&& 0xFFFFFFFE)

theorem exec_accFirstNonfin (h : s.admits 0x0631 m = true) {c : Bool} (hc : bit (u8At (s.params m) 0) 0 = c) :
    exec (.accFirstNonfin m) s = .next ((if c then s.withoutFirstTile else s).answer m
      (toLe 4 (s.reg Reg.ACC_FIRST_TILE).toNat ++ toLe 4 (s.reg Reg.ACC_FIRST_LOC).toNat
        ++ toLe 8 (s.pair Reg.ACC_FIRST_TICK_LO Reg.ACC_FIRST_TICK_HI) ++ toLe 4 (s.reg Reg.ACC_STATUS).toNat)) := by
  subst hc
  exact congrArg Host.Outcome.next (State.welfy_admitted h _)

theorem State.withoutFirstTile_reg (s : State) (r : Nat) : s.withoutFirstTile.reg r =
    if r = Reg.ACC_STATUS then s.reg Reg.ACC_STATUS &&& 0xFFFFFFFE else if r = Reg.ACC_FIRST_TILE then 0 else s.reg r := by
  simp only [State.withoutFirstTile, State.putReg_reg, State.clearRegs_reg, List.mem_singleton]

theorem exec_prismSigns (h : s.admits 0x0622 m = true) : exec (.prismSigns m) s = .next (
    if u64At (s.params m) 8 % 128 ≠ 0 then s.refusalAt m 8
    else s.answer m (philoxFixed s.seed (u32At (s.params m) 0) (u64At (s.params m) 8 / 128))) := by
  change execPrismSigns m s = _
  simp only [execPrismSigns, State.welfy_admitted h]
  split <;> rfl

section

variable (h : s.admits 0x0620 m = true) {u : UnitId} {a : Nat} (hu : convertUnit (u16At (s.params m) 8) = some u)
include h hu

/-- R146: a unit that the frame uses converts nothing. -/
theorem exec_tensorConvert_inFrame (hs : s.slotInFrame u = true) :
    exec (.tensorConvert m) s = .next (s.finish m.toNat .runLock 0 (convertReply 0 0xFFFFFFFF)) := by
  change execTensorConvert m s = _
  simp only [execTensorConvert, State.welfy_admitted h, hu, if_pos hs]
  rfl

theorem exec_tensorConvert_runs (ha : u64At (s.params m) 0 = a) (hs : s.slotInFrame u = false) (h64 : a % 64 = 0)
    (hd : s.paramOk a 64 false = true) (hj : s.jobCheck (s.qjob a) false = none)
    (hb : s.firstBad (s.jobAccess (s.qjob a)) = none) (hf : s.accessFault (s.jobAccess (s.qjob a)) = false) :
    exec (.tensorConvert m) s = .next ((s.runJob none (s.qjob a)).1.answer m
      (convertReply (s.runJob none (s.qjob a)).2 0xFFFFFFFF)) := by
  change execTensorConvert m s = _
  simp only [execTensorConvert, State.welfy_admitted h, hu, ha, hs, if_neg (not_not.2 h64), hd, hj, hb, hf, Bool.not_true,
    Bool.false_eq_true, if_false, Option.isSome_none, Reply.settle_answer]

end

/-! ### TRAIN_STEP_CONFIG, STEP_SET, UPD_PROGRAM_LOAD and COMMIT_QUERY (R208, R226, R240, R241) -/

theorem exec_trainStepConfig_read (h : s.admits 0x0640 m = true) (ha : s.paramOk (u64At (s.params m) 0) 192 false = true)
    {b : List Byte} (hb : s.load (u64At (s.params m) 0) 192 = b) :
    exec (.trainStepConfig m) s = .next (match s.stepFail b (u32At (s.params m) 8) with
      | some w => s.finish m.toNat .planInvalid 0 (toLe 4 (u32At b 8) ++ toLe 4 w)
      | none => (s.attachStep b).answer m (toLe 4 (u32At b 8) ++ toLe 4 0xFFFFFFFF)) := by
  change execTrainStepConfig m s = _
  simp only [execTrainStepConfig, State.welfy_admitted h, ha, hb, Bool.not_true, Bool.false_eq_true, if_false]
  cases s.stepFail b (u32At (s.params m) 8) <;> rfl

theorem exec_stepSet (h : s.admits 0x0641 m = true) : exec (.stepSet m) s = .next (
    if s.upd.commit ≠ .idle then s.refusal m .runLock
    else State.answer { s with upd := { s.upd with stepNext := some (BitVec.ofNat 64 (u64At (s.params m) 0)) } } m []) := by
  change execStepSet m s = _
  simp only [execStepSet, State.welfy_admitted h]
  split <;> rfl

section

variable (h : s.admits 0x0642 m = true) (hf : s.unitInFrame 4 = false) {src slot : Nat}
  (hslot : u8At (s.params m) 8 = slot)
include h hf hslot

/-- Slots 0 to 3 hold the supplied programs (Table 7.9). -/
theorem exec_updProgramLoad_supplied (hs : slot < 4) : exec (.updProgramLoad m) s = .next
    (s.finish m.toNat .progInvalid 0 (toLe 2 0 ++ toLe 2 0xFFFF)) := by
  change execUpdProgramLoad m s = _
  simp only [execUpdProgramLoad, State.welfy_admitted h, hf, Bool.false_eq_true, if_false, hslot,
    if_neg (show ¬ 15 < slot by omega), if_pos hs]
  rfl

theorem exec_updProgramLoad_held (hsrc : u64At (s.params m) 0 = src) (h4 : 4 ≤ slot) (h15 : slot ≤ 15)
    {hd im : List Byte} {n : Nat} (hh : s.load src 16 = hd) (hn : n = 16 + 4 * (imagePrologue hd + imageBody hd))
    (hi : s.load src n = im) (ha : s.paramOk src 16 false = true) (hok : progHeaderOk hd = true)
    (hb : s.paramOk src n false = true) (hp : progFail im = none) : exec (.updProgramLoad m) s = .next (State.answer
      { s with upd := { s.upd with progNext := s.upd.progNext ++ [(slot, im)] } } m
        (toLe 2 (imagePrologue im + imageBody im) ++ toLe 2 0xFFFF)) := by
  change execUpdProgramLoad m s = _
  simp only [execUpdProgramLoad, State.welfy_admitted h, hf, hslot, hsrc, if_neg (show ¬ 15 < slot by omega),
    if_neg (show ¬ slot < 4 by omega), hh, ← hn, hi, ha, hok, hb, hp, Bool.not_true, Bool.and_false, Bool.false_eq_true,
    if_false, if_true, Reply.settle_answer]

end

theorem exec_commitQuery_answers (h : s.admits 0x0644 m = true) : exec (.commitQuery m) s = .next (s.answer m
    (toLe 8 s.upd.t.toNat ++ s.regBytes [Reg.UPD_COMMIT_STATE, Reg.UPD_LIST_MAX, Reg.UPD_STATUS])) :=
  congrArg Host.Outcome.next (State.welfy_admitted h _)

end

end Sys2Proof.Machine

namespace Sys2Proof.ArrayAndQuantizer

open Sys2Proof Sys2Proof.Machine

/-- Settles O35, command by command. -/
theorem arrayAndQuantizerCommands : Obligations.ArrayAndQuantizerCommands := by
  intro s m
  refine ⟨fun hadm c hc hr => exec_facetMapQuery_answers hadm hc hr, fun hadm => ⟨fun hc => ?_, fun hc => ?_⟩,
    fun hadm => ⟨fun hi => ?_, fun hi => ?_⟩, fun hadm u a hu ha => ⟨exec_tensorConvert_inFrame hadm hu,
      fun hs h64 hd hj hb hf => exec_tensorConvert_runs hadm hu ha hs h64 hd hj hb hf⟩⟩
  · rw [exec_accFirstNonfin hadm hc, if_neg Bool.false_ne_true]
  · refine ⟨s.withoutFirstTile, by rw [exec_accFirstNonfin hadm hc, if_pos rfl], ?_, ?_, fun r hr hs => ?_⟩
    · rw [State.withoutFirstTile_reg, if_neg (by decide), if_pos rfl]
    · rw [State.regBit, State.withoutFirstTile_reg, if_pos rfl]
      simp
    · rw [State.withoutFirstTile_reg, if_neg hs, if_neg hr]
  · rw [exec_prismSigns hadm, if_neg (not_not.2 hi)]
  · rw [exec_prismSigns hadm, if_pos hi]

end Sys2Proof.ArrayAndQuantizer

namespace Sys2Proof.TrainingUpdate

open Sys2Proof Sys2Proof.Machine

/-- Settles O36, command by command. -/
theorem trainingCommands : Obligations.TrainingCommands := by
  intro s m
  refine ⟨fun hadm ha b hb => ⟨fun hp => ?_, fun w hp => ?_⟩, fun hadm => ⟨fun hc => ?_, fun hc => ?_⟩,
    fun hadm hf => ⟨exec_updProgramLoad_supplied hadm hf rfl, fun hd im n hh hn hi h4 h15 ha hok hb hp =>
      exec_updProgramLoad_held hadm hf rfl rfl h4 h15 hh hn hi ha hok hb hp⟩, exec_commitQuery_answers⟩
  · rw [exec_trainStepConfig_read hadm ha hb, hp]
  · rw [exec_trainStepConfig_read hadm ha hb, hp]
  · rw [exec_stepSet hadm, if_neg (not_not.2 hc)]
  · rw [exec_stepSet hadm, if_pos hc]

end Sys2Proof.TrainingUpdate
end

section
/-! ## The Loupe commands (R266 to R269) -/

namespace Sys2Proof.Machine

section

variable {s : State} {m : BitVec 6}

section

variable (h : s.admits 0x0650 m = true)
include h

/-- R267: no block is loaded inside a step outside HOLD and STOPPED. -/
theorem exec_loupeLoad_locked (hc : s.upd.commit ≠ .idle) (hh : s.lup.phase ≠ .hold) (hs : s.lup.phase ≠ .stopped) :
    exec (.loupeLoad m) s = .next (s.refusal m .runLock) := by
  change execLoupeLoad m s = _
  simp only [execLoupeLoad, State.welfy_admitted h, if_pos (show _ ∧ _ ∧ _ from ⟨hc, hh, hs⟩)]
  rfl

variable (hc : s.upd.commit = .idle) {src dst n : Nat} {hd img : List Byte} (hsrc : u64At (s.params m) 0 = src)
  (ha : s.paramOk src 64 false = true) (hh : s.load src 64 = hd) (hn : u16At hd 6 = n)
include hc hsrc ha hh hn

theorem exec_loupeLoad_badHeader (hok : headerOk hd = false) : exec (.loupeLoad m) s = .next
    ((s.stick Reg.LUP_STATUS 4).finish m.toNat .ssbInvalid 0 (toLe 2 n ++ toLe 2 0xFFFF)) := by
  have hopen : ¬ (s.upd.commit ≠ .idle ∧ s.lup.phase ≠ .hold ∧ s.lup.phase ≠ .stopped) := fun h => h.1 hc
  change execLoupeLoad m s = _
  simp only [execLoupeLoad, State.welfy_admitted h, if_neg hopen, hsrc, ha, hh, hn, hok, Bool.not_true, Bool.not_false,
    Bool.false_eq_true, if_false, if_true]
  rfl

theorem exec_loupeLoad_held (hdst : u64At (s.params m) 8 = dst) (hi : s.load src (ssbSize n) = img)
    (hok : headerOk hd = true) (hb : s.paramOk src (ssbSize n) false = true) (hm : s.isHbm dst = true)
    (hw : s.paramOk dst (ssbSize n) true = true) (him : imageOk img = true) (he : s.firstBadEntry img = none) :
    exec (.loupeLoad m) s = .next (State.answer { s with lup := { s.lup with load := some (dst, img) } } m
      (toLe 2 n ++ [0xFF, 0xFF])) := by
  have hopen : ¬ (s.upd.commit ≠ .idle ∧ s.lup.phase ≠ .hold ∧ s.lup.phase ≠ .stopped) := fun h => h.1 hc
  change execLoupeLoad m s = _
  simp only [execLoupeLoad, State.welfy_admitted h, if_neg hopen, hsrc, hdst, ha, hh, hn, hok, hb, hm, hw, hi, him, he,
    Bool.not_true, Bool.false_eq_true, if_false, Reply.settle_answer]
  rfl

end

/-- LOUPE_SAVE stores the block as of the last tick; before the first one there is none (R269). -/
theorem exec_loupeSave_none (h : s.admits 0x0651 m = true) (hb : s.lup.snap = []) :
    exec (.loupeSave m) s = .next (s.refusal m .runLock) := by
  change execLoupeSave m s = _
  simp only [execLoupeSave, State.welfy_admitted h, hb, List.isEmpty_nil, if_true]
  rfl

theorem exec_loupeSave_stores (h : s.admits 0x0651 m = true) (hb : s.lup.snap ≠ [])
    (ha : s.paramOk (u64At (s.params m) 0) s.lup.snap.length true = true) :
    exec (.loupeSave m) s = .next ((s.store (u64At (s.params m) 0) s.lup.snap).answer m
      (toLe 4 s.lup.snap.length ++ sha256 s.lup.snap)) := by
  have hsome : ¬ s.lup.snap.isEmpty = true := by simpa [List.isEmpty_iff] using hb
  change execLoupeSave m s = _
  simp only [execLoupeSave, State.welfy_admitted h, if_neg hsome, ha, Bool.not_true, Bool.false_eq_true, if_false,
    Reply.settle_answer]

theorem exec_loupeEntryQuery (h : s.admits 0x0652 m = true) {i : Nat} (hi : u16At (s.params m) 0 = i) :
    exec (.loupeEntryQuery m) s = .next (if s.lup.snap.length < 0xC40 + 64 * (i + 1) then s.refusalAt m 0
      else s.answer m (slice s.lup.snap (0xC40 + 64 * i + 32 * (u8At (s.params m) 2 % 2)) 32)) := by
  change execLoupeEntryQuery m s = _
  simp only [execLoupeEntryQuery, State.welfy_admitted h, hi, entryOff]
  split <;> rfl

theorem exec_loupeStats_answers (h : s.admits 0x0653 m = true) {i : Nat} (hi : u16At (s.params m) 0 = i)
    (hr : i < s.ssbEntries) : exec (.loupeStats m) s = .next
      (s.answer m (slice (s.lupStat i).stats.record 0 40 ++ toLe 4 (s.lupStat i).tile)) := by
  change execLoupeStats m s = _
  simp only [execLoupeStats, State.welfy_admitted h, hi, if_neg (Nat.not_le.2 hr), Reply.settle_answer]

theorem exec_loupeHistory_answers (h : s.admits 0x0654 m = true) (hr : u8At (s.params m) 0 ≤ 15) :
    exec (.loupeHistory m) s = .next (s.answer m
      (if s.ssbLoaded then s.ssb (0xA40 + 32 * u8At (s.params m) 0) 32 else List.replicate 32 0)) := by
  change execLoupeHistory m s = _
  simp only [execLoupeHistory, State.welfy_admitted h, if_neg (Nat.not_lt.2 hr), Reply.settle_answer]

end

end Sys2Proof.Machine

namespace Sys2Proof.Loupe

open Sys2Proof Sys2Proof.Machine

/-- Settles O37, command by command. -/
theorem loupeCommands : Obligations.LoupeCommands := by
  intro s m
  refine ⟨fun hadm => ⟨exec_loupeLoad_locked hadm, fun hc ha hd n img hh hn hi =>
      ⟨exec_loupeLoad_badHeader hadm hc rfl ha hh hn, fun hok hb hm hw him he =>
        exec_loupeLoad_held hadm hc rfl ha hh hn rfl hi hok hb hm hw him he⟩⟩,
    fun hadm => ⟨exec_loupeSave_none hadm, exec_loupeSave_stores hadm⟩,
    fun hadm i hi => ⟨fun hl => ?_, fun hl => ?_⟩, fun hadm i hi hr => exec_loupeStats_answers hadm hi hr,
    exec_loupeHistory_answers⟩
  · rw [exec_loupeEntryQuery hadm hi, if_neg (Nat.not_lt.2 hl)]
  · rw [exec_loupeEntryQuery hadm hi, if_pos hl]

end Sys2Proof.Loupe
end

section
/-! ## The stash, seed, generator and dispatch queue commands (R272, R279, R287, R294, R295, R327) -/

namespace Sys2Proof.Machine

section

variable {s : State} {m : BitVec 6}

section

variable (h : s.admits 0x0660 m = true)
include h

theorem exec_stashConfig_locked (hr : s.stepRuns = true) :
    exec (.stashConfig m) s = .next ((s.stick Reg.STS_STATUS 5).refusal m .runLock) := by
  change execStashConfig m s = _
  simp only [execStashConfig, State.welfy_admitted h, if_pos hr]
  rfl

theorem exec_stashConfig_held (hr : s.stepRuns = false) {src : Nat} {d : List Byte} (hsrc : u64At (s.params m) 0 = src)
    (ha : s.paramOk src 128 false = true) (hd : s.load src 128 = d) (hf : s.stashFail src d = none) :
    exec (.stashConfig m) s = .next (State.answer { s with sts := { s.sts with next := some (d, s.groupTable d) } } m
      (toLe 2 (u16At d 6) ++ toLe 2 0xFFFF)) := by
  change execStashConfig m s = _
  simp only [execStashConfig, State.welfy_admitted h, hr, hsrc, ha, hd, hf, Bool.not_true, Bool.false_eq_true, if_false,
    Reply.settle_answer]

end

/-- A window that nothing uses yet opens or closes (R279). -/
theorem exec_farstashWindow_taken (h : s.admits 0x0661 m = true) {i base size : Nat} (hi : u8At (s.params m) 0 = i)
    (hb : u64At (s.params m) 8 = base) (hz : u64At (s.params m) 16 = size) (hr : i ≤ 15)
    (hu : (tget ⟨0, 0, 0, false⟩ s.sts.windows i).used = false)
    (ha : size = 0 ∨ s.isHbm base = true ∧ s.paramOk base size true = true) :
    exec (.farstashWindow m) s = .next (State.answer { s with sts := { s.sts with
      windows := tset s.sts.windows i
        { base := if size = 0 then 0 else base % 2 ^ 48, size := size, owner := u16At (s.params m) 24, used := false } } }
          m []) := by
  have haddr : ¬ (size != 0 && !(s.isHbm base && s.paramOk base size true)) = true := by
    rcases ha with h0 | ⟨h1, h2⟩
    · simp [h0]
    · simp [h1, h2]
  change execFarstashWindow m s = _
  simp only [execFarstashWindow, State.welfy_admitted h, hi, hb, hz, if_neg (Nat.not_lt.2 hr), if_neg haddr, hu,
    Bool.false_and, Bool.false_eq_true, if_false, Reply.settle_answer]

theorem exec_stashGroupQuery_answers (h : s.admits 0x0662 m = true) {g : StashGroup}
    (hg : s.sts.snap[u16At (s.params m) 0]? = some g) : exec (.stashGroupQuery m) s = .next (s.answer m
      (toLe 2 g.phase.code ++ toLe 2 g.layer ++ toLe 4 0 ++ toLe 8 g.addr ++ toLe 4 (g.size / 1024))) := by
  change execStashGroupQuery m s = _
  simp only [execStashGroupQuery, State.welfy_admitted h, hg, Reply.settle_answer]

theorem exec_seedSet (h : s.admits 0x0668 m = true) : exec (.seedSet m) s = .next (
    if s.stepRuns then s.refusal m .runLock
    else State.answer { s with sts := { s.sts with seedNext := some (u64At (s.params m) 0) } } m []) := by
  change execSeedSet m s = _
  simp only [execSeedSet, State.welfy_admitted h]
  split <;> rfl

theorem exec_rngEval_answers (h : s.admits 0x0669 m = true) : exec (.rngEval m) s = .next (s.answer m
    (philox (u64At (s.params m) 0) (u32At (s.params m) 8) (u64At (s.params m) 16) (u32At (s.params m) 24))) :=
  congrArg Host.Outcome.next (State.welfy_admitted h _)

/-! ### The dispatch queue commands (R327) -/

theorem exec_dspQueueTable_busy (h : s.admits 0x0670 m = true) (hb : s.dspBusy = true) :
    exec (.dspQueueTable m) s = .next (s.refusal m .runLock) := by
  change execDspQueueTable m s = _
  simp only [execDspQueueTable, State.welfy_admitted h, if_pos hb]
  rfl

theorem exec_dspQueueTable_taken (h : s.admits 0x0670 m = true) {base : Nat} (hbase : u64At (s.params m) 0 = base)
    (hb : s.dspBusy = false) (h256 : base % 256 = 0) (hm : s.isHbm base = true)
    (ha : s.paramOk base (2 ^ 26) true = true) : exec (.dspQueueTable m) s = .next
      ((State.putPair { s with dsp := { s.dsp with cache := [] } } Reg.DSP_QTABLE_ADDR_LO Reg.DSP_QTABLE_ADDR_HI base).answer
        m []) := by
  change execDspQueueTable m s = _
  simp only [execDspQueueTable, State.welfy_admitted h, hbase, hb, if_neg (not_not.2 h256), hm, ha, Bool.and_self,
    Bool.not_true, Bool.false_eq_true, if_false, Reply.settle_answer]

section

variable (h : s.admits 0x0671 m = true) {qid src : Nat} (hq : u32At (s.params m) 0 = qid) (hr : qid < 2 ^ 20)
  (hsrc : u64At (s.params m) 8 = src) (ha : s.paramOk src 64 false = true)
include h hq hr hsrc ha

theorem exec_dspQueueConfig_busy (hb : s.queueRuns qid = true) :
    exec (.dspQueueConfig m) s = .next ((s.stick Reg.DSP_STATUS 2).refusal m .queueBusy) := by
  change execDspQueueConfig m s = _
  simp only [execDspQueueConfig, State.welfy_admitted h, hq, hsrc, if_neg (Nat.not_le.2 hr), ha, Bool.not_true,
    Bool.false_eq_true, if_false, if_pos hb]
  rfl

/-- The descriptor with the counts that the queue has goes to the cache and the table. -/
theorem exec_dspQueueConfig_taken (hb : s.queueRuns qid = false) {new old : List Byte} (hn : s.load src 64 = new)
    (ho : s.queueDesc qid = old) (hok : s.queueOk new = true) (hp : queuePinned new = false ∨ s.pinnedOthers qid < 8192) :
    exec (.dspQueueConfig m) s = .next
      (((s.cachePut [qid] qid (queueCounts new (u32At old 20) (u32At old 24) (u32At old 28))).store (s.queueAddr qid)
        (queueCounts new (u32At old 20) (u32At old 24) (u32At old 28))).answer m []) := by
  have hvalid : ¬ (!s.queueOk new || (queuePinned new && decide (8192 ≤ s.pinnedOthers qid))) = true := by
    rcases hp with hp | hp
    · simp [hok, hp]
    · simp [hok, Nat.not_le.2 hp]
  change execDspQueueConfig m s = _
  simp only [execDspQueueConfig, State.welfy_admitted h, hq, hsrc, if_neg (Nat.not_le.2 hr), ha, hb, hn, ho, if_neg hvalid,
    Bool.not_true, Bool.false_eq_true, if_false, Reply.settle_answer]

end

theorem exec_dspQueueQuery (h : s.admits 0x0672 m = true) {qid : Nat} (hq : u32At (s.params m) 0 = qid) :
    exec (.dspQueueQuery m) s = .next (if 2 ^ 20 ≤ qid then s.refusalAt m 0 else s.answer m (s.queueDesc qid)) := by
  change execDspQueueQuery m s = _
  simp only [execDspQueueQuery, State.welfy_admitted h, hq]
  split <;> rfl

end

end Sys2Proof.Machine

namespace Sys2Proof.StashAndQueues

open Sys2Proof Sys2Proof.Machine

/-- Settles O38, command by command. -/
theorem stashSeedAndQueueCommands : Obligations.StashSeedAndQueueCommands := by
  refine ⟨fun s m => ?_, fun s m => ?_⟩
  · refine ⟨fun hadm => ⟨exec_stashConfig_locked hadm, fun hr ha d hd hf => exec_stashConfig_held hadm hr rfl ha hd hf⟩,
      fun hadm hr hu => ⟨fun h0 => ?_, fun h0 hm ha => ?_⟩, fun hadm g hg => exec_stashGroupQuery_answers hadm hg,
      fun hadm => ⟨fun hr => ?_, fun hr => ?_⟩, exec_rngEval_answers⟩
    · rw [exec_farstashWindow_taken hadm rfl rfl h0 hr hu (.inl rfl), if_pos rfl]
    · rw [exec_farstashWindow_taken hadm rfl rfl rfl hr hu (.inr ⟨hm, ha⟩), if_neg h0]
    · rw [exec_seedSet hadm, if_pos hr]
    · rw [exec_seedSet hadm, hr, if_neg Bool.false_ne_true]
  · refine ⟨fun hadm => ⟨exec_dspQueueTable_busy hadm, fun hb h256 hm ha => exec_dspQueueTable_taken hadm rfl hb h256 hm ha⟩,
      fun hadm hr ha => ⟨exec_dspQueueConfig_busy hadm rfl hr rfl ha, fun hb new old hn ho hok hp =>
        exec_dspQueueConfig_taken hadm rfl hr rfl ha hb hn ho hok hp⟩,
      fun hadm => ⟨fun hr => ?_, fun hr => ?_⟩⟩
    · rw [exec_dspQueueQuery hadm rfl, if_neg (Nat.not_le.2 hr)]
    · rw [exec_dspQueueQuery hadm rfl, if_pos hr]

end Sys2Proof.StashAndQueues
end

section
/-! ## What raising a record leaves of the host side and of the Mirror -/

namespace Sys2Proof.Machine

/-- Between two states the host side differs at most in what is pending of interrupts (R423, R424). -/
def SameLinks (s t : State) : Prop :=
  t.host = { s.host with pba := t.host.pba, spaced := t.host.spaced, covered := t.host.covered }

theorem SameLinks.of_eq {s t : State} (h : t.host = s.host) : SameLinks s t := by
  unfold SameLinks
  rw [h]

theorem SameLinks.trans {s t u : State} (h : SameLinks s t) (k : SameLinks t u) : SameLinks s u := by
  unfold SameLinks at *
  rw [k, h]

theorem State.sendVec_sameLinks (s : State) (v : Nat) : SameLinks s (s.sendVec v) := by
  unfold State.sendVec
  (repeat' split) <;> rfl

theorem State.rasArrive_sameLinks (s : State) (sev : Nat) : SameLinks s (s.rasArrive sev) := by
  unfold State.rasArrive
  dsimp only
  generalize ht : (if sev ≤ 3 then _ else _) = t
  have hhost : t.host = s.host := by
    rw [← ht]
    split <;> rfl
  split
  · exact (SameLinks.of_eq hhost).trans (t.sendVec_sameLinks _)
  · exact .of_eq hhost

theorem State.rasEnqueue_host (s : State) (r : RasRecord) : (s.rasEnqueue r).host = s.host := by
  unfold State.rasEnqueue
  dsimp only
  split <;> rfl

theorem State.rasEnqueue_mirror (s : State) (r : RasRecord) : (s.rasEnqueue r).ras.mirror = s.ras.mirror := by
  unfold State.rasEnqueue
  dsimp only
  split <;> rfl

theorem State.rasPlace_host (s : State) (r : RasRecord) : (s.rasPlace r).host = s.host := by
  unfold State.rasPlace
  split
  · rfl
  · split
    · exact State.rasEnqueue_host _ _
    · exact s.rasEnqueue_host r

theorem State.rasPlace_mirror (s : State) (r : RasRecord) : (s.rasPlace r).ras.mirror = s.ras.mirror := by
  unfold State.rasPlace
  split
  · rfl
  · split
    · exact State.rasEnqueue_mirror _ _
    · exact s.rasEnqueue_mirror r

theorem State.rasAct_host (s : State) (sev : Nat) : (s.rasAct sev).host = s.host := by
  unfold State.rasAct
  (repeat' split) <;> rfl

theorem State.rasAct_mirror (s : State) (sev : Nat) : (s.rasAct sev).ras.mirror = s.ras.mirror := by
  unfold State.rasAct
  (repeat' split) <;> rfl

/-- A record that is not device-fatal is counted, placed and acted on, whatever is active. -/
theorem State.raise_placed {c : RasClass} (hc : c.severity ≠ 4) (s : State) (u : UnitId) (d : Nat) : s.raise c u d =
    ((s.numbered.rasArrive c.severity).rasPlace (s.newRecord c u d false)).rasAct c.severity := by
  unfold State.raise State.raiseFull
  dsimp only
  rw [beq_eq_false_iff_ne.2 hc]
  split
  · rw [Bool.and_false, if_neg Bool.false_ne_true]
    rfl
  · rfl

section

variable {c : RasClass} (hc : c.severity ≠ 4) (s : State) (u : UnitId) (d : Nat)
include hc

theorem State.raise_sameLinks : SameLinks s (s.raise c u d) := by
  rw [State.raise_placed hc]
  refine SameLinks.trans (s.numbered.rasArrive_sameLinks c.severity) (.of_eq ?_)
  rw [State.rasAct_host, State.rasPlace_host]

theorem State.raise_mirror : (s.raise c u d).ras.mirror = s.ras.mirror := by
  rw [State.raise_placed hc, State.rasAct_mirror, State.rasPlace_mirror, State.rasArrive_ras]
  rfl

end

/-- A step-fatal record makes the step uncommittable at once (R502). -/
theorem State.raise_stepFatal {c : RasClass} (hc : c.severity = 3) (s : State) (u : UnitId) (d : Nat) :
    (s.raise c u d).frm.uncommittable = true := by
  rw [State.raise_placed (by omega), State.rasAct, if_pos hc]

/-! ### What sending leaves of the Mirror -/

theorem State.stationLost_mirror (s : State) (dst : Nat) : (s.stationLost dst).ras.mirror = s.ras.mirror := by
  unfold State.stationLost
  dsimp only
  rw [State.raise_mirror (by decide), State.stick_ras]
  (repeat' split) <;> rfl

/-- Sealing a packet counts in the key table and touches nothing else. -/
theorem State.sealPacket_state {s t : State} {p q : Packet} {plane : Nat} (h : s.sealPacket p plane = some (q, t)) :
    t = { s with lnk := t.lnk } := by
  unfold State.sealPacket at h
  dsimp only at h
  split at h
  · obtain ⟨-, rfl⟩ := Prod.mk.inj (Option.some.inj h)
    rfl
  · split at h
    · obtain ⟨-, rfl⟩ := Prod.mk.inj (Option.some.inj h)
      rfl
    · split at h
      · cases h
      · obtain ⟨-, rfl⟩ := Prod.mk.inj (Option.some.inj h)
        rfl

theorem State.linkSend_state (s : State) (n : Nat) (p : Packet) :
    s.linkSend n p = { s with lnk := (s.linkSend n p).lnk, out := (s.linkSend n p).out } := by
  unfold State.linkSend
  dsimp only
  split
  · rfl
  · unfold State.transmit
    dsimp only
    split
    · rfl
    · next h =>
      rw [State.sealPacket_state h]
      rfl

theorem State.keepSent_ras (s : State) (p : Packet) : (s.keepSent p).ras = s.ras := by
  unfold State.keepSent
  dsimp only
  split <;> rfl

theorem State.sendPacket_mirror (s : State) (p : Packet) : (s.sendPacket p).ras.mirror = s.ras.mirror := by
  unfold State.sendPacket
  dsimp only
  split
  · split
    · rfl
    · exact State.stationLost_mirror _ _
  · rw [State.linkSend_state, State.keepSent_ras]
    rfl

theorem State.refill_mirror (n : Nat) (s : State) : (s.refill n).ras.mirror = s.ras.mirror := by
  induction n generalizing s with
  | zero => rfl
  | succ n ih =>
    unfold State.refill
    split
    · split
      · rw [ih, State.sendTrans, State.sendPacket_mirror]
      · rfl
    · rfl

theorem State.dropTrans_mirror (s : State) (owner : TransFor) : (s.dropTrans owner).ras.mirror = s.ras.mirror :=
  State.refill_mirror _ _

/-- UNPAIR leaves no pairing (R541). -/
theorem State.unpair_phase (s : State) : s.unpair.ras.mirror.phase = .unpaired := by
  unfold State.unpair
  dsimp only
  rw [State.dropTrans_mirror]
  rfl

end Sys2Proof.Machine
end

section
/-! ## The recovery commands (R511, R513, R514 to R517, R541 to R543) -/

namespace Sys2Proof.Machine

section

variable {s : State} {m : BitVec 6}

/-! ### RAS_RECORDS and POWER_FEED_SET -/

/-- The answer that shows records: their number, the overflow count and 64 of them at most. -/
def State.recordsShown (s : State) (rs : List RasRecord) : List Byte :=
  slice (toLe 1 (rs.take 64).length) 0 4 ++ toLe 4 (s.reg Reg.RAS_CNT_OVERFLOW).toNat ++ List.replicate 8 0
    ++ (rs.take 64).flatMap RasRecord.bytes

section

variable (h : s.admits 0x0701 m = true) {k : Nat} (hk : u8At (s.params m) 0 = k)
include h hk

theorem exec_rasRecords_queue (h0 : k = 0) (hc : bit (u8At (s.params m) 1) 0 = false) :
    exec (.rasRecords m) s = .next (s.answer m (s.recordsShown (s.ras.active.toList ++ s.ras.queue))) := by
  subst h0
  change execRasRecords m s = _
  simp only [execRasRecords, State.welfy_admitted h, hk, hc, Nat.not_lt_zero, if_false, if_true, Bool.false_eq_true,
    and_false, Reply.settle_answer, State.recordsShown]

/-- The last-loss area is cleared where the command asks for it. -/
theorem exec_rasRecords_lastLoss (h1 : k = 1) : exec (.rasRecords m) s = .next (State.answer
    (if bit (u8At (s.params m) 1) 0 then { s with ras := { s.ras with lastLoss := [] } } else s) m
      (s.recordsShown s.ras.lastLoss)) := by
  subst h1
  change execRasRecords m s = _
  simp only [execRasRecords, State.welfy_admitted h, hk, Nat.lt_irrefl, Nat.one_ne_zero, if_false, false_and]
  cases bit (u8At (s.params m) 1) 0 <;> rfl

theorem exec_rasRecords_kind (hr : 1 < k) : exec (.rasRecords m) s = .next (s.refusalAt m 0) := by
  change execRasRecords m s = _
  simp only [execRasRecords, State.welfy_admitted h, hk, if_pos hr, Reply.settle_refusalAt]

end

theorem exec_powerFeedSet (h : s.admits 0x0702 m = true) : exec (.powerFeedSet m) s = .next (
    if s.ras.mirror.phase = .pending ∨ s.ras.mirror.phase = .paired then s.refusal m .runLock
    else State.answer { s with ras := { s.ras with feedId := u8At (s.params m) 0, fromStraps := false } } m []) := by
  change execPowerFeedSet m s = _
  simp only [execPowerFeedSet, State.welfy_admitted h]
  split <;> rfl

/-! ### MIRROR_PAIR -/

/-- What a pairing answers (R515). -/
def State.pairAnswer (s : State) (m : BitVec 6) : State :=
  if s.ras.mirror.phase = .feedRefused then s.refusal m .feedShared
  else s.answer m (toLe 8 s.ras.mirror.imageBytes ++ toLe 1 s.ras.mirror.phase.code)

theorem Reply.settle_pairReply (s : State) (m : BitVec 6) : s.pairReply.settle m.toNat = s.pairAnswer m := by
  unfold State.pairReply State.pairAnswer
  split <;> rfl

section

variable (h : s.admits 0x0703 m = true) (hf : s.ras.mirror.phase ≠ .filling)
include h hf

theorem exec_mirrorPair_unpairs (hu : bit (u8At (s.params m) 2) 1 = true) : exec (.mirrorPair m) s = .next
    (s.unpair.answer m (toLe 8 s.unpair.ras.mirror.imageBytes ++ toLe 1 MirrorPhase.unpaired.code)) := by
  have hanswer : s.unpair.pairAnswer m =
      s.unpair.answer m (toLe 8 s.unpair.ras.mirror.imageBytes ++ toLe 1 MirrorPhase.unpaired.code) := by
    rw [State.pairAnswer, State.unpair_phase, if_neg (by decide)]
  change execMirrorPair m s = _
  simp only [execMirrorPair, State.welfy_admitted h, if_neg hf, if_pos hu, Reply.settle_pairReply, hanswer]

variable (hu : bit (u8At (s.params m) 2) 1 = false)
include hu

/-- R516: no pairing in local HBM while a stack is excluded. -/
theorem exec_mirrorPair_excluded (he : s.boot.persist.exclStacks ≠ 0)
    (hm : s.isHbm (u64At (s.params m) 8) = true ∨ s.isHbm (u64At (s.params m) 16) = true) :
    exec (.mirrorPair m) s = .next (s.refusal m .addrInvalid) := by
  change execMirrorPair m s = _
  simp only [execMirrorPair, State.welfy_admitted h, if_neg hf, hu, Bool.false_eq_true, if_false,
    if_pos (show _ ∧ _ from ⟨he, hm⟩)]
  rfl

theorem exec_mirrorPair_begins (he : s.boot.persist.exclStacks = 0) (hp : s.pairFail (s.params m) = none) :
    exec (.mirrorPair m) s = .next ((s.beginPair (s.params m)).pairAnswer m) := by
  change execMirrorPair m s = _
  simp only [execMirrorPair, State.welfy_admitted h, if_neg hf, hu, Bool.false_eq_true, if_false, he, ne_eq,
    not_true_eq_false, false_and, hp, Reply.settle_pairReply]

end

/-! ### CORE_MAP_IN -/

section

variable (h : s.admits 0x0705 m = true) {l q : Nat} (hl : u16At (s.params m) 0 = l) (hr : l ≤ 511)
  (hp : s.boot.pendingMapIn = []) (hn : s.recoveryActions < 4) (hq : u16At (s.params m) 2 = q)
include h hl hr hp hn hq

/-- With a free place, the nearest spare is taken where none is named (R513). -/
theorem exec_coreMapIn_nearest (h0 : q = 0xFFFF) : exec (.coreMapIn m) s = .next (
    match nearest ((s.physOf l).getD 0) s.mapInSpares with
    | some x => ((s.idleCore l).writeMapIn l x).answer m (toLe 2 x)
    | none => s.refusal m .noSpareCore) := by
  have hfree : ¬ ((!s.boot.pendingMapIn.isEmpty) = true ∨ 4 ≤ s.recoveryActions) := by simp [hp]; omega
  change execCoreMapIn m s = _
  simp only [execCoreMapIn, State.welfy_admitted h, hl, hq, if_neg (Nat.not_lt.2 hr), if_neg hfree, if_pos h0]
  cases nearest ((s.physOf l).getD 0) s.mapInSpares <;> rfl

theorem exec_coreMapIn_named (hs : s.namedSpare q = true) : exec (.coreMapIn m) s = .next
    (((s.idleCore l).writeMapIn l q).answer m (toLe 2 q)) := by
  have hfree : ¬ ((!s.boot.pendingMapIn.isEmpty) = true ∨ 4 ≤ s.recoveryActions) := by simp [hp]; omega
  have hone : ¬ q = 0xFFFF := by
    intro h0
    simp [State.namedSpare, h0] at hs
  change execCoreMapIn m s = _
  simp only [execCoreMapIn, State.welfy_admitted h, hl, hq, if_neg (Nat.not_lt.2 hr), if_neg hfree, if_neg hone, hs,
    Bool.not_true, Bool.false_eq_true, if_false, Reply.settle_answer]

end

/-! ### FLERRA_READ -/

/-- The number of the first entry shown and how many there are. -/
def logHead (t : Nat) (l : List (List Byte)) : List Byte :=
  toLe 8 (match l with
    | e :: _ => u64At e 0
    | [] => t) ++ toLe 4 l.length

/-- Bytes put at the front of a longer field. -/
theorem slice_zero_eq (bs : List Byte) {n : Nat} (h : bs.length ≤ n) :
    slice bs 0 n = bs ++ List.replicate (n - bs.length) 0 := by
  simp [slice, List.take_of_length_le h]

theorem logHead_length (t : Nat) (l : List (List Byte)) : (logHead t l).length = 12 := by simp [logHead]

section

variable (h : s.admits 0x0706 m = true) (hm : s.manifestOk s.ras.mirror.manifest = true) {t n dst : Nat}
  (ht : u64At (s.params m) 0 = t) (hn : u32At (s.params m) 8 = n) (hd : u64At (s.params m) 16 = dst)
include h hm ht hn hd

theorem exec_flerraRead_answers (h0 : dst = 0) {l : List (List Byte)} (hl : s.logFrom t (Nat.min n 30) = l) :
    exec (.flerraRead m) s = .next (s.answer m (logHead t l ++ List.replicate 36 0 ++ l.flatMap id)) := by
  have hhead : slice (logHead t l) 0 48 = logHead t l ++ List.replicate 36 0 := by
    rw [slice_zero_eq _ (by rw [logHead_length]; decide), logHead_length]
  rw [← hhead]
  change execFlerraRead m s = _
  simp only [execFlerraRead, State.welfy_admitted h, hm, if_true, ht, hn, hd, if_pos h0, hl, Reply.settle_answer]
  rfl

theorem exec_flerraRead_stores (h0 : dst ≠ 0) {l : List (List Byte)} (hl : s.logFrom t n = l)
    (ha : s.paramOk dst (128 * l.length) true = true) :
    exec (.flerraRead m) s = .next ((s.putOut .log dst (l.flatMap id)).answer m (logHead t l)) := by
  have hhead : (slice (logHead t l) 0 48).take 12 = logHead t l := by
    rw [slice_zero_eq _ (by rw [logHead_length]; decide), List.take_left' (logHead_length t l)]
  rw [← hhead]
  change execFlerraRead m s = _
  simp only [execFlerraRead, State.welfy_admitted h, hm, if_true, ht, hn, hd, if_neg h0, hl, ha, Bool.not_true,
    Bool.false_eq_true, if_false, Reply.settle_answer]
  rfl

end

end

end Sys2Proof.Machine

namespace Sys2Proof.FailurePaths

open Sys2Proof Sys2Proof.Machine

/-- Settles O39, command by command. -/
theorem recoveryCommands : Obligations.RecoveryCommands := by
  intro s m
  refine ⟨fun hadm => ⟨exec_rasRecords_queue hadm rfl, exec_rasRecords_lastLoss hadm rfl, exec_rasRecords_kind hadm rfl⟩,
    fun hadm => ⟨fun hp => ?_, fun hp hq => ?_⟩,
    fun hadm hf => ⟨exec_mirrorPair_unpairs hadm hf, exec_mirrorPair_excluded hadm hf, exec_mirrorPair_begins hadm hf⟩,
    fun hadm hl hp hn => ⟨fun q h0 hq => ?_, fun h0 hs => ?_, exec_coreMapIn_named hadm rfl hl hp hn rfl⟩,
    fun hadm hm => ⟨fun h0 => ?_, fun h0 ha => ?_⟩⟩
  · rw [exec_powerFeedSet hadm, if_pos hp]
  · rw [exec_powerFeedSet hadm, if_neg (not_or.2 ⟨hp, hq⟩)]
  · rw [exec_coreMapIn_nearest hadm rfl hl hp hn rfl h0, hq]
  · rw [exec_coreMapIn_nearest hadm rfl hl hp hn rfl h0, hs]
    rfl
  · rw [exec_flerraRead_answers hadm hm rfl rfl rfl h0 rfl]
    rfl
  · rw [exec_flerraRead_stores hadm hm rfl rfl rfl h0 rfl ha]
    rfl

end Sys2Proof.FailurePaths
end

section
/-! ## The boot commands (R458, R464, R465, R470, R477 to R480) -/

namespace Sys2Proof.Machine

section

variable {s : State} {m : BitVec 6}

/-- The verdict of the persistent block on a bank. -/
def State.bankValid (s : State) (b : Nat) : Bool := if b = 1 then s.boot.persist.bValid else s.boot.persist.aValid

section

variable (h : s.admits 0x0902 m = true) {b : Nat} (hb : u8At (s.params m) 0 = b) (hr : b ≤ 1)
include h hb hr

theorem exec_fwActivate_prefers (hv : s.bankValid b = true) : exec (.fwActivate m) s = .next
    (((s.journal 0x07 0 [2, BitVec.ofNat 8 b]).persist (fun x => { x with preferredB := b == 1 })).answer m []) := by
  rw [State.bankValid] at hv
  change execFwActivate m s = _
  simp only [execFwActivate, State.welfy_admitted h, hb, if_neg (Nat.not_lt.2 hr), hv, Bool.not_true, Bool.false_eq_true,
    if_false, Reply.settle_answer]

theorem exec_fwActivate_invalid (hv : s.bankValid b = false) : exec (.fwActivate m) s = .next (s.refusal m .imageInvalid) := by
  rw [State.bankValid] at hv
  change execFwActivate m s = _
  simp only [execFwActivate, State.welfy_admitted h, hb, if_neg (Nat.not_lt.2 hr), hv, Bool.not_false, if_true]
  rfl

end

/-! ### BOOT_JOURNAL_READ (R470) -/

/-- The first entry that a read of the journal shows, counted from the oldest (log entry 14). -/
def State.journalFirst (s : State) (first : Nat) : Nat :=
  if first = 0xFFFFFFFF then s.boot.journal.length - 60 else Nat.min first s.boot.journal.length

/-- How many entries it shows. -/
def State.journalCount (s : State) (first count : Nat) : Nat :=
  Nat.min (if first = 0xFFFFFFFF then 60 else count) (s.boot.journal.length - s.journalFirst first)

/-- Their bytes. -/
def State.journalBytes (s : State) (first count : Nat) : List Byte :=
  ((s.boot.journal.drop (s.journalFirst first)).take (s.journalCount first count)).flatMap JournalEntry.bytes

section

variable (h : s.admits 0x0903 m = true) {kind first count dst : Nat} (hk : u8At (s.params m) 0 = kind)
  (hf : u32At (s.params m) 4 = first) (hc : u32At (s.params m) 8 = count) (hd : u64At (s.params m) 16 = dst)
include h hk hf hc hd

theorem exec_bootJournalRead_answers (h0 : kind = 0) (hdst : dst = 0) (hn : s.journalCount first count ≤ 60) :
    exec (.bootJournalRead m) s = .next (s.answer m (toLe 4 (s.journalFirst first) ++ toLe 4 (s.journalCount first count)
      ++ List.replicate 40 0 ++ s.journalBytes first count)) := by
  have hhead : slice (toLe 4 (s.journalFirst first) ++ toLe 4 (s.journalCount first count)) 0 48 =
      toLe 4 (s.journalFirst first) ++ toLe 4 (s.journalCount first count) ++ List.replicate 40 0 := by
    rw [slice_zero_eq _ (by simp)]
    simp
  rw [← hhead]
  subst h0
  change execBootJournalRead m s = _
  simp only [execBootJournalRead, State.welfy_admitted h, hk, hf, hc, hd, Nat.not_lt_zero, if_false, Nat.zero_ne_one, if_pos hdst]
  exact congrArg (fun r : Reply => Host.Outcome.next (r.settle m.toNat)) (if_neg (Nat.not_lt.2 hn))

theorem exec_bootJournalRead_stores (h0 : kind = 0) (hdst : dst ≠ 0)
    (ha : s.paramOk dst (s.journalBytes first count).length true = true) :
    exec (.bootJournalRead m) s = .next ((s.store dst (s.journalBytes first count)).answer m
      (toLe 4 (s.journalFirst first) ++ toLe 4 (s.journalCount first count))) := by
  have haddr : ¬ (!s.paramOk dst (s.journalBytes first count).length true) = true := by simp [ha]
  subst h0
  change execBootJournalRead m s = _
  simp only [execBootJournalRead, State.welfy_admitted h, hk, hf, hc, hd, Nat.not_lt_zero, if_false, Nat.zero_ne_one,
    if_neg hdst]
  exact congrArg (fun r : Reply => Host.Outcome.next (r.settle m.toNat)) (if_neg haddr)

omit hf hc in
theorem exec_bootJournalRead_persistent (h1 : kind = 1) (hdst : dst ≠ 0) (ha : s.paramOk dst 4096 true = true) :
    exec (.bootJournalRead m) s = .next ((s.store dst s.boot.persist.bytes).answer m (toLe 4 0 ++ toLe 4 1)) := by
  subst h1
  change execBootJournalRead m s = _
  simp only [execBootJournalRead, State.welfy_admitted h, hk, hd, Nat.lt_irrefl, if_false, if_true, if_neg hdst, ha,
    Bool.not_true, Bool.false_eq_true, Reply.settle_answer]

end

/-! ### APERTURE_SELECT (R477 to R480) -/

section

variable (h : s.admits 0x0904 m = true) {n : Nat} (hn : u8At (s.params m) 0 = n) (hv : n = 36 ∨ n = 32 ∨ n = 26)
include h hn hv

/-- Above the fused aperture nothing is selected (R18). -/
theorem exec_apertureSelect_denied (moves : Bool) (hf : s.boot.fuses.aperture < n) :
    exec (.apertureSelect ⟨m, moves⟩) s = .next (s.refusal m .apertureDenied) := by
  change execApertureSelect ⟨m, moves⟩ s = _
  simp only [execApertureSelect, State.welfy_admitted h, hn, if_neg (show ¬ (n ≠ 36 ∧ n ≠ 32 ∧ n ≠ 26) by omega), if_pos hf]
  rfl

variable (hf : n ≤ s.boot.fuses.aperture)
include hf

theorem exec_apertureSelect_locked (moves : Bool) (hl : s.frm.epoch ≠ 0 ∨ s.longRunning = true) :
    exec (.apertureSelect ⟨m, moves⟩) s = .next (s.refusal m .runLock) := by
  change execApertureSelect ⟨m, moves⟩ s = _
  simp only [execApertureSelect, State.welfy_admitted h, hn, if_neg (show ¬ (n ≠ 36 ∧ n ≠ 32 ∧ n ≠ 26) by omega),
    if_neg (Nat.not_lt.2 hf), if_pos hl]
  rfl

/-- The ARITH domain on its way to another aperture: to the reference, or already there and locking. -/
def State.arithLeaves (s : State) : ClockDomain :=
  let c : ClockDomain := { s.domain 2 with passes := 0, stable := false }
  if c.phase = .onPll then { c with switching := some s.rc } else { c with phase := .locking, switching := none }

/-- The selection is under way, and its command runs on. -/
def State.selecting (s : State) (box n : Nat) : State :=
  { s with phys := { s.phys with domains := tset s.phys.domains 2 s.arithLeaves, apSelect := some (box, n) } }

variable (he : s.frm.epoch = 0) (hl : s.longRunning = false)
include he hl

theorem exec_apertureSelect_stopped : exec (.apertureSelect ⟨m, false⟩) s =
    .next ((s.stick Reg.CLK_STATUS 2).refusal m .clockStopped) := by
  have hopen : ¬ (s.frm.epoch ≠ 0 ∨ s.longRunning = true) := by simp [he, hl]
  change execApertureSelect ⟨m, false⟩ s = _
  simp only [execApertureSelect, State.welfy_admitted h, hn, if_neg (show ¬ (n ≠ 36 ∧ n ≠ 32 ∧ n ≠ 26) by omega),
    if_neg (Nat.not_lt.2 hf), if_neg hopen, Bool.not_false, if_true]
  rfl

theorem exec_apertureSelect_begins : exec (.apertureSelect ⟨m, true⟩) s = .next (s.selecting m.toNat n) := by
  have hopen : ¬ (s.frm.epoch ≠ 0 ∨ s.longRunning = true) := by simp [he, hl]
  change execApertureSelect ⟨m, true⟩ s = _
  simp only [execApertureSelect, State.welfy_admitted h, hn, if_neg (show ¬ (n ≠ 36 ∧ n ≠ 32 ∧ n ≠ 26) by omega),
    if_neg (Nat.not_lt.2 hf), if_neg hopen, Bool.not_true, Bool.false_eq_true, if_false]
  rfl

end

theorem State.selecting_domain (s : State) (box n : Nat) : (s.selecting box n).domain 2 = s.arithLeaves :=
  tget_tset_same _ _ _ _

theorem State.arithLeaves_unstable (s : State) : s.arithLeaves.stable = false := by
  unfold State.arithLeaves
  dsimp only
  split <;> rfl

theorem State.arithLeaves_onPll (hp : (s.domain 2).phase = .onPll) : s.arithLeaves.switching = some s.rc := by
  unfold State.arithLeaves
  dsimp only
  rw [if_pos hp]

theorem State.arithLeaves_locks (hp : (s.domain 2).phase ≠ .onPll) : s.arithLeaves.phase = .locking := by
  unfold State.arithLeaves
  dsimp only
  rw [if_neg hp]

/-! ### FUSE_QUERY, SCP_BANK_SWAP and SELFTEST_RESULTS -/

theorem exec_fuseQuery_map (h : s.admits 0x0905 m = true) (hq : u16At (s.params m) 0 = 0xFFFF) :
    exec (.fuseQuery m) s = .next (s.answer m
      (toLe 68 s.boot.fuses.coreMap.toNat ++ toLe 1 s.boot.fuses.aperture ++ toLe 1 (b2n s.boot.shadowAgrees))) := by
  change execFuseQuery m s = _
  simp only [execFuseQuery, State.welfy_admitted h, if_pos hq, Reply.settle_answer]

theorem exec_fuseQuery_core (h : s.admits 0x0905 m = true) {q : Nat} (hq : u16At (s.params m) 0 = q) (hr : q < 544) :
    exec (.fuseQuery m) s = .next (s.answer m (s.boot.fuses.coreRows q ++ toLe 1 (b2n (s.boot.fuses.coreMap.getLsbD q))
      ++ toLe 1 (b2n (s.boot.fuses.coreRows q == s.boot.shadow.coreRows q
        && s.boot.fuses.coreMap.getLsbD q == s.boot.shadow.coreMap.getLsbD q)))) := by
  change execFuseQuery m s = _
  simp only [execFuseQuery, State.welfy_admitted h, hq, if_neg (show ¬ q = 0xFFFF by omega), if_neg (Nat.not_le.2 hr),
    Reply.settle_answer]

/-- The state in which processor `i` is to take the image of bank `k` at the next tick (R465). -/
def State.swapOrdered (s : State) (i k : Nat) : State :=
  let s1 := (s.journal 0x07 0 [3, BitVec.ofNat 8 k, BitVec.ofNat 8 i]).persist id
  { s1 with boot := { s1.boot with scps := tset s1.boot.scps i { s.scp i with swapTo := some (k == 1) } } }

theorem exec_scpBankSwap_orders (h : s.admits 0x0906 m = true) {i k : Nat} (hi : u8At (s.params m) 0 = i)
    (hk : u8At (s.params m) 1 = k) (hri : i ≤ 3) (hrk : k ≤ 1) (hn : ∀ j, j < 4 → (s.scp j).swapTo = none)
    (hv : s.bankValid k = true) (h16 : u16At (s.bankImage (k == 1)) 16 = u16At (s.bankImage (s.scp i).bankB) 16)
    (h18 : u16At (s.bankImage (k == 1)) 18 = u16At (s.bankImage (s.scp i).bankB) 18) :
    exec (.scpBankSwap m) s = .next ((s.swapOrdered i k).answer m []) := by
  have hidle : ¬ ((List.range 4).any (fun j => (s.scp j).swapTo.isSome)) = true := by
    simpa using fun j hj => hn j hj
  have hsame : ¬ (u16At (s.bankImage (k == 1)) 16 ≠ u16At (s.bankImage (s.scp i).bankB) 16 ∨
      u16At (s.bankImage (k == 1)) 18 ≠ u16At (s.bankImage (s.scp i).bankB) 18) := by simp [h16, h18]
  have hbank : ¬ (!(if k = 1 then s.boot.persist.bValid else s.boot.persist.aValid)) = true := by
    rw [State.bankValid] at hv
    rw [hv]
    decide
  change execScpBankSwap m s = _
  simp only [execScpBankSwap, State.welfy_admitted h, hi, hk, if_neg (Nat.not_lt.2 hri), if_neg (Nat.not_lt.2 hrk),
    if_neg hidle, if_neg hbank, if_neg hsame, Reply.settle_answer]
  rfl

/-- The order changes the processor's entry, beside the journal and the persistent block. -/
theorem State.swapOrdered_eq (s : State) (i k : Nat) : ∃ p o, s.swapOrdered i k = { s with boot := { s.boot with
    journal := (s.journal 0x07 0 [3, BitVec.ofNat 8 k, BitVec.ofNat 8 i]).boot.journal, persist := p, otherCopy := o,
    scps := tset s.boot.scps i { s.scp i with swapTo := some (k == 1) } } } := by
  unfold State.swapOrdered
  obtain ⟨j, hj⟩ := s.journal_eq 0x07 0 [3, BitVec.ofNat 8 k, BitVec.ofNat 8 i]
  rw [hj]
  exact ⟨_, _, rfl⟩

theorem State.swapOrdered_scps (s : State) (i k : Nat) :
    (s.swapOrdered i k).boot.scps = tset s.boot.scps i { s.scp i with swapTo := some (k == 1) } := by
  obtain ⟨p, o, h⟩ := s.swapOrdered_eq i k
  rw [h]

theorem State.swapOrdered_scp_same (s : State) (i k : Nat) :
    (s.swapOrdered i k).scp i = { s.scp i with swapTo := some (k == 1) } := by
  rw [State.scp, State.swapOrdered_scps, tget_tset_same]

theorem State.swapOrdered_scp_other (s : State) {i j : Nat} (k : Nat) (h : j ≠ i) :
    (s.swapOrdered i k).scp j = s.scp j := by
  rw [State.scp, State.swapOrdered_scps, tget_tset_other _ _ _ h, State.scp]

theorem exec_selftestResults_answers (h : s.admits 0x0908 m = true) {d : List Byte} (hd : toLe 68 s.boot.selfTest.cores.toNat
    ++ toLe 1 s.boot.selfTest.stackSet.toNat ++ toLe 1 s.boot.selfTest.units.toNat = d) :
    exec (.selftestResults m) s = .next (s.answer m d) := by
  change execSelftestResults m s = _
  rw [execSelftestResults, State.welfy_admitted h, hd, Reply.settle_answer]

end

end Sys2Proof.Machine

namespace Sys2Proof.BringUp

open Sys2Proof Sys2Proof.Machine

/-- Settles O41, command by command. Counting the journal's entries from the oldest and the layout of the persistent block are
the model's choice (log entry 14). -/
theorem bootCommands : Obligations.BootCommands := by
  intro s m
  dsimp only
  refine ⟨fun hadm hr => ⟨exec_fwActivate_prefers hadm rfl hr, exec_fwActivate_invalid hadm rfl hr⟩, fun hadm => ?_,
    fun hadm hv => ⟨fun moves hf => exec_apertureSelect_denied hadm rfl hv moves hf,
      fun moves hf hl => exec_apertureSelect_locked hadm rfl hv hf moves hl,
      exec_apertureSelect_stopped hadm rfl hv, fun hf he hl => ?_⟩,
    fun hadm => ⟨exec_fuseQuery_map hadm, exec_fuseQuery_core hadm rfl⟩,
    fun hadm => ?_, fun hadm => exec_selftestResults_answers hadm rfl⟩
  · simp only [decide_eq_true_eq]
    exact ⟨exec_bootJournalRead_answers hadm rfl rfl rfl rfl, exec_bootJournalRead_stores hadm rfl rfl rfl rfl,
      exec_bootJournalRead_persistent hadm rfl rfl⟩
  · refine ⟨_, exec_apertureSelect_begins hadm rfl hv hf he hl, ?_⟩
    rw [State.selecting_domain]
    exact ⟨s.arithLeaves_unstable, State.arithLeaves_onPll, State.arithLeaves_locks, rfl, rfl, rfl⟩
  · intro hi hk hn hv h16 h18
    refine ⟨_, exec_scpBankSwap_orders hadm rfl rfl hi hk hn hv h16 h18, ?_, ?_, fun j hj => ?_, ?_⟩
    · rw [State.swapOrdered_scp_same]
    · rw [State.swapOrdered_scp_same]
    · rw [State.swapOrdered_scp_other _ _ hj]
    · obtain ⟨p, o, hswap⟩ := s.swapOrdered_eq (u8At (s.params m) 0) (u8At (s.params m) 1)
      rw [hswap]
      exact ⟨by dsimp only, rfl⟩

end Sys2Proof.BringUp
end

section
/-! ## What the host and its link do to the device (R404 to R407, R424, R426, R427, R559) -/

namespace Sys2Proof.Machine

theorem setBit64_same (v : BitVec 64) {i : Nat} (h : i < 64) (b : Bool) : (setBit64 v i b).getLsbD i = b := by
  have hbit : (BitVec.ofNat 64 (2 ^ i)).getLsbD i = true := by
    rw [BitVec.getLsbD_ofNat, decide_eq_true h, Nat.testBit_two_pow_self]
    rfl
  cases b with
  | false => rw [setBit64, if_neg Bool.false_ne_true, BitVec.getLsbD_and, BitVec.getLsbD_not, hbit, Bool.not_true,
      Bool.and_false, Bool.and_false]
  | true => rw [setBit64, if_pos rfl, BitVec.getLsbD_or, hbit, Bool.or_true]

section

variable {s : State}

/-! ### MSI-X (R424) -/

/-- A vector that is neither masked nor inside its spacing sends its message now. -/
theorem State.sendVec_sends {v : Nat} (hm : (s.msixEntry v).masked = false) (hs : s.host.spaced.getLsbD v = false) :
    s.sendVec v = { s with host := { s.host with spaced := setBit64 s.host.spaced v true },
                           out := { s.out with msix := s.out.msix ++ [v] } } := by
  unfold State.sendVec
  rw [hm, hs, if_neg Bool.false_ne_true, if_neg Bool.false_ne_true]

/-- The table entry that 16 bytes spell. -/
def entryOfBits (x : BitVec 128) : MsixEntry :=
  { addr := x.setWidth 64, data := (x >>> 64).setWidth 32, masked := x.getLsbD 96 }

/-- A table entry written. -/
def State.withEntry (s : State) (v : Nat) (e : MsixEntry) : State :=
  { s with host := { s.host with msix := tset s.host.msix v e } }

theorem State.withEntry_entry (s : State) (v : Nat) (e : MsixEntry) : (s.withEntry v e).msixEntry v = e :=
  tget_tset_same _ _ _ _

theorem exec_msixTableStore_stored {n : BitVec 6} {x : BitVec 128}
    (h : (entryOfBits x).masked = true ∨ s.host.pba.getLsbD n.toNat = false) :
    exec (.msixTableStore n x) s = .next (s.withEntry n.toNat (entryOfBits x)) := by
  have hquiet : ¬ (!(entryOfBits x).masked && s.host.pba.getLsbD n.toNat) = true := by
    rcases h with h | h <;> simp [h]
  exact congrArg Host.Outcome.next (if_neg hquiet)

/-- A pending message goes when its vector is unmasked. -/
theorem exec_msixTableStore_sends {n : BitVec 6} {x : BitVec 128} (hm : (entryOfBits x).masked = false)
    (hp : s.host.pba.getLsbD n.toNat = true) (hs : s.host.spaced.getLsbD n.toNat = false) :
    exec (.msixTableStore n x) s = .next
      { s with host := { s.host with msix := tset s.host.msix n.toNat (entryOfBits x),
                                     pba := setBit64 s.host.pba n.toNat false,
                                     spaced := setBit64 s.host.spaced n.toNat true },
               out := { s.out with msix := s.out.msix ++ [n.toNat] } } := by
  have hdue : (!(entryOfBits x).masked && s.host.pba.getLsbD n.toNat) = true := by simp [hm, hp]
  let u : State := { s.withEntry n.toNat (entryOfBits x) with
    host := { (s.withEntry n.toNat (entryOfBits x)).host with pba := setBit64 s.host.pba n.toNat false } }
  have hrun : exec (.msixTableStore n x) s = .next (u.sendVec n.toNat) := congrArg Host.Outcome.next (if_pos hdue)
  have hentry : (u.msixEntry n.toNat).masked = false := by
    rw [show u.msixEntry n.toNat = entryOfBits x from s.withEntry_entry _ _, hm]
  rw [hrun, State.sendVec_sends hentry hs]
  rfl

/-- The end of a vector's spacing, before the message for what came in it. -/
def State.spacingOver (s : State) (v : Nat) : State :=
  { s with host := { s.host with spaced := setBit64 s.host.spaced v false, covered := setBit64 s.host.covered v false } }

theorem exec_msixIntervalEnd_none {n : BitVec 6} (h : s.host.spaced.getLsbD n.toNat = false) :
    exec (.msixIntervalEnd n) s = .next s :=
  congrArg Host.Outcome.next (if_neg (ne_true_of_eq_false h))

theorem exec_msixIntervalEnd_over {n : BitVec 6} (h : s.host.spaced.getLsbD n.toNat = true) :
    exec (.msixIntervalEnd n) s = .next (if s.host.covered.getLsbD n.toNat then (s.spacingOver n.toNat).sendVec n.toNat
      else s.spacingOver n.toNat) :=
  congrArg Host.Outcome.next (if_pos h)

/-! ### PERST#, hot and function level reset (R407) -/

/-- The clock domains after a reset of the host side: the CXL domain locks anew after PERST# alone. -/
def State.resetDomains (s : State) (c : Instr) : Tab ClockDomain :=
  if c = .perst ∧ s.phys.refPresent = true then tset s.phys.domains 36 { ClockDomain.reset with phase := .locking }
  else s.phys.domains

theorem exec_hostReset {c : Instr} (h : c = .perst ∨ c = .hotReset ∨ c = .functionLevelReset) :
    exec c s =
    .next { s.hostReset with phys := { s.hostReset.phys with domains := s.resetDomains c } } := by
  rcases h with rfl | rfl | rfl
  · by_cases hr : s.phys.refPresent = true
    · rw [State.resetDomains, if_pos ⟨rfl, hr⟩]
      exact congrArg Host.Outcome.next (if_pos hr)
    · rw [State.resetDomains, if_neg (fun h => hr h.2)]
      exact congrArg Host.Outcome.next (if_neg hr)
  · rw [State.resetDomains, if_neg (fun h => Instr.noConfusion h.1)]
    rfl
  · rw [State.resetDomains, if_neg (fun h => Instr.noConfusion h.1)]
    rfl

theorem State.hostReset_reg (s : State) (r : Nat) : s.hostReset.reg r =
    if r = Reg.MBX_STATUS then wordSet (s.reg Reg.MBX_STATUS) 6
    else if r = Reg.MBX_CNT_FLR then satAdd (s.reg Reg.MBX_CNT_FLR) 1 else s.reg r := by
  unfold State.hostReset
  rw [State.stick_reg, State.bump_reg, State.bump_reg, if_neg (show ¬ Reg.MBX_STATUS = Reg.MBX_CNT_FLR by decide)]
  rfl

/-! ### The CXL link (R404, R405, R559) -/

theorem linkTrains_iff (w r : Nat) : linkTrains w r = true ↔ w ∈ [8, 4, 2] ∧ r ∈ [64, 32] := by
  simp [linkTrains]

/-- A clock domain that has locked and runs on its PLL. -/
def ClockDomain.locked (d : ClockDomain) : ClockDomain := { d with phase := .onPll, stable := true, switching := none }

theorem exec_linkActive_trains {w : BitVec 4} {r : BitVec 8}
    (h : s.phys.refPresent = true ∧ w.toNat ∈ [8, 4, 2] ∧ r.toNat ∈ [64, 32]) : exec (.linkActive w r) s = .next { s with
      host := { s.host with linkWidth := w.toNat, linkRate := r.toNat, linkActive := true },
      phys := { s.phys with domains := tset s.phys.domains 36 (s.domain 36).locked } } := by
  have htrains : (s.phys.refPresent && linkTrains w.toNat r.toNat) = true := by
    rw [h.1, (linkTrains_iff _ _).2 h.2, Bool.and_self]
  exact congrArg Host.Outcome.next (if_pos htrains)

theorem exec_linkActive_stays {w : BitVec 4} {r : BitVec 8}
    (h : ¬ (s.phys.refPresent = true ∧ w.toNat ∈ [8, 4, 2] ∧ r.toNat ∈ [64, 32])) :
    exec (.linkActive w r) s = .next s := by
  have htrains : ¬ (s.phys.refPresent && linkTrains w.toNat r.toNat) = true := by
    rw [Bool.and_eq_true, linkTrains_iff]
    exact h
  exact congrArg Host.Outcome.next (if_neg htrains)

/-- A link that leaves the active state: down, its IDE streams ended, recorded as CXL_DOWN. -/
structure LinkLeft (s t : State) : Prop where
  down : t.host.linkActive = false
  ideIo : t.host.ideIo = false
  ideCm : t.host.ideCm = false
  flag : t.regBit Reg.MBX_STATUS 7 = true
  security : t.reg Reg.SEC_STATUS = s.reg Reg.SEC_STATUS
  mem : t.mem = s.mem

theorem State.linkLeaves_left (s : State) : LinkLeft s s.linkLeaves := by
  unfold State.linkLeaves
  dsimp only
  generalize hu : State.stick _ Reg.MBX_STATUS 7 = u
  have hrec : Recorded u (u.raise .cxlDown ⟨10, 0⟩ 0) := State.raise_recorded (by decide) _ _ _
  have hlink : SameLinks u (u.raise .cxlDown ⟨10, 0⟩ 0) := State.raise_sameLinks (by decide) _ _ _
  refine ⟨?_, ?_, ?_, ?_, ?_, ?_⟩
  · rw [hlink, ← hu]
    rfl
  · rw [hlink, ← hu]
    rfl
  · rw [hlink, ← hu]
    rfl
  · rw [State.regBit, hrec.reg _ (by decide), ← hu]
    exact State.stick_regBit _ _ (by decide)
  · rw [hrec.reg _ (by decide), ← hu, State.stick_reg, if_neg (by decide)]
    rfl
  · rw [hrec.mem, ← hu]
    rfl

theorem exec_linkDown_active (h : s.host.linkActive = true) : exec .linkDown s = .next s.linkLeaves :=
  congrArg Host.Outcome.next (if_pos h)

theorem exec_linkDown_inactive (h : s.host.linkActive = false) : exec .linkDown s = .next s :=
  congrArg Host.Outcome.next (if_neg (ne_true_of_eq_false h))

theorem exec_ideFail_active (h : s.host.linkActive = true) (hi : (s.host.ideIo || s.host.ideCm) = true) :
    exec .ideFail s = .next (s.stick Reg.SEC_STATUS 6).linkLeaves := by
  have hrun : exec .ideFail s = .next (if (s.stick Reg.SEC_STATUS 6).host.linkActive then
      (s.stick Reg.SEC_STATUS 6).linkLeaves else s.stick Reg.SEC_STATUS 6) := congrArg Host.Outcome.next (if_pos hi)
  rw [hrun, if_pos]
  exact h

theorem exec_ideFail_none (hi : (s.host.ideIo || s.host.ideCm) = false) : exec .ideFail s = .next s :=
  congrArg Host.Outcome.next (if_neg (ne_true_of_eq_false hi))

/-! ### The HDM window (R426, R427, R446) -/

/-- The device address of a host address in the decoder's range (R427). -/
def State.hdmAddr (s : State) (d h : Nat) : Nat := 0xFFFF * 2 ^ 48 + (s.host.hdmBase + (h - d))

section

variable {d h : BitVec 52} {data : List Byte}

theorem exec_hdmAccess_stores (hd : d.toNat ≤ h.toNat) (hl : s.host.linkActive = true)
    (he : h.toNat + data.length ≤ d.toNat + s.host.hdmUnits * 2 ^ 28) (hm : s.host.memoryActive = true)
    (ha : s.accessOk (s.hdmAddr d.toNat h.toNat) data.length true = true) :
    exec (.hdmAccess (some d) h true data) s =
      .next ((s.setDecoder (some d)).store (s.hdmAddr d.toNat h.toNat) data) := by
  rw [State.hdmAddr] at ha ⊢
  refine congrArg Host.Outcome.next (if_pos ?_)
  rw [decide_eq_true hd, decide_eq_true he, hl, hm, ha]
  rfl

/-- A read, and an access outside a committed range, show how the decoder stands and change nothing else. -/
theorem exec_hdmAccess_reads : exec (.hdmAccess (some d) h false data) s = .next (s.setDecoder (some d)) := by
  refine congrArg Host.Outcome.next (if_neg ?_)
  simp

end

end

end Sys2Proof.Machine

namespace Sys2Proof.HostLink

open Sys2Proof Sys2Proof.Machine

/-- Settles O44. How masked vectors stand after reset (log entry 8), that the CXL domain locks anew after PERST# (log entry 82)
and that the operand shows the decoder (log entry 10) are the model's choice. -/
theorem hostEvents : Obligations.HostEvents := by
  intro s
  refine ⟨fun n x => ⟨exec_msixTableStore_stored, fun hm hp hs =>
      ⟨_, exec_msixTableStore_sends hm hp hs, rfl, ?_, ?_, rfl, rfl⟩⟩,
    fun n => ⟨exec_msixIntervalEnd_none, fun hs => ⟨_, exec_msixIntervalEnd_over hs, ?_⟩⟩,
    fun c hc => ⟨_, exec_hostReset hc, ?_⟩, fun w r => ⟨exec_linkActive_trains, exec_linkActive_stays⟩,
    fun c hc => ?_, exec_linkDown_inactive, exec_ideFail_none,
    fun d h data hd hl he => ⟨exec_hdmAccess_stores hd hl he, exec_hdmAccess_reads, fun _ => rfl⟩⟩
  · exact setBit64_same _ n.isLt _
  · exact setBit64_same _ n.isLt _
  · cases hcov : s.host.covered.getLsbD n.toNat with
    | false =>
      rw [if_neg Bool.false_ne_true]
      exact ⟨setBit64_same _ n.isLt _, fun _ => ⟨rfl, setBit64_same _ n.isLt _⟩, fun h => absurd h Bool.false_ne_true⟩
    | true =>
      rw [if_pos rfl]
      have hspaced : (s.spacingOver n.toNat).host.spaced.getLsbD n.toNat = false := setBit64_same _ n.isLt _
      have hcovered : (s.spacingOver n.toNat).host.covered.getLsbD n.toNat = false := setBit64_same _ n.isLt _
      refine ⟨?_, fun h => absurd h.symm Bool.false_ne_true, fun _ hm => ?_⟩
      · unfold State.sendVec
        rw [hspaced, if_neg Bool.false_ne_true]
        split <;> exact hcovered
      · rw [State.sendVec_sends (s := s.spacingOver n.toNat) hm hspaced]
        exact ⟨rfl, setBit64_same _ n.isLt _⟩
  · refine ⟨fun _ => rfl, rfl, rfl, rfl, fun _ => rfl, ?_, ?_, fun r h1 h2 => ?_, rfl, ⟨rfl, rfl⟩, rfl, rfl, rfl, rfl⟩
    · exact (s.hostReset_reg _).trans (by rw [if_neg (by decide), if_pos rfl])
    · exact congrArg (fun w : Word => w.getLsbD 6) ((s.hostReset_reg _).trans (if_pos rfl)) |>.trans
        (by rw [wordSet_bit _ (by decide)]; simp)
    · exact (s.hostReset_reg r).trans (by rw [if_neg h2, if_neg h1])
  · rcases hc with ⟨rfl, hl⟩ | ⟨rfl, hl, hi⟩
    · have h := s.linkLeaves_left
      exact ⟨_, exec_linkDown_active hl, h.down, h.ideIo, h.ideCm, h.flag, fun hc => Instr.noConfusion hc, h.mem⟩
    · have h := (s.stick Reg.SEC_STATUS 6).linkLeaves_left
      refine ⟨_, exec_ideFail_active hl hi, h.down, h.ideIo, h.ideCm, h.flag, fun _ => ?_, h.mem⟩
      rw [State.regBit, h.security]
      exact State.stick_regBit _ _ (by decide)

end Sys2Proof.HostLink
end

section
/-! ## The work of slots: the operations of a core and quantize jobs (R96, R117, R330, R339, R583) -/

namespace Sys2Proof.Machine

/-! ### Work whose memory can be reached -/

/-- The state with its descriptor reads back as they were outside the slot. -/
def State.outOfSlot (s t : State) : State := { t with frm := { t.frm with reader := s.frm.reader } }

section

variable {s : State} {acc : List (Nat × Nat × Bool)}

theorem State.atHand_local (h : acc.all (fun a => a.2.2 || a.2.1 == 0 || !s.isRemote a.1) = true) (ref : SlotRef)
    (work : State → State) : s.atHand ref acc work = work s := by
  have hfar : acc.filter (fun a => !a.2.2 && a.2.1 != 0 && s.isRemote a.1) = [] := by
    rw [List.filter_eq_nil_iff]
    intro a ha
    have hlocal := List.all_eq_true.1 h a ha
    simp only [Bool.or_eq_true, beq_iff_eq, Bool.not_eq_true'] at hlocal
    rcases hlocal with (hw | hn) | hr
    · simp [hw]
    · simp [hn]
    · simp [hr]
  unfold State.atHand
  rw [hfar]
  rfl

/-- Accesses that are admitted, fault-free and at hand delay no work. -/
theorem State.reach_reaches (h : s.reaches acc = true) (u : UnitId) (ref : SlotRef) (work : State → State) :
    s.reach u ref acc work = work s := by
  obtain ⟨hmay, hlocal⟩ := Bool.and_eq_true_iff.1 h
  rw [State.reach, State.guarded_mayAccess hmay, State.atHand_local hlocal]

variable {ref : SlotRef} {r : SlotRun} (hr : s.run ref = some r) (hf : r.fetched = [])
include hr hf

/-- A slot that has fetched nothing has nothing to let go. -/
theorem State.dropFetched_none (t : State) : t.dropFetched s ref = t := by
  have hgot : ((s.run ref).map (fun x => x.fetched)).getD [] = [] := by
    rw [hr]
    exact hf
  exact if_pos (by simp only [hgot, List.isEmpty_nil, Bool.true_or])

/-- An operation whose accesses reach works on the descriptors as the slot's start saw them. -/
theorem State.slotWork_reaches (h : s.reaches acc = true) (u : UnitId) (work : State → State) :
    s.slotWork u ref acc work = s.outOfSlot (work (s.slotView r)) := by
  rw [State.slotWork, State.dropFetched_none hr hf, State.reach_reaches h, State.inSlot, Option.bind_some, hr]
  rfl

/-- An operation of one access that the device refuses is an access fault. -/
theorem State.slotWork_refused {a n : Nat} {w : Bool} (h : s.accessOk a n w = false) (u : UnitId) (work : State → State) :
    s.slotWork u ref [(a, n, w)] work = (s.addrFault u a).failRun (some ref) := by
  have hbad : s.firstBad [(a, n, w)] = some a := by
    rw [State.firstBad, List.find?_cons_of_pos (by rw [h]; rfl)]
    rfl
  rw [State.slotWork, State.dropFetched_none hr hf, State.reach, State.guarded, hbad]

end

/-! ### What a slot's descriptor reads do not depend on -/

/-- The state with other slots started. -/
def State.withSlots (s : State) (l : List SlotRun) : State := { s with frm := { s.frm with slots := l } }

section

variable (s : State) (l : List SlotRun)

/-- The register window shows nothing of the slots started. -/
theorem regViews_withSlots : ∀ e ∈ regViews, e.2 (s.withSlots l) = e.2 s := by
  simp only [regViews, List.forall_mem_append]
  refine ⟨⟨⟨⟨⟨⟨⟨?_, ?_⟩, ?_⟩, ?_⟩, ?_⟩, ?_⟩, ?_⟩, ?_⟩
  all_goals
    simp only [viewsMbx, viewsFrm, viewsUnits, viewsPhys, viewsRas, viewsUpd, viewsSts, viewsLup, List.forall_mem_cons,
      List.not_mem_nil, false_imp_iff, implies_true, and_true]
    and_intros <;> rfl

theorem State.readReg_withSlots (off : Nat) : (s.withSlots l).readReg off = s.readReg off := by
  unfold State.readReg
  split
  · next e he => exact regViews_withSlots s l e (List.mem_of_find?_eq_some he)
  · rfl

theorem State.loadByte_withSlots (a : Nat) : (s.withSlots l).loadByte a = s.loadByte a := by
  have hr : (s.withSlots l).region a = s.region a := rfl
  unfold State.loadByte
  rw [hr]
  cases s.region a with
  | window off =>
    have hw := State.readReg_withSlots (((s.putReg Reg.FAC_CORE_SEL 0).putReg Reg.HBM_CHAN_SEL 0).putReg Reg.LNK_PORT_SEL 0) l
      (off / 4 * 4)
    exact congrArg (fun w : Word => BitVec.ofNat 8 (w.toNat / 256 ^ (off % 4))) hw
  | _ => rfl

theorem State.load_withSlots (a n : Nat) : (s.withSlots l).load a n = s.load a n :=
  List.map_congr_left fun _ _ => s.loadByte_withSlots l _

theorem State.descLoad_withSlots (a n : Nat) : (s.withSlots l).descLoad a n = s.descLoad a n := by
  have hread : (s.withSlots l).frm.reader = s.frm.reader := rfl
  have hremote : (s.withSlots l).isRemote a = s.isRemote a := rfl
  unfold State.descLoad
  rw [hread, hremote]
  cases s.frm.reader with
  | none => exact s.load_withSlots l a n
  | some m => exact if_congr Iff.rfl (s.load_withSlots l a n) (State.load_withSlots { s with mem := m } l a n)

end

/-! ### The array operations (R153 to R156, R583) -/

/-- A half's claim of its slot changes nothing that a descriptor's read depends on. -/
theorem State.claimHalf_aop (s : State) {r r1 : SlotRun} (h : r1.seen = r.seen) (ref : SlotRef) (half : Option Bool) (d : Nat) :
    ((s.claimHalf ref half).slotView r1).aop d = (s.slotView r).aop d := by
  have hslots : ∃ l, (s.claimHalf ref half).slotView r1 = (s.slotView r).withSlots l := by
    cases half with
    | none => exact ⟨s.frm.slots, by rw [State.slotView, h]; rfl⟩
    | some b => exact ⟨_, by rw [State.slotView, h]; rfl⟩
  obtain ⟨l, hl⟩ := hslots
  rw [hl, State.aop, State.descLoad_withSlots, State.aop]

section

variable {s : State} {c : BitVec 9} {half : Option Bool} {r : SlotRun} (hr : s.coreRun c half = some r)
include hr

/-- The work of an array operation of this mode and half, once its descriptor can be read. -/
def State.arrayWork (s : State) (c : BitVec 9) (half : Option Bool) (ref : SlotRef) (a : AOp) : State :=
  match s.opCheck c.toNat a (s.opProduct a) (s.epi (u64At a.raw 24)) with
  | some x =>
    (if x.status = .prismMismatch then s.prismRefused (s.opProduct a).stat.id (s.opProduct a).strm.id else s).refuseOp c half
      ref x
  | none => s.reach (coreUnit c) ref ((s.opProduct a).access ++ s.epiAccess (s.opProduct a) (s.epi (u64At a.raw 24)))
      (fun t => t.runProduct c.toNat half ref (s.opProduct a) (s.epi (u64At a.raw 24)))

theorem State.arrayOp_admitted {desc mode : Nat} {a : AOp} (ha : (s.slotView r).aop desc = a) (hm : a.op ≠ 3 - mode)
    (hh : a.forHalf half = true) : s.arrayOp c half desc mode =
      (s.claimHalf r.ref half).slotWork (coreUnit c) r.ref [(desc, 64, false)] (fun t => t.arrayWork c half r.ref a) := by
  unfold State.arrayOp
  rw [hr]
  dsimp only
  rw [ha, if_neg (by simp [hm, hh])]
  rfl

end

section

variable {s : State} {c : BitVec 9} {half : Option Bool} {ref : SlotRef} {a : AOp}

theorem State.arrayWork_runs (hc : s.opCheck c.toNat a (s.opProduct a) (s.epi (u64At a.raw 24)) = none)
    (h : s.reaches ((s.opProduct a).access ++ s.epiAccess (s.opProduct a) (s.epi (u64At a.raw 24))) = true) :
    s.arrayWork c half ref a = s.runProduct c.toNat half ref (s.opProduct a) (s.epi (u64At a.raw 24)) := by
  unfold State.arrayWork
  rw [hc]
  exact State.reach_reaches h _ _ _

theorem State.arrayWork_refuses {x : OpFail}
    (hc : s.opCheck c.toNat a (s.opProduct a) (s.epi (u64At a.raw 24)) = some x) (hx : x.status ≠ .prismMismatch) :
    s.arrayWork c half ref a = ((s.bump Reg.FAC_CNT_REFUSED 1).stick x.reg x.bit).failRun (some ref) := by
  unfold State.arrayWork
  rw [hc]
  dsimp only
  rw [if_neg hx, State.refuseOp, State.endRefused, if_neg hx]

end

/-! ### BACKWARD_PAIR, GRADIENT_SUM, ROUTER and DROPOUT -/

section

variable {s : State} {c : BitVec 9} {half : Option Bool} {desc : BitVec 64} {r r1 : SlotRun} (hr : s.coreRun c half = some r)
  (h1 : (s.claimHalf r.ref half).run r.ref = some r1) (hf : r1.fetched = [])
include hr h1 hf

theorem exec_gradientSum_runs {g : GSum} (hg : g = ⟨desc.toNat, ((s.claimHalf r.ref half).slotView r1).descLoad desc.toNat 128⟩)
    (hd : (s.claimHalf r.ref half).reaches [(desc.toNat, 128, false)] = true)
    (hok : ((s.claimHalf r.ref half).slotView r1).gsumOk g = true)
    (ha : ((s.claimHalf r.ref half).slotView r1).reaches (g.ins.map (fun x => (x, 16 * g.records, false)) ++
      (((s.claimHalf r.ref half).slotView r1).gsumOut g).map (fun o => (o.1, o.2, true))) = true) :
    exec (.gradientSum c half desc) s = .next
      ((s.claimHalf r.ref half).outOfSlot (((s.claimHalf r.ref half).slotView r1).runGsum r.ref g)) := by
  change execGradientSum c half desc s = _
  simp only [execGradientSum, hr]
  rw [State.slotWork_reaches h1 hf hd, ← hg, hok, Bool.not_true, if_neg Bool.false_ne_true, State.reach_reaches ha]

theorem exec_router_runs {d : RDesc} (hg : d = ⟨desc.toNat, ((s.claimHalf r.ref half).slotView r1).descLoad desc.toNat 64⟩)
    (hd : (s.claimHalf r.ref half).reaches [(desc.toNat, 64, false)] = true)
    (hok : ((s.claimHalf r.ref half).slotView r1).routerOk c.toNat d = true)
    (ha : ((s.claimHalf r.ref half).slotView r1).reaches
      ((((s.claimHalf r.ref half).slotView r1).tdesc d.logits).planes.map (fun x => (x.1, x.2, false)) ++
        [(d.routeAddr, 64 * (((s.claimHalf r.ref half).slotView r1).tdesc d.logits).dim0, true)] ++
        (if d.histAddr = 0 then [] else [(d.histAddr, 4 * d.experts, true)])) = true) :
    exec (.router c half desc) s = .next
      ((s.claimHalf r.ref half).outOfSlot (((s.claimHalf r.ref half).slotView r1).runRouter r.ref d)) := by
  change execRouter c half desc s = _
  simp only [execRouter, hr]
  rw [State.slotWork_reaches h1 hf hd, ← hg, hok, Bool.not_true, if_neg Bool.false_ne_true, State.reach_reaches ha]

theorem exec_dropout_runs {dst : BitVec 64} {stream keep : BitVec 32} {p16 : BitVec 16} {v : State} {S D : TDesc}
    (hv : v = (s.claimHalf r.ref half).slotView r1) (hS : S = v.tdesc desc.toNat) (hD : D = v.tdesc dst.toNat)
    (hd : (s.claimHalf r.ref half).reaches [(desc.toNat, 64, false), (dst.toNat, 64, false)] = true)
    (hok : (v.tdescOk desc.toNat && v.tdescOk dst.toNat && !S.fmt.blocked && S.fmt == D.fmt && S.dim0 == D.dim0
      && S.dim1 == D.dim1 && decide (S.dim0 * S.dim1 ≤ 2 ^ 43)) = true)
    (ha : v.reaches (S.planes.map (fun x => (x.1, x.2, false)) ++ D.planes.map (fun x => (x.1, x.2, true))) = true) :
    exec (.dropout c half desc dst stream p16 keep) s = .next
      ((s.claimHalf r.ref half).outOfSlot (v.runDropout r.ref S D stream.toNat p16.toNat keep.toNat)) := by
  subst hv
  change execDropout c half desc dst stream p16 keep s = _
  simp only [execDropout, hr]
  rw [State.slotWork_reaches h1 hf hd, ← hS, ← hD, hok, Bool.not_true, if_neg Bool.false_ne_true, State.reach_reaches ha]

end

theorem exec_backwardPair_runs {s v : State} {c : BitVec 9} {desc : BitVec 64} {r r1 : SlotRun} {b : Pair} {ex ew : Epi}
    (hr : s.coreRun c none = some r) (h1 : s.run r.ref = some r1) (hf : r1.fetched = []) (hv : v = s.slotView r1)
    (hb : b = v.backPair desc.toNat) (hx : ex = v.epi (u64At b.raw 40)) (hw : ew = v.epi (u64At b.raw 48))
    (hd : s.reaches [(desc.toNat, 128, false)] = true) (hc : v.pairCheck c.toNat desc.toNat b ex ew = none)
    (ha : v.reaches (b.dx.access ++ b.dw.access ++ v.epiAccess b.dx ex ++ v.epiAccess b.dw ew ++
      [(b.scratch, 2 ^ 20, true)]) = true) :
    exec (.backwardPair c none desc) s = .next (s.outOfSlot (v.runPair c.toNat r.ref b ex ew)) := by
  subst hv
  change execBackwardPair c none desc s = _
  simp only [execBackwardPair, hr]
  rw [State.slotWork_reaches h1 hf hd, ← hb, ← hx, ← hw, hc]
  exact congrArg Host.Outcome.next (congrArg s.outOfSlot (State.reach_reaches ha _ _ _))

/-! ### Quantize jobs (R117) -/

theorem State.runJob_slot_mem (s : State) (ref : SlotRef) (j : QJob) : (s.runJob (some ref) j).1.mem =
    ((s.jobReads (some ref) j).putsOut (some ref) (s.jobOut j (s.sourceVals j)).writes).mem :=
  rfl

/-- The rows of Table 4.1 that a slot runs, with their OP. -/
def quantRows (code : BitVec 16) (desc : BitVec 64) : List (Nat × Instr) :=
  [(1, .quantize code desc), (2, .quantizeDual code desc), (3, .expand code desc), (4, .mxImport code desc),
    (5, .mxExport code desc)]

theorem exec_of_quantRows {code : BitVec 16} {desc : BitVec 64} {x : Nat × Instr} (hx : x ∈ quantRows code desc) (s : State) :
    exec x.2 s = .next (s.quantRow code desc.toNat x.1) := by
  simp only [quantRows, List.mem_cons, List.not_mem_nil, or_false] at hx
  rcases hx with rfl | rfl | rfl | rfl | rfl <;> rfl

/-- A quantize job of a slot, once its descriptor can be read. -/
def State.quantWork (s : State) (u : UnitId) (ref : SlotRef) (desc op : Nat) : State :=
  if (s.qjob desc).op != op && inRange (s.qjob desc).op 1 5 then s
  else if desc % 64 ≠ 0 then s.refuseQuant ref
  else match s.jobCheck (s.qjob desc) false with
    | some _ => s.refuseQuant ref
    | none => s.reach u ref (s.jobAccess (s.qjob desc)) (fun t => (t.runJob (some ref) (s.qjob desc)).1)

theorem State.quantRow_runs {s : State} {code : BitVec 16} {r : SlotRun} {desc op : Nat} (hr : s.runOf (unitOf code) = some r)
    (hq : (unitOf code).quantizes = true) (h1 : s.run r.ref = some r) (hf : r.fetched = [])
    (hd : s.reaches [(desc, 64, false)] = true) :
    s.quantRow code desc op = s.outOfSlot ((s.slotView r).quantWork (unitOf code) r.ref desc op) := by
  unfold State.quantRow
  dsimp only
  rw [hr]
  dsimp only
  rw [hq, Bool.not_true, if_neg Bool.false_ne_true, State.slotWork_reaches h1 hf hd]
  refine congrArg s.outOfSlot ?_
  unfold State.quantWork
  cases (s.slotView r).jobCheck ((s.slotView r).qjob desc) false <;> rfl

section

variable {s : State} {u : UnitId} {ref : SlotRef} {desc op : Nat}

theorem State.quantWork_other (h : (s.qjob desc).op ≠ op) (h1 : 1 ≤ (s.qjob desc).op) (h5 : (s.qjob desc).op ≤ 5) :
    s.quantWork u ref desc op = s :=
  if_pos (by simp [h, inRange, h1, h5])

theorem State.quantWork_own (h : (s.qjob desc).op = op ∨ (s.qjob desc).op = 0 ∨ 5 < (s.qjob desc).op) :
    ¬ ((s.qjob desc).op != op && inRange (s.qjob desc).op 1 5) = true := by
  simp only [Bool.and_eq_true, bne_iff_ne, inRange, decide_eq_true_eq]
  omega

theorem State.quantWork_does (h : (s.qjob desc).op = op) (h64 : desc % 64 = 0) (hc : s.jobCheck (s.qjob desc) false = none)
    (ha : s.reaches (s.jobAccess (s.qjob desc)) = true) :
    s.quantWork u ref desc op = (s.runJob (some ref) (s.qjob desc)).1 := by
  rw [State.quantWork, if_neg (State.quantWork_own (.inl h)), if_neg (not_not_intro h64), hc]
  exact State.reach_reaches ha _ _ _

theorem State.quantWork_refuses (h : (s.qjob desc).op = op ∨ (s.qjob desc).op = 0 ∨ 5 < (s.qjob desc).op)
    (hbad : desc % 64 ≠ 0 ∨ (s.jobCheck (s.qjob desc) false).isSome = true) :
    s.quantWork u ref desc op = (s.stick Reg.QNT_STATUS 7).failRun (some ref) := by
  rw [State.quantWork, if_neg (State.quantWork_own h)]
  by_cases h64 : desc % 64 = 0
  · obtain ⟨x, hx⟩ := Option.isSome_iff_exists.1 (hbad.resolve_left (not_not_intro h64))
    rw [if_neg (not_not_intro h64), hx]
    rfl
  · rw [if_pos h64]
    rfl

end

end Sys2Proof.Machine

namespace Sys2Proof.SlotWork

open Sys2Proof Sys2Proof.Machine

/-- Settles O45, operation by operation. That a refused array operation raises no record is the model's choice (log entry 36). -/
theorem coreOperations : Obligations.CoreOperations := by
  intro s c half desc r r1 hr h1 hf hseen
  dsimp only
  have haop := s.claimHalf_aop hseen r.ref half desc.toNat
  have hrow {mode : Nat} (hd : (s.claimHalf r.ref half).reaches [(desc.toNat, 64, false)] = true)
      (hm : (((s.claimHalf r.ref half).slotView r1).aop desc.toNat).op ≠ 3 - mode)
      (hh : (((s.claimHalf r.ref half).slotView r1).aop desc.toNat).forHalf half = true) :=
    (State.arrayOp_admitted hr haop.symm hm hh).trans (State.slotWork_reaches h1 hf hd _ _)
  refine ⟨fun hd hh => ⟨fun hc ha => ⟨fun hop => ?_, fun hop => ?_⟩, fun x hc hx => ⟨fun hop => ?_, fun hop => ?_⟩⟩,
    fun hd hop hh => ?_, ?_, fun g hg hd hok ha => exec_gradientSum_runs hr h1 hf hg hd hok ha,
    fun d hg hd hok ha => exec_router_runs hr h1 hf hg hd hok ha, ?_⟩
  · exact congrArg Host.Outcome.next ((hrow (mode := 1) hd (by rw [hop]; decide) hh).trans
      (congrArg _ (State.arrayWork_runs hc ha)))
  · exact congrArg Host.Outcome.next ((hrow (mode := 2) hd (by rw [hop]; decide) hh).trans
      (congrArg _ (State.arrayWork_runs hc ha)))
  · exact congrArg Host.Outcome.next ((hrow (mode := 1) hd hop hh).trans (congrArg _ (State.arrayWork_refuses hc hx)))
  · exact congrArg Host.Outcome.next ((hrow (mode := 2) hd hop hh).trans (congrArg _ (State.arrayWork_refuses hc hx)))
  · exact congrArg Host.Outcome.next ((State.arrayOp_admitted (mode := 1) hr haop.symm (by rw [hop]; decide) hh).trans
      (State.slotWork_refused h1 hf hd _ _))
  · rintro rfl hd hc ha
    exact exec_backwardPair_runs hr h1 hf rfl rfl rfl rfl hd hc ha
  · intro dst stream keep p16 hd hs64 hd64 hb hfmt h0 h1' hsize ha
    refine exec_dropout_runs hr h1 hf rfl rfl rfl hd ?_ ha
    rw [hs64, hd64, hb, beq_iff_eq.2 hfmt, beq_iff_eq.2 h0, beq_iff_eq.2 h1', decide_eq_true hsize]
    rfl

/-- Settles O46. That a row of another OP does nothing is the model's choice (log entry 6). -/
theorem quantizerJobs : Obligations.QuantizerJobs := by
  intro s code desc r hr hq h1 hf
  dsimp only
  intro x hx hd
  have hrun : exec x.2 s = .next (s.outOfSlot ((s.slotView r).quantWork (unitOf code) r.ref desc.toNat x.1)) := by
    rw [exec_of_quantRows hx, State.quantRow_runs hr hq h1 hf hd]
  refine ⟨fun hop hlo hhi => ?_, fun hop h64 hc ha => ⟨?_, State.runJob_slot_mem _ _ _⟩, fun hop hbad => ?_⟩
  · rw [hrun, State.quantWork_other hop hlo hhi]
    rfl
  · rw [hrun, State.quantWork_does hop h64 hc ha]
    rfl
  · rw [hrun, State.quantWork_refuses hop hbad]
    rfl

end Sys2Proof.SlotWork
end

section
/-! ## HBM: reads, writes, write-backs, scrubbing and repair (R331, R343 to R355) -/

namespace Sys2Proof.Machine

section

variable {s : State}

/-! ### A code word's decoding (R347 to R349) -/

/-- The state after a code word that neither its burst nor its retry could correct: counted, flagged, its row's repair queued. -/
def State.wordLost (s : State) (w : Nat) : State :=
  ((s.bump Reg.HBM_CNT_UE 1).stick Reg.HBM_STATUS 1).queueRepair false (s.wordPlace w).chan (s.wordPlace w).bank
    (s.wordPlace w).row 0

/-- A queued repair changes the repair queue and its numbering alone. -/
theorem State.queueRepair_eq (s : State) (lane : Bool) (ch bank row l : Nat) : ∃ q n,
    s.queueRepair lane ch bank row l = { s with hbm := { s.hbm with queue := q, nextRepair := n } } := by
  unfold State.queueRepair
  dsimp only
  split
  · exact ⟨_, _, rfl⟩
  · exact ⟨_, _, rfl⟩

theorem State.wordLost_eq (s : State) (w : Nat) : ∃ q n, s.wordLost w =
    { (s.bump Reg.HBM_CNT_UE 1).stick Reg.HBM_STATUS 1 with hbm := { s.hbm with queue := q, nextRepair := n } } :=
  State.queueRepair_eq _ _ _ _ _ _

section

variable (s : State) (w : Nat)

theorem State.wordLost_mem : (s.wordLost w).mem = s.mem := by
  obtain ⟨q, n, heq⟩ := s.wordLost_eq w
  rw [heq]
  rfl

theorem State.wordLost_wcb : (s.wordLost w).hbm.wcb = s.hbm.wcb := by
  obtain ⟨q, n, heq⟩ := s.wordLost_eq w
  rw [heq]

theorem State.wordLost_reg (r : Nat) :
    (s.wordLost w).reg r = ((s.bump Reg.HBM_CNT_UE 1).stick Reg.HBM_STATUS 1).reg r := by
  obtain ⟨q, n, heq⟩ := s.wordLost_eq w
  rw [heq]
  rfl

theorem State.wordLost_flag : (s.wordLost w).regBit Reg.HBM_STATUS 1 = true := by
  rw [State.regBit, State.wordLost_reg]
  exact State.stick_regBit _ _ (by decide)

theorem State.wordLost_count : (s.wordLost w).reg Reg.HBM_CNT_UE = satAdd (s.reg Reg.HBM_CNT_UE) 1 := by
  rw [State.wordLost_reg, State.stick_reg, if_neg (by decide), State.bump_reg, if_pos rfl]

end

/-- Whether the decoder of a code word's channel corrects symbols in error. -/
def State.wordCorrects (s : State) (w : Nat) (lanes : List Nat) : Bool :=
  (s.chan (s.wordPlace w).chan).corrects (s.wordPlace w).bank lanes

section

variable {w : Nat} {first retry : List Nat} (h1 : s.wordCorrects w first = false)

theorem State.decodeWord_first (h : s.wordCorrects w first = true) :
    s.decodeWord w first retry = (s.corrected w first, true) :=
  if_pos h

include h1

theorem State.decodeWord_retry (h2 : s.wordCorrects w retry = true) :
    s.decodeWord w first retry = ((s.bump Reg.HBM_CNT_RETRY_OK 1).corrected w retry, true) :=
  (if_neg (ne_true_of_eq_false h1)).trans (if_pos h2)

theorem State.decodeWord_lost (h2 : s.wordCorrects w retry = false) : s.decodeWord w first retry = (s.wordLost w, false) :=
  (if_neg (ne_true_of_eq_false h1)).trans (if_neg (ne_true_of_eq_false h2))

end

/-! ### HBM_READ -/

/-- A code word that a read takes from the DRAM as it stands. -/
def State.cleanWord (s : State) (w : Nat) : Prop :=
  s.stackStopped w = false ∧ s.lineOf w = none ∧ w ∉ s.hbm.poison ∧
    ((s.chan (s.wordPlace w).chan).marksOn (s.wordPlace w).bank).length ≤ 8

theorem State.wordCorrects_none {w : Nat} (h : ((s.chan (s.wordPlace w).chan).marksOn (s.wordPlace w).bank).length ≤ 8) :
    s.wordCorrects w [] = true :=
  decide_eq_true (by simpa [Channel.errors] using h)

theorem State.readWord_clean {w : Nat} (h : s.cleanWord w) : s.readWord w [] [] = (s, false) := by
  obtain ⟨hstop, hline, hpoison, hmarks⟩ := h
  have hdecode : s.decodeWord w [] [] = (s, true) := State.decodeWord_first (State.wordCorrects_none hmarks)
  simp only [State.readWord, hstop, hline, Option.isSome_none, Option.map_none, Option.getD_none, Bool.false_eq_true, if_false,
    List.contains_eq_mem, hpoison, decide_false, hdecode, if_true]

theorem State.readWord_poison {w : Nat} (hstop : s.stackStopped w = false) (hline : s.lineOf w = none)
    (hpoison : w ∈ s.hbm.poison) (first retry : List Nat) :
    s.readWord w first retry = ((s.bump Reg.HBM_CNT_POISON_RD 1).stick Reg.HBM_STATUS 2, true) := by
  simp only [State.readWord, hstop, hline, Option.isSome_none, Option.map_none, Option.getD_none, Bool.false_eq_true, if_false,
    List.contains_eq_mem, hpoison, decide_true, if_true]
  rfl

theorem State.readWords_clean {base : Nat} {ws : List Nat} (h : ∀ w ∈ ws, s.cleanWord w) :
    s.readWords base [] ws = (s, false) := by
  induction ws with
  | nil => rfl
  | cons w ws ih =>
    have hw : s.readWord w [] [] = (s, false) := State.readWord_clean (h w List.mem_cons_self)
    have hws := ih fun x hx => h x (List.mem_cons_of_mem _ hx)
    simp only [State.readWords, List.find?_nil, Option.map_none, Option.getD_none, hw, hws, Bool.or_self]

section

variable {unit len : BitVec 16} {addr : BitVec 39}

theorem exec_hbmRead_of {faults : List ReadFault} {t : State} {p : Bool}
    (ha : s.accessOk (ownAddr addr.toNat) len.toNat false = true)
    (h : s.readWords (addr.toNat / 64) faults (wordsOf addr.toNat len.toNat) = (t, p)) :
    exec (.hbmRead unit addr len faults) s =
      .next (if p then t.faultRun ((s.runOf (unitOf unit)).map (fun x => x.ref)) else t) := by
  refine congrArg Host.Outcome.next ((if_neg ?_).trans ?_)
  · rw [ha]
    exact Bool.false_ne_true
  · dsimp only
    rw [h]

theorem exec_hbmRead_refused {faults : List ReadFault} (ha : s.accessOk (ownAddr addr.toNat) len.toNat false = false) :
    exec (.hbmRead unit addr len faults) s = .next
      ((s.addrFault (unitOf unit) (ownAddr addr.toNat)).failRun ((s.runOf (unitOf unit)).map (fun x => x.ref))) :=
  congrArg Host.Outcome.next (if_pos (by rw [ha]; rfl))

/-! ### HBM_WRITE (R343) -/

variable {data : List Byte}

theorem exec_hbmWrite_refused (ha : s.accessOk (ownAddr addr.toNat) data.length true = false) :
    exec (.hbmWrite unit addr data) s = .next
      ((s.addrFault (unitOf unit) (ownAddr addr.toNat)).failRun ((s.runOf (unitOf unit)).map (fun x => x.ref))) :=
  congrArg Host.Outcome.next (if_pos (by rw [ha]; rfl))

theorem exec_hbmWrite_admitted (ha : s.accessOk (ownAddr addr.toNat) data.length true = true) :
    exec (.hbmWrite unit addr data) s = .next (if (wordsOf addr.toNat data.length).any s.stackStopped then
      s.faultRun ((s.runOf (unitOf unit)).map (fun x => x.ref)) else s.store (ownAddr addr.toNat) data) :=
  congrArg Host.Outcome.next (if_neg (by rw [ha]; exact Bool.false_ne_true))

end

/-! ### WCB_WRITEBACK (R345, R349) -/

theorem State.lineOf_word {w : Nat} {l : WcbLine} (h : s.lineOf w = some l) : l.word = w :=
  beq_iff_eq.1 (List.find?_some (p := fun x : WcbLine => x.word == w) h)

theorem State.wordLost_lineOf (s : State) (w : Nat) : (s.wordLost w).lineOf w = s.lineOf w :=
  congrArg (List.find? (fun l : WcbLine => l.word == w)) (s.wordLost_wcb w)

/-- A buffered line dropped. -/
def State.withoutLine (s : State) (w : Nat) : State :=
  { s with hbm := { s.hbm with wcb := s.hbm.wcb.filter (fun l => l.word != w) } }

theorem State.withoutLine_lineOf (s : State) (w : Nat) : (s.withoutLine w).lineOf w = none := by
  refine List.find?_eq_none.2 fun l hl => ?_
  have hne := (List.mem_filter.1 hl).2
  simpa using hne

theorem State.drainLine_partial {w : Nat} {l : WcbLine} (h : s.lineOf w = some l) (hm : l.mask ≠ BitVec.allOnes 64) :
    s.drainLine w = (s.withoutLine w).bump Reg.HBM_CNT_WCB_RMW 1 := by
  rw [State.lineOf] at h
  rw [State.drainLine, h]
  exact if_neg hm

/-- The state after the write-back of a partial line whose DRAM word is lost, before the word becomes poison. -/
def State.lineLost (s : State) (w : Nat) : State := ((s.wordLost w).withoutLine w).bump Reg.HBM_CNT_WCB_RMW 1

/-- A poison word written over a word that no line buffers: its data zero. -/
theorem State.poisonWord_unbuffered {w : Nat} (h : s.lineOf w = none) : s.poisonWord w =
    { s with mem := mwrites s.mem (w * 64) (List.replicate 64 0), hbm := { s.hbm with poison := w :: s.hbm.poison } } := by
  unfold State.poisonWord
  rw [h]
  rfl

section

variable {w : Nat} {l : WcbLine} {first retry : List Nat} (h : s.lineOf w = some l)
include h

theorem State.writeBack_full (hm : l.mask = BitVec.allOnes 64) : s.writeBack l first retry = s.drainLine w := by
  rw [State.writeBack, if_pos (.inl hm), State.lineOf_word h]

variable (hm : l.mask ≠ BitVec.allOnes 64) (hs : s.stackStopped w = false) (hp : w ∉ s.hbm.poison)
include hm hs hp

theorem State.writeBack_partial : s.writeBack l first retry = if (s.decodeWord w first retry).2
    then (s.decodeWord w first retry).1.drainLine w else ((s.decodeWord w first retry).1.drainLine w).poisonWord w := by
  have hword := State.lineOf_word h
  refine (if_neg ?_).trans (by rw [hword])
  rw [hword, hs]
  rintro (hfull | hstop | hpoison)
  · exact hm hfull
  · exact Bool.false_ne_true hstop
  · exact hp (List.contains_iff_mem.1 hpoison)

theorem State.writeBack_corrected (h1 : s.wordCorrects w first = true) :
    s.writeBack l first retry = (s.corrected w first).drainLine w := by
  rw [State.writeBack_partial h hm hs hp, State.decodeWord_first h1, if_pos rfl]

/-- A partial line whose DRAM word is lost leaves a poison word of zero. -/
theorem State.writeBack_lost (h1 : s.wordCorrects w first = false) (h2 : s.wordCorrects w retry = false) :
    s.writeBack l first retry = (s.lineLost w).poisonWord w := by
  have hline : (s.wordLost w).lineOf w = some l := (s.wordLost_lineOf w).trans h
  rw [State.writeBack_partial h hm hs hp, State.decodeWord_lost h1 h2, if_neg Bool.false_ne_true,
    State.drainLine_partial hline hm]
  rfl

end

section

variable {w : Nat} (h : s.lineOf w = none)
include h

theorem State.poisonWord_mem : (s.poisonWord w).mem = mwrites s.mem (w * 64) (List.replicate 64 0) := by
  rw [State.poisonWord_unbuffered h]

theorem State.poisonWord_poison : (s.poisonWord w).hbm.poison = w :: s.hbm.poison := by
  rw [State.poisonWord_unbuffered h]

end

theorem State.poisonWord_lineOf (s : State) (w : Nat) : (s.poisonWord w).lineOf w = s.lineOf w :=
  have hwcb : (s.poisonWord w).hbm.wcb = s.hbm.wcb := rfl
  congrArg (List.find? (fun l : WcbLine => l.word == w)) hwcb

theorem State.poisonWord_reg (s : State) (w r : Nat) : (s.poisonWord w).reg r = s.reg r :=
  State.reg_of_regs rfl r

/-- What a word that is lost and becomes poison leaves: counted and flagged, its data zero. -/
structure WordPoisoned (s t : State) (w : Nat) : Prop where
  poison : w ∈ t.hbm.poison
  mem : t.mem = mwrites s.mem (w * 64) (List.replicate 64 0)
  flag : t.regBit Reg.HBM_STATUS 1 = true
  count : t.reg Reg.HBM_CNT_UE = satAdd (s.reg Reg.HBM_CNT_UE) 1

theorem State.poisonWord_poisoned {t : State} {w : Nat} (h : t.lineOf w = none) (hm : t.mem = s.mem)
    (hf : t.regBit Reg.HBM_STATUS 1 = true) (hc : t.reg Reg.HBM_CNT_UE = satAdd (s.reg Reg.HBM_CNT_UE) 1) :
    WordPoisoned s (t.poisonWord w) w := by
  refine ⟨?_, ?_, ?_, ?_⟩
  · rw [State.poisonWord_poison h]
    exact List.mem_cons_self
  · rw [State.poisonWord_mem h, hm]
  · rw [State.regBit, State.poisonWord_reg]
    exact hf
  · rw [State.poisonWord_reg, hc]

theorem State.wordLost_poisoned {w : Nat} (h : s.lineOf w = none) : WordPoisoned s ((s.wordLost w).poisonWord w) w :=
  State.poisonWord_poisoned ((s.wordLost_lineOf w).trans h) (s.wordLost_mem w) (s.wordLost_flag w) (s.wordLost_count w)

section

variable (s : State) (w : Nat)

theorem State.lineLost_lineOf : (s.lineLost w).lineOf w = none := State.withoutLine_lineOf _ w

theorem State.lineLost_reg (r : Nat) : (s.lineLost w).reg r =
    if r = Reg.HBM_CNT_WCB_RMW then satAdd ((s.wordLost w).reg Reg.HBM_CNT_WCB_RMW) 1 else (s.wordLost w).reg r :=
  State.bump_reg _ _ _ _

theorem State.lineLost_count : (s.lineLost w).reg Reg.HBM_CNT_WCB_RMW = satAdd (s.reg Reg.HBM_CNT_WCB_RMW) 1 := by
  rw [State.lineLost_reg, if_pos rfl, State.wordLost_reg, State.stick_reg, if_neg (by decide), State.bump_reg,
    if_neg (by decide)]

theorem State.lineLost_poisoned : WordPoisoned s ((s.lineLost w).poisonWord w) w := by
  refine State.poisonWord_poisoned (s.lineLost_lineOf w) (s.wordLost_mem w) ?_ ?_
  · rw [State.regBit, State.lineLost_reg, if_neg (by decide)]
    exact s.wordLost_flag w
  · rw [State.lineLost_reg, if_neg (by decide), State.wordLost_count]

end

section

variable {word : BitVec 33} {first retry : List (BitVec 7)} {l : WcbLine} (h : s.lineOf word.toNat = some l)
include h

theorem exec_wcbWriteback_line : exec (.wcbWriteback ⟨word, first, retry⟩) s = .next (if l.tick.toNat + 2 ≤ s.frm.tick.toNat then
    s.writeBack l (first.map (·.toNat)) (retry.map (·.toNat)) else s) := by
  change execWcbWriteback ⟨word, first, retry⟩ s = _
  unfold execWcbWriteback
  rw [h]

theorem exec_wcbWriteback_due (hd : l.tick.toNat + 2 ≤ s.frm.tick.toNat) : exec (.wcbWriteback ⟨word, first, retry⟩) s =
    .next (s.writeBack l (first.map (·.toNat)) (retry.map (·.toNat))) := by
  rw [exec_wcbWriteback_line h, if_pos hd]

end

/-! ### PATROL_SCRUB (R349) -/

section

variable {word : BitVec 33} {first retry : List (BitVec 7)}

theorem exec_patrolScrub_off (h : s.regBit Reg.HBM_CFG 0 = false ∨ s.phys.idling = true) :
    exec (.patrolScrub word first retry) s = .next s :=
  congrArg Host.Outcome.next (if_pos (by rcases h with h | h <;> simp [h]))

variable (hc : s.regBit Reg.HBM_CFG 0 = true) (hi : s.phys.idling = false) (hs : s.stackStopped word.toNat = false)
  (hp : word.toNat ∉ s.hbm.poison)
include hc hi hs hp

theorem exec_patrolScrub_of {t : State} {ok : Bool}
    (h : s.decodeWord word.toNat (first.map (·.toNat)) (retry.map (·.toNat)) = (t, ok))
    (hl : ok = true ∨ s.lineOf word.toNat = none) :
    exec (.patrolScrub word first retry) s = .next (if ok then t else t.poisonWord word.toNat) := by
  refine congrArg Host.Outcome.next ((if_neg (by simp [hc, hi, hs, hp])).trans ?_)
  dsimp only
  rw [h]
  cases ok with
  | true => rw [Bool.true_or]
  | false => rw [hl.resolve_left Bool.false_ne_true]; rfl

end

/-! ### REPAIR_STEP (R353 to R355) -/

theorem exec_repairStep_not {pause : BitVec 6} {q : Repair} (hq : s.nextStep = some q) (hm : s.mayRepair = false) :
    exec (.repairStep pause) s = .next s := by
  change execRepairStep pause s = _
  simp only [execRepairStep, hq, hm, Bool.not_false, Bool.true_or, if_true]

theorem exec_repairStep_runs {pause : BitVec 6} {q : Repair} {x : Channel} (hq : s.nextStep = some q) (hp : pause.toNat ≤ 48)
    (hm : s.mayRepair = true) (hx : s.repaired q = some x) :
    exec (.repairStep pause) s = .next (s.repairStep q x pause.toNat) := by
  change execRepairStep pause s = _
  simp only [execRepairStep, hq, hm, hx, Bool.not_true, Bool.false_or, decide_eq_true_eq, Nat.not_lt.2 hp, if_false]

/-- The channel given its spare and the repair no longer queued, before the step is counted. -/
def State.repairMade (s : State) (q : Repair) (x : Channel) : State :=
  (((s.drainLines (s.linesOn q.channel none)).putChan q.channel x).dropRepair q).stepCounted q

section

variable (s : State) (q : Repair) (x : Channel) (pause : Nat)

theorem State.repairMade_reg {r : Nat} (h : r ≠ Reg.HBM_CNT_WCB_RMW) : (s.repairMade q x).reg r = s.reg r :=
  (s.drainLines_combined (s.linesOn q.channel none)).reg r h

theorem State.repairMade_mem : (s.repairMade q x).mem = s.mem :=
  (congrArg State.mem (s.drainLines_combined (s.linesOn q.channel none)).eq :)

theorem State.repairMade_boot : (s.repairMade q x).boot = s.boot :=
  (congrArg State.boot (s.drainLines_combined (s.linesOn q.channel none)).eq :)

theorem State.repairMade_chan : (s.repairMade q x).chan q.channel = x :=
  State.putChan_chan_same (s.drainLines (s.linesOn q.channel none)) _ _

theorem State.repairStep_eq : ∃ u, u = (((s.repairMade q x).bump Reg.HBM_CNT_REPAIR 1).bump Reg.HBM_CNT_PAUSE_RC pause).stick
      Reg.HBM_STATUS 5 ∧ s.repairStep q x pause = { u with
    hbm := { u.hbm with lastRepairTick := some s.frm.tick }, boot := { u.boot with softRepairs := u.boot.softRepairs ++ [q] } } :=
  ⟨_, rfl, rfl⟩

theorem State.repairStep_reg (r : Nat) : (s.repairStep q x pause).reg r =
    ((((s.repairMade q x).bump Reg.HBM_CNT_REPAIR 1).bump Reg.HBM_CNT_PAUSE_RC pause).stick Reg.HBM_STATUS 5).reg r := by
  obtain ⟨u, hu, heq⟩ := s.repairStep_eq q x pause
  rw [heq, ← hu]
  rfl

theorem State.repairStep_count :
    (s.repairStep q x pause).reg Reg.HBM_CNT_REPAIR = satAdd (s.reg Reg.HBM_CNT_REPAIR) 1 := by
  rw [State.repairStep_reg, State.stick_reg, if_neg (by decide), State.bump_reg, if_neg (by decide), State.bump_reg,
    if_pos rfl, State.repairMade_reg _ _ _ (by decide)]

theorem State.repairStep_pause :
    (s.repairStep q x pause).reg Reg.HBM_CNT_PAUSE_RC = satAdd (s.reg Reg.HBM_CNT_PAUSE_RC) pause := by
  rw [State.repairStep_reg, State.stick_reg, if_neg (by decide), State.bump_reg, if_pos rfl, State.bump_reg,
    if_neg (by decide), State.repairMade_reg _ _ _ (by decide)]

theorem State.repairStep_made : (s.repairStep q x pause).chan q.channel = x ∧
    (s.repairStep q x pause).hbm.lastRepairTick = some s.frm.tick ∧
    (s.repairStep q x pause).boot.softRepairs = s.boot.softRepairs ++ [q] ∧ (s.repairStep q x pause).mem = s.mem := by
  obtain ⟨u, hu, heq⟩ := s.repairStep_eq q x pause
  have hhbm : u.hbm = (s.repairMade q x).hbm := hu ▸ rfl
  have hboot : u.boot = s.boot := (hu ▸ rfl : u.boot = (s.repairMade q x).boot).trans (s.repairMade_boot q x)
  have hmem : u.mem = s.mem := (hu ▸ rfl : u.mem = (s.repairMade q x).mem).trans (s.repairMade_mem q x)
  have hchan := s.repairMade_chan q x
  rw [State.chan, ← hhbm] at hchan
  rw [heq, hboot]
  exact ⟨hchan, rfl, rfl, hmem⟩

end

end

end Sys2Proof.Machine

namespace Sys2Proof.Memory

open Sys2Proof Sys2Proof.Machine

/-- Settles O50, row by row: HBM_READ and HBM_WRITE, WCB_WRITEBACK, PATROL_SCRUB and REPAIR_STEP. -/
theorem hbmRows : Obligations.HbmRows := by
  intro s
  refine ⟨fun unit len addr ha => ⟨fun h => exec_hbmRead_of ha (State.readWords_clean h), fun w hw hs hl hp => ?_⟩,
    fun unit addr data ha => ⟨fun h => ?_, fun h => ?_⟩,
    fun unit len addr faults data => ⟨exec_hbmRead_refused, exec_hbmWrite_refused⟩,
    fun word first retry l hl => ⟨fun hd hm => ?_, fun hd hm hs hp h1 => ?_, fun hd hm hs hp h1 h2 => ?_, fun hd => ?_⟩,
    fun word first retry hc hi hs hp => ⟨fun h1 => ?_, fun h1 h2 => ?_, fun h1 h2 hl => ?_⟩,
    fun word first retry h => exec_patrolScrub_off h,
    fun pause q x hq hp => ⟨fun hm hx => ?_, exec_repairStep_not hq⟩⟩
  · refine exec_hbmRead_of (p := true) ha ?_
    rw [hw]
    simp only [State.readWords, State.readWord_poison hs hl hp, Bool.true_or]
  · rw [exec_hbmWrite_admitted ha, if_neg]
    simpa using h
  · rw [exec_hbmWrite_admitted ha, if_pos (List.any_eq_true.2 h)]
  · rw [exec_wcbWriteback_due hl hd, State.writeBack_full hl hm]
  · rw [exec_wcbWriteback_due hl hd, State.writeBack_corrected hl hm hs hp h1]
  · have hlost := s.lineLost_poisoned word.toNat
    have hline := s.lineLost_lineOf word.toNat
    refine ⟨_, ?_, hlost.poison, hlost.flag, hlost.count, (State.poisonWord_reg _ _ _).trans (s.lineLost_count _),
      (State.poisonWord_lineOf _ _).trans hline, hlost.mem⟩
    rw [exec_wcbWriteback_due hl hd, State.writeBack_lost hl hm hs hp h1 h2]
  · rw [exec_wcbWriteback_line hl, if_neg hd]
  · exact exec_patrolScrub_of hc hi hs hp (State.decodeWord_first h1) (.inl rfl)
  · exact exec_patrolScrub_of hc hi hs hp (State.decodeWord_retry h1 h2) (.inl rfl)
  · have hlost := State.wordLost_poisoned hl
    exact ⟨_, exec_patrolScrub_of hc hi hs hp (State.decodeWord_lost h1 h2) (.inr hl), hlost.poison, hlost.mem, hlost.flag,
      hlost.count⟩
  · obtain ⟨hchan, htick, hsoft, hmem⟩ := s.repairStep_made q x pause.toNat
    exact ⟨_, exec_repairStep_runs hq hp hm hx, hchan, htick, s.repairStep_count q x _, s.repairStep_pause q x _, hsoft, hmem⟩

end Sys2Proof.Memory
end

section
/-! ## Collectives, lost peers, Loupe reports and off-loads (R242, R243, R251, R276, R384, R385, R397) -/

namespace Sys2Proof.Machine

/-! ### What a failed slot and stores leave -/

theorem State.failRun_withSlots (s : State) (ref : Option SlotRef) : ∃ l, s.failRun ref = s.withSlots l := by
  cases ref with
  | none => exact ⟨s.frm.slots, rfl⟩
  | some r => exact ⟨_, rfl⟩

theorem State.store_sts (s : State) (a : Nat) (bs : List Byte) : (s.store a bs).sts = s.sts := by
  obtain ⟨u, hu, hstore⟩ := s.store_eq a bs
  rw [hstore, hu.eq]

theorem State.stores_sts (s : State) (ws : List (Nat × List Byte)) : (s.stores ws).sts = s.sts := by
  induction ws generalizing s with
  | nil => rfl
  | cons w ws ih => exact (ih _).trans (s.store_sts _ _)

theorem State.stores_reg (s : State) (ws : List (Nat × List Byte)) {r : Nat} (h : r ≠ Reg.HBM_CNT_WCB_RMW) :
    (s.stores ws).reg r = s.reg r := by
  induction ws generalizing s with
  | nil => rfl
  | cons w ws ih => exact (ih _).trans (s.store_reg _ _ h)

/-! ### The rows of a collective (R384, R385) -/

/-- The rows that start a collective, with the OP and the Refocus flag that each needs. -/
def colRows (desc : BitVec 64) : List (Nat × Bool × Instr) :=
  [(1, false, .reduceScatter desc), (2, false, .allGather desc), (3, false, .transpose desc), (3, true, .refocus desc),
    (4, false, .verdict desc)]

theorem exec_of_colRows {desc : BitVec 64} {x : Nat × Bool × Instr} (hx : x ∈ colRows desc) (s : State) :
    exec x.2.2 s = .next (s.colRow desc.toNat x.1 x.2.1) := by
  simp only [colRows, List.mem_cons, List.not_mem_nil, or_false] at hx
  rcases hx with rfl | rfl | rfl | rfl | rfl <;> rfl

theorem State.colRow_tries {s : State} {desc op : Nat} {refocus : Bool} {r : SlotRun} (hr : s.runAt colUnit desc = some r)
    (h1 : s.run r.ref = some r) (hp : s.col.phase = .idle) (hs : r.steps = 0) (ha : s.accessOk desc 128 false = true)
    (hop : ((s.slotView r).coll desc).op = op) (hf : ((s.slotView r).coll desc).refocus = refocus) :
    s.colRow desc op refocus = s.outOfSlot ((s.slotView r).colTry ((s.slotView r).coll desc) r.ref) := by
  have hwork (work : State → State) : s.inSlot (some r.ref) work = s.outOfSlot (work (s.slotView r)) := by
    rw [State.inSlot, Option.bind_some, h1]
    rfl
  unfold State.colRow
  rw [hr]
  dsimp only
  rw [hp, hs, ha, if_neg (by decide), Bool.not_true, if_neg Bool.false_ne_true, hwork]
  refine congrArg s.outOfSlot (if_pos ?_)
  rw [hop, hf, beq_self_eq_true, beq_self_eq_true]
  rfl

section

variable {s : State} {k : Coll} {ref : SlotRef}

theorem State.colTry_malformed (h : k.formed = false) :
    s.colTry k ref = ((s.stick Reg.COL_STATUS 0).refuse colUnit .descInvalid).failRun (some ref) :=
  if_pos (by rw [h]; rfl)

theorem State.colTry_starts {me : Nat} (hf : k.formed = true) (hk : s.colKind ref k = true) (ht : s.firstBad k.tables = none)
    (hd : (s.collStations k).eraseDups.length = (s.collStations k).length) (hm : me < (s.collStations k).length)
    (hok : s.collOk k me = true) (ha : s.firstBad (s.collAccess k me) = none)
    (hme : (s.collStations k).findIdx (fun x => s.lnk.station == some x) = me) : s.colTry k ref = s.colStart k ref me := by
  unfold State.colTry
  rw [hf, hk, ht]
  dsimp only
  rw [hme, hd, hok, ha, if_neg (by decide), if_neg]
  simp [hm]

end

/-! ### PEER_TIMEOUT (R397) -/

/-- The collective ended by a peer's silence, before the record. -/
def State.peerSilent (s : State) (st : Nat) : State :=
  (((s.stick Reg.COL_STATUS 1).bump Reg.COL_CNT_PEER_LOST 1).setCol (fun c => { c with phase := .idle, lost := some st })).putReg
    Reg.COL_LOST_STATION (BitVec.ofNat 32 st)

section

variable {s : State} {n : BitVec 16}

theorem exec_peerTimeout_waits (hi : tget 0 s.col.idle n.toNat < s.regField Reg.COL_CFG 0 3) :
    exec (.peerTimeout n) s = .next s :=
  congrArg Host.Outcome.next (if_pos (by rw [decide_eq_true hi, Bool.or_true]))

theorem exec_peerTimeout_ends (h : s.waitsOn n.toNat = true)
    (hi : s.regField Reg.COL_CFG 0 3 ≤ tget 0 s.col.idle n.toNat) :
    exec (.peerTimeout n) s = .next (((s.peerSilent (s.col.ranks.getD n.toNat 0)).raise .peerLost colUnit
      (s.col.ranks.getD n.toNat 0)).failRun s.col.ref) :=
  congrArg Host.Outcome.next (if_neg (by rw [h, decide_eq_false (Nat.not_lt.2 hi)]; exact Bool.false_ne_true))

end

/-- A collective that a lost peer ended. -/
structure PeerGone (s t : State) (st : Nat) : Prop where
  idle : t.col.phase = .idle
  station : t.reg Reg.COL_LOST_STATION = BitVec.ofNat 32 st
  flag : t.regBit Reg.COL_STATUS 1 = true
  count : t.reg Reg.COL_CNT_PEER_LOST = satAdd (s.reg Reg.COL_CNT_PEER_LOST) 1
  uncommittable : t.frm.uncommittable = true
  mem : t.mem = s.mem

theorem State.peerSilent_reg (s : State) (st r : Nat) : (s.peerSilent st).reg r = if r = Reg.COL_LOST_STATION then
    BitVec.ofNat 32 st else ((s.stick Reg.COL_STATUS 1).bump Reg.COL_CNT_PEER_LOST 1).reg r :=
  State.putReg_reg _ _ _ _

theorem State.peerSilent_gone (s : State) (st : Nat) (ref : Option SlotRef) :
    PeerGone s (((s.peerSilent st).raise .peerLost colUnit st).failRun ref) st := by
  have hrec : Recorded (s.peerSilent st) ((s.peerSilent st).raise .peerLost colUnit st) :=
    State.raise_recorded (by decide) _ _ _
  have hfatal : ((s.peerSilent st).raise .peerLost colUnit st).frm.uncommittable = true :=
    State.raise_stepFatal (by decide) _ _ _
  obtain ⟨l, hl⟩ := State.failRun_withSlots ((s.peerSilent st).raise .peerLost colUnit st) ref
  have hreg (r : Nat) (h : r ∉ rasNoted) :
      (((s.peerSilent st).raise .peerLost colUnit st).failRun ref).reg r = (s.peerSilent st).reg r := by
    rw [hl]
    exact hrec.reg r h
  refine ⟨?_, ?_, ?_, ?_, ?_, ?_⟩
  · rw [hl]
    exact (congrArg (fun t => t.col.phase) hrec.eq :)
  · rw [hreg _ (by decide), State.peerSilent_reg, if_pos rfl]
  · rw [State.regBit, hreg _ (by decide), State.peerSilent_reg, if_neg (by decide), State.bump_reg, if_neg (by decide)]
    exact State.stick_regBit _ _ (by decide)
  · rw [hreg _ (by decide), State.peerSilent_reg, if_neg (by decide), State.bump_reg, if_pos rfl, State.stick_reg,
      if_neg (by decide)]
  · rw [hl]
    exact hfatal
  · rw [hl]
    exact hrec.mem

/-! ### LOUPE_REPORT (R242, R243, R251) -/

section

variable {s : State} {a : ReportArg}

/-- The entry of the scale state block that a report names. -/
def State.reportEntry (s : State) (r : Report) : Option Nat :=
  (List.range s.ssbEntries).find? (fun i => reportMatches r (s.entry i))

theorem exec_loupeReport_rerun (h : a.rerun = true) : exec (.loupeReport a) s = .next s :=
  congrArg Host.Outcome.next (if_pos h)

theorem exec_loupeReport_reports (h : a.rerun = false) : exec (.loupeReport a) s = .next (s.loupeReport (reportOf a)) :=
  congrArg Host.Outcome.next (if_neg (ne_true_of_eq_false h))

theorem State.loupeReport_untracked {r : Report} (h : s.reportEntry r = none) :
    s.loupeReport r = s.bump Reg.LUP_CNT_UNTRACKED 1 := by
  rw [State.reportEntry] at h
  rw [State.loupeReport, h]

variable {r : Report} {i : Nat} (h : s.reportEntry r = some i)
include h

theorem State.loupeReport_late (hc : s.lup.closed = true) : s.loupeReport r =
    ((s.bump Reg.LUP_CNT_LATE_REPORT 1).stick Reg.LUP_STATUS 2).setLup (fun l => { l with late := true }) := by
  rw [State.reportEntry] at h
  rw [State.loupeReport, h]
  exact if_pos hc

theorem State.loupeReport_taken (hc : s.lup.closed = false) : s.loupeReport r = s.addReport i r := by
  rw [State.reportEntry] at h
  rw [State.loupeReport, h]
  exact if_neg (ne_true_of_eq_false hc)

end

/-! ### OFFLOAD_DONE (R276) -/

theorem State.setGroup_group {s : State} {i : Nat} {g : StashGroup} (h : s.sts.groups[i]? = some g) (f : StashGroup → StashGroup) :
    (s.setGroup i f).sts.groups[i]? = some (f g) := by
  have hi : i < s.sts.groups.length := (List.getElem?_eq_some_iff.1 h).1
  have hzip : (s.sts.groups.zip (List.range s.sts.groups.length))[i]? = some (g, i) :=
    List.getElem?_zip_eq_some.2 ⟨h, List.getElem?_range hi⟩
  have hmap := congrArg (Option.map (fun x : StashGroup × Nat => if x.2 = i then f x.1 else x.1)) hzip
  rw [← List.getElem?_map, Option.map_some, if_pos rfl] at hmap
  exact hmap

/-- A finished off-load counted and flagged, before its group is marked. -/
def State.offloaded (s : State) (g : StashGroup) : State :=
  (((s.placeEntries g g.taddr).bump Reg.STS_CNT_OFFLOAD 1).bump Reg.STS_CNT_OFFLOAD_MIB (g.size / 2 ^ 20)).stick Reg.STS_STATUS 1

theorem State.offloaded_reg (s : State) (g : StashGroup) (r : Nat) : (s.offloaded g).reg r =
    ((((s.placeEntries g g.taddr).bump Reg.STS_CNT_OFFLOAD 1).bump Reg.STS_CNT_OFFLOAD_MIB (g.size / 2 ^ 20)).stick
      Reg.STS_STATUS 1).reg r := rfl

theorem State.placeEntries_reg (s : State) (g : StashGroup) (b : Nat) {r : Nat} (h : r ≠ Reg.HBM_CNT_WCB_RMW) :
    (s.placeEntries g b).reg r = s.reg r :=
  s.stores_reg _ h

theorem State.offloaded_count (s : State) (g : StashGroup) :
    (s.offloaded g).reg Reg.STS_CNT_OFFLOAD = satAdd (s.reg Reg.STS_CNT_OFFLOAD) 1 := by
  rw [State.offloaded_reg, State.stick_reg, if_neg (by decide), State.bump_reg, if_neg (by decide), State.bump_reg, if_pos rfl,
    State.placeEntries_reg _ _ _ (by decide)]

theorem State.offloaded_size (s : State) (g : StashGroup) :
    (s.offloaded g).reg Reg.STS_CNT_OFFLOAD_MIB = satAdd (s.reg Reg.STS_CNT_OFFLOAD_MIB) (g.size / 2 ^ 20) := by
  rw [State.offloaded_reg, State.stick_reg, if_neg (by decide), State.bump_reg, if_pos rfl, State.bump_reg,
    if_neg (by decide), State.placeEntries_reg _ _ _ (by decide)]

theorem State.offloaded_flag (s : State) (g : StashGroup) : (s.offloaded g).regBit Reg.STS_STATUS 1 = true :=
  State.stick_regBit _ _ (by decide)

theorem State.offloaded_mem (s : State) (g : StashGroup) : (s.offloaded g).mem = (s.placeEntries g g.taddr).mem := by
  rw [State.offloaded, State.stick_mem, State.bump_mem, State.bump_mem]

theorem State.offloaded_group {s : State} {i : Nat} {g : StashGroup} (h : s.sts.groups[i]? = some g) :
    (s.offloaded g).sts.groups[i]? = some g := by
  rw [State.offloaded, State.stick_sts, State.bump_sts, State.bump_sts, State.placeEntries, State.stores_sts, h]

theorem exec_offloadDone_counts {s : State} {i : BitVec 16} {g : StashGroup} (h : s.sts.groups[i.toNat]? = some g)
    (hp : g.phase = .offloading) (hd : g.done = false) (hl : s.sts.lossSeen = false)
    (ht : ∀ t ∈ s.lnk.trans ++ s.lnk.backlog, t.owner ≠ .offload i.toNat) :
    exec (.offloadDone i) s = .next ((s.offloaded g).setGroup i.toNat (fun g => { g with done := true })) := by
  have hnone : (s.lnk.trans ++ s.lnk.backlog).any (fun t => t.owner == .offload i.toNat) = false :=
    List.any_eq_false.2 fun t hmem => by simpa using ht t hmem
  change execOffloadDone i s = _
  unfold execOffloadDone
  dsimp only
  rw [h]
  dsimp only
  rw [hnone, hd, hl, if_neg (by simp [hp])]
  rfl

end Sys2Proof.Machine

namespace Sys2Proof.Fabric

open Sys2Proof Sys2Proof.Machine

/-- Settles O52, part by part: a collective's row, a peer's silence, a Loupe report and a finished off-load. -/
theorem collectivesAndReports : Obligations.CollectivesAndReports := by
  intro s desc r
  refine ⟨fun hr h1 hp hs ha => ?_, fun n hn => ⟨fun hi => ?_, exec_peerTimeout_waits⟩,
    fun a => ⟨exec_loupeReport_rerun, fun hre hno => ?_, fun i hre hit => ⟨fun hc => ?_, fun hc => ?_⟩⟩,
    fun i g hg hph hd hl ht => ?_⟩
  · dsimp only
    intro x hx hop hf
    have hrun : exec x.2.2 s = .next (s.outOfSlot ((s.slotView r).colTry ((s.slotView r).coll desc.toNat) r.ref)) := by
      rw [exec_of_colRows hx, State.colRow_tries hr h1 hp hs ha hop hf]
    refine ⟨fun hform hk htab hdup hme hok hacc => ?_, fun hform => ?_⟩
    · rw [hrun, State.colTry_starts hform hk htab hdup hme hok hacc rfl]
      rfl
    · rw [hrun, State.colTry_malformed hform]
      rfl
  · have h := s.peerSilent_gone (s.col.ranks.getD n.toNat 0) s.col.ref
    exact ⟨_, exec_peerTimeout_ends hn hi, h.idle, h.station, h.flag, h.count, h.uncommittable, h.mem⟩
  · rw [exec_loupeReport_reports hre, State.loupeReport_untracked hno]
  · refine ⟨_, (exec_loupeReport_reports hre).trans (congrArg _ (State.loupeReport_late hit hc)), rfl, ?_, ?_⟩
    · rw [State.setLup_reg, State.stick_reg, if_neg (by decide), State.bump_reg, if_pos rfl]
    · exact State.stick_regBit _ _ (by decide)
  · rw [exec_loupeReport_reports hre, State.loupeReport_taken hit hc]
  · refine ⟨_, exec_offloadDone_counts hg hph hd hl ht, State.setGroup_group (State.offloaded_group hg) _,
      (State.setGroup_mem _ _ _).trans (s.offloaded_mem g), ?_, ?_, ?_⟩
    · rw [State.regBit, State.setGroup_reg]
      exact s.offloaded_flag g
    · rw [State.setGroup_reg, State.offloaded_count]
    · rw [State.setGroup_reg, State.offloaded_size]

end Sys2Proof.Fabric
end

section
/-! ## The SPDM responder (R544, R555, R559; log entry 19) -/

namespace Sys2Proof.Machine

/-! ### Bytes and lengths -/

theorem toLe_one (n : Nat) : toLe 1 n = [BitVec.ofNat 8 n] := rfl

theorem spdmMsg_bytes (q : SpdmReq) (code p1 p2 : Nat) (rest : List Byte) :
    spdmMsg q.ver code p1 p2 rest = [q.version, BitVec.ofNat 8 code, BitVec.ofNat 8 p1, BitVec.ofNat 8 p2] ++ rest := by
  have hver : BitVec.ofNat 8 q.ver = q.version := by rw [SpdmReq.ver, BitVec.ofNat_toNat, BitVec.setWidth_eq]
  simp only [spdmMsg, toLe_one, hver, List.cons_append, List.nil_append]

theorem shaAbsorb_length_le (v : List Word) (b : List Byte) : (shaAbsorb v b).length ≤ v.length := by
  rw [shaAbsorb, List.length_zipWith]
  exact Nat.min_le_left _ _

theorem foldl_shaAbsorb_length_le (bs : List (List Byte)) (v : List Word) : (bs.foldl shaAbsorb v).length ≤ v.length := by
  induction bs generalizing v with
  | nil => exact Nat.le_refl _
  | cons b bs ih => exact (ih _).trans (shaAbsorb_length_le v b)

/-- A digest has at most its 32 bytes. -/
theorem sha256_length_le (msg : List Byte) : (sha256 msg).length ≤ 32 := by
  have hwords (v : List Word) : (v.flatMap (fun w => toBe 4 w.toNat)).length = 4 * v.length := by
    induction v with
    | nil => rfl
    | cons w v ih =>
      rw [List.flatMap_cons, List.length_append, ih, toBe, List.length_reverse, toLe_length, List.length_cons]
      omega
  unfold sha256
  dsimp only
  rw [hwords]
  have hfold := foldl_shaAbsorb_length_le
    (chunks 64 ((msg ++ 0x80 :: List.replicate ((119 - msg.length % 64) % 64) 0 ++ toBe 8 (8 * msg.length)).length / 64)
      (msg ++ 0x80 :: List.replicate ((119 - msg.length % 64) % 64) 0 ++ toBe 8 (8 * msg.length)))
    ((shaPrimes.take 8).map (rootFraction 2))
  have hinit : ((shaPrimes.take 8).map (rootFraction 2)).length ≤ 8 := by
    rw [List.length_map]
    exact List.length_take_le _ _
  omega

/-! ### How a response leaves -/

section

variable {s t : State}

/-- Of a state: what answering a request keeps, memory, the answers given before, and that no chunked request is open. -/
structure SpdmServed (s t : State) : Prop where
  mem : t.mem = s.mem
  out : t.sec.spdm.out = s.sec.spdm.out
  chunk : s.sec.spdm.chunk = none → t.sec.spdm.chunk = none

theorem SpdmServed.refl (s : State) : SpdmServed s s := ⟨rfl, rfl, id⟩

theorem SpdmServed.trans {u : State} (h : SpdmServed s t) (k : SpdmServed t u) : SpdmServed s u :=
  ⟨k.mem.trans h.mem, k.out.trans h.out, fun hs => k.chunk (h.chunk hs)⟩

/-- A message leaves: at most a large response's place and a flag of ERROR are changed beside it. -/
structure SpdmSent (t u : State) : Prop where
  spdm : ∃ l n m, u.sec.spdm = { t.sec.spdm with large := l, nextHandle := n, out := t.sec.spdm.out ++ [m] }
  mem : u.mem = t.mem
  freeCtr : u.freeCtr = t.freeCtr
  reg : ∀ r, r ≠ Reg.SEC_CNT_SPDM_ERR → r ≠ Reg.SEC_STATUS → u.reg r = t.reg r
  flag : t.regBit Reg.SEC_STATUS 7 = true → u.regBit Reg.SEC_STATUS 7 = true

theorem State.spdmFault_reg (s : State) (ver code : Nat) (rest : List Byte) (r : Nat) :
    (s.spdmFault ver code rest).2.reg r = ((s.bump Reg.SEC_CNT_SPDM_ERR 1).stick Reg.SEC_STATUS 7).reg r := rfl

theorem State.spdmFault_flag (s : State) (ver code : Nat) (rest : List Byte) :
    (s.spdmFault ver code rest).2.regBit Reg.SEC_STATUS 7 = true :=
  State.stick_regBit _ _ (by decide)

theorem SpdmOut.fit_fits {m : List Byte} {ver : Nat} (h : m.length ≤ Nat.min t.sec.spdm.limit 4096) :
    SpdmOut.fit (m, t) ver = (m, t) :=
  if_pos h

/-- A response of the requester's transfer size or less leaves as it is. -/
theorem SpdmOut.send_fits {m : List Byte} {ver : Nat} (h : m.length ≤ Nat.min t.sec.spdm.limit 4096) :
    SpdmOut.send (m, t) ver = t.setSpdm (fun x => { x with out := x.out ++ [m] }) := by
  rw [SpdmOut.send, SpdmOut.fit_fits h]

/-- A response kept as a large one, whose ERROR leaves in its place. -/
def State.keptLarge (s : State) (m : List Byte) : State :=
  s.setSpdm fun x => { x with large := some (s.sec.spdm.nextHandle % 256, m), nextHandle := s.sec.spdm.nextHandle % 256 + 1 }

theorem SpdmOut.fit_large {m : List Byte} {ver : Nat} (h : ¬ m.length ≤ Nat.min t.sec.spdm.limit 4096) :
    SpdmOut.fit (m, t) ver = (t.keptLarge m).spdmFault ver 0x0F (toLe 1 (t.sec.spdm.nextHandle % 256)) :=
  if_neg h

theorem SpdmOut.send_sent (r : SpdmOut) (ver : Nat) : SpdmSent r.2 (r.send ver) := by
  obtain ⟨m, t⟩ := r
  by_cases h : m.length ≤ Nat.min t.sec.spdm.limit 4096
  · rw [SpdmOut.send_fits h]
    exact ⟨⟨_, _, m, rfl⟩, rfl, rfl, fun _ _ _ => rfl, id⟩
  · rw [SpdmOut.send, SpdmOut.fit_large h]
    refine ⟨⟨_, _, _, rfl⟩, rfl, rfl, fun r h1 h2 => ?_, fun _ => State.spdmFault_flag (t.keptLarge m) ver 0x0F
      (toLe 1 (t.sec.spdm.nextHandle % 256))⟩
    refine (State.spdmFault_reg (t.keptLarge m) ver 0x0F (toLe 1 (t.sec.spdm.nextHandle % 256)) r).trans ?_
    rw [State.stick_reg, if_neg h2, State.bump_reg, if_neg h1]
    rfl

theorem SpdmOut.fit_served (r : SpdmOut) (ver : Nat) : SpdmServed r.2 (r.fit ver).2 := by
  obtain ⟨m, t⟩ := r
  by_cases h : m.length ≤ Nat.min t.sec.spdm.limit 4096
  · rw [SpdmOut.fit_fits h]
    exact .refl t
  · rw [SpdmOut.fit_large h]
    exact ⟨rfl, rfl, id⟩

/-- A request is answered with one message. -/
theorem SpdmOut.send_answers {r : SpdmOut} (hm : r.2.mem = s.mem) (ho : r.2.sec.spdm.out = s.sec.spdm.out) (ver : Nat) :
    (r.send ver).sec.spdm.out.length = s.sec.spdm.out.length + 1 ∧ (r.send ver).mem = s.mem := by
  obtain ⟨⟨l, n, m, hspdm⟩, hmem, -, -, -⟩ := r.send_sent ver
  refine ⟨?_, hmem.trans hm⟩
  rw [hspdm, ho]
  exact List.length_append

end

/-! ### The order of requests -/

section

variable {s : State} {q : SpdmReq} {f : State → SpdmOut}

theorem State.spdmIf_other {w : Nat} (h : s.sec.spdm.version = some w) (hw : w ≠ q.ver) :
    s.spdmIf q f = s.spdmError q.ver 0x41 :=
  if_pos (by simp [h, hw])

variable (hv : s.sec.spdm.version = some q.ver)
include hv

theorem State.spdmIf_early (ha : s.sec.spdm.algos = false) : s.spdmIf q f = s.spdmError q.ver 0x04 :=
  (if_neg (by simp [hv])).trans (if_neg (by simp [ha]))

variable (ha : s.sec.spdm.algos = true)
include ha

theorem State.spdmIf_ready : s.spdmIf q f = f s :=
  (if_neg (by simp [hv])).trans (if_pos (by simp [hv, ha]))

theorem State.spdmSecured_ready {y : SpdmSession} {g : SpdmSession → State → SpdmOut} (hy : s.spdmSession q = some y)
    (hf : y.finished = true) : s.spdmSecured q g = g y s := by
  rw [State.spdmSecured, State.spdmIf_ready hv ha, hy]
  exact if_pos hf

end

/-- The requests that need a negotiated connection. -/
def SpdmLater (q : SpdmReq) (i : Instr) : Prop := i ∈
  [Instr.getDigests q, .getCertificate q, .challenge q, .getMeasurements q, .keyExchange q, .finish q, .endSession q, .heartbeat q,
    .keyUpdate q, .chunkSend q, .chunkGet q, .vendorDefinedRequest q]

theorem exec_of_spdmLater {q : SpdmReq} {i : Instr} (h : SpdmLater q i) :
    ∃ f : State → SpdmOut, ∀ s, exec i s = .next ((s.spdmIf q f).send q.ver) := by
  simp only [SpdmLater, List.mem_cons, List.not_mem_nil, or_false] at h
  rcases h with rfl | rfl | rfl | rfl | rfl | rfl | rfl | rfl | rfl | rfl | rfl | rfl
  all_goals exact ⟨_, fun _ => rfl⟩

section

variable {s : State} {q : SpdmReq} {i : Instr}

theorem exec_spdmLater_other {w : Nat} (h : s.sec.spdm.version = some w) (hw : w ≠ q.ver) (hi : SpdmLater q i) :
    exec i s = .next (s.spdmRefuses q.ver 0x41) := by
  obtain ⟨f, hf⟩ := exec_of_spdmLater hi
  rw [hf, State.spdmIf_other h hw]
  rfl

theorem exec_spdmLater_early (hv : s.sec.spdm.version = some q.ver) (ha : s.sec.spdm.algos = false) (hi : SpdmLater q i) :
    exec i s = .next (s.spdmRefuses q.ver 0x04) := by
  obtain ⟨f, hf⟩ := exec_of_spdmLater hi
  rw [hf, State.spdmIf_early hv ha]
  rfl

end

/-! ### What the handlers keep -/

section

variable (s : State) (q : SpdmReq)

theorem State.spdmError_served (ver code : Nat) : SpdmServed s (s.spdmError ver code).2 := ⟨rfl, rfl, id⟩

theorem State.dropLogs_served (cert meas : Bool) : SpdmServed s (s.dropLogs cert meas) := ⟨rfl, rfl, id⟩

theorem State.certSaid_served (code : Nat) (m : List Byte) : SpdmServed s (s.certSaid q code m).2 := ⟨rfl, rfl, id⟩

/-- The state after a signature over a fresh nonce, both transcripts begun anew. -/
def State.signedOff (s : State) : State :=
  (({ s with freeCtr := s.freeCtr + 1 + 1 }).bump Reg.SEC_CNT_ATTEST 1).dropLogs true true

theorem State.signedOff_served : SpdmServed s s.signedOff := ⟨rfl, rfl, id⟩

variable {s q}

theorem State.spdmIf_served {f : State → SpdmOut} (h : SpdmServed s (f s).2) : SpdmServed s (s.spdmIf q f).2 := by
  unfold State.spdmIf
  dsimp only
  split
  · exact s.spdmError_served _ _
  · split
    · exact h
    · exact s.spdmError_served _ _

theorem State.spdmSecured_served {g : SpdmSession → State → SpdmOut} (h : ∀ y, SpdmServed s (g y s).2) :
    SpdmServed s (s.spdmSecured q g).2 := by
  refine State.spdmIf_served ?_
  split
  · split
    · exact h _
    · exact s.spdmError_served _ _
  · exact s.spdmError_served _ _

variable (s q)

theorem spdmVersion_served : SpdmServed s (spdmVersion q s).2 := ⟨rfl, rfl, fun _ => rfl⟩

theorem spdmCapabilities_served : SpdmServed s (spdmCapabilities q s).2 := by
  unfold spdmCapabilities
  dsimp only
  split
  · exact s.spdmError_served _ _
  · split
    · exact s.spdmError_served _ _
    · split
      · exact s.spdmError_served _ _
      · exact ⟨rfl, rfl, id⟩

theorem spdmAlgorithms_served : SpdmServed s (spdmAlgorithms q s).2 := by
  unfold spdmAlgorithms
  dsimp only
  split
  · exact s.spdmError_served _ _
  · split
    · exact s.spdmError_served _ _
    · exact ⟨rfl, rfl, id⟩

theorem spdmDigests_served : SpdmServed s (spdmDigests q s).2 := State.spdmIf_served (s.certSaid_served q _ _)

theorem spdmCertificate_served : SpdmServed s (spdmCertificate q s).2 := by
  refine State.spdmIf_served ?_
  dsimp only
  split
  · exact s.spdmError_served _ _
  · exact s.certSaid_served q _ _

theorem spdmChallenge_served : SpdmServed s (spdmChallenge q s).2 := by
  refine State.spdmIf_served ?_
  dsimp only
  split
  · exact s.spdmError_served _ _
  · exact s.signedOff_served

theorem spdmMeasurements_served : SpdmServed s (spdmMeasurements q s).2 := by
  refine State.spdmIf_served ?_
  dsimp only
  split
  · exact s.spdmError_served _ _
  · split
    · exact s.signedOff_served
    · exact ⟨rfl, rfl, id⟩

theorem spdmKeyExchange_served : SpdmServed s (spdmKeyExchange q s).2 := by
  refine State.spdmIf_served ?_
  dsimp only
  split
  · exact s.spdmError_served _ _
  · split
    · exact s.spdmError_served _ _
    · split
      · exact s.spdmError_served _ _
      · exact ⟨rfl, rfl, id⟩

theorem spdmFinish_served : SpdmServed s (spdmFinish q s).2 := by
  refine State.spdmIf_served ?_
  split
  · exact s.spdmError_served _ _
  · split
    · exact s.spdmError_served _ _
    · split
      · exact ⟨rfl, rfl, id⟩
      · exact ⟨rfl, rfl, id⟩

theorem spdmEndSession_served : SpdmServed s (spdmEndSession q s).2 := State.spdmSecured_served fun _ => ⟨rfl, rfl, id⟩

theorem spdmHeartbeat_served : SpdmServed s (spdmHeartbeat q s).2 := State.spdmSecured_served fun _ => s.dropLogs_served _ _

theorem spdmKeyUpdate_served : SpdmServed s (spdmKeyUpdate q s).2 := by
  refine State.spdmSecured_served fun _ => ?_
  split
  · exact s.spdmError_served _ _
  · exact s.dropLogs_served _ _

theorem spdmVendor_served : SpdmServed s (spdmVendor q s).2 := by
  refine State.spdmSecured_served fun _ => ?_
  split
  · exact s.spdmError_served _ _
  · split
    · exact s.spdmError_served _ _
    · exact ⟨rfl, rfl, id⟩

/-- Serving a whole request keeps what `SpdmServed` says, whatever its code. -/
theorem spdmServe_served (code : Nat) : SpdmServed s (spdmServe code q s).2 := by
  unfold spdmServe
  split
  · exact spdmVersion_served s q
  · exact spdmCapabilities_served s q
  · exact spdmAlgorithms_served s q
  · exact spdmDigests_served s q
  · exact spdmCertificate_served s q
  · exact spdmChallenge_served s q
  · exact spdmMeasurements_served s q
  · exact spdmKeyExchange_served s q
  · exact spdmFinish_served s q
  · exact spdmEndSession_served s q
  · exact spdmHeartbeat_served s q
  · exact spdmKeyUpdate_served s q
  · exact spdmVendor_served s q
  · exact s.spdmError_served _ _

end

/-! ### Negotiation -/

section

variable {s : State} {q : SpdmReq}

/-- The connection begun anew by GET_VERSION. -/
def State.connectionBegun (s : State) (q : SpdmReq) : State := (spdmVersion q s).2

theorem exec_getVersion_begins : exec (.getVersion q) s = .next ((s.connectionBegun q).setSpdm fun x =>
    { x with out := x.out ++ [[0x10, 0x04, 0, 0, 0, 2, 0x00, 0x13, 0x00, 0x12]] }) :=
  congrArg Host.Outcome.next (SpdmOut.send_fits (t := s.connectionBegun q) (show 10 ≤ Nat.min 4096 4096 by decide))

theorem exec_getCapabilities_refused (h2 : q.ver ≠ 0x12) (h3 : q.ver ≠ 0x13) :
    exec (.getCapabilities q) s = .next (s.spdmRefuses q.ver 0x41) :=
  congrArg (fun r => Host.Outcome.next (SpdmOut.send r q.ver)) (if_pos ⟨h2, h3⟩)

theorem spdmCapabilities_negotiates (hv : q.ver = 0x12 ∨ q.ver = 0x13) (hvca : s.sec.spdm.vca ≠ []) (hn : 42 ≤ u32At q.body 8) :
    ∃ (m : List Byte) (g : SpdmState → List Byte), spdmCapabilities q s = (m, s.setSpdm fun x => { x with
      version := some q.ver, caps := true, limit := u32At q.body 8, vca := g x }) := by
  unfold spdmCapabilities
  rw [if_neg (by omega), if_neg (by rw [List.isEmpty_iff]; exact hvca)]
  dsimp only
  rw [if_neg (Nat.not_lt.2 hn)]
  exact ⟨_, _, rfl⟩

theorem exec_negotiateAlgorithms_other {w : Nat} (h : s.sec.spdm.version = some w) (hw : w ≠ q.ver) :
    exec (.negotiateAlgorithms q) s = .next (s.spdmRefuses q.ver 0x41) :=
  congrArg (fun r => Host.Outcome.next (SpdmOut.send r q.ver)) (if_pos (by simp [h, hw]))

theorem exec_negotiateAlgorithms_early (hv : s.sec.spdm.version = some q.ver) (hc : s.sec.spdm.caps = false) :
    exec (.negotiateAlgorithms q) s = .next (s.spdmRefuses q.ver 0x04) :=
  congrArg (fun r => Host.Outcome.next (SpdmOut.send r q.ver)) ((if_neg (by simp [hv])).trans (if_pos (by simp [hc])))

theorem spdmAlgorithms_negotiates (hv : s.sec.spdm.version = some q.ver) (hc : s.sec.spdm.caps = true) :
    ∃ (m : List Byte) (g : SpdmState → List Byte), spdmAlgorithms q s =
      (m, s.setSpdm fun x => { x with algos := true, vca := g x }) := by
  unfold spdmAlgorithms
  dsimp only
  rw [if_neg (by simp [hv]), if_neg (by simp [hc])]
  exact ⟨_, _, rfl⟩

end

/-! ### Requests on a negotiated connection -/

/-- The measurements that a request may ask for. -/
theorem measIndex_ok {i : BitVec 8} (h : i = 0xFF ∨ i.toNat ≤ 10) : ¬ (i.toNat ≠ 0xFF ∧ 10 < i.toNat) := by
  rcases h with rfl | h
  · decide
  · omega

section

variable {s : State} {q : SpdmReq} (hv : s.sec.spdm.version = some q.ver) (ha : s.sec.spdm.algos = true)
include hv ha

/-! #### Certificates -/

/-- A request and its answer added to the transcript of certificate requests. -/
def State.withCertLog (s : State) (bs : List Byte) : State :=
  s.setSpdm fun x => { x with certLog := x.certLog ++ bs, measLog := [] }

theorem spdmDigests_answers : ∃ bs, spdmDigests q s =
    ([q.version, 0x01, 0, 1] ++ sha256 s.spdmChain, s.withCertLog bs) := by
  rw [spdmDigests, State.spdmIf_ready hv ha, State.certSaid, spdmMsg_bytes]
  exact ⟨_, congrArg (Prod.mk _) (congrArg s.setSpdm (funext fun x => by rw [List.append_assoc]))⟩

theorem spdmCertificate_answers (hp : q.param1 = 0) {c : List Byte} {off n : Nat} (hc : c = s.spdmChain) (ho : off = u16At q.body 0)
    (hn : n = Nat.min (u16At q.body 2) (c.length - off)) : ∃ bs, spdmCertificate q s =
    ([q.version, 0x02, 0, 0] ++ toLe 2 n ++ toLe 2 (c.length - off - n) ++ slice c off n, s.withCertLog bs) := by
  subst hn ho hc
  rw [spdmCertificate, State.spdmIf_ready hv ha, if_neg (not_not_intro hp)]
  dsimp only
  rw [State.certSaid, spdmMsg_bytes, List.append_assoc, List.append_assoc, List.append_assoc]
  exact ⟨_, congrArg (Prod.mk _) (congrArg s.setSpdm (funext fun x => by rw [List.append_assoc]))⟩

/-! #### Signed answers -/

theorem spdmChallenge_signs (hp : q.param1 = 0) (hk : q.param2.toNat ∈ [0, 1, 0xFF]) :
    ∃ m, spdmChallenge q s = (m, s.signedOff) := by
  have hkind : ¬ (q.param1 ≠ 0 ∨ (q.param2.toNat ≠ 0 ∧ q.param2.toNat ≠ 1 ∧ q.param2.toNat ≠ 0xFF)) := by
    simp only [List.mem_cons, List.not_mem_nil, or_false] at hk
    rintro (h | h)
    · exact h hp
    · omega
  rw [spdmChallenge, State.spdmIf_ready hv ha]
  dsimp only
  rw [if_neg hkind]
  exact ⟨_, rfl⟩

/-- The state after an unsigned answer of measurements: a nonce drawn, the transcript of measurement requests longer. -/
def State.withMeasLog (s : State) (log : List Byte) : State :=
  (s.nonce.2.dropLogs true false).setSpdm fun x => { x with measLog := log }

theorem spdmMeasurements_unsigned (hi : q.param2 = 0xFF ∨ q.param2.toNat ≤ 10) (hs : q.param1.getLsbD 0 = false) :
    ∃ m log, spdmMeasurements q s = (m, s.withMeasLog log) := by
  have hok : ¬ ((q.param2.toNat ≠ 0xFF ∧ 10 < q.param2.toNat) ∨ (q.param1.getLsbD 0 = true ∧ byteAt q.body 32 ≠ 0)) :=
    not_or.2 ⟨measIndex_ok hi, fun h => absurd (hs.symm.trans h.1) Bool.false_ne_true⟩
  rw [spdmMeasurements, State.spdmIf_ready hv ha]
  dsimp only
  rw [if_neg hok, if_neg (ne_true_of_eq_false hs)]
  exact ⟨_, _, rfl⟩

theorem spdmMeasurements_signs (hi : q.param2 = 0xFF ∨ q.param2.toNat ≤ 10) (hs : q.param1.getLsbD 0 = true)
    (hslot : byteAt q.body 32 = 0) : ∃ m, spdmMeasurements q s = (m, s.signedOff) := by
  have hok : ¬ ((q.param2.toNat ≠ 0xFF ∧ 10 < q.param2.toNat) ∨ (q.param1.getLsbD 0 = true ∧ byteAt q.body 32 ≠ 0)) :=
    not_or.2 ⟨measIndex_ok hi, fun h => h.2 hslot⟩
  rw [spdmMeasurements, State.spdmIf_ready hv ha]
  dsimp only
  rw [if_neg hok, if_pos hs]
  exact ⟨_, rfl⟩

/-! #### Sessions -/

theorem exec_keyExchange_full (h : 4 ≤ s.sec.spdm.sessions.length) :
    exec (.keyExchange q) s = .next (s.spdmRefuses q.ver 0x0A) :=
  congrArg (fun r => Host.Outcome.next (SpdmOut.send r q.ver)) ((State.spdmIf_ready hv ha).trans (if_pos h))

/-- A session opened: the random draws made, the transcripts begun anew. -/
def State.withSession (s : State) (y : SpdmSession) : State :=
  ({ s with freeCtr := s.freeCtr + 1 }).signedOff.setSpdm fun x => { x with
    sessions := x.sessions ++ [y], nextSession := s.sec.spdm.nextSession % 65536 + 1 }

theorem spdmKeyExchange_opens (hl : s.sec.spdm.sessions.length < 4) (hk : q.param1.toNat ∈ [0, 1, 0xFF]) (hp : q.param2 = 0)
    (hpoint : (bytesPoint (slice q.body 36 96)).isSome = true) : ∃ m y, spdmKeyExchange q s = (m, s.withSession y) ∧
      y.finished = false ∧ y.id = u16At q.body 0 + 65536 * (s.sec.spdm.nextSession % 65536) := by
  obtain ⟨peer, hpeer⟩ := Option.isSome_iff_exists.1 hpoint
  have hkind : ¬ (q.param2 ≠ 0 ∨ (q.param1.toNat ≠ 0 ∧ q.param1.toNat ≠ 1 ∧ q.param1.toNat ≠ 0xFF)) := by
    simp only [List.mem_cons, List.not_mem_nil, or_false] at hk
    rintro (h | h)
    · exact h hp
    · omega
  rw [spdmKeyExchange, State.spdmIf_ready hv ha]
  dsimp only
  rw [if_neg (Nat.not_le.2 hl), if_neg hkind, hpeer]
  exact ⟨_, _, rfl, rfl, rfl⟩

section

variable {y : SpdmSession} (hy : s.spdmSession q = some y)
include hy

/-- A session whose verify data were good. -/
def State.withFinished (s : State) (id : Nat) : State :=
  (s.dropLogs true true).setSpdm fun x => { x with
    sessions := x.sessions.map (fun z => if z.id = id then { z with finished := true } else z) }

/-- The verify data that complete a session. -/
def SpdmSession.verify (y : SpdmSession) (q : SpdmReq) : Prop :=
  hmacSha256 y.finishKey (sha256 (y.log ++ [q.version, 0xE5, q.param1, q.param2])) = slice q.body 0 32

theorem spdmFinish_good (hf : y.finished = false) (hg : y.verify q) :
    spdmFinish q s = ([q.version, 0x65, 0, 0], s.withFinished y.id) := by
  rw [spdmFinish, State.spdmIf_ready hv ha, hy]
  dsimp only
  rw [if_neg (ne_true_of_eq_false hf), spdmMsg_bytes]
  exact if_pos hg

theorem spdmFinish_bad (hf : y.finished = false) (hg : ¬ y.verify q) :
    spdmFinish q s = (s.endSession y.id).spdmError q.ver 0x06 := by
  rw [spdmFinish, State.spdmIf_ready hv ha, hy]
  dsimp only
  rw [if_neg (ne_true_of_eq_false hf)]
  exact if_neg hg

variable (hf : y.finished = true)
include hf

theorem spdmEndSession_ends : spdmEndSession q s = ([q.version, 0x6C, 0, 0], (s.dropLogs true true).endSession y.id) := by
  rw [spdmEndSession, State.spdmSecured_ready hv ha hy hf, spdmMsg_bytes]
  rfl

theorem spdmHeartbeat_answers : spdmHeartbeat q s = ([q.version, 0x68, 0, 0], s.dropLogs true true) := by
  rw [spdmHeartbeat, State.spdmSecured_ready hv ha hy hf, spdmMsg_bytes]
  rfl

theorem spdmKeyUpdate_answers (h1 : 1 ≤ q.param1.toNat) (h3 : q.param1.toNat ≤ 3) :
    spdmKeyUpdate q s = ([q.version, 0x69, q.param1, q.param2], s.dropLogs true true) := by
  rw [spdmKeyUpdate, State.spdmSecured_ready hv ha hy hf, if_neg (by omega), spdmMsg_bytes, BitVec.ofNat_toNat,
    BitVec.setWidth_eq, BitVec.ofNat_toNat, BitVec.setWidth_eq]
  rfl

theorem spdmVendor_answers {k : IdeKm} {o : List Byte × HostState} (hk : ideKm q.body = some k) (ho : s.host.ideServe k = some o) :
    spdmVendor q s = ([q.version, 0x7E, 0, 0] ++ slice q.body 0 5 ++ toLe 2 o.1.length ++ o.1,
      ({ s with host := o.2 }).dropLogs true true) := by
  rw [spdmVendor, State.spdmSecured_ready hv ha hy hf, hk]
  dsimp only
  rw [ho]
  dsimp only
  rw [spdmMsg_bytes, List.append_assoc, List.append_assoc, List.append_assoc]
  rfl

end

/-! #### Chunks -/

theorem spdmChunkSend_gathers {c : Nat × Nat × Nat × List Byte} (hc : s.takeChunk q = some c) (hl : c.2.2.2.length ≤ c.2.2.1)
    (hn : c.2.2.1 ≤ 65536) (hlast : q.param1.getLsbD 0 = false) :
    ∃ m, spdmChunkSend q s = (m, s.setSpdm fun x => { x with chunk := some c }) := by
  rw [spdmChunkSend, State.spdmIf_ready hv ha]
  dsimp only
  rw [hc]
  dsimp only
  rw [if_neg (by omega), if_neg (ne_true_of_eq_false hlast)]
  exact ⟨_, rfl⟩

/-- The state without a chunked request. -/
def State.withoutChunk (s : State) : State := s.setSpdm fun x => { x with chunk := none }

theorem spdmChunkSend_serves {c : Nat × Nat × Nat × List Byte} (hc : s.takeChunk q = some c) (hl : c.2.2.2.length = c.2.2.1)
    (hn : c.2.2.1 ≤ 65536) (hlast : q.param1.getLsbD 0 = true) :
    ∃ m code r, spdmChunkSend q s = (m, ((spdmServe code r s.withoutChunk).fit q.ver).2) := by
  rw [spdmChunkSend, State.spdmIf_ready hv ha]
  dsimp only
  rw [hc]
  dsimp only
  rw [if_neg (by omega), if_pos hlast, if_neg (not_not_intro hl)]
  exact ⟨_, _, _, rfl⟩

theorem spdmChunkSend_unordered (hc : s.takeChunk q = none) :
    spdmChunkSend q s = s.withoutChunk.spdmError q.ver 0x01 := by
  rw [spdmChunkSend, State.spdmIf_ready hv ha]
  dsimp only
  rw [hc]
  rfl

theorem exec_chunkGet_none (h : s.sec.spdm.large = none) : exec (.chunkGet q) s = .next (s.spdmRefuses q.ver 0x01) := by
  have hget : spdmChunkGet q s = s.spdmError q.ver 0x01 := by
    rw [spdmChunkGet, State.spdmIf_ready hv ha, h]
  exact congrArg (fun r => Host.Outcome.next (SpdmOut.send r q.ver)) hget

/-- The first chunk of a large response of `n` bytes handed out: one that was the whole is kept no longer. -/
def State.firstChunkTaken (s : State) (n room : Nat) : State :=
  s.setSpdm fun x => { x with large := if n ≤ room then none else x.large }

omit hv ha in
theorem State.firstChunkTaken_large {p : Nat × List Byte} (h : s.sec.spdm.large = some p) (n room : Nat) :
    (s.firstChunkTaken n room).sec.spdm.large = if n ≤ room then none else some p :=
  if_congr Iff.rfl rfl h

/-- The first chunk of a large response. -/
theorem spdmChunkGet_first {m : List Byte} (h : s.sec.spdm.large = some (q.param2.toNat, m)) (hn : u16At q.body 0 = 0)
    (hm : m ≠ []) (hl : 42 ≤ s.sec.spdm.limit) {room : Nat} (hr : room = Nat.min s.sec.spdm.limit 4096 - 16) : spdmChunkGet q s =
      ([q.version, 0x06, BitVec.ofNat 8 (b2n (decide (m.length ≤ room))), q.param2, 0, 0, 0, 0] ++ toLe 4 (m.take room).length ++
        toLe 4 m.length ++ m.take room,
      s.firstChunkTaken m.length room) := by
  have hroom : Nat.min s.sec.spdm.limit 4096 - 12 - 4 = room := by omega
  have hpos : 0 < room := by
    rw [hr]
    have hmin : 42 ≤ Nat.min s.sec.spdm.limit 4096 := Nat.le_min.2 ⟨hl, by decide⟩
    omega
  have hlast : decide (m.length ≤ 0 + (m.take room).length) = decide (m.length ≤ room) := by
    rw [Nat.zero_add, List.length_take]
    exact decide_eq_decide.2 (by omega)
  have hsome : ¬ (q.param2.toNat ≠ q.param2.toNat ∨ (m.take room).isEmpty = true) := by
    rw [List.isEmpty_iff, List.take_eq_nil_iff]
    rintro (h | h | h)
    · exact h rfl
    · omega
    · exact hm h
  rw [spdmChunkGet, State.spdmIf_ready hv ha, h]
  dsimp only
  rw [hn, if_pos rfl, if_pos rfl, hroom, List.drop_zero, hlast, if_neg hsome, if_pos rfl, spdmMsg_bytes, BitVec.ofNat_toNat,
    BitVec.setWidth_eq]
  simp only [decide_eq_true_eq]
  rfl

end

end Sys2Proof.Machine
end

section
/-! ## The SPDM responder's answers to its requests -/

namespace Sys2Proof.Machine

section

variable {s t : State} {q : SpdmReq} {i : Instr} {m : List Byte}

/-- A short answer of a served request, as it leaves. -/
theorem replies_of {r : SpdmOut} (hexec : exec i s = .next (r.send q.ver)) (hr : r = (m, t)) (ho : t.sec.spdm.out = s.sec.spdm.out)
    (hfit : m.length ≤ Nat.min t.sec.spdm.limit 4096) : exec i s = .next (t.setSpdm fun x => { x with out := x.out ++ [m] }) ∧
      (t.setSpdm fun x => { x with out := x.out ++ [m] }).sec.spdm.out = s.sec.spdm.out ++ [m] := by
  refine ⟨?_, congrArg (· ++ [m]) ho⟩
  rw [hexec, hr, SpdmOut.send_fits hfit]

/-- Forty-two bytes go through the smallest transfer size. -/
theorem fits_of_le {n limit : Nat} (hn : n ≤ 42) (hl : 42 ≤ limit) : n ≤ Nat.min limit 4096 :=
  Nat.le_min.2 ⟨hn.trans hl, hn.trans (by decide)⟩

theorem HostState.ideServe_length {h : HostState} {k : IdeKm} {o : List Byte × HostState} (ho : h.ideServe k = some o) :
    o.1.length = 8 := by
  unfold HostState.ideServe at ho
  dsimp only at ho
  split at ho
  · obtain rfl := Option.some.inj ho
    simp
  · split at ho
    · obtain rfl := Option.some.inj ho
      simp
    · split at ho
      · obtain rfl := Option.some.inj ho
        simp
      · obtain rfl := Option.some.inj ho
        simp
  · split at ho
    · obtain rfl := Option.some.inj ho
      simp
    · exact absurd ho (by simp)
  · obtain rfl := Option.some.inj ho
    simp
  · exact absurd ho (by simp)

theorem State.signedOff_count (s : State) : s.signedOff.reg Reg.SEC_CNT_ATTEST = satAdd (s.reg Reg.SEC_CNT_ATTEST) 1 :=
  (State.bump_reg { s with freeCtr := s.freeCtr + 1 + 1 } _ _ _).trans (if_pos rfl)

end

end Sys2Proof.Machine

namespace Sys2Proof.Trust

open Sys2Proof Sys2Proof.Machine

section

variable {s : State} {q : SpdmReq}

/-- What every served request's answer leaves. -/
theorem servedAnswer {i : Instr} {r : SpdmOut} {m : List Byte} {t : State} (hexec : exec i s = .next (r.send q.ver))
    (hr : r = (m, t)) (hm : t.mem = s.mem) (ho : t.sec.spdm.out = s.sec.spdm.out) : ∃ u : State, exec i s = .next u ∧
      u.sec.spdm.out.length = s.sec.spdm.out.length + 1 ∧ u.mem = s.mem ∧ SpdmSent t u := by
  subst hr
  obtain ⟨hlen, hmem⟩ := SpdmOut.send_answers (r := (m, t)) hm ho q.ver
  exact ⟨_, hexec, hlen, hmem, SpdmOut.send_sent (m, t) q.ver⟩

/-- What a signed answer leaves, whichever request it answers. -/
theorem signedAnswer {i : Instr} {r : SpdmOut} {m : List Byte} (hexec : exec i s = .next (r.send q.ver)) (hr : r = (m, s.signedOff)) :
    ∃ t : State, exec i s = .next t ∧ t.sec.spdm.out.length = s.sec.spdm.out.length + 1 ∧ t.mem = s.mem ∧
      t.freeCtr = s.freeCtr + 2 ∧ t.reg Reg.SEC_CNT_ATTEST = satAdd (s.reg Reg.SEC_CNT_ATTEST) 1 ∧
      t.sec.spdm.certLog = [] ∧ t.sec.spdm.measLog = [] := by
  obtain ⟨u, hu, hlen, hmem, hsent⟩ := servedAnswer hexec hr rfl rfl
  obtain ⟨l, n, x, hspdm⟩ := hsent.spdm
  refine ⟨u, hu, hlen, hmem, hsent.freeCtr, (hsent.reg _ (by decide) (by decide)).trans s.signedOff_count, ?_, ?_⟩
  all_goals
    rw [hspdm]
    rfl

/-- An answer that is an ERROR flags it. -/
theorem errorAnswer {i : Instr} {r : SpdmOut} {t : State} {code : Nat} (hexec : exec i s = .next (r.send q.ver))
    (hr : r = t.spdmError q.ver code) (hm : t.mem = s.mem) (ho : t.sec.spdm.out = s.sec.spdm.out) :
    ∃ u : State, exec i s = .next u ∧
      u.sec.spdm.out.length = s.sec.spdm.out.length + 1 ∧ u.mem = s.mem ∧ u.sec.spdm.sessions = t.sec.spdm.sessions ∧
      u.sec.spdm.chunk = t.sec.spdm.chunk ∧ u.regBit Reg.SEC_STATUS 7 = true := by
  obtain ⟨u, hu, hlen, hmem, hsent⟩ := servedAnswer hexec hr hm ho
  obtain ⟨l, n, x, hspdm⟩ := hsent.spdm
  refine ⟨u, hu, hlen, hmem, ?_, ?_, hsent.flag (t.spdmFault_flag q.ver code [])⟩
  all_goals
    rw [hspdm]
    rfl

end

/-- Settles O60, request by request. The messages' layouts and codes are the model's choice (log entry 19). -/
theorem spdmProtocol : Obligations.SpdmProtocol := by
  intro s q
  dsimp only
  refine ⟨⟨_, exec_getVersion_begins, rfl, rfl, rfl, rfl, rfl⟩, fun hver hvca hn => ?_, exec_getCapabilities_refused,
    fun w hw hne i hi => ?_, fun hv hl => ⟨fun hc => ?_, exec_negotiateAlgorithms_early hv,
      fun ha i hi => exec_spdmLater_early hv ha hi, fun ha => ⟨?_, fun hp hfit => ?_, fun hp hk => ?_,
        fun hi => ⟨fun hs => ?_, fun hs hslot => ?_⟩, fun hlen hk hp hpt => ?_, exec_keyExchange_full hv ha,
        fun y hy hf => ⟨fun hg => ?_, fun hg => ?_⟩, fun y hy hf => ⟨?_, ?_, fun h1 h3 => ?_, fun k o hk ho => ?_⟩,
        fun c hc hle hn => ⟨fun hlast => ?_, fun hlast hall => ?_⟩, fun hc => ?_, fun h m hlarge hh hn hm => ?_,
        exec_chunkGet_none hv ha⟩⟩⟩
  · obtain ⟨m, g, heq⟩ := spdmCapabilities_negotiates hver hvca hn
    obtain ⟨u, hu, hlen, hmem, hsent⟩ := servedAnswer (i := .getCapabilities q) rfl heq rfl rfl
    obtain ⟨l, n, x, hspdm⟩ := hsent.spdm
    refine ⟨u, hu, hlen, hmem, ?_⟩
    rw [hspdm]
    exact ⟨rfl, rfl, rfl⟩
  · rcases List.mem_cons.1 hi with rfl | hi
    · exact exec_negotiateAlgorithms_other hw hne
    · exact exec_spdmLater_other hw hne hi
  · obtain ⟨m, g, heq⟩ := spdmAlgorithms_negotiates hv hc
    obtain ⟨u, hu, hlen, hmem, hsent⟩ := servedAnswer (i := .negotiateAlgorithms q) rfl heq rfl rfl
    obtain ⟨l, n, x, hspdm⟩ := hsent.spdm
    refine ⟨u, hu, hlen, hmem, ?_⟩
    rw [hspdm]
    rfl
  · obtain ⟨bs, heq⟩ := spdmDigests_answers hv ha
    have hsha := sha256_length_le s.spdmChain
    obtain ⟨hu, hout⟩ := replies_of (i := .getDigests q) rfl heq rfl
      (fits_of_le (by rw [List.length_append]; exact (Nat.add_le_add_left hsha 4).trans (by decide)) hl)
    exact ⟨_, hu, hout, rfl⟩
  · obtain ⟨bs, heq⟩ := spdmCertificate_answers hv ha hp rfl rfl rfl
    obtain ⟨hu, hout⟩ := replies_of (i := .getCertificate q) rfl heq rfl (by
      simp only [List.length_append, toLe_length, slice_length, List.length_cons, List.length_nil]
      exact (by omega : _ ≤ _ + 8).trans hfit)
    exact ⟨_, hu, hout, rfl⟩
  · obtain ⟨m, heq⟩ := spdmChallenge_signs hv ha hp hk
    exact signedAnswer (i := .challenge q) rfl heq
  · obtain ⟨m, log, heq⟩ := spdmMeasurements_unsigned hv ha hi hs
    obtain ⟨u, hu, hlen, hmem, hsent⟩ := servedAnswer (i := .getMeasurements q) rfl heq rfl rfl
    exact ⟨u, hu, hlen, hmem, hsent.freeCtr⟩
  · obtain ⟨m, heq⟩ := spdmMeasurements_signs hv ha hi hs hslot
    obtain ⟨u, hu, hlen, hmem, hfree, hcount, -, hlog⟩ := signedAnswer (i := .getMeasurements q) rfl heq
    exact ⟨u, hu, hlen, hmem, hfree, hcount, hlog⟩
  · obtain ⟨m, y, heq, hfin, hid⟩ := spdmKeyExchange_opens hv ha hlen hk hp hpt
    obtain ⟨u, hu, hlen, hmem, hsent⟩ := servedAnswer (i := .keyExchange q) rfl heq rfl rfl
    obtain ⟨l, n, x, hspdm⟩ := hsent.spdm
    refine ⟨u, hu, hlen, hmem, y, ?_, hfin, hid⟩
    rw [hspdm]
    rfl
  · obtain ⟨hu, hout⟩ := replies_of (i := .finish q) rfl (spdmFinish_good hv ha hy hf hg) rfl
      (fits_of_le (by decide : 4 ≤ 42) hl)
    exact ⟨_, hu, hout, rfl⟩
  · obtain ⟨u, hu, hlen, hmem, hsess, -, hflag⟩ := errorAnswer (i := .finish q) rfl (spdmFinish_bad hv ha hy hf hg) rfl rfl
    exact ⟨u, hu, hlen, hmem, hsess, hflag⟩
  · obtain ⟨hu, hout⟩ := replies_of (i := .endSession q) rfl (spdmEndSession_ends hv ha hy hf) rfl
      (fits_of_le (by decide : 4 ≤ 42) hl)
    exact ⟨_, hu, hout, rfl⟩
  · obtain ⟨hu, hout⟩ := replies_of (i := .heartbeat q) rfl (spdmHeartbeat_answers hv ha hy hf) rfl
      (fits_of_le (by decide : 4 ≤ 42) hl)
    exact ⟨_, hu, hout, rfl, rfl⟩
  · obtain ⟨hu, hout⟩ := replies_of (i := .keyUpdate q) rfl (spdmKeyUpdate_answers hv ha hy hf h1 h3) rfl
      (fits_of_le (by decide : 4 ≤ 42) hl)
    exact ⟨_, hu, hout, rfl, rfl⟩
  · have hlen := HostState.ideServe_length ho
    obtain ⟨hu, hout⟩ := replies_of (i := .vendorDefinedRequest q) rfl (spdmVendor_answers hv ha hy hf hk ho) rfl
      (fits_of_le (by
        simp only [List.length_append, toLe_length, slice_length, List.length_cons, List.length_nil, hlen]
        decide) hl)
    exact ⟨_, hu, hout, rfl, rfl⟩
  · obtain ⟨m, heq⟩ := spdmChunkSend_gathers hv ha hc hle hn hlast
    obtain ⟨u, hu, hlen, hmem, hsent⟩ := servedAnswer (i := .chunkSend q) rfl heq rfl rfl
    obtain ⟨l, n, x, hspdm⟩ := hsent.spdm
    refine ⟨u, hu, hlen, hmem, ?_⟩
    rw [hspdm]
    rfl
  · obtain ⟨m, code, r, heq⟩ := spdmChunkSend_serves hv ha hc hall hn hlast
    have hs := (spdmServe_served s.withoutChunk r code).trans (SpdmOut.fit_served _ q.ver)
    obtain ⟨u, hu, hlen, hmem, hsent⟩ := servedAnswer (i := .chunkSend q) rfl heq hs.mem hs.out
    obtain ⟨l, n, x, hspdm⟩ := hsent.spdm
    refine ⟨u, hu, hlen, hmem, ?_⟩
    rw [hspdm]
    exact hs.chunk rfl
  · obtain ⟨u, hu, hlen, hmem, -, hchunk, hflag⟩ := errorAnswer (i := .chunkSend q) rfl (spdmChunkSend_unordered hv ha hc) rfl rfl
    exact ⟨u, hu, hlen, hmem, hchunk, hflag⟩
  · subst hh
    have hroom : 42 ≤ Nat.min s.sec.spdm.limit 4096 := Nat.le_min.2 ⟨hl, by decide⟩
    obtain ⟨hu, hout⟩ := replies_of (i := .chunkGet q) rfl (spdmChunkGet_first hv ha hlarge hn hm hl rfl) rfl (by
      simp only [List.length_append, toLe_length, List.length_cons, List.length_nil, List.length_take]
      change _ ≤ Nat.min s.sec.spdm.limit 4096
      omega)
    exact ⟨_, hu, hout, rfl, State.firstChunkTaken_large hlarge _ _⟩

end Sys2Proof.Trust
end
